-- ==== Sys2Proof/Word.lean ====
section
/-! DEFINITION. The word types of the Talom and their plainest arithmetic (R13: registers are 32 bits wide, a 64-bit
register is two consecutive words; R8: a web position is a signed 64-bit count; R9: a time stamp is an unsigned 64-bit
count). -/

namespace Sys2Proof

/-- One byte of a memory. -/
abbrev Byte := BitVec 8

/-- One 32-bit register or scalar register. -/
abbrev Word := BitVec 32

/-- A 64-bit register, a device address, a web position or a time stamp as software sees it. -/
abbrev DWord := BitVec 64

/-- One 32-byte vector register of a Stitch engine (R365). -/
abbrev VWord := BitVec 256

/-- The low word of a 64-bit register. -/
def DWord.lo (v : DWord) : Word := v.extractLsb' 0 32

/-- The high word of a 64-bit register. -/
def DWord.hi (v : DWord) : Word := v.extractLsb' 32 32

/-- A 64-bit value from its high and low words. -/
def dword (hi lo : Word) : DWord := hi ++ lo

/-- One bit of a natural number. -/
def Nat.bitAt (n i : Nat) : Bool := n / 2 ^ i % 2 == 1

end Sys2Proof
end

