-- ==== Sys2Proof/Syntax/Operand.lean ====
section
/-! DEFINITION. The operand types of the commands: what a command brings with it from outside the block. -/

namespace Sys2Proof

/-- The pressure signals of the shedding controller (R42). -/
inductive Pressure where
  | delivery | engine | band | skein | carriage
deriving DecidableEq, Repr

/-- What one encoder axis shows at a sampling instant: the two converter codes (analogue mode), the two comparator levels
(digital mode) and the level of the reference comparator (R73, R88). -/
structure EncSample where
  sin : BitVec 14
  cos : BitVec 14
  a   : Bool
  b   : Bool
  ref : Bool
deriving DecidableEq, Repr

/-- An image header in a camera's stream: line count, width in pixels, pixel format code and frame ID (R246, R250, R261). -/
structure ImageHeader where
  lines   : Nat
  width   : Nat
  format  : Nat
  frameId : Nat
deriving DecidableEq, Repr

/-- A piece of a stream packet's payload: an image header, pixels that may end a line, a chunk of chunk data (R305), or the
end-of-image marker. -/
inductive StreamPart where
  | header (h : ImageHeader)
  | pixels (px : List Nat) (endsLine : Bool)
  | chunk (id value : Nat)
  | trailer
deriving DecidableEq, Repr

/-- A stream packet as the receiver decodes it: its packet tag, whether its stream ID is the camera's image stream, its payload
length in bytes and its payload (R180, R245, R246). -/
structure StreamPacket where
  tag      : Nat
  imageId  : Bool
  bytes    : Nat
  parts    : List StreamPart
deriving DecidableEq, Repr

/-- What an I/O supply of a trigger bank is (R130): absent, the supply of LVDS, or the supply of 3.3 V. -/
inductive BankSupply where
  | absent | lvds | v33
deriving DecidableEq, Repr

/-- What the inline code and link ECC make of a Skein read (R477): clean, corrected on the link, corrected by the inline code,
uncorrectable, or an uncorrectable check block, which takes its whole segment. -/
inductive EccOutcome where
  | clean | linkCorrected | corrected | uncorrectable | checkUncorrectable
deriving DecidableEq, Repr

/-- What a configuration write sets in the function's capability and control state (R511, R520, R521, R525, R539, R540,
R547). -/
inductive CfgItem where
  | maxPayload (bytes : Nat)
  | maxReadRequest (bytes : Nat)
  | relaxedOrdering (on : Bool)
  | timeoutRange (code : Nat)
  | timeoutDisable (off : Bool)
  | tag10 (on : Bool)
  | busMaster (on : Bool)
  | intxDisable (on : Bool)
  | msixEnable (on : Bool)
  | functionMask (on : Bool)
  | atsEnable (on : Bool) (stu : Nat)
  | pmeEnable (on : Bool)
  | pmeClear
  | errorReporting (cor nonfatal fatal : Bool)
deriving DecidableEq, Repr

/-- Who waits for an address translation (R525): delivery ring r, or Hook channel ch. -/
inductive AtsUser where
  | ring (r : Fin 64)
  | hook (ch : Fin 16)
deriving DecidableEq, Repr

/-- What a completion for an outbound request carries (R523 to R525): data, a translation, an error status or poisoned data. -/
inductive Completion where
  | data (bytes : List Byte)
  | translation (base size target : Nat) (read write : Bool)
  | failed
  | poisoned
deriving DecidableEq, Repr

/-- What PARCEL_STAGE takes: the next parcel handed over, or the oldest camera event of a connection (R534, R535). -/
inductive StageSource where
  | offered
  | event (n : Fin 48)
deriving DecidableEq, Repr

/-- What a control acknowledgement says (R194, R198, R207): its status code, zero for success, whether it is a wait
acknowledgement, whether it fits the command, the value that discovery reads, the camera's maximum connection count and rate,
and read data. -/
structure ControlAck where
  crcOk   : Bool
  wait    : Bool
  fits    : Bool
  code    : Nat
  value   : Nat
  conns   : Nat
  rate    : Nat
  data    : List Byte
deriving DecidableEq, Repr

/-- The ports of a Stash bank in the order of their ranks, URGENT and TEST apart (R439): the tile writer, the transfer port, an
engine of the cluster, an engine of another cluster, a Hook channel, and the host, fabric, Steward and staging. -/
inductive BankPort where
  | tile
  | xfer
  | eng (i : Fin 16)
  | remote (e : Fin 256)
  | hook (ch : Fin 16)
  | sys (master : Nat)
deriving DecidableEq, Repr

/-- What a request does to its line: read, plain write, or a write through the bit-set or bit-clear alias (R438). -/
inductive BankOp where
  | read | plain | set | clear
deriving DecidableEq, Repr

/-- A request at a Stash bank (R439, R443): its port, what it does, its line, and for a write the bytes of the line that it
enables, by their place. -/
structure BankReq where
  port : BankPort
  op   : BankOp
  line : Nat
  data : List (Nat × Byte)
deriving DecidableEq, Repr

/-- The instructions of the test port (R609). -/
inductive JtagIr where
  | extest | idcode | sample | clamp | highz | access | bypass
deriving DecidableEq, Repr

/-- A reset cause of R615. -/
inductive ResetCause where
  | powerOn | porstPin | brownout | rstPin | sw | wdog
deriving DecidableEq, Repr

/-- What a HELLO carries (R566): Device Serial Number, ROOT_PRIO, SINK_PRIO, PREF_ADDR where valid, the present address, the last root
and sink epochs, the roles held, and the number of the partner's port. -/
structure FabHello where
  serial   : Nat
  rootPrio : Nat
  sinkPrio : Nat
  pref     : Option Nat
  addr     : Option Nat
  rootEp   : Nat
  sinkEp   : Nat
  root     : Bool
  sink     : Bool
  port     : Nat
deriving DecidableEq, Repr

/-- What a ROOT announcement carries (R566): the root's serial number and ROOT_PRIO, both epochs, the sink's address and the member
map. -/
structure FabRoot where
  serial   : Nat
  prio     : Nat
  rootEp   : Nat
  sinkEp   : Nat
  sinkAddr : Option Nat
  members  : Nat
deriving DecidableEq, Repr

/-- A claim to the root (R566). -/
structure FabClaim where
  serial : Nat
  prio   : Nat
  rootEp : Nat
deriving DecidableEq, Repr

/-- A route (R567, R587): primary port, hops, and the alternate port where there is one. -/
structure FabRoute where
  port : Nat
  hops : Nat
  alt  : Option Nat
deriving DecidableEq, Repr

/-- What an ASSIGN carries (R567): the device it is for, its address (none: the fabric is full), whether it lost its address to
another claimant, routes by address, and the ports that are tree edges. -/
structure FabAssign where
  serial   : Nat
  addr     : Option Nat
  conflict : Bool
  routes   : List (Nat × FabRoute)
  tree     : List Nat
deriving DecidableEq, Repr

/-- What a KEEPALIVE tells the root (R567, R569): the member's serial number, address, SINK_PRIO, whether it is SPARE, and
its ports that are UP as (port, partner's serial number, partner's port). -/
structure FabKeepalive where
  serial   : Nat
  addr     : Option Nat
  pref     : Option Nat
  sinkPrio : Nat
  spare    : Bool
  links    : List (Nat × Nat × Nat)
deriving DecidableEq, Repr

/-- A MARK (R580). -/
structure FabMark where
  abort  : Bool
  origin : Nat
  seq    : Nat
  job    : Nat
  epoch  : Nat
  axis   : Nat
  speed  : Int
  mark   : Int
  ts     : Nat
deriving DecidableEq, Repr

/-- What a fabric packet is (R559): the kinds with their contents. -/
inductive FabMsg where
  | read (da len : Nat)
  | write (da : Nat) (data : List Byte)
  | response (data : List Byte)
  | hello (h : FabHello)
  | root (r : FabRoot)
  | claim (c : FabClaim)
  | assign (a : FabAssign)
  | keepalive (k : FabKeepalive)
  | sync (t2 t3 : Int) (count : Nat)
  | mark (m : FabMark)
  | fence
deriving DecidableEq, Repr

/-- A fabric packet (R559): the header's fields beside its message. -/
structure FabPacket where
  dst    : Nat
  bcast  : Bool
  src    : Nat
  hops   : Nat
  sink   : Bool
  txid   : Nat
  rootEp : Nat
  sinkEp : Nat
  status : Nat
  msg    : FabMsg
deriving DecidableEq, Repr

/-- What Cast-on finds in the parts around it (R449, R455, R456, R591): whether the NVM can be used and read, the Skein channels that
trained, the density the devices report (0, 1, 2), banks that need more spares than they have and banks repaired (16 × cluster +
bank), engines whose scratch cannot be repaired and engines whose scratch was repaired, and whether the VDD_CORE regulator
answers. -/
structure CastonReport where
  nvm      : Bool
  trained  : BitVec 16
  density  : Fin 3
  badBanks : List Nat
  fixBanks : List Nat
  scrOff   : List Nat
  scrFix   : List Nat
  pmbus    : Bool
deriving DecidableEq, Repr

end Sys2Proof
end

