-- ==== Sys2Proof/Syntax.lean ====
section
/-! DEFINITION. The commands the Talom takes: one constructor per row of spec/opcode_table.json, in the table's order. A
command is a register access, an operation of the bus, an engine instruction, or an event at a pin, a link or a timer; its
operands carry what the outside world brings with it. -/

namespace Sys2Proof

inductive Instr where
  /-- REG_WRITE (R15): A write to a register that has no row of its own takes effect field by field as the access types state, with locked RWL fields kept and counted under R19. -/
  | regWrite (m off : Nat) (v : Word)
  /-- REG64_LOW_WORD_READ (R13): A read of the low word of a 64-bit register latches the high word for the following read. -/
  | reg64LowWordRead (off : Nat)
  /-- REG64_LOW_WORD_WRITE (R13): A write of the low word of a 64-bit register is held until its high word is written, and both halves then take effect together. -/
  | reg64LowWordWrite (off : Nat) (v : Word)
  /-- RC_FIELD_READ (R17): A read of an RC field returns its value and clears it, keeping events of the same cycle. -/
  | rcFieldRead (off : Nat)
  /-- SHED_RAISE (R43): A pressure signal engages and the shedding controller raises the shedding level by one step. -/
  | shedRaise (p : Pressure)
  /-- SHED_RAISE_INTERVAL_EXPIRY (R43): After each 50 µs in which a pressure signal stays overloaded, the shedding level rises by one further step, up to 4. -/
  | shedRaiseIntervalExpiry
  /-- SHED_LOWER_EXPIRY (R44): After each 10 ms in which all pressure signals are clear, the shedding level falls by one step. -/
  | shedLowerExpiry
  /-- ENGINE_BACKLOG_DEADLINE (R42): The oldest undispatched work item has waited longer than the inspection deadline, and the engine-backlog signal engages. -/
  | engineBacklogDeadline
  /-- SKEIN_PRESSURE_WINDOW (R42): The Skein pressure signal is judged from refusals of non-history traffic over 100 µs windows and releases after 1 ms without refusal. -/
  | skeinPressureWindow
  /-- SERVICE_MODE_REQUEST (R62): A keyed write of GLB_SERVICE.REQ requests a mode change, which the Talom makes or refuses with REFUSED. -/
  | serviceModeRequest (v : Word)
  /-- BINDOFF_START (R63): A keyed write of GLB_SERVICE.BINDOFF starts a device Bind-off that stops dispatch and holds delivery. -/
  | bindoffStart
  /-- BINDOFF_COMPLETE (R63): Once dispatched items and Hook transfers have completed, BINDOFF_DONE rises and the BINDOFF cause is set. -/
  | bindoffComplete
  /-- GLB_INT_WRITE (R72): A software write to GLB_INT_STATUS or GLB_INT_EN updates the register and resends MSI-X vector 0 if causes remain enabled and set. -/
  | glbIntWrite (en : Bool) (v : Word)
  /-- GAUGE_SAMPLE (R80): An enabled axis takes a sample, corrects and unwraps it, updates count, wp and speed, and judges marks, errors, direction and standstill. -/
  | gaugeSample (a : Fin 4) (smp : EncSample)
  /-- AMP_LOW_DETECT (R93): The 64th consecutive sample below AMP_MIN sets AMP_LOW and POS_UNCERTAIN once per run of low samples. -/
  | ampLowDetect (a : Fin 4)
  /-- CORR_ESTIMATE (R79): After each 256 complete periods with AUTOCORR set, the corrections move one eighth toward the estimate, or CORR_LIMIT is set. -/
  | corrEstimate (a : Fin 4)
  /-- CORR_LOAD (R79): A write of GAUGE_AXIS_CTL.CORR_LOAD loads the written correction registers into use. -/
  | corrLoad (a : Fin 4)
  /-- SCALE_APPLY (R86): A write of GAUGE_AXIS_CTL.SCALE_APPLY requests the shadow scale for the next sample. -/
  | scaleApply (a : Fin 4)
  /-- GAUGE_AXIS_ZERO (R90): A write of GAUGE_AXIS_CTL.ZERO requests a re-zero to GAUGE_ZERO_VALUE at the next sample in RUN. -/
  | gaugeAxisZero (a : Fin 4)
  /-- GAUGE_ZERO (R90): An activation of the Chain task input GAUGE_ZERO(a) requests a re-zero of the axis. -/
  | gaugeZero (a : Fin 4)
  /-- SNAP_TAKE (R102): A write of GAUGE_SNAP.TAKE requests a snapshot at the next sample. -/
  | snapTake
  /-- GAUGE_SNAP (R102): An activation of the Chain task input GAUGE_SNAP requests a snapshot at the next sample. -/
  | gaugeSnap
  /-- GAUGE_WP_LOW_READ (R102): A read of the low word of GAUGE_WP latches its high word and GAUGE_WP_TS from the same sample. -/
  | gaugeWpLowRead (a : Fin 4)
  /-- REF_CFG_WRITE (R114): A write to GAUGE_REF_CFG re-arms ONCE and clears REF_DONE. -/
  | refCfgWrite (a : Fin 4) (v : Word)
  /-- POSITION_RECORD (R81): Every 1 µs each enabled axis sends a position record into the core. -/
  | positionRecord (a : Fin 4)
  /-- AXIS_ENABLE (R105): A rise of GAUGE_AXIS_CFG.EN samples MODE and DIR and takes the axis to SETTLE. -/
  | axisEnable (a : Fin 4) (v : Word)
  /-- AXIS_DISABLE (R105): A fall of GAUGE_AXIS_CFG.EN takes the axis to OFF from any state. -/
  | axisDisable (a : Fin 4) (v : Word)
  /-- SETTLE_END (R87): SETTLE ends after 20 µs or 1 µs, and the axis enters RUN with its wp zeroed under R87 or restored under R103. -/
  | settleEnd (a : Fin 4) (smp : EncSample)
  /-- WATCH_COUNT_EDGE (R103): A track crossing in the watch state moves the clockless watch counter and publishes GAUGE_WATCH when the threshold is reached. -/
  | watchCountEdge (a : Fin 4) (forward illegal : Bool)
  /-- CONV_CHECK_STEP (R104): Each 1 ms step of the converter check ends, compares a converter and sets CONV_DEV on a deviation. -/
  | convCheckStep (devLow devHigh : Int)
  /-- CONV_CHECK_CFG_WRITE (R104): A write of GAUGE_CHECK_CFG.EN starts the check at step 1 or stops it. -/
  | convCheckCfgWrite (v : Word)
  /-- CMP_CYCLE (R120): At each 1 GHz compare cycle an ARMED unit predicts p(t), fires or skips targets and raises its high-water mark. -/
  | cmpCycle (u : Fin 16)
  /-- TRIG_CMP_CTL_ARM (R119): A write of TRIG_CMP_CTL.ARM arms the unit with set SET. -/
  | trigCmpCtlArm (u : Fin 16) (set : Fin 2)
  /-- TRIG_CMP_CTL_STOP (R119): A write of TRIG_CMP_CTL.STOP takes the unit to IDLE. -/
  | trigCmpCtlStop (u : Fin 16)
  /-- TRIG_CMP_ARM (R119): An activation of the Chain task input TRIG_CMP_ARM(u) arms the unit keeping its active set. -/
  | trigCmpArm (u : Fin 16)
  /-- TRIG_CMP_STOP (R119): An activation of the Chain task input TRIG_CMP_STOP(u) takes the unit to IDLE. -/
  | trigCmpStop (u : Fin 16)
  /-- TRIG_LIST_WRITE (R118): A write through the list window sets a target entry of the selected unit and set. -/
  | trigListWrite (idx : Fin 4096) (hiWord : Bool) (v : Word)
  /-- TRIG_OUT (R131): An activation of output p drives, toggles or ignores the pin and writes a ledger entry when the pin goes active. -/
  | trigOut (p : Fin 32)
  /-- TRIG_OUT_PULSE_END (R131): WIDTH ns after a PULSE activation the compare clock returns the pin to inactive. -/
  | trigOutPulseEnd (p : Fin 32)
  /-- TRIG_OUT_MODE_WRITE (R131): A write that changes TRIG_OUT_CFG.MODE ends any pulse, clears the toggle state and sets the new mode's level. -/
  | trigOutModeWrite (p : Fin 32) (v : Word)
  /-- BANK_SUPPLY_CHANGE (R130): A trigger bank supply stops or starts fitting STD, which sets MISMATCH and tristates or resumes the bank. -/
  | bankSupplyChange (b : Fin 6) (sup : BankSupply)
  /-- TRIG_IN_EDGE (R133): A level change at a trigger input starts its glitch filter, and a shorter pulse counts GLITCH_CNT. -/
  | trigInEdge (k : Fin 16) (level : Bool)
  /-- TRIG_IN_ACCEPT (R133): An edge that has held FILTER ns is accepted, its wp and ts captured, EDGE_CNT counted and TRIG_IN published. -/
  | trigInAccept (k : Fin 16)
  /-- TRIG_PKT (R134): An activation of TRIG_PKT(n) schedules a rising-edge trigger packet on the uplink of connection n. -/
  | trigPkt (n : Fin 48)
  /-- TRIG_PKT_START (R135): A trigger packet starts at a character boundary with its delay field computed, or is sent late or dropped. -/
  | trigPktStart (n : Fin 48) (ref : Int)
  /-- TRIG_PKT_FALL (R134): WIDTH ns after a rising-edge packet the falling-edge packet falls due. -/
  | trigPktFall (n : Fin 48) (ref : Int)
  /-- CHAIN_FIRE (R164): A write to CHAIN_FIRE publishes a software event on the channel named. -/
  | chainFire (master : Nat) (ch : Fin 64)
  /-- CHAIN_FIRE_MULTI (R164): A write of the high word of CHAIN_FIRE_MULTI fires every permitted channel whose bit is set, in ascending order. -/
  | chainFireMulti (master : Nat) (hi : Word)
  /-- CHAIN_HELD_PUBLISH (R157): At the end of a channel's spacing S its held event is published. -/
  | chainHeldPublish (ch : Fin 64)
  /-- CHAIN_IRQ_WRITE (R165): A write to CHAIN_IRQ_STATUS or CHAIN_IRQ_EN updates it and resends vector 81 + ch for every bit still set in both. -/
  | chainIrqWrite (en hiWord : Bool) (v : Word)
  /-- CHAIN_CONFIG_WRITE (R166): A write to channel, source or task-input configuration is checked against mode, lock and channel ownership. -/
  | chainConfigWrite (master off : Nat) (v : Word)
  /-- CHAIN_CTR_INC (R169): An activation of CHAIN_CTR_INC(k) adds the events to the counter's count. -/
  | chainCtrInc (k : Fin 16)
  /-- CHAIN_CTR_CLR (R169): An activation of CHAIN_CTR_CLR(k) sets the count to 0 and re-enables publication. -/
  | chainCtrClr (k : Fin 16)
  /-- CHAIN_CTR_VAL_WRITE (R169): A software write of CHAIN_CTR_VAL(k) sets the count and clears the held publication. -/
  | chainCtrValWrite (k : Fin 16) (v : Word)
  /-- CHAIN_CTR_WINDOW_END (R169): 1 ns after an activation the counter judges THRESH and publishes CHAIN_CTR(k), reloading when RELOAD is set. -/
  | chainCtrWindowEnd (k : Fin 16)
  /-- CLL_ENABLE (R195): A rise of CLL_CFG.EN takes the connection from OFF to ABSENT. -/
  | cllEnable (n : Fin 48) (v : Word)
  /-- CLL_DISABLE (R195): A fall of CLL_CFG.EN takes the connection to OFF from any state. -/
  | cllDisable (n : Fin 48) (v : Word)
  /-- DISCOVERY_TICK (R197): At each ts multiple of 250 ms every ABSENT connection with LOS clear enters DISCOVER. -/
  | discoveryTick
  /-- RATE_DETECT_DONE (R182): Rate detection selects the supported downlink rate, or treats an unmatched rate as loss of lock after 20 µs. -/
  | rateDetectDone (n : Fin 48) (rate : Option (Fin 7))
  /-- ALIGN_ACQUIRE (R183): Three consecutive commas at one bit position set ALIGNED, and a group whose last connection aligns enters UP. -/
  | alignAcquire (n : Fin 48)
  /-- COMMA_REALIGN (R183): Four consecutive commas at another position realign the receiver, count ALIGN_LOSS_CNT and start a loss. -/
  | commaRealign (n : Fin 48)
  /-- LOS_ASSERT (R184): Amplitude below 50 mVpp for 200 ns sets LOS and, in UP, STANDBY or PARK, counts LOS_CNT. -/
  | losAssert (n : Fin 48)
  /-- LOS_DEASSERT (R184): Amplitude above 80 mVpp for 10 µs clears LOS. -/
  | losDeassert (n : Fin 48)
  /-- LOSS_OF_LOCK (R185): Frequency error or excess code errors declare LOL, count LOL_CNT and relock at once. -/
  | lossOfLock (n : Fin 48)
  /-- LOSS_TIMEOUT (R186): A loss that lasts 1 ms takes the connection to ABSENT or DISCOVER and its group to DISCOVER. -/
  | lossTimeout (n : Fin 48)
  /-- RX_CODE_ERROR (R187): A code violation or disparity error is counted and sets CLL_ERR.CODE. -/
  | rxCodeError (n : Fin 48) (disparity : Bool)
  /-- CTRL_COMMAND_START (R192): The next control command by uplink priority starts once the previous one has ended. -/
  | ctrlCommandStart (n : Fin 48)
  /-- CTRL_ACK_RECEIVE (R194): A control acknowledgement ends or extends the outstanding command and advances discovery, training, the mailbox or a parameter set. -/
  | ctrlAckReceive (n : Fin 48) (ack : ControlAck)
  /-- CTRL_TIMEOUT (R194): A command without final acknowledgement after 200 ms or 10 s times out and counts CTRL_TMO_CNT. -/
  | ctrlTimeout (n : Fin 48)
  /-- GROUP_JOIN_WAIT_END (R199): 1 ms after the master's writes the group count and rate are set and Connection Config is written. -/
  | groupJoinWaitEnd (n : Fin 48)
  /-- DISCOVER_TIMEOUT (R200): A connection not joined 1 s after entering DISCOVER returns to ABSENT and counts DISC_FAIL_CNT. -/
  | discoverTimeout (n : Fin 48)
  /-- TRAIN_TIMEOUT (R201): A group not aligned 100 ms after Connection Config fails and returns to ABSENT. -/
  | trainTimeout (n : Fin 48)
  /-- STANDBY (R204): A write of CLL_CTL.STANDBY at a group's master puts the group in STANDBY. -/
  | standby (n : Fin 48)
  /-- PARK (R205): A write of CLL_CTL.PARK at a group's master puts the group in PARK. -/
  | park (n : Fin 48)
  /-- WAKE (R205): A write of CLL_CTL.WAKE at a group's master brings the group from STANDBY or PARK toward UP. -/
  | wake (n : Fin 48)
  /-- RETRAIN (R225): A write of CLL_CTL.RETRAIN at a group's master sends the group to DISCOVER at once. -/
  | retrain (n : Fin 48)
  /-- PWR_RESET (R211): A write of CLL_CTL.PWR_RESET clears FAULT and RETRIES and re-applies CLL_PWR.EN. -/
  | pwrReset (n : Fin 48)
  /-- MAILBOX_GO (R207): A write of CLL_CTRL_CMD with GO queues a host control command on the master connection, or refuses it. -/
  | mailboxGo (n : Fin 48) (v : Word)
  /-- HEARTBEAT_RECEIVE (R208): A heartbeat packet with good CRC records the camera time and arrival ts. -/
  | heartbeatReceive (n : Fin 48) (crcOk : Bool) (time : DWord)
  /-- HB_LOST (R208): No heartbeat for HB_TMO ms sets CLL_ERR.HB_LOST. -/
  | hbLost (n : Fin 48)
  /-- EVENT_PACKET_RECEIVE (R209): An event packet with good CRC is stamped and staged, counted and CLL_EVENT published, or discarded on overflow. -/
  | eventPacketReceive (n : Fin 48) (crcOk : Bool) (data : List Byte)
  /-- POCXP_FAULT_PIN (R210): CXP_PWR_FLT_N low for 1 µs while power is enabled drives CXP_PWR_EN low and sets FAULT. -/
  | pocxpFaultPin (n : Fin 48)
  /-- POCXP_RETRY (R211): 1 s after a fault with AUTO_RETRY and retries left, CXP_PWR_EN is driven high again. -/
  | pocxpRetry (n : Fin 48)
  /-- POCXP_RETRY_RESET (R211): After 10 s without a fault RETRIES returns to 0. -/
  | pocxpRetryReset (n : Fin 48)
  /-- POCXP_EN_WRITE (R211): A write of CLL_PWR.EN sets CXP_PWR_EN unless a fault holds it, and a 0-then-1 sequence releases a held fault. -/
  | pocxpEnWrite (n : Fin 48) (v : Word)
  /-- PANEL_FRAME (R213): Every 10 µs a panel frame loads buttons, shifts indicator bits and debounces buttons. -/
  | panelFrame (buttons : BitVec 48)
  /-- PLY_PACKET_COMMIT (R233): The last word of a packet with good CRC advances the commit pointer and the packet becomes visible. -/
  | plyPacketCommit (q : Fin 48) (k : StreamPacket) (crcOk cut : Bool) (span : Nat)
  /-- PTR_FAULT (R237): Duplicated pointer copies that disagree or jump reset the queue and set ASM_ERR.PTR. -/
  | ptrFault (q : Fin 48) (room : Bool)
  /-- QUEUE_RESET_END (R237): A queue reset completes and the queue accepts packets again. -/
  | queueResetEnd (q : Fin 48)
  /-- QRESET (R237): A write of ASM_CTL.QRESET resets the queue without setting PTR. -/
  | qreset (q : Fin 48) (room : Bool)
  /-- CLOSE (R254): A write of ASM_CTL.CLOSE closes the open frame before the next line. -/
  | close (cam : Fin 48)
  /-- FLUSH (R257): A write of ASM_CTL.FLUSH discards every unconsumed ledger entry of the camera. -/
  | flush (cam : Fin 48)
  /-- ASM_CLOSE (R254): An activation of ASM_CLOSE(cam) closes the open frame before the next line. -/
  | asmClose (cam : Fin 48)
  /-- ASM_CAM_ENABLE (R244): A rise of ASM_CAM_CFG.EN samples CONN and MODE, restarts tag order and checks the frame settings. -/
  | asmCamEnable (cam : Fin 48) (v : Word)
  /-- ASM_CAM_DISABLE (R244): A fall of ASM_CAM_CFG.EN closes the open frame at once. -/
  | asmCamDisable (cam : Fin 48) (v : Word) (room : Bool)
  /-- ASM_PACKET_VISIBLE (R245): A committed stream packet becomes visible to the assembler and is merged in tag order into lines and frames. -/
  | asmPacketVisible (q : Fin 48) (room : Bool)
  /-- MERGE_SKEW_EXPIRE (R245): A packet tag still missing MERGE_SKEW after a later tag is declared lost and assembly continues. -/
  | mergeSkewExpire (cam : Fin 48) (room : Bool)
  /-- CAR_LINE_IN (R272): A line of the bound camera reaches its Carriage input queue, or abandons the frame on overflow. -/
  | carLineIn (k : Fin 4) (drained : Nat)
  /-- CAR_MEM_FRAME_START (R273): A Carriage starts the oldest tagged memory-mode frame in cycles the bound camera leaves free. -/
  | carMemFrameStart (k : Fin 4)
  /-- CAR_FRAME_END (R306): The last line of every output of a frame is handed on and CAR_FRAME is published. -/
  | carFrameEnd (k : Fin 4)
  /-- CAR_STATS_DONE (R306): The statistics record of a frame is complete, handed on and CAR_STATS is published. -/
  | carStatsDone (k : Fin 4)
  /-- CPB_PRELOAD_DONE (R286): A newly recorded CPB preload completes into the Carriage's shadow copy. -/
  | cpbPreloadDone (k : Fin 4)
  /-- CAR_RESET (R309): A write of CAR_CTL.RESET abandons the Carriage's frame and empties its queue and CPB copies. -/
  | carReset (k : Fin 4) (v : Word)
  /-- CAR_SET_GO (R298): A write of CAR_SET_CTL.GO submits a parameter set to the sensor-delay model, or refuses it. -/
  | carSetGo (cam : Fin 48) (v : Word)
  /-- SET_ISSUE_START (R301): The model starts writing a set at the chosen trigger window, late if needed. -/
  | setIssueStart (cam : Fin 48) (late : Bool)
  /-- TILE_WRITE_LINE (R326): The tile writer writes a line into band buffers and completes tiles. -/
  | tileWriteLine (cam : Fin 48)
  /-- DISPATCH_QUEUE_PUSH (R330): A waiting item in a cluster's dispatch queue is pushed when deque space and the order window allow. -/
  | dispatchQueuePush (c : Fin 16)
  /-- SELVEDGE_REWIND (R327): When the next band buffer frees, the tile writer rewinds to its mark, writes the shared rows and releases the mark. -/
  | selvedgeRewind (cam : Fin 48)
  /-- DEFERRED_BAND_LOAD (R333): The deferred loader builds deferred items from the history ring into free band buffers. -/
  | deferredBandLoad
  /-- ENGINE_TAKE (R332): An engine takes the head item of its deque, copies it into scratch and starts the kernel. -/
  | engineTake (e : Fin 256)
  /-- STEAL_SEARCH (R334): An engine with an empty deque searches its cluster and then the mesh for an item to steal. -/
  | stealSearch (c : Fin 16)
  /-- STEAL_PROBE_ANSWER (R335): A probed cluster's answer reaches the thief with an item or a refusal. -/
  | stealProbeAnswer (c : Fin 16)
  /-- STEAL_RETRY (R336): 256 cluster cycles after a fruitless search the engine searches again. -/
  | stealRetry (e : Fin 256)
  /-- WATCHDOG_EXPIRE (R339): An item's run time reaches LIMIT and the engine is fenced. -/
  | watchdogExpire (e : Fin 256)
  /-- STE_FENCE (R339): A write of STE_CTL.FENCE fences engine ENGINE. -/
  | steFence (c j : Fin 16)
  /-- STE_RESET (R352): A write of STE_CTL.RESET fences every engine of the cluster and clears FAULT. -/
  | steReset (c : Fin 16) (v : Word)
  /-- ENGINE_RESET_DONE (R340): A fenced engine's reset completes and it enters IDLE with its new epoch. -/
  | engineResetDone (e : Fin 256)
  /-- ENGINE_RESET_TIMEOUT (R342): An engine whose reset has not completed 1 µs after its fence enters FAULT. -/
  | engineResetTimeout (e : Fin 256)
  /-- ENGINE_DISABLE (R321): Clearing STE_CFG.EN or an ENG_EN bit stops the engines, fencing any that hold an item. -/
  | engineDisable (c : Fin 16) (v : Word)
  /-- RESULT_ARRIVE (R341): A result reaches the order stage and is held, or discarded as late. -/
  | resultArrive (e : Fin 256)
  /-- NOP (R369): Scalar no-operation. -/
  | nop (e : Fin 256)
  /-- ADD (R369): Scalar add of two registers. -/
  | add (e : Fin 256) (rd ra rb : BitVec 4)
  /-- SUB (R369): Scalar subtract of two registers. -/
  | sub (e : Fin 256) (rd ra rb : BitVec 4)
  /-- AND (R369): Scalar bitwise and. -/
  | and (e : Fin 256) (rd ra rb : BitVec 4)
  /-- OR (R369): Scalar bitwise or. -/
  | or (e : Fin 256) (rd ra rb : BitVec 4)
  /-- XOR (R369): Scalar bitwise exclusive or. -/
  | xor (e : Fin 256) (rd ra rb : BitVec 4)
  /-- SHL (R369): Scalar shift left by register. -/
  | shl (e : Fin 256) (rd ra rb : BitVec 4)
  /-- SHR (R369): Scalar logical shift right by register. -/
  | shr (e : Fin 256) (rd ra rb : BitVec 4)
  /-- SAR (R369): Scalar arithmetic shift right by register. -/
  | sar (e : Fin 256) (rd ra rb : BitVec 4)
  /-- MUL (R369): Low 32 bits of a scalar product. -/
  | mul (e : Fin 256) (rd ra rb : BitVec 4)
  /-- MULH (R369): High 32 bits of a signed scalar product. -/
  | mulh (e : Fin 256) (rd ra rb : BitVec 4)
  /-- SLT (R369): Signed set-less-than. -/
  | slt (e : Fin 256) (rd ra rb : BitVec 4)
  /-- SLTU (R369): Unsigned set-less-than. -/
  | sltu (e : Fin 256) (rd ra rb : BitVec 4)
  /-- MIN (R369): Signed scalar minimum. -/
  | min (e : Fin 256) (rd ra rb : BitVec 4)
  /-- MAX (R369): Signed scalar maximum. -/
  | max (e : Fin 256) (rd ra rb : BitVec 4)
  /-- ADD64 (R369): 64-bit add of register pairs. -/
  | add64 (e : Fin 256) (rd ra rb : BitVec 4)
  /-- SUB64 (R369): 64-bit subtract of register pairs. -/
  | sub64 (e : Fin 256) (rd ra rb : BitVec 4)
  /-- ADDI (R369): Scalar add of a sign-extended immediate. -/
  | addi (e : Fin 256) (rd ra : BitVec 4) (imm : BitVec 18)
  /-- ANDI (R369): Scalar and with an immediate. -/
  | andi (e : Fin 256) (rd ra : BitVec 4) (imm : BitVec 18)
  /-- ORI (R369): Scalar or with an immediate. -/
  | ori (e : Fin 256) (rd ra : BitVec 4) (imm : BitVec 18)
  /-- XORI (R369): Scalar exclusive or with an immediate. -/
  | xori (e : Fin 256) (rd ra : BitVec 4) (imm : BitVec 18)
  /-- SHLI (R369): Scalar shift left by an immediate. -/
  | shli (e : Fin 256) (rd ra : BitVec 4) (imm : BitVec 5)
  /-- SHRI (R369): Scalar logical shift right by an immediate. -/
  | shri (e : Fin 256) (rd ra : BitVec 4) (imm : BitVec 5)
  /-- SARI (R369): Scalar arithmetic shift right by an immediate. -/
  | sari (e : Fin 256) (rd ra : BitVec 4) (imm : BitVec 5)
  /-- SLTI (R369): Signed set-less-than an immediate. -/
  | slti (e : Fin 256) (rd ra : BitVec 4) (imm : BitVec 18)
  /-- LUI (R369): Load an upper immediate into a scalar register. -/
  | lui (e : Fin 256) (rd : BitVec 4) (imm : BitVec 22)
  /-- LDW (R369): Load a word from the engine address space. -/
  | ldw (e : Fin 256) (rd ra : BitVec 4) (imm : BitVec 18)
  /-- LDH (R369): Load a zero-extended half word. -/
  | ldh (e : Fin 256) (rd ra : BitVec 4) (imm : BitVec 18)
  /-- LDB (R369): Load a zero-extended byte. -/
  | ldb (e : Fin 256) (rd ra : BitVec 4) (imm : BitVec 18)
  /-- STW (R369): Store a word. -/
  | stw (e : Fin 256) (rd ra : BitVec 4) (imm : BitVec 18)
  /-- STH (R369): Store a half word. -/
  | sth (e : Fin 256) (rd ra : BitVec 4) (imm : BitVec 18)
  /-- STB (R369): Store a byte. -/
  | stb (e : Fin 256) (rd ra : BitVec 4) (imm : BitVec 18)
  /-- BEQ (R369): Branch if equal. -/
  | beq (e : Fin 256) (ra rb : BitVec 4) (off : BitVec 18)
  /-- BNE (R369): Branch if not equal. -/
  | bne (e : Fin 256) (ra rb : BitVec 4) (off : BitVec 18)
  /-- BLT (R369): Branch if signed less than. -/
  | blt (e : Fin 256) (ra rb : BitVec 4) (off : BitVec 18)
  /-- BGE (R369): Branch if signed greater or equal. -/
  | bge (e : Fin 256) (ra rb : BitVec 4) (off : BitVec 18)
  /-- BLTU (R369): Branch if unsigned less than. -/
  | bltu (e : Fin 256) (ra rb : BitVec 4) (off : BitVec 18)
  /-- BGEU (R369): Branch if unsigned greater or equal. -/
  | bgeu (e : Fin 256) (ra rb : BitVec 4) (off : BitVec 18)
  /-- JAL (R369): Jump and link. -/
  | jal (e : Fin 256) (rd : BitVec 4) (imm : BitVec 18)
  /-- JR (R369): Jump to a register target. -/
  | jr (e : Fin 256) (ra : BitVec 4)
  /-- BPANY (R369): Branch if any bit of a predicate is set. -/
  | bpany (e : Fin 256) (pa : BitVec 3) (off : BitVec 18)
  /-- BPNONE (R369): Branch if no bit of a predicate is set. -/
  | bpnone (e : Fin 256) (pa : BitVec 3) (off : BitVec 18)
  /-- XLD (R371): Start a transfer from a device address into engine memory on a tag. -/
  | xld (e : Fin 256) (rd ra rb : BitVec 4) (tag : BitVec 6)
  /-- XST (R371): Start a transfer from engine memory to a device address on a tag. -/
  | xst (e : Fin 256) (rd ra rb : BitVec 4) (tag : BitVec 6)
  /-- XWAIT (R369): Stall until a transfer tag, or all tags, complete. -/
  | xwait (e : Fin 256) (code : BitVec 6)
  /-- XFER_COMPLETE (R372): A scratch to DA transfer completes, freeing its tag and releasing any XWAIT on it. -/
  | xferComplete (e : Fin 256) (tag : Fin 4)
  /-- EMIT (R378): Emit a snag draft as a record with a crop allocation, or refuse it beyond max_snags. -/
  | emit (e : Fin 256) (rd ra : BitVec 4)
  /-- END (R380): End the item, release its Ply marks and let the order stage release its results. -/
  | endItem (e : Fin 256)
  /-- QMARK (R381): Place a mark in a Ply queue of the item's camera group. -/
  | qmark (e : Fin 256) (rd ra rb : BitVec 4)
  /-- QREW (R381): Open the read cursor at a held mark. -/
  | qrew (e : Fin 256) (rd ra : BitVec 4)
  /-- QCPY (R381): Copy queue entries from the read cursor into engine memory. -/
  | qcpy (e : Fin 256) (rd ra rb : BitVec 4)
  /-- QREL (R381): Release a held mark. -/
  | qrel (e : Fin 256) (rd ra : BitVec 4)
  /-- PUB (R383): Publish STE_USER of the engine's cluster. -/
  | pub (e : Fin 256)
  /-- EVWAIT (R384): Stall until the cluster event count differs from a register. -/
  | evwait (e : Fin 256) (ra : BitVec 4)
  /-- RDSR (R369): Read a special value selected by its code into a scalar register. -/
  | rdsr (e : Fin 256) (rd : BitVec 4) (code : BitVec 6)
  /-- MSYNC (R369): Stall until every earlier store and XST has completed. -/
  | msync (e : Fin 256)
  /-- VNOP (R370): Vector no-operation. -/
  | vnop (e : Fin 256)
  /-- VADD (R370): Wrapping lane sum. -/
  | vadd (e : Fin 256) (vd va vb : BitVec 5) (pm : BitVec 3) (w : Bool)
  /-- VSUB (R370): Wrapping lane difference. -/
  | vsub (e : Fin 256) (vd va vb : BitVec 5) (pm : BitVec 3) (w : Bool)
  /-- VADDS (R370): Unsigned saturating lane sum. -/
  | vadds (e : Fin 256) (vd va vb : BitVec 5) (pm : BitVec 3) (w : Bool)
  /-- VSUBS (R370): Unsigned saturating lane difference. -/
  | vsubs (e : Fin 256) (vd va vb : BitVec 5) (pm : BitVec 3) (w : Bool)
  /-- VABSD (R370): Unsigned absolute lane difference. -/
  | vabsd (e : Fin 256) (vd va vb : BitVec 5) (pm : BitVec 3) (w : Bool)
  /-- VMIN (R370): Unsigned lane minimum. -/
  | vmin (e : Fin 256) (vd va vb : BitVec 5) (pm : BitVec 3) (w : Bool)
  /-- VMAX (R370): Unsigned lane maximum. -/
  | vmax (e : Fin 256) (vd va vb : BitVec 5) (pm : BitVec 3) (w : Bool)
  /-- VAND (R370): Vector bitwise and. -/
  | vand (e : Fin 256) (vd va vb : BitVec 5) (pm : BitVec 3) (w : Bool)
  /-- VOR (R370): Vector bitwise or. -/
  | vor (e : Fin 256) (vd va vb : BitVec 5) (pm : BitVec 3) (w : Bool)
  /-- VXOR (R370): Vector bitwise exclusive or. -/
  | vxor (e : Fin 256) (vd va vb : BitVec 5) (pm : BitVec 3) (w : Bool)
  /-- VMUL (R370): Low half of lane products. -/
  | vmul (e : Fin 256) (vd va vb : BitVec 5) (pm : BitVec 3) (w : Bool)
  /-- VMULH (R370): High half of unsigned lane products. -/
  | vmulh (e : Fin 256) (vd va vb : BitVec 5) (pm : BitVec 3) (w : Bool)
  /-- VAVG (R370): Rounded unsigned lane average. -/
  | vavg (e : Fin 256) (vd va vb : BitVec 5) (pm : BitVec 3) (w : Bool)
  /-- VSHL (R370): Per-lane shift left. -/
  | vshl (e : Fin 256) (vd va vb : BitVec 5) (pm : BitVec 3) (w : Bool)
  /-- VSHR (R370): Per-lane logical shift right. -/
  | vshr (e : Fin 256) (vd va vb : BitVec 5) (pm : BitVec 3) (w : Bool)
  /-- VSAR (R370): Per-lane arithmetic shift right. -/
  | vsar (e : Fin 256) (vd va vb : BitVec 5) (pm : BitVec 3) (w : Bool)
  /-- VCMPEQ (R370): Lane compare equal into a predicate. -/
  | vcmpeq (e : Fin 256) (pd : BitVec 3) (va vb : BitVec 5) (pm : BitVec 3) (w : Bool)
  /-- VCMPLT (R370): Signed lane compare less than into a predicate. -/
  | vcmplt (e : Fin 256) (pd : BitVec 3) (va vb : BitVec 5) (pm : BitVec 3) (w : Bool)
  /-- VCMPLTU (R370): Unsigned lane compare less than into a predicate. -/
  | vcmpltu (e : Fin 256) (pd : BitVec 3) (va vb : BitVec 5) (pm : BitVec 3) (w : Bool)
  /-- VCMPGE (R370): Signed lane compare greater or equal into a predicate. -/
  | vcmpge (e : Fin 256) (pd : BitVec 3) (va vb : BitVec 5) (pm : BitVec 3) (w : Bool)
  /-- VCMPGEU (R370): Unsigned lane compare greater or equal into a predicate. -/
  | vcmpgeu (e : Fin 256) (pd : BitVec 3) (va vb : BitVec 5) (pm : BitVec 3) (w : Bool)
  /-- PAND (R370): Predicate and. -/
  | pand (e : Fin 256) (pd pa pb pm : BitVec 3) (w : Bool)
  /-- POR (R370): Predicate or. -/
  | por (e : Fin 256) (pd pa pb pm : BitVec 3) (w : Bool)
  /-- PXOR (R370): Predicate exclusive or. -/
  | pxor (e : Fin 256) (pd pa pb pm : BitVec 3) (w : Bool)
  /-- PANDN (R370): Predicate and-not. -/
  | pandn (e : Fin 256) (pd pa pb pm : BitVec 3) (w : Bool)
  /-- PSET (R370): Set a predicate to all ones. -/
  | pset (e : Fin 256) (pd pm : BitVec 3) (w : Bool)
  /-- PCLR (R370): Set a predicate to all zeros. -/
  | pclr (e : Fin 256) (pd pm : BitVec 3) (w : Bool)
  /-- VADDI (R370): Lane add of an immediate. -/
  | vaddi (e : Fin 256) (vd va : BitVec 5) (pm : BitVec 3) (w : Bool) (imm : BitVec 12)
  /-- VSHLI (R370): Lane shift left by an immediate. -/
  | vshli (e : Fin 256) (vd va : BitVec 5) (pm : BitVec 3) (w : Bool) (imm : BitVec 4)
  /-- VSHRI (R370): Lane logical shift right by an immediate. -/
  | vshri (e : Fin 256) (vd va : BitVec 5) (pm : BitVec 3) (w : Bool) (imm : BitVec 4)
  /-- VSARI (R370): Lane arithmetic shift right by an immediate. -/
  | vsari (e : Fin 256) (vd va : BitVec 5) (pm : BitVec 3) (w : Bool) (imm : BitVec 4)
  /-- VSPLATI (R370): Set every lane to an immediate. -/
  | vsplati (e : Fin 256) (vd : BitVec 5) (pm : BitVec 3) (w : Bool) (imm : BitVec 12)
  /-- VSEL (R370): Select lanes of two vectors by predicate. -/
  | vsel (e : Fin 256) (vd va vb : BitVec 5) (pm : BitVec 3) (w : Bool)
  /-- VSPLAT (R370): Set every lane to a scalar register. -/
  | vsplat (e : Fin 256) (vd : BitVec 5) (sb : BitVec 4) (pm : BitVec 3) (w : Bool)
  /-- VMULS (R370): Rounded saturating lane multiply by a scalar with shift. -/
  | vmuls (e : Fin 256) (vd va : BitVec 5) (sb : BitVec 4) (pm : BitVec 3) (w : Bool) (fn : BitVec 8)
  /-- VEXTR (R370): Extract a lane into a scalar register. -/
  | vextr (e : Fin 256) (sd : BitVec 4) (va : BitVec 5) (w : Bool) (fn : BitVec 8)
  /-- VINS (R370): Insert a scalar into one lane. -/
  | vins (e : Fin 256) (vd : BitVec 5) (sb : BitVec 4) (pm : BitVec 3) (w : Bool) (fn : BitVec 8)
  /-- VRSUM (R370): Sum of lanes into a scalar register. -/
  | vrsum (e : Fin 256) (sd : BitVec 4) (va : BitVec 5) (pm : BitVec 3) (w : Bool)
  /-- VRMAX (R370): Maximum of lanes into a scalar register. -/
  | vrmax (e : Fin 256) (sd : BitVec 4) (va : BitVec 5) (pm : BitVec 3) (w : Bool)
  /-- VPCNT (R370): Count lanes enabled by a predicate. -/
  | vpcnt (e : Fin 256) (sd : BitVec 4) (pm : BitVec 3) (w : Bool)
  /-- VPFIRST (R370): Index of the first enabled lane. -/
  | vpfirst (e : Fin 256) (sd : BitVec 4) (pm : BitVec 3) (w : Bool)
  /-- VSAD (R370): Sum of absolute lane differences into a scalar. -/
  | vsad (e : Fin 256) (sd : BitVec 4) (va vb : BitVec 5) (pm : BitVec 3) (w : Bool)
  /-- VDOT (R370): Accumulate a signed 16-bit dot product into a scalar. -/
  | vdot (e : Fin 256) (sd : BitVec 4) (va vb : BitVec 5) (pm : BitVec 3) (w : Bool)
  /-- VSLIDE (R370): Slide lanes of a concatenation by a scalar amount. -/
  | vslide (e : Fin 256) (vd va : BitVec 5) (sb : BitVec 4) (pm : BitVec 3) (w : Bool)
  /-- VSLIDEI (R370): Slide lanes of a concatenation by an immediate. -/
  | vslidei (e : Fin 256) (vd va vb : BitVec 5) (pm : BitVec 3) (w : Bool) (fn : BitVec 7)
  /-- VWIDEL (R370): Widen the low 16 bytes to 16-bit lanes. -/
  | vwidel (e : Fin 256) (vd va : BitVec 5) (pm : BitVec 3) (w : Bool)
  /-- VWIDEH (R370): Widen the high 16 bytes to 16-bit lanes. -/
  | vwideh (e : Fin 256) (vd va : BitVec 5) (pm : BitVec 3) (w : Bool)
  /-- VNARROW (R370): Narrow two vectors of 16-bit lanes to bytes with saturation. -/
  | vnarrow (e : Fin 256) (vd va vb : BitVec 5) (pm : BitVec 3) (w : Bool)
  /-- VLD (R370): Load 32 bytes into a vector register. -/
  | vld (e : Fin 256) (vd : BitVec 5) (sa : BitVec 4) (pm : BitVec 3) (inc : Bool) (imm : BitVec 13)
  /-- VST (R370): Store the enabled bytes of a vector register. -/
  | vst (e : Fin 256) (vd : BitVec 5) (sa : BitVec 4) (pm : BitVec 3) (inc : Bool) (imm : BitVec 13)
  /-- STE_EVENT (R384): An activation of STE_EVENT(c) increments the cluster event count and releases waiting EVWAITs. -/
  | steEvent (c : Fin 16)
  /-- JOB_STAGE (R399): A write of JOB_CTL.STAGE starts staging the package at JOB_STAGE_DA into the target slot, or refuses it. -/
  | jobStage
  /-- STAGING_DONE (R399): Staging ends with the slot STAGED or FREE and its result in JOB_STAGE_STATUS. -/
  | stagingDone
  /-- JOB_START (R401): A write of JOB_CTL.START switches to the staged target slot at once. -/
  | jobStart
  /-- JOB_CTL_ARM (R402): A write of JOB_CTL.ARM arms a splice at JOB_MARK, or refuses it. -/
  | jobCtlArm
  /-- JOB_ARM (R402): An activation of the Chain task input JOB_ARM arms a splice. -/
  | jobArm
  /-- SPLICE_SWITCH (R405): At the first compare cycle whose lead-0 prediction reaches the mark, the epoch rises and the slots change roles. -/
  | spliceSwitch
  /-- JOB_RELEASE (R415): A write of JOB_CTL.RELEASE frees the DRAINING slot at once, giving up its work. -/
  | jobRelease
  /-- SLOT_DRAINED (R413): When nothing of its epoch remains, the DRAINING slot becomes FREE and a RELEASED record is sent. -/
  | slotDrained
  /-- JOB_CTL_ABORT (R416): A write of JOB_CTL.ABORT disarms an armed splice and restores camera sets. -/
  | jobCtlAbort
  /-- JOB_ABORT (R416): An activation of the Chain task input JOB_ABORT disarms an armed splice. -/
  | jobAbort
  /-- SWATCH_RESTART (R420): A write of JOB_CTL.SWATCH_RESTART restarts every failed swatch camera from its next repeat. -/
  | swatchRestart
  /-- JOB_RESET (R425): A write of JOB_CTL.RESET aborts an armed splice, ends staging and abandons a swatch. -/
  | jobReset
  /-- SWATCH_REPEAT_END (R419): A swatch repeat ends and is judged usable or not, advancing, restarting or failing the swatch. -/
  | swatchRepeatEnd (cam : Fin 48)
  /-- BANK_HANDOVER (R436): A write of STASH_BANK_OWN starts a bank handover, or refuses it. -/
  | bankHandover (c b : Fin 16) (v : Word)
  /-- HANDOVER_DONE (R436): Within 100 core cycles the new owner takes effect and PENDING clears. -/
  | handoverDone (c b : Fin 16)
  /-- STASH_BANK_GRANT (R439): In each core cycle a bank grants one port by rank, merging writes to one line. -/
  | stashBankGrant (c b : Fin 16) (new : List BankReq)
  /-- URGENT_PROMOTE (R441): A request waiting 8 core cycles becomes URGENT and counts URGENT_CNT. -/
  | urgentPromote (c b : Fin 16)
  /-- STASH_TEST_STEP (R445): The background test takes one step on an idle bank or scratch, reporting compare failures. -/
  | stashTestStep (c : Fin 16) (fails : Bool)
  /-- STASH_TEST_ENABLE (R447): A write of STASH_TEST_CFG.EN starts a new pass or stops after the line under test. -/
  | stashTestEnable (v : Word)
  /-- SKEIN_INIT_DONE (R460): Background zeroing of Skein finishes and INIT_DONE rises. -/
  | skeinInitDone
  /-- SKEIN_READ_COMPLETE (R477): A Skein read completes with its ECC outcome applied to the reader. -/
  | skeinReadComplete (m block : Nat) (o : EccOutcome) (refused : Bool)
  /-- SKEIN_REFRESH (R474): A channel makes refresh at the rate its devices require, retraining WCK and DQ timing. -/
  | skeinRefresh (ch : Fin 16)
  /-- SKEIN_FLUSH (R459): A write of SKEIN_CTL.FLUSH writes back every cached check block. -/
  | skeinFlush
  /-- SCRUB_READ (R475): The patrol scrub reads the next block on schedule and corrects it by write-back. -/
  | scrubRead (o : EccOutcome)
  /-- HIST_ENABLE (R466): A rise of SKEIN_HIST_CFG.EN samples the ring configuration and starts the history ring. -/
  | histEnable (v : Word)
  /-- RETRO_GO (R472): A write of SKEIN_RETRO_CTL.GO starts an index scan for retro-inspection, or is refused while busy. -/
  | retroGo (v : Word)
  /-- RETRO_SCAN_DONE (R472): The retro scan ends, queuing frames and reporting FOUND, STALE and MISSING. -/
  | retroScanDone
  /-- HOOK_GO (R483): A write of HOOK_CH_CTL.GO copies the descriptor and starts its checks, or is discarded. -/
  | hookGo (master : Nat) (ch : Fin 16) (abort : Bool)
  /-- HOOK_ABORT (R495): A write of HOOK_CH_CTL.ABORT ends or drains the transfer. -/
  | hookAbort (master : Nat) (ch : Fin 16)
  /-- HOOK_CHECK_DONE (R486): The descriptor checks end, refusing the transfer or moving it to RUN or WAIT_BUF. -/
  | hookCheckDone (ch : Fin 16)
  /-- HOOK_SLOTS_GRANTED (R488): A staged channel obtains 16 buffer slots and starts. -/
  | hookSlotsGranted (ch : Fin 16)
  /-- HOOK_BURST_READ (R489): The read engine takes a free slot and issues the reads of a channel's next burst. -/
  | hookBurstRead
  /-- HOOK_BURST_WRITE (R489): A burst fully in its slot is written by the write engine and its slot freed. -/
  | hookBurstWrite
  /-- HOOK_READ_RESPONSE (R497): Read data of a burst arrives in its slot, or an error ends the transfer. -/
  | hookReadResponse (ch : Fin 16) (first : Nat)
  /-- HOOK_WRITE_ACK (R492): The acknowledgement of a barrier write arrives, reaching the completion point with the last one. -/
  | hookWriteAck (ch : Fin 16)
  /-- HOOK_RESET (R502): A write of HOOK_CTL.RESET stops every channel with RESULT DISCARDED and no report. -/
  | hookReset (v : Word)
  /-- HOOK_IRQ_WRITE (R494): A write to HOOK_IRQ_STATUS or HOOK_IRQ_EN resends vector 65 + ch for bits set in both. -/
  | hookIrqWrite (en : Bool) (v : Word)
  /-- HOST_MEM_READ (R514): An inbound memory read TLP to a BAR is decoded, checked and completed in order. -/
  | hostMemRead (rid : Nat) (bar : Option (Fin 3)) (off n : Nat) (hdr : List Byte)
  /-- HOST_MEM_WRITE (R514): An inbound memory write TLP to a BAR is decoded, checked and applied, or dropped if poisoned. -/
  | hostMemWrite (rid : Nat) (bar : Option (Fin 3)) (off : Nat) (bs : List Byte) (poisoned : Bool) (hdr : List Byte)
  /-- CONFIG_WRITE (R511): A configuration write sets capability and control state of the function. -/
  | configWrite (item : CfgItem)
  /-- WIN_APPLY (R518): A write of HOST_WIN_APPLY.APPLY copies all window shadows into use at a TLP boundary. -/
  | winApply (v : Word)
  /-- COMPLETION_RECEIVE (R523): A completion for an outbound request is delivered, failed or discarded as late. -/
  | completionReceive (tag : Nat) (c : Completion) (hdr : List Byte)
  /-- COMPLETION_TIMEOUT (R522): A request without completion after T fails, is reported and its tag quarantined. -/
  | completionTimeout (tag : Nat)
  /-- TAG_QUARANTINE_END (R523): A quarantined tag becomes free after 2 × T. -/
  | tagQuarantineEnd (tag : Nat)
  /-- ATS_TRANSLATION_MISS (R525): A host IOVA access that misses the translation cache sends a Translation Request and waits. -/
  | atsTranslationMiss (user : AtsUser) (iova : Nat) (write : Bool)
  /-- ATS_INVALIDATE_REQUEST (R526): An Invalidate Request makes matching cache entries invalid for later lookups. -/
  | atsInvalidateRequest (itag base size : Nat)
  /-- ATS_INVALIDATE_DONE (R526): When requests that used matching entries are done, the Invalidate Completion is sent. -/
  | atsInvalidateDone (itag : Nat)
  /-- RING_ENABLE (R529): A rise of HOST_RING_CFG.EN samples the ring configuration and zeroes its counters. -/
  | ringEnable (r : Fin 64) (v : Word)
  /-- RING_DISABLE (R537): Clearing HOST_RING_CFG.EN revokes the ring's buffers and takes it to OFF. -/
  | ringDisable (r : Fin 64) (v : Word) (issued : Nat)
  /-- RING_DTAIL_WRITE (R529): A write of HOST_RING_DTAIL posts descriptors, or is ignored with DOORBELL. -/
  | ringDtailWrite (r : Fin 64) (v : Word)
  /-- RING_CHEAD_WRITE (R529): A write of HOST_RING_CHEAD returns completion slots, or is ignored with DOORBELL. -/
  | ringCheadWrite (r : Fin 64) (v : Word)
  /-- REVOKE (R536): A write of HOST_RING_CTL.REVOKE returns every buffer of the ring with REVOKED completions. -/
  | revoke (r : Fin 64) (issued : Nat)
  /-- DESC_FETCH (R529): The Talom fetches up to 8 descriptors when it holds fewer than 2 unbegun. -/
  | descFetch (r : Fin 64)
  /-- DESC_FETCH_DONE (R530): Fetched descriptors arrive, and bad ones are returned with BAD_DESC. -/
  | descFetchDone (r : Fin 64) (bytes : List Byte)
  /-- PARCEL_START (R534): The delivery engine begins writing a parcel once its ring, buffer, slot and staging allow. -/
  | parcelStart (r : Fin 64)
  /-- PIECE_COMPLETE (R532): A piece of a parcel is written and its completion follows it into the completion ring. -/
  | pieceComplete (r : Fin 64)
  /-- PARCEL_STAGE (R535): A parcel handed to the delivery engine is staged, waits, or is dropped by type. -/
  | parcelStage (src : StageSource)
  /-- RING_IRQ_TIME_EXPIRE (R538): The oldest unsignalled completion reaches TIME µs and the ring's vector is sent. -/
  | ringIrqTimeExpire (r : Fin 64)
  /-- MSIX_UNMASK (R539): Unmasking a vector or the function sends a message whose PBA bit is still set. -/
  | msixUnmask (v : Fin 256)
  /-- INTX_PEND_WRITE (R540): A write to HOST_INTX_PEND clears bits and deasserts INTA when the last clears. -/
  | intxPendWrite (n : Fin 8) (v : Word)
  /-- LINK_ENTER_L0 (R513): The link enters L0, delivery resumes and HOST_LINK is published. -/
  | linkEnterL0 (rate : Fin 7) (width : Fin 17) (flit : Bool)
  /-- LINK_RECOVERY_TIMEOUT (R513): A Recovery episode lasting 1 ms makes the link count as out of L0. -/
  | linkRecoveryTimeout
  /-- DATA_LINK_DOWN (R543): The data link goes down, failing outstanding requests and resetting the function. -/
  | dataLinkDown
  /-- FUNCTION_LEVEL_RESET (R544): An FLR resets the function's configuration, HOST registers and Hook channels. -/
  | functionLevelReset
  /-- FLR_DONE (R544): The FLR completes within 1 ms and configuration requests are answered again. -/
  | flrDone
  /-- D_STATE_CHANGE (R546): The function moves between D0 and D3hot, holding or resuming delivery. -/
  | dStateChange (d3 : Bool)
  /-- PERST_ASSERT (R545): PERST# asserted holds the PCIe island in reset, entering D3cold with auxiliary power. -/
  | perstAssert
  /-- PERST_DEASSERT (R544): Release of PERST# resets the function and lets the link train. -/
  | perstDeassert
  /-- FAB_ENABLE (R565): A write of FAB_CFG.EN takes the device into or out of the fabric. -/
  | fabEnable (v : Word)
  /-- FAB_PORT_ENABLE (R563): A write of FAB_PORT_CFG.EN starts or stops training on a port. -/
  | fabPortEnable (p : Fin 4) (v : Word)
  /-- FAB_TRAIN_PHASE_DONE (R563): A training phase completes and the port moves to the next phase or UP. -/
  | fabTrainPhaseDone (p : Fin 4)
  /-- FAB_TRAIN_TIMEOUT (R563): A port not trained within 100 ms enters DOWN with back-off. -/
  | fabTrainTimeout (p : Fin 4)
  /-- FAB_BACKOFF_END (R563): A DOWN port's back-off ends and it retries training. -/
  | fabBackoffEnd (p : Fin 4)
  /-- FAB_LOCK_LOSS (R563): Block lock lost on a lane for 1 µs, or a failed deskew, takes an UP port to TRAIN. -/
  | fabLockLoss (p : Fin 4)
  /-- FAB_TAP_REQUEST (R564): A training block's tap request is applied by the transmitter within 2 µs and reported. -/
  | fabTapRequest (p lane : Fin 4) (pre post preset : Fin 4)
  /-- FAB_MARKER (R557): Every 16,384 blocks a marker block is sent on all lanes and received markers deskew and check BIP-8. -/
  | fabMarker (p : Fin 4) (bip : Nat) (deskewed : Bool) (arrive leave : Int)
  /-- FAB_CONTROL_UNIT_RX (R562): A control unit checks the previous packet's CRC, returns credit and carries ACK or NAK for replay. -/
  | fabControlUnitRx (p : Fin 4) (good : Bool) (ack : Nat) (nak : Bool) (credit : List Nat)
  /-- FAB_READ_RX (R572): A READ packet is forwarded or checked and served locally with a RESPONSE. -/
  | fabReadRx (p : Fin 4) (q : FabPacket)
  /-- FAB_WRITE_RX (R572): A WRITE packet is forwarded or checked, made locally and answered. -/
  | fabWriteRx (p : Fin 4) (q : FabPacket)
  /-- FAB_RESPONSE_RX (R573): A RESPONSE completes its outstanding request or is discarded as late. -/
  | fabResponseRx (p : Fin 4) (q : FabPacket)
  /-- FAB_HELLO_RX (R566): A HELLO from a neighbour is taken for discovery and may fence this device. -/
  | fabHelloRx (p : Fin 4) (h : FabHello)
  /-- FAB_ROOT_RX (R566): A ROOT announcement is taken for joining, roles and fencing. -/
  | fabRootRx (p : Fin 4) (src hops : Nat) (r : FabRoot)
  /-- FAB_CLAIM_RX (R566): A CLAIM message takes part in root election. -/
  | fabClaimRx (p : Fin 4) (src hops : Nat) (c : FabClaim)
  /-- FAB_ASSIGN_RX (R567): An ASSIGN message sets this device's address and route tables. -/
  | fabAssignRx (p : Fin 4) (src hops : Nat) (a : FabAssign)
  /-- FAB_KEEPALIVE_RX (R569): A KEEPALIVE refreshes the root's record of a live member. -/
  | fabKeepaliveRx (p : Fin 4) (src hops dst : Nat) (k : FabKeepalive)
  /-- FAB_SYNC_RX (R576): A SYNC packet carries time stamps that the member uses to adjust its clock. -/
  | fabSyncRx (p : Fin 4) (t2 t3 : Int)
  /-- FAB_MARK_RX (R580): A MARK is taken to the JOB block unless a repeat, counted and FAB_MARK published. -/
  | fabMarkRx (p : Fin 4) (src hops : Nat) (m : FabMark)
  /-- FAB_FENCE_RX (R570): A FENCE fences this device, dropping its roles and entering SPARE. -/
  | fabFenceRx (p : Fin 4) (src hops dst : Nat)
  /-- FAB_ROOT_ANNOUNCE (R566): Every 1 ms the root floods a ROOT announcement. -/
  | fabRootAnnounce
  /-- FAB_KEEPALIVE_SEND (R569): Every 1 ms a member sends KEEPALIVE. -/
  | fabKeepaliveSend
  /-- FAB_CLAIM_START (R566): A JOINING device hearing no root for 3 ms starts flooding CLAIMs. -/
  | fabClaimStart
  /-- FAB_ELECTION_END (R566): After 3 ms of claims the best claim becomes root with a newer epoch. -/
  | fabElectionEnd
  /-- FAB_ROOT_TIMEOUT (R565): No root heard or no port UP for ROOT_TMO starts a claim or takes the device to ALONE. -/
  | fabRootTimeout
  /-- FAB_MEMBER_TIMEOUT (R569): The root records a member dead after MEMBER_TMO without KEEPALIVE and moves SINK if needed. -/
  | fabMemberTimeout (addr : Fin 64)
  /-- FAB_REQ_TIMEOUT (R573): A request without response after REQ_TMO fails and its txid is quarantined. -/
  | fabReqTimeout (txid : Nat)
  /-- FAB_TXID_QUARANTINE_END (R573): A quarantined txid becomes free after 2 × REQ_TMO. -/
  | fabTxidQuarantineEnd (txid : Nat)
  /-- FAB_TIME_SYNC (R576): Every 4 markers a member exchanges stamps with its upstream neighbour and slews or steps its ts. -/
  | fabTimeSync (t1 t4 : Int)
  /-- FAB_TIME_PULSE (R579): At each ts multiple of PERIOD the device publishes FAB_TIME. -/
  | fabTimePulse
  /-- CLEAR_SPARE (R565): A write of FAB_CTL.CLEAR_SPARE makes a SPARE device a MEMBER again. -/
  | clearSpare
  /-- MARK_TX (R581): A write of FAB_CTL.MARK_TX sends a MARK for the armed splice, or sets MARK_NONE. -/
  | markTx
  /-- TIME_CAP (R579): A write of FAB_CTL.TIME_CAP captures the ts in FAB_TIME_CAPTURE. -/
  | timeCap
  /-- FAB_MARK_TX (R581): An activation of FAB_MARK_TX sends a MARK for the armed splice. -/
  | fabMarkTx
  /-- FAB_TIME_CAP (R579): An activation of FAB_TIME_CAP captures the ts of its arrival. -/
  | fabTimeCap
  /-- COLD_RESET (R588): Rising supplies, SYS_PORST_N or a supply-monitor trip reset every register and restart ts. -/
  | coldReset (c : ResetCause) (done : Nat)
  /-- DEVICE_RESET (R590): SYS_RST_N, STW_RESET or the Steward watchdog stops every block and puts Skein in self-refresh. -/
  | deviceReset (done : Nat)
  /-- STW_RESET (R589): A keyed write of STW_RESET with DEVICE makes a device reset. -/
  | stwReset (v : Word) (done : Nat)
  /-- STEWARD_WDOG_EXPIRE (R588): The Steward firmware stopping for 100 ms makes a device reset. -/
  | stewardWdogExpire (done : Nat)
  /-- RESET_RELEASE (R590): After the reset hold the blocks are released and Cast-on starts. -/
  | resetRelease
  /-- CASTON_COMPLETE (R592): Cast-on completes, sets DONE, RESULT and SLOT, and enters BRINGUP. -/
  | castonComplete (rep : CastonReport)
  /-- NVM_READ (R600): Pipe operation READ copies NVM bytes into Skein. -/
  | nvmRead
  /-- NVM_BEGIN (R600): Pipe operation BEGIN opens an update session and erases the target slot. -/
  | nvmBegin
  /-- NVM_PROGRAM (R600): Pipe operation PROGRAM programs a slot range from Skein. -/
  | nvmProgram
  /-- NVM_VERIFY (R600): Pipe operation VERIFY checks the slot image header and CRC. -/
  | nvmVerify
  /-- NVM_COMMIT (R600): Pipe operation COMMIT appends a COMMIT record and closes the session. -/
  | nvmCommit
  /-- NVM_BOARD (R600): Pipe operation BOARD writes a new board-table copy. -/
  | nvmBoard
  /-- NVM_ABORT (R600): Pipe operation ABORT ends the running operation after its page or sector. -/
  | nvmAbort
  /-- NVM_OP_COMPLETE (R601): A pipe operation ends with its RESULT, DONE and the NVM interrupt cause. -/
  | nvmOpComplete (done : Nat) (fails : Bool)
  /-- LOG_PAGE_WRITE (R608): The Steward writes buffered fault-log entries a page at a time, moving sectors as needed. -/
  | logPageWrite (fails : Bool)
  /-- LOG_FLUSH (R608): A write of STW_LOG_CTL.FLUSH writes the log buffer at once. -/
  | logFlush
  /-- JTAG_RESET (R609): JTAG_TRST_N or Test-Logic-Reset selects IDCODE. -/
  | jtagReset
  /-- EXTEST (R610): Instruction EXTEST takes the pins through the boundary register when allowed. -/
  | extest
  /-- IDCODE (R609): Instruction IDCODE returns the device identification code. -/
  | idcode
  /-- SAMPLE_PRELOAD (R609): Instruction SAMPLE/PRELOAD samples the boundary register without affecting pins. -/
  | samplePreload (pins : List Bool)
  /-- CLAMP (R610): Instruction CLAMP holds the pins from the boundary register when allowed. -/
  | clamp
  /-- HIGHZ (R610): Instruction HIGHZ tristates the pins when allowed. -/
  | highz
  /-- BYPASS (R609): Instruction BYPASS selects the 1-bit bypass register. -/
  | bypass
  /-- ACCESS (R611): Instruction ACCESS selects the 100-bit access register. -/
  | access
  /-- JTAG_ACCESS_GO (R611): Update-DR of ACCESS with GO starts a 4-byte access as STEWARD, or refuses it. -/
  | jtagAccessGo (v : BitVec 100)
  /-- JTAG_ACCESS_DONE (R611): The ACCESS access completes and its status and data are held for capture. -/
  | jtagAccessDone
  /-- PWR_CTL_WATCH (R617): A keyed write of PWR_CTL.WATCH requests the watch state, or is refused. -/
  | pwrCtlWatch
  /-- PWR_CTL_EXIT (R618): A keyed write of PWR_CTL.EXIT is an exit cause for the watch state. -/
  | pwrCtlExit
  /-- PWR_WAKE (R619): An activation of PWR_WAKE is an exit cause and may make a wake request. -/
  | pwrWake
  /-- WATCH_ENTRY_START (R617): After any pipe operation ends, the entry sequence starts and the device enters ENTERING. -/
  | watchEntryStart
  /-- WATCH_ENTRY_DONE (R620): The entry sequence completes and the device is in WATCH. -/
  | watchEntryDone
  /-- WATCH_EXIT_START (R618): An exit cause reaching the Steward starts the exit sequence and records EXIT_CAUSE. -/
  | watchExitStart
  /-- WATCH_EXIT_DONE (R620): The exit sequence completes and the device is ACTIVE. -/
  | watchExitDone
  /-- HK_CONVERSION (R623): A housekeeping slot converts its channel and writes the corrected result. -/
  | hkConversion (raw : BitVec 12)
  /-- HK_URGENT (R626): A write of PWR_HK_URGENT.GO converts a channel in the next slot, or queues or refuses it. -/
  | hkUrgent (v : Word)
  /-- HK_RESULT_READ (R625): A read of PWR_HK_RESULT returns it and clears VALID and OVR. -/
  | hkResultRead
  /-- GOVERNOR_EVAL (R628): Every 100 µs the thermal governor evaluates Tj and changes step. -/
  | governorEval
  /-- THROTTLE_CAP_STEP (R629): In THROTTLE the cap falls each DOWN_MS ms or rises each UP_10MS × 10 ms. -/
  | throttleCapStep
  /-- THERMAL_TRIP (R630): A sensor comparator trips at 125 °C, stopping clusters, Carriages and Skein traffic. -/
  | thermalTrip
  /-- TRIP_END (R630): Every sensor below 115 °C for 10 ms ends the trip. -/
  | tripEnd
  /-- ILIM_HALVE (R633): Core current above THRESH for WINDOW µs halves every cluster clock. -/
  | ilimHalve
  /-- ILIM_RELEASE (R633): Current below 90 % of THRESH for 1 ms ends the halving. -/
  | ilimRelease
  /-- STANDBY_PACKET_WAKE (R204): The first start of packet arriving at a connection in STANDBY wakes the connection to UP within 64 ns, and its elastic buffer is drained without loss. -/
  | standbyPacketWake (n : Fin 48)
  /-- CDR_LOCK (R185): The CDR of a connection locks on the downlink, after rate detection or after a loss of lock, setting LOCKED and ending a LOL loss. -/
  | cdrLock (n : Fin 48)
  /-- LINK_RECOVERY_START (R513): The LTSSM enters Recovery, a new episode is counted in HOST_CNT2.RECOVERY_CNT, and the 1 ms recovery timer starts. -/
  | linkRecoveryStart
deriving DecidableEq, Repr

end Sys2Proof
end

