-- ==== Sys2Proof/WellFormed.lean ====
section
/-! DEFINITION. Which commands are well-formed: every operand within the range the spec gives its field. The meanings are total; an
ill-formed command stands for nothing the outside world can send. -/

namespace Sys2Proof

def is32 (n : Nat) : Bool := decide (n < 2 ^ 32)
def is64 (n : Nat) : Bool := decide (n < 2 ^ 64)

/-- A master ID (R57). -/
def isMaster (m : Nat) : Bool := decide (m < 256)

/-- The offset of a register word in BAR0 (R13, R51). -/
def isOffset (off : Nat) : Bool := decide (off < 0x1000000) && off % 4 == 0

/-- A completion tag (R521). -/
def isTag (t : Nat) : Bool := decide (t < 768)

/-- A fabric address, a hop count, a port (R555, R559). -/
def isAddr (a : Nat) : Bool := decide (a < 64)
def isHops (h : Nat) : Bool := decide (h < 16)
def isPort (p : Nat) : Bool := decide (p < 4)
def isEpoch (e : Nat) : Bool := decide (e < 2 ^ 16)
def isPrio (p : Nat) : Bool := decide (p < 256)

def optAll (o : Option Nat) (p : Nat → Bool) : Bool :=
  match o with
  | some n => p n
  | none => true

/-- An offset within a BAR (R50). -/
def inBar (bar : Option (Fin 3)) (off : Nat) : Bool :=
  match bar with
  | some 0 => decide (off < 2 ^ 28)
  | some 1 => decide (off < 2 ^ 34)
  | some 2 => decide (off < 2 ^ 16)
  | _ => true

def BankReq.wf (q : BankReq) : Bool :=
  decide (q.line < 4096) && q.data.all (fun p => decide (p.1 < 32)) && (q.op != .read || q.data.isEmpty) &&
    (match q.port with
      | .sys m => isMaster m
      | _ => true)

def ImageHeader.wf (h : ImageHeader) : Bool := is32 h.lines && is32 h.width && decide (h.format < 2 ^ 16) && is32 h.frameId

def StreamPart.wf : StreamPart → Bool
  | .header h => h.wf
  | .pixels px _ => px.all (fun p => decide (p < 2 ^ 48))
  | .chunk id v => is32 id && is64 v
  | .trailer => true

def StreamPacket.wf (k : StreamPacket) : Bool := decide (k.tag < 256) && is32 k.bytes && k.parts.all StreamPart.wf

def ControlAck.wf (a : ControlAck) : Bool :=
  decide (a.code < 256) && is32 a.value && decide (a.conns < 256) && decide (a.rate < 256) && decide (a.data.length ≤ 65536)

def Completion.wf : Completion → Bool
  | .data bs => decide (bs.length ≤ 4096)
  | .translation b s t _ _ => is64 b && is64 s && is64 t
  | _ => true

def CfgItem.wf : CfgItem → Bool
  | .maxPayload n => [128, 256, 512, 1024].contains n
  | .maxReadRequest n => [128, 256, 512, 1024, 2048, 4096].contains n
  | .timeoutRange c => decide (c < 16)
  | .atsEnable _ stu => decide (stu < 32)
  | _ => true

def FabHello.wf (h : FabHello) : Bool :=
  is64 h.serial && isPrio h.rootPrio && isPrio h.sinkPrio && optAll h.pref isAddr && optAll h.addr isAddr && isEpoch h.rootEp &&
    isEpoch h.sinkEp && isPort h.port

def FabRoot.wf (r : FabRoot) : Bool :=
  is64 r.serial && isPrio r.prio && isEpoch r.rootEp && isEpoch r.sinkEp && optAll r.sinkAddr isAddr && is64 r.members

def FabClaim.wf (c : FabClaim) : Bool := is64 c.serial && isPrio c.prio && isEpoch c.rootEp

def FabAssign.wf (a : FabAssign) : Bool :=
  is64 a.serial && optAll a.addr isAddr && a.routes.all (fun p => isAddr p.1 && isPort p.2.port && isHops p.2.hops && optAll p.2.alt isPort)
    && a.tree.all isPort

def FabKeepalive.wf (k : FabKeepalive) : Bool :=
  is64 k.serial && optAll k.addr isAddr && optAll k.pref isAddr && isPrio k.sinkPrio &&
    k.links.all (fun l => isPort l.1 && is64 l.2.1 && isPort l.2.2)

def FabMark.wf (m : FabMark) : Bool :=
  isAddr m.origin && is32 m.seq && is32 m.job && isEpoch m.epoch && decide (m.axis < 4) && is64 m.ts

def FabMsg.wf : FabMsg → Bool
  | .read da n => is64 da && decide (n ≤ 512)
  | .write da bs => is64 da && decide (bs.length ≤ 512)
  | .response bs => decide (bs.length ≤ 512)
  | .hello h => h.wf
  | .root r => r.wf
  | .claim c => c.wf
  | .assign a => a.wf
  | .keepalive k => k.wf
  | .sync _ _ _ => true
  | .mark m => m.wf
  | .fence => true

def FabPacket.wf (q : FabPacket) : Bool :=
  isAddr q.dst && isAddr q.src && isHops q.hops && decide (q.txid < 2 ^ 16) && isEpoch q.rootEp && isEpoch q.sinkEp &&
    decide (q.status < 256) && q.msg.wf

def CastonReport.wf (r : CastonReport) : Bool :=
  (r.badBanks ++ r.fixBanks ++ r.scrOff ++ r.scrFix).all (fun n => decide (n < 256))

/-- The check of a command. -/
def Instr.wf : Instr → Bool
  | .regWrite m off _ => isMaster m && isOffset off
  | .reg64LowWordRead off => isOffset off
  | .reg64LowWordWrite off _ => isOffset off
  | .rcFieldRead off => isOffset off
  | .chainFire master _ => isMaster master
  | .chainFireMulti master _ => isMaster master
  | .chainConfigWrite master off _ => isMaster master && isOffset off
  | .ctrlAckReceive _ ack => ack.wf
  | .eventPacketReceive _ _ data => decide (data.length ≤ 65536)
  | .plyPacketCommit _ k _ _ span => k.wf && is32 span
  | .carLineIn _ drained => is32 drained
  | .stashBankGrant _ _ new => new.all BankReq.wf
  | .skeinReadComplete m block _ _ => isMaster m && decide (block < 2 ^ 30)
  | .hookGo master _ _ => isMaster master
  | .hookAbort master _ => isMaster master
  | .hookReadResponse _ first => is64 first
  | .hostMemRead rid bar off n hdr => decide (rid < 2 ^ 16) && inBar bar off && decide (off % 4 = 0) && decide (n % 4 = 0) && hdr.length == 16
  | .hostMemWrite rid bar off bs _ hdr => decide (rid < 2 ^ 16) && inBar bar off && decide (off % 4 = 0) && decide (bs.length % 4 = 0) && hdr.length == 16
  | .configWrite i => i.wf
  | .completionReceive tag c hdr => isTag tag && c.wf && hdr.length == 16
  | .completionTimeout tag => isTag tag
  | .tagQuarantineEnd tag => isTag tag
  | .atsTranslationMiss _ iova _ => is64 iova
  | .atsInvalidateRequest itag base size => decide (itag < 32) && is64 base && is64 size
  | .atsInvalidateDone itag => decide (itag < 32)
  | .ringDisable _ _ issued => is32 issued
  | .revoke _ issued => is32 issued
  | .descFetchDone _ bytes => bytes.length % 16 == 0
  | .fabMarker _ bip _ _ _ => decide (bip < 2 ^ 32)
  | .fabControlUnitRx _ _ ack _ credit => decide (ack < 2 ^ 32) && credit.length == 4 && credit.all is32
  | .fabReadRx _ q => q.wf
  | .fabWriteRx _ q => q.wf
  | .fabResponseRx _ q => q.wf
  | .fabHelloRx _ h => h.wf
  | .fabRootRx _ src hops r => isAddr src && isHops hops && r.wf
  | .fabClaimRx _ src hops c => isAddr src && isHops hops && c.wf
  | .fabAssignRx _ src hops a => isAddr src && isHops hops && a.wf
  | .fabKeepaliveRx _ src hops dst k => isAddr src && isHops hops && isAddr dst && k.wf
  | .fabMarkRx _ src hops m => isAddr src && isHops hops && m.wf
  | .fabFenceRx _ src hops dst => isAddr src && isHops hops && isAddr dst
  | .fabReqTimeout txid => decide (txid < 2 ^ 16)
  | .fabTxidQuarantineEnd txid => decide (txid < 2 ^ 16)
  | .castonComplete rep => rep.wf
  | .nvmOpComplete done _ => decide (done ≤ 2 ^ 24)
  | .shedRaise .. | .shedRaiseIntervalExpiry | .shedLowerExpiry | .engineBacklogDeadline | .skeinPressureWindow
  | .serviceModeRequest .. | .bindoffStart | .bindoffComplete | .glbIntWrite .. | .gaugeSample .. | .ampLowDetect ..
  | .corrEstimate .. | .corrLoad .. | .scaleApply .. | .gaugeAxisZero .. | .gaugeZero .. | .snapTake | .gaugeSnap
  | .gaugeWpLowRead .. | .refCfgWrite .. | .positionRecord .. | .axisEnable .. | .axisDisable .. | .settleEnd ..
  | .watchCountEdge .. | .convCheckStep .. | .convCheckCfgWrite .. | .cmpCycle .. | .trigCmpCtlArm .. | .trigCmpCtlStop ..
  | .trigCmpArm .. | .trigCmpStop .. | .trigListWrite .. | .trigOut .. | .trigOutPulseEnd .. | .trigOutModeWrite ..
  | .bankSupplyChange .. | .trigInEdge .. | .trigInAccept .. | .trigPkt .. | .trigPktStart .. | .trigPktFall ..
  | .chainHeldPublish .. | .chainIrqWrite .. | .chainCtrInc .. | .chainCtrClr .. | .chainCtrValWrite .. | .chainCtrWindowEnd ..
  | .cllEnable .. | .cllDisable .. | .discoveryTick | .rateDetectDone .. | .alignAcquire .. | .commaRealign .. | .losAssert ..
  | .losDeassert .. | .lossOfLock .. | .lossTimeout .. | .rxCodeError .. | .ctrlCommandStart .. | .ctrlTimeout ..
  | .groupJoinWaitEnd .. | .discoverTimeout .. | .trainTimeout .. | .standby .. | .park .. | .wake .. | .retrain ..
  | .pwrReset .. | .mailboxGo .. | .heartbeatReceive .. | .hbLost .. | .pocxpFaultPin .. | .pocxpRetry .. | .pocxpRetryReset ..
  | .pocxpEnWrite .. | .panelFrame .. | .ptrFault .. | .queueResetEnd .. | .qreset .. | .close .. | .flush .. | .asmClose ..
  | .asmCamEnable .. | .asmCamDisable .. | .asmPacketVisible .. | .mergeSkewExpire .. | .carMemFrameStart .. | .carFrameEnd ..
  | .carStatsDone .. | .cpbPreloadDone .. | .carReset .. | .carSetGo .. | .setIssueStart .. | .tileWriteLine ..
  | .dispatchQueuePush .. | .selvedgeRewind .. | .deferredBandLoad | .engineTake .. | .stealSearch .. | .stealProbeAnswer ..
  | .stealRetry .. | .watchdogExpire .. | .steFence .. | .steReset .. | .engineResetDone .. | .engineResetTimeout ..
  | .engineDisable .. | .resultArrive .. | .nop .. | .add .. | .sub .. | .and .. | .or .. | .xor .. | .shl .. | .shr .. | .sar ..
  | .mul .. | .mulh .. | .slt .. | .sltu .. | .min .. | .max .. | .add64 .. | .sub64 .. | .addi .. | .andi .. | .ori ..
  | .xori .. | .shli .. | .shri .. | .sari .. | .slti .. | .lui .. | .ldw .. | .ldh .. | .ldb .. | .stw .. | .sth .. | .stb ..
  | .beq .. | .bne .. | .blt .. | .bge .. | .bltu .. | .bgeu .. | .jal .. | .jr .. | .bpany .. | .bpnone .. | .xld .. | .xst ..
  | .xwait .. | .xferComplete .. | .emit .. | .endItem .. | .qmark .. | .qrew .. | .qcpy .. | .qrel .. | .pub .. | .evwait ..
  | .rdsr .. | .msync .. | .vnop .. | .vadd .. | .vsub .. | .vadds .. | .vsubs .. | .vabsd .. | .vmin .. | .vmax .. | .vand ..
  | .vor .. | .vxor .. | .vmul .. | .vmulh .. | .vavg .. | .vshl .. | .vshr .. | .vsar .. | .vcmpeq .. | .vcmplt .. | .vcmpltu ..
  | .vcmpge .. | .vcmpgeu .. | .pand .. | .por .. | .pxor .. | .pandn .. | .pset .. | .pclr .. | .vaddi .. | .vshli ..
  | .vshri .. | .vsari .. | .vsplati .. | .vsel .. | .vsplat .. | .vmuls .. | .vextr .. | .vins .. | .vrsum .. | .vrmax ..
  | .vpcnt .. | .vpfirst .. | .vsad .. | .vdot .. | .vslide .. | .vslidei .. | .vwidel .. | .vwideh .. | .vnarrow .. | .vld ..
  | .vst .. | .steEvent .. | .jobStage | .stagingDone | .jobStart | .jobCtlArm | .jobArm | .spliceSwitch | .jobRelease
  | .slotDrained | .jobCtlAbort | .jobAbort | .swatchRestart | .jobReset | .swatchRepeatEnd .. | .bankHandover ..
  | .handoverDone .. | .urgentPromote .. | .stashTestStep .. | .stashTestEnable .. | .skeinInitDone | .skeinRefresh ..
  | .skeinFlush | .scrubRead .. | .histEnable .. | .retroGo .. | .retroScanDone | .hookCheckDone .. | .hookSlotsGranted ..
  | .hookBurstRead | .hookBurstWrite | .hookWriteAck .. | .hookReset .. | .hookIrqWrite .. | .winApply .. | .ringEnable ..
  | .ringDtailWrite .. | .ringCheadWrite .. | .descFetch .. | .parcelStart .. | .pieceComplete .. | .parcelStage ..
  | .ringIrqTimeExpire .. | .msixUnmask .. | .intxPendWrite .. | .linkEnterL0 .. | .linkRecoveryTimeout | .dataLinkDown
  | .functionLevelReset | .flrDone | .dStateChange .. | .perstAssert | .perstDeassert | .fabEnable .. | .fabPortEnable ..
  | .fabTrainPhaseDone .. | .fabTrainTimeout .. | .fabBackoffEnd .. | .fabLockLoss .. | .fabTapRequest .. | .fabSyncRx ..
  | .fabRootAnnounce | .fabKeepaliveSend | .fabClaimStart | .fabElectionEnd | .fabRootTimeout | .fabMemberTimeout ..
  | .fabTimeSync .. | .fabTimePulse | .clearSpare | .markTx | .timeCap | .fabMarkTx | .fabTimeCap | .coldReset ..
  | .deviceReset .. | .stwReset .. | .stewardWdogExpire .. | .resetRelease | .nvmRead | .nvmBegin | .nvmProgram | .nvmVerify
  | .nvmCommit | .nvmBoard | .nvmAbort | .logPageWrite .. | .logFlush | .jtagReset | .extest | .idcode | .samplePreload ..
  | .clamp | .highz | .bypass | .access | .jtagAccessGo .. | .jtagAccessDone | .pwrCtlWatch | .pwrCtlExit | .pwrWake
  | .watchEntryStart | .watchEntryDone | .watchExitStart | .watchExitDone | .hkConversion .. | .hkUrgent .. | .hkResultRead
  | .governorEval | .throttleCapStep | .thermalTrip | .tripEnd | .ilimHalve | .ilimRelease | .standbyPacketWake .. | .cdrLock ..
  | .linkRecoveryStart => true

end Sys2Proof
end

