-- ==== Sys2Proof/Decode.lean ====
section
/-! DEFINITION. Decoding of table words. The table gives bits to none of its rows: the block fetches no instruction, and its commands
come from outside. The two slots of an engine's bundle, which the block does encode (R364), are decoded in Machine/Slots.lean. -/

namespace Sys2Proof

/-- No row of the table gives bits, so no word spells a command. -/
def decodeTableWord (_nbits _w : Nat) : Option Instr := none

end Sys2Proof
end

