-- ==== Sys2Proof/Config.lean ====
section
/-! DEFINITION. What an implementation fixes and what the spec leaves open: the free values (opaque constants applied to
the free-value counter of the state or to operands) and the algorithms the spec names without stating. Nothing in Lean can
evaluate them. Each has a row of the assumption log. -/

namespace Sys2Proof

/-- FREE VALUE. The `n`th open value the machine has needed, as a number; the user narrows it to the width of the place. -/
opaque Config.freeNat : Nat → Nat

/-- FREE VALUE. An open value of `w` bits, fresh for each value of the counter. -/
def Config.freeBits (w n : Nat) : BitVec w := BitVec.ofNat w (Config.freeNat n)

/-- OPEN ALGORITHM (R77, R78). The 12-bit phase of a corrected pair of converter codes: sine, cosine, SIN_OFS, COS_OFS, GAIN,
PHASE. The spec bounds its error and does not state its rounding. -/
opaque Config.phase : Int → Int → Int → Int → Nat → Int → BitVec 12

/-- OPEN ALGORITHM (R93, R109). The vector amplitude in mVpp of a pair of converter codes. -/
opaque Config.amplitude : Int → Int → Nat

/-- OPEN ALGORITHM (R79). The estimate of correction `k` (0 SIN_OFS, 1 COS_OFS, 2 GAIN, 3 PHASE) from the extremes of the two
tracks. -/
opaque Config.corrEstimate : (sinMin sinMax cosMin cosMax : Int) → (k : Nat) → Int

/-- OPEN VALUE (R135). The unit of the delay field of a CoaXPress trigger packet, in picoseconds, less one. -/
opaque Config.trigDelayUnitPred : Nat

/-- The unit of the delay field, in picoseconds. -/
def Config.trigDelayUnit : Nat := Config.trigDelayUnitPred + 1

/-- OPEN VALUE (R135). The greatest value of the delay field of a CoaXPress trigger packet. -/
opaque Config.trigDelayMax : Nat

/-- OPEN ROUNDING (R280, R288). The mean of `n` values with the given sum, where it is not a whole number. -/
opaque Config.meanRounded : (sum n : Nat) → Nat

/-- The mean of `n` values: the spec states no rounding where it is not whole. -/
def Config.mean (sum n : Nat) : Nat := if sum % n = 0 then sum / n else Config.meanRounded sum n

/-- OPEN ROUNDING (R294). A fraction of pixels in units of 2^-16 where it is not a 16-bit number. -/
opaque Config.fractionRounded : (part n : Nat) → Nat

/-- A fraction in units of 2^-16: exact where it is a 16-bit number. -/
def Config.fraction (part n : Nat) : Nat :=
  if part * 65536 % n = 0 ∧ part < n then part * 65536 / n else Config.fractionRounded part n

/-- OPEN ROUNDING (R283). Whether the LUT stage rounds up a value halfway between two numbers: the two entries and the fraction in
sixteenths. -/
opaque Config.lutTie : (e0 e1 fraction : Nat) → Bool

/-- OPEN VALUE (R289). What a mono value gives channel `ch` (0 R, 1 G, 2 B) of a colour output format, as a 16-bit number. -/
opaque Config.monoColour : (v ch : Nat) → Nat

/-- OPEN ALGORITHM (R278). Demosaicing, bilinear or gradient-corrected 5 × 5: channel `ch` of the pixel at a row and column of
Bayer data of a pattern. The spec names the two methods and states no kernel. -/
opaque Config.demosaic : (gradient : Bool) → (pattern : Nat) → (rows : List (List Nat)) → (row col ch : Nat) → Nat

/-- OPEN ALGORITHM (R288). A channel of an output pixel under scaling by other than 1: bilinear, or a box filter that covers
parts of pixels. The spec states no weights and no rounding. -/
opaque Config.resample : (bilinear : Bool) → (rows : List (List Nat)) → (scaleX scaleY : Nat) → (row col : Nat) → Nat

/-- OPEN ROUNDING (R370). The value VMULS adds before a shift by `shift`: the spec calls it "round" and does not state it. -/
opaque Config.mulsRound : (shift : Nat) → Nat

/-- OPEN LAYOUT (R229, R381). Byte `k` of a packet as the write side of a Ply queue stores its decoded words: CoaXPress lays out the
packet, and the spec does not. -/
opaque Config.streamByte : (pkt : StreamPacket) → (k : Nat) → Byte

/-- OPEN ALGORITHM (R567). The route from one device of the fabric to another, by serial number, that the root computes: links as
(serial, port, serial, port). The spec names shortest legal paths of up*/down* routing on the root's spanning tree and a disjoint
alternate; it does not say which spanning tree. -/
opaque Config.fabRoute : (links : List (Nat × Nat × Nat × Nat)) → (root src dst : Nat) → Option FabRoute

/-- OPEN ALGORITHM (R567, R568). The ports of a device that are tree edges. -/
opaque Config.fabTree : (links : List (Nat × Nat × Nat × Nat)) → (root dev : Nat) → List Nat

/-- OPEN ALGORITHM (R576). The rate correction, in parts per 10^9 and before its limit of 100 ppm, after an exchange: offset in ps,
present correction. -/
opaque Config.fabSlew : (ofs rate : Int) → Int

/-- IMPLEMENTATION CONSTANT. The Device Serial Number fused in the device (STW_DSN). -/
opaque Config.serialNumber : BitVec 64

/-- IMPLEMENTATION CONSTANT. The fused trims of the housekeeping converter (PWR_HK_TRIM, R624). -/
opaque Config.hkTrim : BitVec 32

/-- OPEN SCALING (R622, R624). The value of a corrected code of a housekeeping channel in the unit of its row: channel, full scale of
the sense part (PWR_CXP_SCALE or PWR_CORE_SCALE; 0 for other channels), corrected code. The spec gives the full scale of the sense
inputs, and states neither a sensor's law nor the rounding. -/
opaque Config.hkValue : (ch scale : Nat) → (code : Int) → BitVec 16

/-- IMPLEMENTATION CONSTANT. The fused voltage table (R632): the VDD_CORE target in mV for a cap in units of 125 MHz, less 650. -/
opaque Config.vcoreTable : Nat → Fin 201

/-- The VDD_CORE target in mV for a cap (R632: 0.65 V to 0.85 V). -/
def Config.vcore (cap : Nat) : Nat := 650 + (Config.vcoreTable cap).val

end Sys2Proof
end

