-- ==== Sys2Proof/Machine/Tbl.lean ====
section
/-! DEFINITION. Sparse tables in one canonical form: pairs of a key and a value, keys strictly rising, and no entry equal
to what an unlisted key reads as. Every register, memory and per-instance record of the model is held in one. -/

namespace Sys2Proof.Machine

/-- A sparse table from keys (addresses or instance numbers) to values. -/
abbrev Tbl (α : Type) := List (Nat × α)

/-- What the table holds at a key; an unlisted key reads as `dflt`. -/
def Tbl.get (dflt : Nat → α) : Tbl α → Nat → α
  | [], k => dflt k
  | (i, v) :: rest, k => if k = i then v else Tbl.get dflt rest k

/-- The table without an entry for the key. -/
def Tbl.drop : Tbl α → Nat → Tbl α
  | [], _ => []
  | (i, v) :: rest, k => if k = i then Tbl.drop rest k else (i, v) :: Tbl.drop rest k

/-- The table with an entry for the key. -/
def Tbl.put : Tbl α → Nat → α → Tbl α
  | [], k, x => [(k, x)]
  | (i, v) :: rest, k, x =>
    if k = i then (i, x) :: rest else if k < i then (k, x) :: (i, v) :: rest else (i, v) :: Tbl.put rest k x

/-- The table after `x` is stored at `k`: storing what an unlisted key reads as removes the entry. -/
def Tbl.set [DecidableEq α] (dflt : Nat → α) (t : Tbl α) (k : Nat) (x : α) : Tbl α :=
  if x = dflt k then t.drop k else t.put k x

/-- All keys of the table are above `lo`, rise strictly, and no entry holds the unlisted value. -/
def Tbl.wfFrom [DecidableEq α] (dflt : Nat → α) : Nat → Tbl α → Bool
  | _, [] => true
  | lo, (i, v) :: rest => decide (lo ≤ i) && decide (v ≠ dflt i) && Tbl.wfFrom dflt (i + 1) rest

/-- The canonical form. -/
def Tbl.wf [DecidableEq α] (dflt : Nat → α) (t : Tbl α) : Bool := t.wfFrom dflt 0

/-- The table with every entry whose key fails `keep` removed. -/
def Tbl.keep (p : Nat → Bool) : Tbl α → Tbl α
  | [] => []
  | (i, v) :: rest => if p i then (i, v) :: Tbl.keep p rest else Tbl.keep p rest

/-- The byte an unwritten address reads as where the model chooses zero. -/
def zeroByte (_ : Nat) : Byte := 0

/-- `n` consecutive bytes of a memory, lowest address first. -/
def Tbl.bytes (dflt : Nat → Byte) (t : Tbl Byte) (a : Nat) : Nat → List Byte
  | 0 => []
  | n + 1 => t.get dflt a :: Tbl.bytes dflt t (a + 1) n

/-- The memory after consecutive bytes are stored from `a` upwards. -/
def Tbl.setBytes (dflt : Nat → Byte) (t : Tbl Byte) (a : Nat) : List Byte → Tbl Byte
  | [] => t
  | b :: rest => Tbl.setBytes dflt (t.set dflt a b) (a + 1) rest

/-- The little-endian number of a list of bytes (R7). -/
def leNat : List Byte → Nat
  | [] => 0
  | b :: rest => b.toNat + 256 * leNat rest

/-- The `n` little-endian bytes of a number (R7). -/
def leBytes : Nat → Nat → List Byte
  | 0, _ => []
  | n + 1, v => BitVec.ofNat 8 v :: leBytes n (v / 256)

end Sys2Proof.Machine
end

