-- ==== Sys2Proof/Machine/RegMap.lean ====
section
/-! DEFINITION. The register map of BAR0: the offset, repetition, width, reset value and access masks of every register of
the spec's register maps, the offsets as functions of the instance, and the places of the named fields. Written from the
register-map and field tables of spec/02 to spec/18 (R15 gives the access types, R21 the reset column). -/

namespace Sys2Proof.Machine

/-- One row of a register map. `dims` lists the repetitions (count, stride), outermost first. A mask bit is 1 where a field
of that access type stands (R15); bits in no mask are reserved (R14). -/
structure RegRow where
  base  : Nat
  dims  : List (Nat × Nat) := []
  wide  : Bool := false
  reset : Nat := 0
  rw    : Nat := 0
  w1c   : Nat := 0
  rc    : Nat := 0
  rwl   : Nat := 0
  wo    : Nat := 0
  ro    : Nat := 0
deriving DecidableEq, Repr

/-- A named field of a register: its lowest bit and its width. -/
structure Fld where
  lo : Nat
  w  : Nat
deriving DecidableEq, Repr

/-- The register map of block GLB. -/
def RegMap.glb : List RegRow := [
  { base := 0x0, reset := 0x480000B0, ro := 0xFFFFFFFF },  -- GLB_ID
  { base := 0x4, ro := 0xF0FC0000 },  -- GLB_STATUS
  { base := 0x8, ro := 0xF800FFFF },  -- GLB_CASTON
  { base := 0x10, w1c := 0x10000, wo := 0xFF00000F },  -- GLB_SERVICE
  { base := 0x20, w1c := 0xF, ro := 0x7FFF0 },  -- GLB_ERR
  { base := 0x24, rc := 0xFFFFFFFF },  -- GLB_ERR_CNT0
  { base := 0x28, rc := 0xFFFF },  -- GLB_ERR_CNT1
  { base := 0x30, w1c := 0x80000000, ro := 0x700000FF },  -- GLB_DENY_INFO
  { base := 0x38, wide := true, ro := 0xFFFFFFFFFFFFFFFF },  -- GLB_DENY_ADDR
  { base := 0x40, wide := true, ro := 0xFFFFFFFFFFFFFFFF },  -- GLB_DENY_TS
  { base := 0x50, w1c := 0x1FF },  -- GLB_INT_STATUS
  { base := 0x54, rw := 0x1FF },  -- GLB_INT_EN
  { base := 0x58, rw := 0xFFFF },  -- GLB_HOST_RID
  { base := 0x100, dims := [(16, 0x4)], reset := 0x3C3, rwl := 0xFF3F, ro := 0xC0 }  -- GLB_ACC
]

/-- The register map of block STW. -/
def RegMap.stw : List RegRow := [
  { base := 0x10000, ro := 0xFC000000 },  -- STW_STATUS
  { base := 0x10004, w1c := 0x3F },  -- STW_ERR
  { base := 0x10008, rw := 0x3F },  -- STW_ERR_MASK
  { base := 0x1000C, wo := 0xFF000001 },  -- STW_RESET
  { base := 0x10010, w1c := 0x3F },  -- STW_RESET_CAUSE
  { base := 0x10014, ro := 0xFFFFFFFF },  -- STW_BOOT_CNT
  { base := 0x10018, ro := 0xFFFFFFFF },  -- STW_CASTON_TIME
  { base := 0x1001C, ro := 0xFFFFFFFF },  -- STW_IMAGE_VER
  { base := 0x10020, ro := 0xFFFFFFFF },  -- STW_COMMIT_SEQ
  { base := 0x10024, ro := 0xFFFFFFFF },  -- STW_BOARD_SEQ
  { base := 0x10030, rw := 0xF, wo := 0x80000000 },  -- STW_NVM_CMD
  { base := 0x10034, w1c := 0x40000000, ro := 0x8FF00000 },  -- STW_NVM_STATUS
  { base := 0x10038, wide := true, rw := 0xFFFFFFFFFFFFFFFF },  -- STW_NVM_DA
  { base := 0x10040, rw := 0xFFFFFFFF },  -- STW_NVM_ADDR
  { base := 0x10044, rw := 0xFFFFFFFF },  -- STW_NVM_LEN
  { base := 0x10048, rw := 0xFFFFFFFF },  -- STW_NVM_ARG
  { base := 0x1004C, ro := 0xFFFFFFFF },  -- STW_NVM_PROGRESS
  { base := 0x10050, ro := 0xFFFFFFFF },  -- STW_NVM_HWM
  { base := 0x10058, ro := 0xFFFFFFFF },  -- STW_LOG_HEAD
  { base := 0x1005C, ro := 0xFFFFFFFF },  -- STW_LOG_SEQ
  { base := 0x10060, wo := 0x1 },  -- STW_LOG_CTL
  { base := 0x10064, rc := 0xFFFF, ro := 0xF1FF0000 },  -- STW_LOG_STATUS
  { base := 0x10070, rw := 0x1 },  -- STW_TEST_CFG
  { base := 0x10074, rc := 0xFFFF },  -- STW_TEST_STATUS
  { base := 0x10078, wide := true, ro := 0xFFFFFFFFFFFFFFFF }  -- STW_DSN
]

/-- The register map of block PWR. -/
def RegMap.pwr : List RegRow := [
  { base := 0x20000, ro := 0xFF1FFFFF },  -- PWR_STATUS
  { base := 0x20004, wo := 0xFF000003 },  -- PWR_CTL
  { base := 0x20008, w1c := 0x7F },  -- PWR_ERR
  { base := 0x2000C, rw := 0x7F },  -- PWR_ERR_MASK
  { base := 0x20010, rc := 0xFFFFFFFF },  -- PWR_CNT0
  { base := 0x20014, rc := 0xFFFFFFFF },  -- PWR_CNT1
  { base := 0x20018, reset := 0x6830010A, rw := 0xFFF0FFFF },  -- PWR_THERM_CFG
  { base := 0x2001C, reset := 0x80320258, rw := 0x80FFFFFF },  -- PWR_ILIM_CFG
  { base := 0x20020, reset := 0x3E8, rw := 0xFFFF },  -- PWR_CORE_SCALE
  { base := 0x20024, reset := 0x7D0, rw := 0xFFFF },  -- PWR_CXP_SCALE
  { base := 0x20028, reset := 0x40000000, rw := 0xC0000000 },  -- PWR_WATCH_CFG
  { base := 0x2002C, ro := 0xFFFFFFFF },  -- PWR_VCORE
  { base := 0x20030, rw := 0x8000007F },  -- PWR_HK_CFG
  { base := 0x20034, wo := 0x8000007F },  -- PWR_HK_URGENT
  { base := 0x20038, rc := 0xE07FFFFF },  -- PWR_HK_RESULT
  { base := 0x2003C, ro := 0xFFFFFFFF },  -- PWR_HK_TRIM
  { base := 0x20040, w1c := 0x3FF },  -- PWR_SUPPLY_FLAGS
  { base := 0x20100, dims := [(96, 0x4)], ro := 0xFFFFFFFF },  -- PWR_HK_VAL
  { base := 0x20300, dims := [(24, 0x4)], reset := 0x8000, rc := 0xFFFF }  -- PWR_TEMP_MAX
]

/-- The register map of block CHAIN. -/
def RegMap.chain : List RegRow := [
  { base := 0x40000, w1c := 0x7 },  -- CHAIN_ERR
  { base := 0x40004, rw := 0x7 },  -- CHAIN_ERR_MASK
  { base := 0x40008, wo := 0x3F },  -- CHAIN_FIRE
  { base := 0x40010, wide := true, wo := 0xFFFFFFFFFFFFFFFF },  -- CHAIN_FIRE_MULTI
  { base := 0x40018, w1c := 0x80000000, ro := 0x3F01FF },  -- CHAIN_LOOP_INFO
  { base := 0x40020, wide := true, w1c := 0xFFFFFFFFFFFFFFFF },  -- CHAIN_IRQ_STATUS
  { base := 0x40028, wide := true, rw := 0xFFFFFFFFFFFFFFFF },  -- CHAIN_IRQ_EN
  { base := 0x40100, dims := [(64, 0x10)], rwl := 0xC00003FF, ro := 0x20000000 },  -- CHAIN_CH_CFG
  { base := 0x40104, dims := [(64, 0x10)], reset := 0xFF, rw := 0x800000FF },  -- CHAIN_CH_OWN
  { base := 0x40108, dims := [(64, 0x10)], rc := 0xFFFFFFFF },  -- CHAIN_CH_CNT
  { base := 0x4010C, dims := [(64, 0x10)], rc := 0xFFFFFFFF },  -- CHAIN_CH_CNT2
  { base := 0x41000, dims := [(512, 0x4)], rwl := 0x8000003F },  -- CHAIN_SRC_CFG
  { base := 0x42000, dims := [(512, 0x8)], rwl := 0xBFBF0000, ro := 0x8000 },  -- CHAIN_TASK_CFG
  { base := 0x42004, dims := [(512, 0x8)], rc := 0xFFFFFFFF },  -- CHAIN_TASK_CNT
  { base := 0x43000, dims := [(16, 0x10)], reset := 0x1, rw := 0xC0FFFFFF },  -- CHAIN_CTR_CFG
  { base := 0x43004, dims := [(16, 0x10)], rw := 0xFFFFFF }  -- CHAIN_CTR_VAL
]

/-- The register map of block GAUGE. -/
def RegMap.gauge : List RegRow := [
  { base := 0x50000, wo := 0x1 },  -- GAUGE_SNAP
  { base := 0x50004, ro := 0xFFFFFFFF },  -- GAUGE_SNAP_SEQ
  { base := 0x50010, reset := 0x80000018, rw := 0x800000FF },  -- GAUGE_CHECK_CFG
  { base := 0x50014, ro := 0xF800FFFF },  -- GAUGE_CHECK_STATUS
  { base := 0x50100, dims := [(4, 0x100)], reset := 0x102D0100, rw := 0xF0FFFFFF },  -- GAUGE_AXIS_CFG
  { base := 0x50104, dims := [(4, 0x100)], wo := 0x7 },  -- GAUGE_AXIS_CTL
  { base := 0x50108, dims := [(4, 0x100)], ro := 0xFE000FFF },  -- GAUGE_AXIS_STATUS
  { base := 0x5010C, dims := [(4, 0x100)], w1c := 0x1FF },  -- GAUGE_ERR
  { base := 0x50110, dims := [(4, 0x100)], rw := 0x1FF },  -- GAUGE_ERR_MASK
  { base := 0x50114, dims := [(4, 0x100)], rc := 0xFFFFFFFF },  -- GAUGE_CNT0
  { base := 0x50118, dims := [(4, 0x100)], rc := 0xFFFFFFFF },  -- GAUGE_CNT1
  { base := 0x5011C, dims := [(4, 0x100)], ro := 0xFFFF },  -- GAUGE_AMP
  { base := 0x50120, dims := [(4, 0x100)], reset := 0x1, rw := 0xFFFFFFFF },  -- GAUGE_SCALE_NUM
  { base := 0x50124, dims := [(4, 0x100)], reset := 0x1, rw := 0xFFFFFFFF },  -- GAUGE_SCALE_DEN
  { base := 0x50128, dims := [(4, 0x100)], reset := 0x4000064, rw := 0xC703FFFF },  -- GAUGE_SPEED_CFG
  { base := 0x5012C, dims := [(4, 0x100)], rw := 0xE0000FFF },  -- GAUGE_REF_CFG
  { base := 0x50130, dims := [(4, 0x100)], wide := true, rw := 0xFFFFFFFFFFFFFFFF },  -- GAUGE_ZERO_VALUE
  { base := 0x50138, dims := [(4, 0x100)], wide := true, rw := 0xFFFFFFFFFFFFFFFF },  -- GAUGE_REF_VALUE
  { base := 0x50140, dims := [(4, 0x100)], wide := true, ro := 0xFFFFFFFFFFFFFFFF },  -- GAUGE_WP
  { base := 0x50148, dims := [(4, 0x100)], wide := true, ro := 0xFFFFFFFFFFFFFFFF },  -- GAUGE_WP_TS
  { base := 0x50150, dims := [(4, 0x100)], ro := 0xFFFFFFFF },  -- GAUGE_SPEED
  { base := 0x50154, dims := [(4, 0x100)], ro := 0xFFFFFFFF },  -- GAUGE_SPEED_P
  { base := 0x50158, dims := [(4, 0x100)], ro := 0xFFFFFFFF },  -- GAUGE_SPEED_D
  { base := 0x5015C, dims := [(4, 0x100)], ro := 0xFFFFFFFF },  -- GAUGE_WATCH_CNT
  { base := 0x50160, dims := [(4, 0x100)], wide := true, ro := 0xFFFFFFFFFFFFFFFF },  -- GAUGE_REF_WP
  { base := 0x50168, dims := [(4, 0x100)], wide := true, ro := 0xFFFFFFFFFFFFFFFF },  -- GAUGE_REF_TS
  { base := 0x50170, dims := [(4, 0x100)], wide := true, ro := 0xFFFFFFFFFFFFFFFF },  -- GAUGE_STEP
  { base := 0x50178, dims := [(4, 0x100)], reset := 0x10, rw := 0x8000FFFF },  -- GAUGE_WATCH
  { base := 0x5017C, dims := [(4, 0x100)], rw := 0xFFFFFFFF },  -- GAUGE_CORR_OFS
  { base := 0x50180, dims := [(4, 0x100)], reset := 0x80000000, rw := 0xFFFFFFFF },  -- GAUGE_CORR_GP
  { base := 0x50188, dims := [(4, 0x100)], wide := true, ro := 0xFFFFFFFFFFFFFFFF },  -- GAUGE_SNAP_WP
  { base := 0x50190, dims := [(4, 0x100)], wide := true, ro := 0xFFFFFFFFFFFFFFFF },  -- GAUGE_SNAP_TS
  { base := 0x50198, dims := [(4, 0x100)], ro := 0xFFFFFFFF }  -- GAUGE_SNAP_SPEED
]

/-- The register map of block TRIG. -/
def RegMap.trig : List RegRow := [
  { base := 0x60000, w1c := 0x7F },  -- TRIG_ERR
  { base := 0x60004, rw := 0x7F },  -- TRIG_ERR_MASK
  { base := 0x60010, rw := 0x8000003F, ro := 0x3F00 },  -- TRIG_BANK_CFG
  { base := 0x60020, rw := 0x1F },  -- TRIG_LIST_SEL
  { base := 0x60400, dims := [(16, 0x100)], rw := 0xFC000000 },  -- TRIG_CMP_CFG
  { base := 0x60404, dims := [(16, 0x100)], wo := 0x13 },  -- TRIG_CMP_CTL
  { base := 0x60408, dims := [(16, 0x100)], ro := 0xE0000000 },  -- TRIG_CMP_STATUS
  { base := 0x6040C, dims := [(16, 0x100)], rc := 0xFFFFFFFF },  -- TRIG_CMP_CNT
  { base := 0x60410, dims := [(16, 0x100)], rw := 0xFFFF },  -- TRIG_CMP_LEAD
  { base := 0x60414, dims := [(16, 0x100)], ro := 0xFFFFFFFF },  -- TRIG_CMP_PTR
  { base := 0x60418, dims := [(16, 0x100)], wide := true, rw := 0xFFFFFFFFFFFFFFFF },  -- TRIG_CMP_OFS
  { base := 0x60420, dims := [(16, 0x100)], wide := true, ro := 0xFFFFFFFFFFFFFFFF },  -- TRIG_CMP_HWM
  { base := 0x60428, dims := [(16, 0x100)], wide := true, ro := 0xFFFFFFFFFFFFFFFF },  -- TRIG_CMP_LAST_WP
  { base := 0x60430, dims := [(16, 0x100)], wide := true, ro := 0xFFFFFFFFFFFFFFFF },  -- TRIG_CMP_LAST_TS
  { base := 0x60438, dims := [(16, 0x100)], ro := 0xFFFFFFFF },  -- TRIG_CMP_FIRE_CNT
  { base := 0x60440, dims := [(16, 0x100), (2, 0x20)], wide := true, rw := 0xFFFFFFFFFFFFFFFF },  -- TRIG_CMP_START
  { base := 0x60448, dims := [(16, 0x100), (2, 0x20)], wide := true, rw := 0xFFFFFFFFFFFF },  -- TRIG_CMP_PITCH
  { base := 0x60450, dims := [(16, 0x100), (2, 0x20)], rw := 0xFFFFFFFF },  -- TRIG_CMP_COUNT
  { base := 0x60454, dims := [(16, 0x100), (2, 0x20)], rw := 0x80001FFF },  -- TRIG_CMP_LIST_CFG
  { base := 0x60458, dims := [(16, 0x100), (2, 0x20)], wide := true, rw := 0xFFFFFFFFFFFFFFFF },  -- TRIG_CMP_REPEAT
  { base := 0x61400, dims := [(32, 0x10)], reset := 0x3E8, rw := 0xF00FFFFF },  -- TRIG_OUT_CFG
  { base := 0x61404, dims := [(32, 0x10)], rc := 0xFFFF },  -- TRIG_OUT_CNT
  { base := 0x61600, dims := [(16, 0x20)], rw := 0xFC0000FF },  -- TRIG_IN_CFG
  { base := 0x61604, dims := [(16, 0x20)], rc := 0xFFFFFFFF },  -- TRIG_IN_CNT
  { base := 0x61608, dims := [(16, 0x20)], wide := true, ro := 0xFFFFFFFFFFFFFFFF },  -- TRIG_IN_CAP_WP
  { base := 0x61610, dims := [(16, 0x20)], wide := true, ro := 0xFFFFFFFFFFFFFFFF },  -- TRIG_IN_CAP_TS
  { base := 0x61800, dims := [(48, 0x10)], reset := 0x3E8, rw := 0xC00FFFFF },  -- TRIG_PKT_CFG
  { base := 0x61804, dims := [(48, 0x10)], rc := 0xFFFFFFFF },  -- TRIG_PKT_CNT
  { base := 0x61C00, dims := [(48, 0x4)], rw := 0xF000003F },  -- TRIG_CAM_SRC
  { base := 0x61D00, dims := [(48, 0x4)], rc := 0xFFFF, ro := 0x7FF0000 },  -- TRIG_LEDGER_STATUS
  { base := 0x68000, dims := [(4096, 0x8)], wide := true, rw := 0xFFFFFFFFFFFFFFFF }  -- TRIG_LIST
]

/-- The register map of block CLL. -/
def RegMap.cll : List RegRow := [
  { base := 0x100000, dims := [(48, 0x1000)], reset := 0x60000000, rw := 0xFF80FFFF },  -- CLL_CFG
  { base := 0x100004, dims := [(48, 0x1000)], wo := 0x3E },  -- CLL_CTL
  { base := 0x100008, dims := [(48, 0x1000)], ro := 0xFFF88000 },  -- CLL_STATUS
  { base := 0x10000C, dims := [(48, 0x1000)], ro := 0xFF07FF00 },  -- CLL_GROUP
  { base := 0x100010, dims := [(48, 0x1000)], w1c := 0x7FF },  -- CLL_ERR
  { base := 0x100014, dims := [(48, 0x1000)], reset := 0x8, rw := 0x7FF },  -- CLL_ERR_MASK
  { base := 0x100018, dims := [(48, 0x1000)], rc := 0xFFFFFFFF },  -- CLL_CNT0
  { base := 0x10001C, dims := [(48, 0x1000)], rc := 0xFFFFFFFF },  -- CLL_CNT1
  { base := 0x100020, dims := [(48, 0x1000)], rc := 0xFFFFFFFF },  -- CLL_CNT2
  { base := 0x100024, dims := [(48, 0x1000)], rc := 0xFFFFFFFF },  -- CLL_CNT3
  { base := 0x100028, dims := [(48, 0x1000)], reset := 0x2, rw := 0x7, ro := 0x70 },  -- CLL_EQ
  { base := 0x10002C, dims := [(48, 0x1000)], rw := 0x80000033 },  -- CLL_IND
  { base := 0x100030, dims := [(48, 0x1000)], reset := 0x430A0258, rw := 0xCFFFFFFF },  -- CLL_PWR
  { base := 0x100034, dims := [(48, 0x1000)], ro := 0xFF00FFFF },  -- CLL_PWR_STATUS
  { base := 0x100040, dims := [(48, 0x1000)], rw := 0x400001FF, wo := 0x80000000 },  -- CLL_CTRL_CMD
  { base := 0x100044, dims := [(48, 0x1000)], rw := 0xFFFFFFFF },  -- CLL_CTRL_ADDR
  { base := 0x100048, dims := [(48, 0x1000)], w1c := 0x40000000, ro := 0x8FFFFFFF },  -- CLL_CTRL_STATUS
  { base := 0x10004C, dims := [(48, 0x1000)], ro := 0xFFFFFFFF },  -- CLL_EVT_CNT
  { base := 0x100050, dims := [(48, 0x1000)], wide := true, ro := 0xFFFFFFFFFFFFFFFF },  -- CLL_HB_TIME
  { base := 0x100058, dims := [(48, 0x1000)], wide := true, ro := 0xFFFFFFFFFFFFFFFF },  -- CLL_HB_TS
  { base := 0x100400, dims := [(48, 0x1000), (64, 0x4)], rw := 0xFFFFFFFF },  -- CLL_CTRL_BUF
  { base := 0x100800, reset := 0x7D0, rw := 0xC000FFFF },  -- CLL_PNL_CFG
  { base := 0x100808, wide := true, ro := 0xFFFFFFFFFFFF }  -- CLL_PNL_BTN
]

/-- The register map of block ASM. -/
def RegMap.asm : List RegRow := [
  { base := 0x140000, dims := [(48, 0x800)], rw := 0xFC3FFFFF },  -- ASM_CAM_CFG
  { base := 0x140004, dims := [(48, 0x800)], rw := 0xFFFFFF },  -- ASM_FRAME_CFG
  { base := 0x140008, dims := [(48, 0x800)], rw := 0xFFFF },  -- ASM_WIDTH
  { base := 0x14000C, dims := [(48, 0x800)], wo := 0x7 },  -- ASM_CTL
  { base := 0x140010, dims := [(48, 0x800)], wide := true, rw := 0xFFFFFFFFFFFFFFFF },  -- ASM_FRAME_ORG
  { base := 0x140018, dims := [(48, 0x800)], wide := true, rw := 0xFFFFFFFFFFFFFFFF },  -- ASM_FRAME_LEN
  { base := 0x140020, dims := [(48, 0x800)], rw := 0xFFFFFFFF },  -- ASM_LAT_MIN
  { base := 0x140024, dims := [(48, 0x800)], rw := 0xFFFFFFFF },  -- ASM_LAT_MAX
  { base := 0x140028, dims := [(48, 0x800)], ro := 0xF0FFFFFF },  -- ASM_STATUS
  { base := 0x14002C, dims := [(48, 0x800)], ro := 0xFFFFFFFF },  -- ASM_FRAME_SEQ
  { base := 0x140030, dims := [(48, 0x800)], reset := 0xFFFFFFFF, ro := 0xFFFFFFFF },  -- ASM_LAST_TRIG
  { base := 0x140034, dims := [(48, 0x800)], w1c := 0x7FF },  -- ASM_ERR
  { base := 0x140038, dims := [(48, 0x800)], rw := 0x7FF },  -- ASM_ERR_MASK
  { base := 0x14003C, dims := [(48, 0x800)], rc := 0xFFFFFFFF },  -- ASM_CNT0
  { base := 0x140040, dims := [(48, 0x800)], rc := 0xFFFFFFFF },  -- ASM_CNT1
  { base := 0x140044, dims := [(48, 0x800)], rc := 0xFFFFFFFF },  -- ASM_CNT2
  { base := 0x140048, dims := [(48, 0x800)], rc := 0xFFFFFFFF },  -- ASM_CNT3
  { base := 0x14004C, dims := [(48, 0x800)], rc := 0xFFFFFFFF },  -- ASM_CNT4
  { base := 0x140050, dims := [(48, 0x800)], rc := 0xFFFFFFFF },  -- ASM_EXCESS
  { base := 0x140054, dims := [(48, 0x800)], reset := 0x280020, rw := 0xFF00FF },  -- ASM_Q_CFG
  { base := 0x140058, dims := [(48, 0x800)], ro := 0xF0003FFF },  -- ASM_Q_STATUS
  { base := 0x14005C, dims := [(48, 0x800)], rc := 0x3FFF }  -- ASM_Q_HWM
]

/-- The register map of block CAR. -/
def RegMap.car : List RegRow := [
  { base := 0x180000, dims := [(4, 0x10000)], rw := 0xC0000000 },  -- CAR_CFG
  { base := 0x180004, dims := [(4, 0x10000)], wo := 0x1 },  -- CAR_CTL
  { base := 0x180008, dims := [(4, 0x10000)], ro := 0xFFF003FF },  -- CAR_STATUS
  { base := 0x18000C, dims := [(4, 0x10000)], w1c := 0x7FF },  -- CAR_ERR
  { base := 0x180010, dims := [(4, 0x10000)], rw := 0x7FF },  -- CAR_ERR_MASK
  { base := 0x180014, dims := [(4, 0x10000)], rc := 0xFFFFFFFF },  -- CAR_CNT0
  { base := 0x180018, dims := [(4, 0x10000)], rc := 0xFFFFFFFF },  -- CAR_CNT1
  { base := 0x18001C, dims := [(4, 0x10000)], rc := 0xFFFFFFFF },  -- CAR_CNT2
  { base := 0x180020, dims := [(4, 0x10000)], wide := true, ro := 0xFFFFFFFFFFFFFFFF },  -- CAR_CPB_IN_USE
  { base := 0x180028, dims := [(4, 0x10000)], ro := 0xFFFFFFFF },  -- CAR_FRAMES
  { base := 0x188000, dims := [(48, 0x100)], rw := 0xF01F0000 },  -- CAR_CAM_PATH
  { base := 0x188004, dims := [(48, 0x100)], reset := 0x1000064, rw := 0xCF00FFFF },  -- CAR_MDL_CFG
  { base := 0x188008, dims := [(48, 0x100)], reset := 0xFFFF, rw := 0xFFFFFFFF },  -- CAR_MDL_WIN
  { base := 0x18800C, dims := [(48, 0x100)], ro := 0xFFFFFFFF },  -- CAR_MDL_STATUS
  { base := 0x188010, dims := [(48, 0x100)], wide := true, rw := 0xFFFFFFFFFFFFFFFF },  -- CAR_MDL_PITCH
  { base := 0x188018, dims := [(48, 0x100)], wide := true, rw := 0xFFFFFFFFFFFFFFFF },  -- CAR_SET_TGT
  { base := 0x188020, dims := [(48, 0x100)], wide := true, rw := 0xFFFFFFFFFFFFFFFF },  -- CAR_SET_CPB
  { base := 0x188028, dims := [(48, 0x100)], rw := 0x7800001F, wo := 0x80000000 },  -- CAR_SET_CTL
  { base := 0x18802C, dims := [(48, 0x100)], w1c := 0x20000000, ro := 0xCF00FFFF },  -- CAR_SET_STATUS
  { base := 0x188030, dims := [(48, 0x100)], rc := 0xFFFFFFFF },  -- CAR_MDL_CNT
  { base := 0x188034, dims := [(48, 0x100)], ro := 0xFFFFFFFF },  -- CAR_SET_EFFECT
  { base := 0x188040, dims := [(48, 0x100), (4, 0x8)], wide := true, rw := 0xFFFFFFFFFFFFFFFF },  -- CAR_MDL_CHUNK
  { base := 0x188060, dims := [(48, 0x100), (4, 0x4)], ro := 0xFFFFFFFF },  -- CAR_MDL_SHADOW
  { base := 0x188080, dims := [(48, 0x100), (16, 0x8)], wide := true, rw := 0xFFFFFFFFFFFFFFFF }  -- CAR_SET_W
]

/-- The register map of block STE. -/
def RegMap.ste : List RegRow := [
  { base := 0x200000, dims := [(16, 0x10000)], reset := 0x6400FFFF, rw := 0xE700FFFF },  -- STE_CFG
  { base := 0x200004, dims := [(16, 0x10000)], wo := 0x8000010F },  -- STE_CTL
  { base := 0x200008, dims := [(16, 0x10000)], ro := 0xCFFFFFFF },  -- STE_STATUS
  { base := 0x20000C, dims := [(16, 0x10000)], w1c := 0x3FF },  -- STE_ERR
  { base := 0x200010, dims := [(16, 0x10000)], rw := 0x3FF },  -- STE_ERR_MASK
  { base := 0x200014, dims := [(16, 0x10000)], rc := 0xFFFFFFFF },  -- STE_CNT0
  { base := 0x200018, dims := [(16, 0x10000)], rc := 0xFFFFFFFF },  -- STE_CNT1
  { base := 0x20001C, dims := [(16, 0x10000)], rc := 0xFFFFFFFF },  -- STE_CNT2
  { base := 0x200020, dims := [(16, 0x10000)], rc := 0xFFFFFFFF },  -- STE_CNT3
  { base := 0x200024, dims := [(16, 0x10000)], reset := 0x20007D0, rw := 0xF0FFFFF },  -- STE_WDOG
  { base := 0x200028, dims := [(16, 0x10000)], reset := 0x18, rw := 0x1F },  -- STE_FCAP
  { base := 0x20002C, dims := [(16, 0x10000)], ro := 0xFFFFFFFF },  -- STE_KMASK
  { base := 0x200030, dims := [(16, 0x10000)], ro := 0x3FF },  -- STE_LOAD
  { base := 0x200034, dims := [(16, 0x10000)], ro := 0x1FF01FF },  -- STE_DEFER
  { base := 0x201000, dims := [(16, 0x10000), (16, 0x20)], ro := 0xE03FFFFF },  -- STE_ENG_STATUS
  { base := 0x201004, dims := [(16, 0x10000), (16, 0x20)], ro := 0xFFFF0000 },  -- STE_ENG_ITEM
  { base := 0x201008, dims := [(16, 0x10000), (16, 0x20)], ro := 0xFFFFFFFF },  -- STE_ENG_SEQ
  { base := 0x20100C, dims := [(16, 0x10000), (16, 0x20)], ro := 0xFFFFF },  -- STE_ENG_RUN
  { base := 0x201010, dims := [(16, 0x10000), (16, 0x20)], ro := 0xFFFFFFFF },  -- STE_ENG_DONE
  { base := 0x204000, reset := 0x400, rw := 0xFFF },  -- STE_ORD_CFG
  { base := 0x204004, ro := 0x80003FFF },  -- STE_ORD_STATUS
  { base := 0x208000, dims := [(48, 0x40)], rw := 0x9F00FFFF },  -- STE_CAM_CFG
  { base := 0x208004, dims := [(48, 0x40)], reset := 0x22100040, rw := 0xFFFFFFFF },  -- STE_CAM_TILE
  { base := 0x208008, dims := [(48, 0x40)], reset := 0x4000000, rw := 0xF1FF000 },  -- STE_CAM_BANDS
  { base := 0x20800C, dims := [(48, 0x40)], rw := 0x1FFFFF },  -- STE_CAM_PARAM
  { base := 0x208010, dims := [(48, 0x40)], ro := 0xFFFFFFFF },  -- STE_CAM_SEQ
  { base := 0x208014, dims := [(48, 0x40)], ro := 0xFFFFFFFF },  -- STE_CAM_ORD
  { base := 0x208018, dims := [(48, 0x40)], rc := 0xFFFFFFFF }  -- STE_CAM_CNT
]

/-- The register map of block JOB. -/
def RegMap.job : List RegRow := [
  { base := 0x300000, ro := 0xFFFFCFC0 },  -- JOB_STATUS
  { base := 0x300004, wo := 0xFE },  -- JOB_CTL
  { base := 0x300008, w1c := 0xFF },  -- JOB_ERR
  { base := 0x30000C, rw := 0xFF },  -- JOB_ERR_MASK
  { base := 0x300010, rc := 0xFFFFFFFF },  -- JOB_CNT0
  { base := 0x300014, rc := 0xFFFFFFFF },  -- JOB_CNT1
  { base := 0x300018, wide := true, rw := 0xFFFFFFFFFFFFFFFF },  -- JOB_STAGE_DA
  { base := 0x300020, w1c := 0x40000000, ro := 0x8FFF0000 },  -- JOB_STAGE_STATUS
  { base := 0x300024, rw := 0xF03F0000 },  -- JOB_SPLICE_CFG
  { base := 0x300028, wide := true, rw := 0xFFFFFFFFFFFFFFFF },  -- JOB_MARK
  { base := 0x300030, wide := true, reset := 0x3B9ACA00, rw := 0xFFFFFFFFFFFFFFFF },  -- JOB_ARM_MIN
  { base := 0x300038, wide := true, rw := 0xFFFFFFFFFFFFFFFF },  -- JOB_FAB_OFS
  { base := 0x300040, wide := true, ro := 0xFFFFFFFFFFFFFFFF },  -- JOB_SPLICE_WP
  { base := 0x300048, wide := true, ro := 0xFFFFFFFFFFFFFFFF },  -- JOB_SPLICE_TS
  { base := 0x300050, ro := 0xFFFFFFFF },  -- JOB_ID0
  { base := 0x300054, ro := 0xFFFFFFFF },  -- JOB_ID1
  { base := 0x300058, ro := 0x807FFF7F },  -- JOB_SWATCH_STATUS
  { base := 0x300060, wide := true, ro := 0xFFFFFFFFFFFFFFFF },  -- JOB_SWATCH_CAMS
  { base := 0x300068, wide := true, w1c := 0xFFFFFFFFFFFFFFFF },  -- JOB_SWATCH_FAIL
  { base := 0x300070, rw := 0xFFFFFFFF },  -- JOB_FAB_LATE
  { base := 0x300074, w1c := 0x2000000, ro := 0xFC00FFFF },  -- JOB_ARM_STATUS
  { base := 0x300078, reset := 0x32, ro := 0xFFFF }  -- JOB_DEADLINE
]

/-- The register map of block HOOK. -/
def RegMap.hook : List RegRow := [
  { base := 0x340000, w1c := 0x1FF },  -- HOOK_ERR
  { base := 0x340004, rw := 0x1FF },  -- HOOK_ERR_MASK
  { base := 0x340008, wo := 0x1 },  -- HOOK_CTL
  { base := 0x34000C, ro := 0x7FFFFF },  -- HOOK_STATUS
  { base := 0x340010, w1c := 0xFFFF },  -- HOOK_IRQ_STATUS
  { base := 0x340014, rw := 0xFFFF },  -- HOOK_IRQ_EN
  { base := 0x340018, rc := 0xFFFFFFFF },  -- HOOK_CNT0
  { base := 0x340100, dims := [(16, 0x80)], wide := true, rw := 0xFFFFFFFFFFFFFFFF },  -- HOOK_SRC
  { base := 0x340108, dims := [(16, 0x80)], wide := true, rw := 0xFFFFFFFFFFFFFFFF },  -- HOOK_DST
  { base := 0x340110, dims := [(16, 0x80), (3, 0x4)], reset := 0x1, rw := 0xFFFF },  -- HOOK_COUNT
  { base := 0x34011C, dims := [(16, 0x80)], reset := 0x400000, rw := 0xF0F00007 },  -- HOOK_CFG
  { base := 0x340120, dims := [(16, 0x80), (3, 0x4)], rw := 0xFFFFFFFF },  -- HOOK_SSTEP
  { base := 0x340130, dims := [(16, 0x80), (3, 0x4)], rw := 0xFFFFFFFF },  -- HOOK_DSTEP
  { base := 0x34013C, dims := [(16, 0x80)], wo := 0x3 },  -- HOOK_CH_CTL
  { base := 0x340140, dims := [(16, 0x80)], w1c := 0x40000000, ro := 0xB8F0F000 },  -- HOOK_CH_STATUS
  { base := 0x340144, dims := [(16, 0x80)], rc := 0xFFFFFFFF },  -- HOOK_CH_CNT
  { base := 0x340148, dims := [(16, 0x80)], wide := true, ro := 0xFFFFFFFFFFFFFFFF },  -- HOOK_REMAIN
  { base := 0x340150, dims := [(16, 0x80)], wide := true, ro := 0xFFFFFFFFFFFF },  -- HOOK_RESIDUE
  { base := 0x340158, dims := [(16, 0x80)], wide := true, ro := 0xFFFFFFFFFFFFFFFF }  -- HOOK_FAIL_DA
]

/-- The register map of block HOST. -/
def RegMap.host : List RegRow := [
  { base := 0x380000, ro := 0xFFFF0000 },  -- HOST_STATUS
  { base := 0x380008, w1c := 0x3FFF },  -- HOST_ERR
  { base := 0x38000C, rw := 0x3FFF },  -- HOST_ERR_MASK
  { base := 0x380010, rc := 0xFFFFFFFF },  -- HOST_CNT0
  { base := 0x380014, rc := 0xFFFFFFFF },  -- HOST_CNT1
  { base := 0x380018, rc := 0xFFFFFFFF },  -- HOST_CNT2
  { base := 0x38001C, rc := 0xFFFFFFFF },  -- HOST_CNT3
  { base := 0x380020, rc := 0xFFFFFFFF },  -- HOST_CNT4
  { base := 0x380024, rc := 0xFFFFFFFF },  -- HOST_CNT5
  { base := 0x380028, ro := 0x3FF03FF },  -- HOST_TAGQ
  { base := 0x38002C, ro := 0xFFF },  -- HOST_ATS_STATUS
  { base := 0x380030, reset := 0x100, rw := 0xFF3FFFFF },  -- HOST_DLV_CFG
  { base := 0x380034, ro := 0xC00003FF },  -- HOST_DLV_STATUS
  { base := 0x380038, ro := 0xFFFFFFFF },  -- HOST_RX_SEQ
  { base := 0x380040, wo := 0x1 },  -- HOST_WIN_APPLY
  { base := 0x380044, w1c := 0x40000000, ro := 0x80000000 },  -- HOST_WIN_STATUS
  { base := 0x380048, ro := 0xFFFFFFFF },  -- HOST_WIN_APPLY_SEQ
  { base := 0x380080, dims := [(16, 0x4)], rw := 0x8000003F },  -- HOST_WIN_SHADOW
  { base := 0x3800C0, dims := [(16, 0x4)], ro := 0xFFFFFFFF },  -- HOST_WIN
  { base := 0x380100, dims := [(48, 0x4)], rw := 0xBF000000 },  -- HOST_CAM_DLV
  { base := 0x380200, dims := [(8, 0x4)], w1c := 0xFFFFFFFF },  -- HOST_INTX_PEND
  { base := 0x381000, dims := [(64, 0x40)], reset := 0x40400, rw := 0xF01F1F00 },  -- HOST_RING_CFG
  { base := 0x381004, dims := [(64, 0x40)], wo := 0x1 },  -- HOST_RING_CTL
  { base := 0x381008, dims := [(64, 0x40)], ro := 0xFC000000 },  -- HOST_RING_STATUS
  { base := 0x38100C, dims := [(64, 0x40)], rc := 0xFFFFFFFF },  -- HOST_RING_CNT
  { base := 0x381010, dims := [(64, 0x40)], wide := true, rw := 0xFFFFFFFFFFFFFFFF },  -- HOST_RING_DBASE
  { base := 0x381018, dims := [(64, 0x40)], wide := true, rw := 0xFFFFFFFFFFFFFFFF },  -- HOST_RING_CBASE
  { base := 0x381020, dims := [(64, 0x40)], rw := 0xFFFFFFFF },  -- HOST_RING_DTAIL
  { base := 0x381024, dims := [(64, 0x40)], ro := 0xFFFFFFFF },  -- HOST_RING_DHEAD
  { base := 0x381028, dims := [(64, 0x40)], rw := 0xFFFFFFFF },  -- HOST_RING_CHEAD
  { base := 0x38102C, dims := [(64, 0x40)], ro := 0xFFFFFFFF },  -- HOST_RING_CSEQ
  { base := 0x381030, dims := [(64, 0x40)], reset := 0x10000, rw := 0x80FFFFFF }  -- HOST_RING_IRQ
]

/-- The register map of block FAB. -/
def RegMap.fab : List RegRow := [
  { base := 0x3C0000, reset := 0x8000, rw := 0xFF00FFFF },  -- FAB_CFG
  { base := 0x3C0004, wo := 0x7 },  -- FAB_CTL
  { base := 0x3C0008, ro := 0xFF3FF07F },  -- FAB_STATUS
  { base := 0x3C000C, w1c := 0x1FFF },  -- FAB_ERR
  { base := 0x3C0010, rw := 0x1FFF },  -- FAB_ERR_MASK
  { base := 0x3C0014, rc := 0xFFFFFFFF },  -- FAB_CNT0
  { base := 0x3C0018, rc := 0xFFFFFFFF },  -- FAB_CNT1
  { base := 0x3C001C, rc := 0xFFFFFFFF },  -- FAB_CNT2
  { base := 0x3C0020, reset := 0xA0A03E8, rw := 0xFFFFFFFF },  -- FAB_TMO
  { base := 0x3C0024, ro := 0xFFFFFFFF },  -- FAB_EPOCH
  { base := 0x3C0028, ro := 0xBFBF0000 },  -- FAB_ROLE
  { base := 0x3C0030, wide := true, ro := 0xFFFFFFFFFFFFFFFF },  -- FAB_ROOT_ID
  { base := 0x3C0038, wide := true, ro := 0xFFFFFFFFFFFFFFFF },  -- FAB_MEMBERS
  { base := 0x3C0040, rw := 0xFFFF001F },  -- FAB_SINK_CFG
  { base := 0x3C0044, reset := 0x3E8, rw := 0x80FFFFFF },  -- FAB_TIME_CFG
  { base := 0x3C0048, ro := 0xFFFFFFFF },  -- FAB_TIME_OFS
  { base := 0x3C0050, wide := true, ro := 0xFFFFFFFFFFFFFFFF },  -- FAB_TIME_STEP
  { base := 0x3C0058, wide := true, ro := 0xFFFFFFFFFFFFFFFF },  -- FAB_TIME_CAPTURE
  { base := 0x3C0100, dims := [(4, 0x40)], rw := 0x8000FFFF },  -- FAB_PORT_CFG
  { base := 0x3C0104, dims := [(4, 0x40)], ro := 0xFBFFF800 },  -- FAB_PORT_STATUS
  { base := 0x3C0108, dims := [(4, 0x40)], rc := 0xFFFFFFFF },  -- FAB_PORT_CNT0
  { base := 0x3C010C, dims := [(4, 0x40)], rc := 0xFFFFFFFF },  -- FAB_PORT_CNT1
  { base := 0x3C0110, dims := [(4, 0x40)], rc := 0xFFFF },  -- FAB_PORT_CNT2
  { base := 0x3C0114, dims := [(4, 0x40)], ro := 0x7F },  -- FAB_PORT_TAPS
  { base := 0x3C0118, dims := [(4, 0x40)], ro := 0xFFFFFFFF },  -- FAB_PORT_DELAY
  { base := 0x3C0400, dims := [(64, 0x4)], ro := 0x80F00233 },  -- FAB_ROUTE
  { base := 0x3C0600, dims := [(64, 0x4)], reset := 0xF, rwl := 0xF }  -- FAB_PEER_ACC
]

/-- The register map of block SKEIN. -/
def RegMap.skein : List RegRow := [
  { base := 0x400000, ro := 0xF000FFFF },  -- SKEIN_STATUS
  { base := 0x400004, wo := 0x1 },  -- SKEIN_CTL
  { base := 0x400008, w1c := 0x1FF },  -- SKEIN_ERR
  { base := 0x40000C, rw := 0x1FF },  -- SKEIN_ERR_MASK
  { base := 0x400010, wide := true, ro := 0xFFFFFFFFFFFFFFFF },  -- SKEIN_CAP
  { base := 0x400018, rc := 0xFFFFFFFF },  -- SKEIN_CNT0
  { base := 0x40001C, rc := 0xFFFFFFFF },  -- SKEIN_CNT1
  { base := 0x400020, rc := 0xFFFFFFFF },  -- SKEIN_CNT2
  { base := 0x400024, w1c := 0x80000000, ro := 0x4F0000FF },  -- SKEIN_ECC_INFO
  { base := 0x400028, wide := true, ro := 0xFFFFFFFFFFFFFFFF },  -- SKEIN_ECC_ADDR
  { base := 0x400030, reset := 0x800004B0, rw := 0x8000FFFF },  -- SKEIN_SCRUB_CFG
  { base := 0x400034, ro := 0xFFFF03FF },  -- SKEIN_SCRUB_STATUS
  { base := 0x400040, reset := 0x1, rwl := 0x801F00FF },  -- SKEIN_HIST_CFG
  { base := 0x400048, wide := true, reset := 0xFFFFFFFFFFFFFFFF, rw := 0xFFFFFFFFFFFFFFFF },  -- SKEIN_HIST_CAM
  { base := 0x400050, wide := true, ro := 0xFFFFFFFFFFFFFFFF },  -- SKEIN_HIST_SPAN
  { base := 0x400060, wide := true, rw := 0xFFFFFFFFFFFFFFFF },  -- SKEIN_RETRO_CAM
  { base := 0x400068, wide := true, rw := 0xFFFFFFFFFFFFFFFF },  -- SKEIN_RETRO_WP_LO
  { base := 0x400070, wide := true, rw := 0xFFFFFFFFFFFFFFFF },  -- SKEIN_RETRO_WP_HI
  { base := 0x400078, rw := 0x30000000, wo := 0x80000000 },  -- SKEIN_RETRO_CTL
  { base := 0x40007C, w1c := 0x40000000, ro := 0xBFFFFFFF },  -- SKEIN_RETRO_STATUS
  { base := 0x400100, dims := [(16, 0x4)], ro := 0x3FF },  -- SKEIN_LOAD
  { base := 0x400200, dims := [(32, 0x10)], wide := true, rwl := 0xFFFFFFFFFFFFFFFF },  -- SKEIN_RGN_BASE
  { base := 0x400208, dims := [(32, 0x10)], rwl := 0x1FFFF },  -- SKEIN_RGN_SIZE
  { base := 0x40020C, dims := [(32, 0x10)], reset := 0xFFFFFFFF, rwl := 0xFFFFFFFF },  -- SKEIN_RGN_UNIT
  { base := 0x400600, dims := [(32, 0x4)], reset := 0xF003C3, rwl := 0x80F0FF3F, ro := 0xC0 }  -- SKEIN_RGN_ACC
]

/-- The register map of block STASH. -/
def RegMap.stash : List RegRow := [
  { base := 0x440000, w1c := 0xF },  -- STASH_ERR
  { base := 0x440004, rw := 0xF },  -- STASH_ERR_MASK
  { base := 0x440008, rc := 0xFFFFFFFF },  -- STASH_CNT0
  { base := 0x44000C, rc := 0xFFFFFFFF },  -- STASH_CNT1
  { base := 0x440010, w1c := 0x80000000, ro := 0x7FC0FFFF },  -- STASH_COLL_INFO
  { base := 0x440014, ro := 0x1FFFFF },  -- STASH_COLL_ADDR
  { base := 0x440018, reset := 0x80000010, rw := 0x800000FF },  -- STASH_TEST_CFG
  { base := 0x44001C, ro := 0xFFFF0000 },  -- STASH_TEST_STATUS
  { base := 0x440020, w1c := 0x80000000, ro := 0x7FFFFC00 },  -- STASH_TEST_INFO
  { base := 0x440100, dims := [(16, 0x40), (16, 0x4)], reset := 0x30, rw := 0xFF, wo := 0xFF00, ro := 0xC0000000 },  -- STASH_BANK_OWN
  { base := 0x440600, dims := [(16, 0x4)], ro := 0xFFFFFFFF },  -- STASH_REPAIR
  { base := 0x440640, dims := [(16, 0x4)], ro := 0xFFFFFFFF },  -- STASH_SCR_REPAIR
  { base := 0x440680, dims := [(16, 0x4)], rw := 0xFF },  -- STASH_SCR_OWN
  { base := 0x4406C0, dims := [(16, 0x4)], ro := 0xF03FF }  -- STASH_BUSY
]

/-- The blocks of R52: index, base, size in bytes and register map. -/
def RegMap.blocks : List (Nat × Nat × Nat × List RegRow) := [
  (0, 0x0, 0x10000, RegMap.glb),
  (1, 0x10000, 0x10000, RegMap.stw),
  (2, 0x20000, 0x10000, RegMap.pwr),
  (3, 0x40000, 0x10000, RegMap.chain),
  (4, 0x50000, 0x10000, RegMap.gauge),
  (5, 0x60000, 0x10000, RegMap.trig),
  (6, 0x100000, 0x30000, RegMap.cll),
  (7, 0x140000, 0x18000, RegMap.asm),
  (8, 0x180000, 0x40000, RegMap.car),
  (9, 0x200000, 0x100000, RegMap.ste),
  (10, 0x300000, 0x10000, RegMap.job),
  (11, 0x340000, 0x10000, RegMap.hook),
  (12, 0x380000, 0x10000, RegMap.host),
  (13, 0x3C0000, 0x10000, RegMap.fab),
  (14, 0x400000, 0x10000, RegMap.skein),
  (15, 0x440000, 0x10000, RegMap.stash)
]

/-- The remainder of an offset within the repetitions of a row; none where it lies outside them. -/
def RegRow.inner : List (Nat × Nat) → Nat → Option Nat
  | [], r => some r
  | (c, s) :: rest, r => if r / s < c then RegRow.inner rest (r % s) else none

/-- Whether a word offset belongs to the row, and if so which word of the register it is. -/
def RegRow.word (row : RegRow) (off : Nat) : Option Nat :=
  if off < row.base then none
  else match RegRow.inner row.dims (off - row.base) with
    | some 0 => some 0
    | some 4 => if row.wide then some 1 else none
    | _ => none

/-- The row of a word offset in one block's map, with the word index. -/
def RegMap.find : List RegRow → Nat → Option (RegRow × Nat)
  | [], _ => none
  | row :: rest, off => match row.word off with
    | some k => some (row, k)
    | none => RegMap.find rest off

/-- The block that decodes an offset (R52): index, base and map. -/
def RegMap.blockOf (off : Nat) : List (Nat × Nat × Nat × List RegRow) → Option (Nat × Nat × List RegRow)
  | [] => none
  | (i, b, sz, rows) :: rest => if b ≤ off ∧ off < b + sz then some (i, b, rows) else RegMap.blockOf off rest

/-- The register row and word index of a BAR0 word offset, for the offsets that hold a register. -/
def RegMap.lookup (off : Nat) : Option (RegRow × Nat) :=
  match RegMap.blockOf off RegMap.blocks with
  | some (_, _, rows) => RegMap.find rows off
  | none => none

/-- The part of a 64-bit mask or value that lies in word `k` of a register. -/
def RegRow.part (m k : Nat) : Word := BitVec.ofNat 32 (if k = 0 then m else m / 2 ^ 32)

/-- The reset value of a register word (the Reset columns). CHAIN_TASK_CFG resets to KIND = 1 for the count inputs 168 to
183 and 192 to 207 (R173, R177); STASH_BANK_OWN(c,b) resets to the cluster's own master ID 0x30 + c (R453). -/
def regDefault (off : Nat) : Word :=
  if 0x42000 ≤ off ∧ off < 0x43000 then
    let t := (off - 0x42000) / 8
    if (off - 0x42000) % 8 = 0 ∧ ((168 ≤ t ∧ t ≤ 183) ∨ (192 ≤ t ∧ t ≤ 207)) then 0x8000 else 0
  else if 0x440100 ≤ off ∧ off < 0x440500 then BitVec.ofNat 32 (0x30 + (off - 0x440100) / 64)
  else match RegMap.lookup off with
    | some (row, k) => RegRow.part row.reset k
    | none => 0

end Sys2Proof.Machine

/-! The BAR0 offset of each register, as a function of its instance numbers (R12). -/

namespace Sys2Proof.Machine.R

def GLB_ID : Nat := 0x0
def GLB_STATUS : Nat := 0x4
def GLB_CASTON : Nat := 0x8
def GLB_SERVICE : Nat := 0x10
def GLB_ERR : Nat := 0x20
def GLB_ERR_CNT0 : Nat := 0x24
def GLB_ERR_CNT1 : Nat := 0x28
def GLB_DENY_INFO : Nat := 0x30
def GLB_DENY_ADDR : Nat := 0x38
def GLB_DENY_TS : Nat := 0x40
def GLB_INT_STATUS : Nat := 0x50
def GLB_INT_EN : Nat := 0x54
def GLB_HOST_RID : Nat := 0x58
def GLB_ACC (i : Nat) : Nat := 0x100 + 0x4 * i
def STW_STATUS : Nat := 0x10000
def STW_ERR : Nat := 0x10004
def STW_ERR_MASK : Nat := 0x10008
def STW_RESET : Nat := 0x1000C
def STW_RESET_CAUSE : Nat := 0x10010
def STW_BOOT_CNT : Nat := 0x10014
def STW_CASTON_TIME : Nat := 0x10018
def STW_IMAGE_VER : Nat := 0x1001C
def STW_COMMIT_SEQ : Nat := 0x10020
def STW_BOARD_SEQ : Nat := 0x10024
def STW_NVM_CMD : Nat := 0x10030
def STW_NVM_STATUS : Nat := 0x10034
def STW_NVM_DA : Nat := 0x10038
def STW_NVM_ADDR : Nat := 0x10040
def STW_NVM_LEN : Nat := 0x10044
def STW_NVM_ARG : Nat := 0x10048
def STW_NVM_PROGRESS : Nat := 0x1004C
def STW_NVM_HWM : Nat := 0x10050
def STW_LOG_HEAD : Nat := 0x10058
def STW_LOG_SEQ : Nat := 0x1005C
def STW_LOG_CTL : Nat := 0x10060
def STW_LOG_STATUS : Nat := 0x10064
def STW_TEST_CFG : Nat := 0x10070
def STW_TEST_STATUS : Nat := 0x10074
def STW_DSN : Nat := 0x10078
def PWR_STATUS : Nat := 0x20000
def PWR_CTL : Nat := 0x20004
def PWR_ERR : Nat := 0x20008
def PWR_ERR_MASK : Nat := 0x2000C
def PWR_CNT0 : Nat := 0x20010
def PWR_CNT1 : Nat := 0x20014
def PWR_THERM_CFG : Nat := 0x20018
def PWR_ILIM_CFG : Nat := 0x2001C
def PWR_CORE_SCALE : Nat := 0x20020
def PWR_CXP_SCALE : Nat := 0x20024
def PWR_WATCH_CFG : Nat := 0x20028
def PWR_VCORE : Nat := 0x2002C
def PWR_HK_CFG : Nat := 0x20030
def PWR_HK_URGENT : Nat := 0x20034
def PWR_HK_RESULT : Nat := 0x20038
def PWR_HK_TRIM : Nat := 0x2003C
def PWR_SUPPLY_FLAGS : Nat := 0x20040
def PWR_HK_VAL (i : Nat) : Nat := 0x20100 + 0x4 * i
def PWR_TEMP_MAX (i : Nat) : Nat := 0x20300 + 0x4 * i
def CHAIN_ERR : Nat := 0x40000
def CHAIN_ERR_MASK : Nat := 0x40004
def CHAIN_FIRE : Nat := 0x40008
def CHAIN_FIRE_MULTI : Nat := 0x40010
def CHAIN_LOOP_INFO : Nat := 0x40018
def CHAIN_IRQ_STATUS : Nat := 0x40020
def CHAIN_IRQ_EN : Nat := 0x40028
def CHAIN_CH_CFG (i : Nat) : Nat := 0x40100 + 0x10 * i
def CHAIN_CH_OWN (i : Nat) : Nat := 0x40104 + 0x10 * i
def CHAIN_CH_CNT (i : Nat) : Nat := 0x40108 + 0x10 * i
def CHAIN_CH_CNT2 (i : Nat) : Nat := 0x4010C + 0x10 * i
def CHAIN_SRC_CFG (i : Nat) : Nat := 0x41000 + 0x4 * i
def CHAIN_TASK_CFG (i : Nat) : Nat := 0x42000 + 0x8 * i
def CHAIN_TASK_CNT (i : Nat) : Nat := 0x42004 + 0x8 * i
def CHAIN_CTR_CFG (i : Nat) : Nat := 0x43000 + 0x10 * i
def CHAIN_CTR_VAL (i : Nat) : Nat := 0x43004 + 0x10 * i
def GAUGE_SNAP : Nat := 0x50000
def GAUGE_SNAP_SEQ : Nat := 0x50004
def GAUGE_CHECK_CFG : Nat := 0x50010
def GAUGE_CHECK_STATUS : Nat := 0x50014
def GAUGE_AXIS_CFG (i : Nat) : Nat := 0x50100 + 0x100 * i
def GAUGE_AXIS_CTL (i : Nat) : Nat := 0x50104 + 0x100 * i
def GAUGE_AXIS_STATUS (i : Nat) : Nat := 0x50108 + 0x100 * i
def GAUGE_ERR (i : Nat) : Nat := 0x5010C + 0x100 * i
def GAUGE_ERR_MASK (i : Nat) : Nat := 0x50110 + 0x100 * i
def GAUGE_CNT0 (i : Nat) : Nat := 0x50114 + 0x100 * i
def GAUGE_CNT1 (i : Nat) : Nat := 0x50118 + 0x100 * i
def GAUGE_AMP (i : Nat) : Nat := 0x5011C + 0x100 * i
def GAUGE_SCALE_NUM (i : Nat) : Nat := 0x50120 + 0x100 * i
def GAUGE_SCALE_DEN (i : Nat) : Nat := 0x50124 + 0x100 * i
def GAUGE_SPEED_CFG (i : Nat) : Nat := 0x50128 + 0x100 * i
def GAUGE_REF_CFG (i : Nat) : Nat := 0x5012C + 0x100 * i
def GAUGE_ZERO_VALUE (i : Nat) : Nat := 0x50130 + 0x100 * i
def GAUGE_REF_VALUE (i : Nat) : Nat := 0x50138 + 0x100 * i
def GAUGE_WP (i : Nat) : Nat := 0x50140 + 0x100 * i
def GAUGE_WP_TS (i : Nat) : Nat := 0x50148 + 0x100 * i
def GAUGE_SPEED (i : Nat) : Nat := 0x50150 + 0x100 * i
def GAUGE_SPEED_P (i : Nat) : Nat := 0x50154 + 0x100 * i
def GAUGE_SPEED_D (i : Nat) : Nat := 0x50158 + 0x100 * i
def GAUGE_WATCH_CNT (i : Nat) : Nat := 0x5015C + 0x100 * i
def GAUGE_REF_WP (i : Nat) : Nat := 0x50160 + 0x100 * i
def GAUGE_REF_TS (i : Nat) : Nat := 0x50168 + 0x100 * i
def GAUGE_STEP (i : Nat) : Nat := 0x50170 + 0x100 * i
def GAUGE_WATCH (i : Nat) : Nat := 0x50178 + 0x100 * i
def GAUGE_CORR_OFS (i : Nat) : Nat := 0x5017C + 0x100 * i
def GAUGE_CORR_GP (i : Nat) : Nat := 0x50180 + 0x100 * i
def GAUGE_SNAP_WP (i : Nat) : Nat := 0x50188 + 0x100 * i
def GAUGE_SNAP_TS (i : Nat) : Nat := 0x50190 + 0x100 * i
def GAUGE_SNAP_SPEED (i : Nat) : Nat := 0x50198 + 0x100 * i
def TRIG_ERR : Nat := 0x60000
def TRIG_ERR_MASK : Nat := 0x60004
def TRIG_BANK_CFG : Nat := 0x60010
def TRIG_LIST_SEL : Nat := 0x60020
def TRIG_CMP_CFG (i : Nat) : Nat := 0x60400 + 0x100 * i
def TRIG_CMP_CTL (i : Nat) : Nat := 0x60404 + 0x100 * i
def TRIG_CMP_STATUS (i : Nat) : Nat := 0x60408 + 0x100 * i
def TRIG_CMP_CNT (i : Nat) : Nat := 0x6040C + 0x100 * i
def TRIG_CMP_LEAD (i : Nat) : Nat := 0x60410 + 0x100 * i
def TRIG_CMP_PTR (i : Nat) : Nat := 0x60414 + 0x100 * i
def TRIG_CMP_OFS (i : Nat) : Nat := 0x60418 + 0x100 * i
def TRIG_CMP_HWM (i : Nat) : Nat := 0x60420 + 0x100 * i
def TRIG_CMP_LAST_WP (i : Nat) : Nat := 0x60428 + 0x100 * i
def TRIG_CMP_LAST_TS (i : Nat) : Nat := 0x60430 + 0x100 * i
def TRIG_CMP_FIRE_CNT (i : Nat) : Nat := 0x60438 + 0x100 * i
def TRIG_CMP_START (i j : Nat) : Nat := 0x60440 + 0x100 * i + 0x20 * j
def TRIG_CMP_PITCH (i j : Nat) : Nat := 0x60448 + 0x100 * i + 0x20 * j
def TRIG_CMP_COUNT (i j : Nat) : Nat := 0x60450 + 0x100 * i + 0x20 * j
def TRIG_CMP_LIST_CFG (i j : Nat) : Nat := 0x60454 + 0x100 * i + 0x20 * j
def TRIG_CMP_REPEAT (i j : Nat) : Nat := 0x60458 + 0x100 * i + 0x20 * j
def TRIG_OUT_CFG (i : Nat) : Nat := 0x61400 + 0x10 * i
def TRIG_OUT_CNT (i : Nat) : Nat := 0x61404 + 0x10 * i
def TRIG_IN_CFG (i : Nat) : Nat := 0x61600 + 0x20 * i
def TRIG_IN_CNT (i : Nat) : Nat := 0x61604 + 0x20 * i
def TRIG_IN_CAP_WP (i : Nat) : Nat := 0x61608 + 0x20 * i
def TRIG_IN_CAP_TS (i : Nat) : Nat := 0x61610 + 0x20 * i
def TRIG_PKT_CFG (i : Nat) : Nat := 0x61800 + 0x10 * i
def TRIG_PKT_CNT (i : Nat) : Nat := 0x61804 + 0x10 * i
def TRIG_CAM_SRC (i : Nat) : Nat := 0x61C00 + 0x4 * i
def TRIG_LEDGER_STATUS (i : Nat) : Nat := 0x61D00 + 0x4 * i
def TRIG_LIST (i : Nat) : Nat := 0x68000 + 0x8 * i
def CLL_CFG (i : Nat) : Nat := 0x100000 + 0x1000 * i
def CLL_CTL (i : Nat) : Nat := 0x100004 + 0x1000 * i
def CLL_STATUS (i : Nat) : Nat := 0x100008 + 0x1000 * i
def CLL_GROUP (i : Nat) : Nat := 0x10000C + 0x1000 * i
def CLL_ERR (i : Nat) : Nat := 0x100010 + 0x1000 * i
def CLL_ERR_MASK (i : Nat) : Nat := 0x100014 + 0x1000 * i
def CLL_CNT0 (i : Nat) : Nat := 0x100018 + 0x1000 * i
def CLL_CNT1 (i : Nat) : Nat := 0x10001C + 0x1000 * i
def CLL_CNT2 (i : Nat) : Nat := 0x100020 + 0x1000 * i
def CLL_CNT3 (i : Nat) : Nat := 0x100024 + 0x1000 * i
def CLL_EQ (i : Nat) : Nat := 0x100028 + 0x1000 * i
def CLL_IND (i : Nat) : Nat := 0x10002C + 0x1000 * i
def CLL_PWR (i : Nat) : Nat := 0x100030 + 0x1000 * i
def CLL_PWR_STATUS (i : Nat) : Nat := 0x100034 + 0x1000 * i
def CLL_CTRL_CMD (i : Nat) : Nat := 0x100040 + 0x1000 * i
def CLL_CTRL_ADDR (i : Nat) : Nat := 0x100044 + 0x1000 * i
def CLL_CTRL_STATUS (i : Nat) : Nat := 0x100048 + 0x1000 * i
def CLL_EVT_CNT (i : Nat) : Nat := 0x10004C + 0x1000 * i
def CLL_HB_TIME (i : Nat) : Nat := 0x100050 + 0x1000 * i
def CLL_HB_TS (i : Nat) : Nat := 0x100058 + 0x1000 * i
def CLL_CTRL_BUF (i j : Nat) : Nat := 0x100400 + 0x1000 * i + 0x4 * j
def CLL_PNL_CFG : Nat := 0x100800
def CLL_PNL_BTN : Nat := 0x100808
def ASM_CAM_CFG (i : Nat) : Nat := 0x140000 + 0x800 * i
def ASM_FRAME_CFG (i : Nat) : Nat := 0x140004 + 0x800 * i
def ASM_WIDTH (i : Nat) : Nat := 0x140008 + 0x800 * i
def ASM_CTL (i : Nat) : Nat := 0x14000C + 0x800 * i
def ASM_FRAME_ORG (i : Nat) : Nat := 0x140010 + 0x800 * i
def ASM_FRAME_LEN (i : Nat) : Nat := 0x140018 + 0x800 * i
def ASM_LAT_MIN (i : Nat) : Nat := 0x140020 + 0x800 * i
def ASM_LAT_MAX (i : Nat) : Nat := 0x140024 + 0x800 * i
def ASM_STATUS (i : Nat) : Nat := 0x140028 + 0x800 * i
def ASM_FRAME_SEQ (i : Nat) : Nat := 0x14002C + 0x800 * i
def ASM_LAST_TRIG (i : Nat) : Nat := 0x140030 + 0x800 * i
def ASM_ERR (i : Nat) : Nat := 0x140034 + 0x800 * i
def ASM_ERR_MASK (i : Nat) : Nat := 0x140038 + 0x800 * i
def ASM_CNT0 (i : Nat) : Nat := 0x14003C + 0x800 * i
def ASM_CNT1 (i : Nat) : Nat := 0x140040 + 0x800 * i
def ASM_CNT2 (i : Nat) : Nat := 0x140044 + 0x800 * i
def ASM_CNT3 (i : Nat) : Nat := 0x140048 + 0x800 * i
def ASM_CNT4 (i : Nat) : Nat := 0x14004C + 0x800 * i
def ASM_EXCESS (i : Nat) : Nat := 0x140050 + 0x800 * i
def ASM_Q_CFG (i : Nat) : Nat := 0x140054 + 0x800 * i
def ASM_Q_STATUS (i : Nat) : Nat := 0x140058 + 0x800 * i
def ASM_Q_HWM (i : Nat) : Nat := 0x14005C + 0x800 * i
def CAR_CFG (i : Nat) : Nat := 0x180000 + 0x10000 * i
def CAR_CTL (i : Nat) : Nat := 0x180004 + 0x10000 * i
def CAR_STATUS (i : Nat) : Nat := 0x180008 + 0x10000 * i
def CAR_ERR (i : Nat) : Nat := 0x18000C + 0x10000 * i
def CAR_ERR_MASK (i : Nat) : Nat := 0x180010 + 0x10000 * i
def CAR_CNT0 (i : Nat) : Nat := 0x180014 + 0x10000 * i
def CAR_CNT1 (i : Nat) : Nat := 0x180018 + 0x10000 * i
def CAR_CNT2 (i : Nat) : Nat := 0x18001C + 0x10000 * i
def CAR_CPB_IN_USE (i : Nat) : Nat := 0x180020 + 0x10000 * i
def CAR_FRAMES (i : Nat) : Nat := 0x180028 + 0x10000 * i
def CAR_CAM_PATH (i : Nat) : Nat := 0x188000 + 0x100 * i
def CAR_MDL_CFG (i : Nat) : Nat := 0x188004 + 0x100 * i
def CAR_MDL_WIN (i : Nat) : Nat := 0x188008 + 0x100 * i
def CAR_MDL_STATUS (i : Nat) : Nat := 0x18800C + 0x100 * i
def CAR_MDL_PITCH (i : Nat) : Nat := 0x188010 + 0x100 * i
def CAR_SET_TGT (i : Nat) : Nat := 0x188018 + 0x100 * i
def CAR_SET_CPB (i : Nat) : Nat := 0x188020 + 0x100 * i
def CAR_SET_CTL (i : Nat) : Nat := 0x188028 + 0x100 * i
def CAR_SET_STATUS (i : Nat) : Nat := 0x18802C + 0x100 * i
def CAR_MDL_CNT (i : Nat) : Nat := 0x188030 + 0x100 * i
def CAR_SET_EFFECT (i : Nat) : Nat := 0x188034 + 0x100 * i
def CAR_MDL_CHUNK (i j : Nat) : Nat := 0x188040 + 0x100 * i + 0x8 * j
def CAR_MDL_SHADOW (i j : Nat) : Nat := 0x188060 + 0x100 * i + 0x4 * j
def CAR_SET_W (i j : Nat) : Nat := 0x188080 + 0x100 * i + 0x8 * j
def STE_CFG (i : Nat) : Nat := 0x200000 + 0x10000 * i
def STE_CTL (i : Nat) : Nat := 0x200004 + 0x10000 * i
def STE_STATUS (i : Nat) : Nat := 0x200008 + 0x10000 * i
def STE_ERR (i : Nat) : Nat := 0x20000C + 0x10000 * i
def STE_ERR_MASK (i : Nat) : Nat := 0x200010 + 0x10000 * i
def STE_CNT0 (i : Nat) : Nat := 0x200014 + 0x10000 * i
def STE_CNT1 (i : Nat) : Nat := 0x200018 + 0x10000 * i
def STE_CNT2 (i : Nat) : Nat := 0x20001C + 0x10000 * i
def STE_CNT3 (i : Nat) : Nat := 0x200020 + 0x10000 * i
def STE_WDOG (i : Nat) : Nat := 0x200024 + 0x10000 * i
def STE_FCAP (i : Nat) : Nat := 0x200028 + 0x10000 * i
def STE_KMASK (i : Nat) : Nat := 0x20002C + 0x10000 * i
def STE_LOAD (i : Nat) : Nat := 0x200030 + 0x10000 * i
def STE_DEFER (i : Nat) : Nat := 0x200034 + 0x10000 * i
def STE_ENG_STATUS (i j : Nat) : Nat := 0x201000 + 0x10000 * i + 0x20 * j
def STE_ENG_ITEM (i j : Nat) : Nat := 0x201004 + 0x10000 * i + 0x20 * j
def STE_ENG_SEQ (i j : Nat) : Nat := 0x201008 + 0x10000 * i + 0x20 * j
def STE_ENG_RUN (i j : Nat) : Nat := 0x20100C + 0x10000 * i + 0x20 * j
def STE_ENG_DONE (i j : Nat) : Nat := 0x201010 + 0x10000 * i + 0x20 * j
def STE_ORD_CFG : Nat := 0x204000
def STE_ORD_STATUS : Nat := 0x204004
def STE_CAM_CFG (i : Nat) : Nat := 0x208000 + 0x40 * i
def STE_CAM_TILE (i : Nat) : Nat := 0x208004 + 0x40 * i
def STE_CAM_BANDS (i : Nat) : Nat := 0x208008 + 0x40 * i
def STE_CAM_PARAM (i : Nat) : Nat := 0x20800C + 0x40 * i
def STE_CAM_SEQ (i : Nat) : Nat := 0x208010 + 0x40 * i
def STE_CAM_ORD (i : Nat) : Nat := 0x208014 + 0x40 * i
def STE_CAM_CNT (i : Nat) : Nat := 0x208018 + 0x40 * i
def JOB_STATUS : Nat := 0x300000
def JOB_CTL : Nat := 0x300004
def JOB_ERR : Nat := 0x300008
def JOB_ERR_MASK : Nat := 0x30000C
def JOB_CNT0 : Nat := 0x300010
def JOB_CNT1 : Nat := 0x300014
def JOB_STAGE_DA : Nat := 0x300018
def JOB_STAGE_STATUS : Nat := 0x300020
def JOB_SPLICE_CFG : Nat := 0x300024
def JOB_MARK : Nat := 0x300028
def JOB_ARM_MIN : Nat := 0x300030
def JOB_FAB_OFS : Nat := 0x300038
def JOB_SPLICE_WP : Nat := 0x300040
def JOB_SPLICE_TS : Nat := 0x300048
def JOB_ID0 : Nat := 0x300050
def JOB_ID1 : Nat := 0x300054
def JOB_SWATCH_STATUS : Nat := 0x300058
def JOB_SWATCH_CAMS : Nat := 0x300060
def JOB_SWATCH_FAIL : Nat := 0x300068
def JOB_FAB_LATE : Nat := 0x300070
def JOB_ARM_STATUS : Nat := 0x300074
def JOB_DEADLINE : Nat := 0x300078
def HOOK_ERR : Nat := 0x340000
def HOOK_ERR_MASK : Nat := 0x340004
def HOOK_CTL : Nat := 0x340008
def HOOK_STATUS : Nat := 0x34000C
def HOOK_IRQ_STATUS : Nat := 0x340010
def HOOK_IRQ_EN : Nat := 0x340014
def HOOK_CNT0 : Nat := 0x340018
def HOOK_SRC (i : Nat) : Nat := 0x340100 + 0x80 * i
def HOOK_DST (i : Nat) : Nat := 0x340108 + 0x80 * i
def HOOK_COUNT (i j : Nat) : Nat := 0x340110 + 0x80 * i + 0x4 * j
def HOOK_CFG (i : Nat) : Nat := 0x34011C + 0x80 * i
def HOOK_SSTEP (i j : Nat) : Nat := 0x340120 + 0x80 * i + 0x4 * j
def HOOK_DSTEP (i j : Nat) : Nat := 0x340130 + 0x80 * i + 0x4 * j
def HOOK_CH_CTL (i : Nat) : Nat := 0x34013C + 0x80 * i
def HOOK_CH_STATUS (i : Nat) : Nat := 0x340140 + 0x80 * i
def HOOK_CH_CNT (i : Nat) : Nat := 0x340144 + 0x80 * i
def HOOK_REMAIN (i : Nat) : Nat := 0x340148 + 0x80 * i
def HOOK_RESIDUE (i : Nat) : Nat := 0x340150 + 0x80 * i
def HOOK_FAIL_DA (i : Nat) : Nat := 0x340158 + 0x80 * i
def HOST_STATUS : Nat := 0x380000
def HOST_ERR : Nat := 0x380008
def HOST_ERR_MASK : Nat := 0x38000C
def HOST_CNT0 : Nat := 0x380010
def HOST_CNT1 : Nat := 0x380014
def HOST_CNT2 : Nat := 0x380018
def HOST_CNT3 : Nat := 0x38001C
def HOST_CNT4 : Nat := 0x380020
def HOST_CNT5 : Nat := 0x380024
def HOST_TAGQ : Nat := 0x380028
def HOST_ATS_STATUS : Nat := 0x38002C
def HOST_DLV_CFG : Nat := 0x380030
def HOST_DLV_STATUS : Nat := 0x380034
def HOST_RX_SEQ : Nat := 0x380038
def HOST_WIN_APPLY : Nat := 0x380040
def HOST_WIN_STATUS : Nat := 0x380044
def HOST_WIN_APPLY_SEQ : Nat := 0x380048
def HOST_WIN_SHADOW (i : Nat) : Nat := 0x380080 + 0x4 * i
def HOST_WIN (i : Nat) : Nat := 0x3800C0 + 0x4 * i
def HOST_CAM_DLV (i : Nat) : Nat := 0x380100 + 0x4 * i
def HOST_INTX_PEND (i : Nat) : Nat := 0x380200 + 0x4 * i
def HOST_RING_CFG (i : Nat) : Nat := 0x381000 + 0x40 * i
def HOST_RING_CTL (i : Nat) : Nat := 0x381004 + 0x40 * i
def HOST_RING_STATUS (i : Nat) : Nat := 0x381008 + 0x40 * i
def HOST_RING_CNT (i : Nat) : Nat := 0x38100C + 0x40 * i
def HOST_RING_DBASE (i : Nat) : Nat := 0x381010 + 0x40 * i
def HOST_RING_CBASE (i : Nat) : Nat := 0x381018 + 0x40 * i
def HOST_RING_DTAIL (i : Nat) : Nat := 0x381020 + 0x40 * i
def HOST_RING_DHEAD (i : Nat) : Nat := 0x381024 + 0x40 * i
def HOST_RING_CHEAD (i : Nat) : Nat := 0x381028 + 0x40 * i
def HOST_RING_CSEQ (i : Nat) : Nat := 0x38102C + 0x40 * i
def HOST_RING_IRQ (i : Nat) : Nat := 0x381030 + 0x40 * i
def FAB_CFG : Nat := 0x3C0000
def FAB_CTL : Nat := 0x3C0004
def FAB_STATUS : Nat := 0x3C0008
def FAB_ERR : Nat := 0x3C000C
def FAB_ERR_MASK : Nat := 0x3C0010
def FAB_CNT0 : Nat := 0x3C0014
def FAB_CNT1 : Nat := 0x3C0018
def FAB_CNT2 : Nat := 0x3C001C
def FAB_TMO : Nat := 0x3C0020
def FAB_EPOCH : Nat := 0x3C0024
def FAB_ROLE : Nat := 0x3C0028
def FAB_ROOT_ID : Nat := 0x3C0030
def FAB_MEMBERS : Nat := 0x3C0038
def FAB_SINK_CFG : Nat := 0x3C0040
def FAB_TIME_CFG : Nat := 0x3C0044
def FAB_TIME_OFS : Nat := 0x3C0048
def FAB_TIME_STEP : Nat := 0x3C0050
def FAB_TIME_CAPTURE : Nat := 0x3C0058
def FAB_PORT_CFG (i : Nat) : Nat := 0x3C0100 + 0x40 * i
def FAB_PORT_STATUS (i : Nat) : Nat := 0x3C0104 + 0x40 * i
def FAB_PORT_CNT0 (i : Nat) : Nat := 0x3C0108 + 0x40 * i
def FAB_PORT_CNT1 (i : Nat) : Nat := 0x3C010C + 0x40 * i
def FAB_PORT_CNT2 (i : Nat) : Nat := 0x3C0110 + 0x40 * i
def FAB_PORT_TAPS (i : Nat) : Nat := 0x3C0114 + 0x40 * i
def FAB_PORT_DELAY (i : Nat) : Nat := 0x3C0118 + 0x40 * i
def FAB_ROUTE (i : Nat) : Nat := 0x3C0400 + 0x4 * i
def FAB_PEER_ACC (i : Nat) : Nat := 0x3C0600 + 0x4 * i
def SKEIN_STATUS : Nat := 0x400000
def SKEIN_CTL : Nat := 0x400004
def SKEIN_ERR : Nat := 0x400008
def SKEIN_ERR_MASK : Nat := 0x40000C
def SKEIN_CAP : Nat := 0x400010
def SKEIN_CNT0 : Nat := 0x400018
def SKEIN_CNT1 : Nat := 0x40001C
def SKEIN_CNT2 : Nat := 0x400020
def SKEIN_ECC_INFO : Nat := 0x400024
def SKEIN_ECC_ADDR : Nat := 0x400028
def SKEIN_SCRUB_CFG : Nat := 0x400030
def SKEIN_SCRUB_STATUS : Nat := 0x400034
def SKEIN_HIST_CFG : Nat := 0x400040
def SKEIN_HIST_CAM : Nat := 0x400048
def SKEIN_HIST_SPAN : Nat := 0x400050
def SKEIN_RETRO_CAM : Nat := 0x400060
def SKEIN_RETRO_WP_LO : Nat := 0x400068
def SKEIN_RETRO_WP_HI : Nat := 0x400070
def SKEIN_RETRO_CTL : Nat := 0x400078
def SKEIN_RETRO_STATUS : Nat := 0x40007C
def SKEIN_LOAD (i : Nat) : Nat := 0x400100 + 0x4 * i
def SKEIN_RGN_BASE (i : Nat) : Nat := 0x400200 + 0x10 * i
def SKEIN_RGN_SIZE (i : Nat) : Nat := 0x400208 + 0x10 * i
def SKEIN_RGN_UNIT (i : Nat) : Nat := 0x40020C + 0x10 * i
def SKEIN_RGN_ACC (i : Nat) : Nat := 0x400600 + 0x4 * i
def STASH_ERR : Nat := 0x440000
def STASH_ERR_MASK : Nat := 0x440004
def STASH_CNT0 : Nat := 0x440008
def STASH_CNT1 : Nat := 0x44000C
def STASH_COLL_INFO : Nat := 0x440010
def STASH_COLL_ADDR : Nat := 0x440014
def STASH_TEST_CFG : Nat := 0x440018
def STASH_TEST_STATUS : Nat := 0x44001C
def STASH_TEST_INFO : Nat := 0x440020
def STASH_BANK_OWN (i j : Nat) : Nat := 0x440100 + 0x40 * i + 0x4 * j
def STASH_REPAIR (i : Nat) : Nat := 0x440600 + 0x4 * i
def STASH_SCR_REPAIR (i : Nat) : Nat := 0x440640 + 0x4 * i
def STASH_SCR_OWN (i : Nat) : Nat := 0x440680 + 0x4 * i
def STASH_BUSY (i : Nat) : Nat := 0x4406C0 + 0x4 * i

end Sys2Proof.Machine.R

/-! The named fields, as register name and field name (R6, R12). -/

namespace Sys2Proof.Machine.F

def GLB_STATUS_CASTON_DONE : Fld := ⟨31, 1⟩
def GLB_STATUS_BINDOFF_DONE : Fld := ⟨30, 1⟩
def GLB_STATUS_ERR : Fld := ⟨29, 1⟩
def GLB_STATUS_LINK_UP : Fld := ⟨28, 1⟩
def GLB_STATUS_SHED_LEVEL : Fld := ⟨21, 3⟩
def GLB_STATUS_SHED_FLOOR : Fld := ⟨20, 1⟩
def GLB_STATUS_MODE : Fld := ⟨18, 2⟩
def GLB_CASTON_DONE : Fld := ⟨31, 1⟩
def GLB_CASTON_RESULT : Fld := ⟨28, 3⟩
def GLB_CASTON_SLOT : Fld := ⟨27, 1⟩
def GLB_CASTON_EARLY_WR : Fld := ⟨0, 16⟩
def GLB_SERVICE_KEY : Fld := ⟨24, 8⟩
def GLB_SERVICE_REFUSED : Fld := ⟨16, 1⟩
def GLB_SERVICE_BINDOFF : Fld := ⟨3, 1⟩
def GLB_SERVICE_REQ : Fld := ⟨0, 3⟩
def GLB_ERR_BLK : Fld := ⟨4, 15⟩
def GLB_ERR_EARLY_WR : Fld := ⟨3, 1⟩
def GLB_ERR_DECODE : Fld := ⟨2, 1⟩
def GLB_ERR_DENY : Fld := ⟨1, 1⟩
def GLB_ERR_LOCKED_WR : Fld := ⟨0, 1⟩
def GLB_ERR_CNT0_DENY_CNT : Fld := ⟨16, 16⟩
def GLB_ERR_CNT0_DECODE_CNT : Fld := ⟨0, 16⟩
def GLB_ERR_CNT1_LOCKED_WR_CNT : Fld := ⟨0, 16⟩
def GLB_DENY_INFO_VALID : Fld := ⟨31, 1⟩
def GLB_DENY_INFO_WRITE : Fld := ⟨30, 1⟩
def GLB_DENY_INFO_KIND : Fld := ⟨28, 2⟩
def GLB_DENY_INFO_MASTER : Fld := ⟨0, 8⟩
def GLB_ACC_DELIVERY : Fld := ⟨14, 2⟩
def GLB_ACC_STE : Fld := ⟨12, 2⟩
def GLB_ACC_CAR : Fld := ⟨10, 2⟩
def GLB_ACC_HOOK : Fld := ⟨8, 2⟩
def GLB_ACC_STEWARD : Fld := ⟨6, 2⟩
def GLB_ACC_FAB : Fld := ⟨4, 2⟩
def GLB_ACC_HOST_P2P : Fld := ⟨2, 2⟩
def GLB_ACC_HOST : Fld := ⟨0, 2⟩
def STW_STATUS_SESSION : Fld := ⟨31, 1⟩
def STW_STATUS_TARGET : Fld := ⟨30, 1⟩
def STW_STATUS_VERIFIED : Fld := ⟨29, 1⟩
def STW_STATUS_BOARD_VALID : Fld := ⟨28, 1⟩
def STW_STATUS_BSCAN : Fld := ⟨27, 1⟩
def STW_STATUS_NVM_OK : Fld := ⟨26, 1⟩
def STW_ERR_BSCAN_REFUSED : Fld := ⟨5, 1⟩
def STW_ERR_LOG_FAIL : Fld := ⟨4, 1⟩
def STW_ERR_LOG_LOST : Fld := ⟨3, 1⟩
def STW_ERR_NVM_REFUSED : Fld := ⟨2, 1⟩
def STW_ERR_NVM_FAIL : Fld := ⟨1, 1⟩
def STW_ERR_CASTON : Fld := ⟨0, 1⟩
def STW_RESET_KEY : Fld := ⟨24, 8⟩
def STW_RESET_DEVICE : Fld := ⟨0, 1⟩
def STW_RESET_CAUSE_POWER_ON : Fld := ⟨5, 1⟩
def STW_RESET_CAUSE_PORST_PIN : Fld := ⟨4, 1⟩
def STW_RESET_CAUSE_BROWNOUT : Fld := ⟨3, 1⟩
def STW_RESET_CAUSE_RST_PIN : Fld := ⟨2, 1⟩
def STW_RESET_CAUSE_SW : Fld := ⟨1, 1⟩
def STW_RESET_CAUSE_WDOG : Fld := ⟨0, 1⟩
def STW_NVM_CMD_GO : Fld := ⟨31, 1⟩
def STW_NVM_CMD_OP : Fld := ⟨0, 4⟩
def STW_NVM_STATUS_BUSY : Fld := ⟨31, 1⟩
def STW_NVM_STATUS_DONE : Fld := ⟨30, 1⟩
def STW_NVM_STATUS_RESULT : Fld := ⟨24, 4⟩
def STW_NVM_STATUS_OP : Fld := ⟨20, 4⟩
def STW_LOG_CTL_FLUSH : Fld := ⟨0, 1⟩
def STW_LOG_STATUS_LOST_CNT : Fld := ⟨0, 16⟩
def STW_TEST_CFG_BSCAN_EN : Fld := ⟨0, 1⟩
def STW_TEST_STATUS_ACCESS_CNT : Fld := ⟨0, 16⟩
def PWR_STATUS_STATE : Fld := ⟨30, 2⟩
def PWR_STATUS_STEP : Fld := ⟨27, 3⟩
def PWR_STATUS_HALVED : Fld := ⟨26, 1⟩
def PWR_STATUS_EXIT_CAUSE : Fld := ⟨24, 2⟩
def PWR_STATUS_CAP : Fld := ⟨16, 5⟩
def PWR_STATUS_TJ : Fld := ⟨0, 16⟩
def PWR_CTL_KEY : Fld := ⟨24, 8⟩
def PWR_CTL_EXIT : Fld := ⟨1, 1⟩
def PWR_CTL_WATCH : Fld := ⟨0, 1⟩
def PWR_ERR_ENTRY_REFUSED : Fld := ⟨6, 1⟩
def PWR_ERR_HK_REFUSED : Fld := ⟨5, 1⟩
def PWR_ERR_HK_DEV : Fld := ⟨4, 1⟩
def PWR_ERR_HK_OVR : Fld := ⟨3, 1⟩
def PWR_ERR_SUPPLY : Fld := ⟨2, 1⟩
def PWR_ERR_ILIM : Fld := ⟨1, 1⟩
def PWR_ERR_TRIP : Fld := ⟨0, 1⟩
def PWR_CNT0_ILIM_CNT : Fld := ⟨16, 16⟩
def PWR_CNT0_TRIP_CNT : Fld := ⟨0, 16⟩
def PWR_CNT1_OVR_CNT : Fld := ⟨16, 16⟩
def PWR_CNT1_WAKE_CNT : Fld := ⟨0, 16⟩
def PWR_THERM_CFG_T_START : Fld := ⟨24, 8⟩
def PWR_THERM_CFG_T_HYST : Fld := ⟨20, 4⟩
def PWR_THERM_CFG_DOWN_MS : Fld := ⟨8, 8⟩
def PWR_THERM_CFG_UP_10MS : Fld := ⟨0, 8⟩
def PWR_ILIM_CFG_EN : Fld := ⟨31, 1⟩
def PWR_ILIM_CFG_WINDOW : Fld := ⟨16, 8⟩
def PWR_ILIM_CFG_THRESH : Fld := ⟨0, 16⟩
def PWR_CORE_SCALE_HK_CORE_ISNS : Fld := ⟨0, 16⟩
def PWR_CXP_SCALE_HK_CXP_ISNS : Fld := ⟨0, 16⟩
def PWR_WATCH_CFG_ON_D3 : Fld := ⟨31, 1⟩
def PWR_WATCH_CFG_WAKE_HOST : Fld := ⟨30, 1⟩
def PWR_HK_CFG_STREAM_EN : Fld := ⟨31, 1⟩
def PWR_HK_CFG_STREAM_CH : Fld := ⟨0, 7⟩
def PWR_HK_URGENT_GO : Fld := ⟨31, 1⟩
def PWR_HK_URGENT_CHANNEL : Fld := ⟨0, 7⟩
def PWR_HK_RESULT_VALID : Fld := ⟨31, 1⟩
def PWR_HK_RESULT_OVR : Fld := ⟨30, 1⟩
def PWR_HK_RESULT_URGENT : Fld := ⟨29, 1⟩
def PWR_HK_RESULT_CHANNEL : Fld := ⟨16, 7⟩
def PWR_HK_RESULT_VALUE : Fld := ⟨0, 16⟩
def PWR_HK_TRIM_GAIN : Fld := ⟨16, 16⟩
def PWR_HK_TRIM_OFS : Fld := ⟨0, 16⟩
def CHAIN_ERR_COINC : Fld := ⟨2, 1⟩
def CHAIN_ERR_MERGE : Fld := ⟨1, 1⟩
def CHAIN_ERR_LOOP_CUT : Fld := ⟨0, 1⟩
def CHAIN_FIRE_CH : Fld := ⟨0, 6⟩
def CHAIN_LOOP_INFO_VALID : Fld := ⟨31, 1⟩
def CHAIN_LOOP_INFO_CH : Fld := ⟨16, 6⟩
def CHAIN_LOOP_INFO_SRC : Fld := ⟨0, 9⟩
def CHAIN_CH_CFG_EN : Fld := ⟨31, 1⟩
def CHAIN_CH_CFG_SWFIRE : Fld := ⟨30, 1⟩
def CHAIN_CH_CFG_LOCK : Fld := ⟨29, 1⟩
def CHAIN_CH_CFG_REFRACT : Fld := ⟨0, 10⟩
def CHAIN_CH_OWN_SEC : Fld := ⟨31, 1⟩
def CHAIN_CH_OWN_OWNER : Fld := ⟨0, 8⟩
def CHAIN_CH_CNT2_MERGE_CNT : Fld := ⟨16, 16⟩
def CHAIN_CH_CNT2_LOOP_CUT_CNT : Fld := ⟨0, 16⟩
def CHAIN_SRC_CFG_EN : Fld := ⟨31, 1⟩
def CHAIN_SRC_CFG_CH : Fld := ⟨0, 6⟩
def CHAIN_TASK_CFG_EN0 : Fld := ⟨31, 1⟩
def CHAIN_TASK_CFG_CH0 : Fld := ⟨24, 6⟩
def CHAIN_TASK_CFG_EN1 : Fld := ⟨23, 1⟩
def CHAIN_TASK_CFG_CH1 : Fld := ⟨16, 6⟩
def CHAIN_TASK_CFG_KIND : Fld := ⟨15, 1⟩
def CHAIN_TASK_CNT_COINC_CNT : Fld := ⟨16, 16⟩
def CHAIN_TASK_CNT_ACT_CNT : Fld := ⟨0, 16⟩
def CHAIN_CTR_CFG_EN : Fld := ⟨31, 1⟩
def CHAIN_CTR_CFG_RELOAD : Fld := ⟨30, 1⟩
def CHAIN_CTR_CFG_THRESH : Fld := ⟨0, 24⟩
def GAUGE_SNAP_TAKE : Fld := ⟨0, 1⟩
def GAUGE_CHECK_CFG_EN : Fld := ⟨31, 1⟩
def GAUGE_CHECK_CFG_DEV_LIMIT : Fld := ⟨0, 8⟩
def GAUGE_CHECK_STATUS_RUNNING : Fld := ⟨27, 1⟩
def GAUGE_AXIS_CFG_EN : Fld := ⟨31, 1⟩
def GAUGE_AXIS_CFG_MODE : Fld := ⟨30, 1⟩
def GAUGE_AXIS_CFG_DIR : Fld := ⟨29, 1⟩
def GAUGE_AXIS_CFG_AUTOCORR : Fld := ⟨28, 1⟩
def GAUGE_AXIS_CFG_AMP_MIN : Fld := ⟨16, 8⟩
def GAUGE_AXIS_CFG_REV_HYST : Fld := ⟨0, 16⟩
def GAUGE_AXIS_CTL_CORR_LOAD : Fld := ⟨2, 1⟩
def GAUGE_AXIS_CTL_SCALE_APPLY : Fld := ⟨1, 1⟩
def GAUGE_AXIS_CTL_ZERO : Fld := ⟨0, 1⟩
def GAUGE_AXIS_STATUS_STATE : Fld := ⟨30, 2⟩
def GAUGE_AXIS_STATUS_POS_UNCERTAIN : Fld := ⟨29, 1⟩
def GAUGE_AXIS_STATUS_DIR_REV : Fld := ⟨28, 1⟩
def GAUGE_AXIS_STATUS_STANDSTILL : Fld := ⟨27, 1⟩
def GAUGE_AXIS_STATUS_METHOD : Fld := ⟨26, 1⟩
def GAUGE_AXIS_STATUS_REF_DONE : Fld := ⟨25, 1⟩
def GAUGE_AXIS_STATUS_PHASE : Fld := ⟨0, 12⟩
def GAUGE_ERR_CORR_LIMIT : Fld := ⟨8, 1⟩
def GAUGE_ERR_CONV_DEV : Fld := ⟨7, 1⟩
def GAUGE_ERR_WATCH_QERR : Fld := ⟨6, 1⟩
def GAUGE_ERR_OVERSTEP : Fld := ⟨5, 1⟩
def GAUGE_ERR_OVERSPEED : Fld := ⟨4, 1⟩
def GAUGE_ERR_CLIP : Fld := ⟨3, 1⟩
def GAUGE_ERR_AMP_LOW : Fld := ⟨2, 1⟩
def GAUGE_ERR_QERR : Fld := ⟨1, 1⟩
def GAUGE_ERR_SCALE_ERR : Fld := ⟨0, 1⟩
def GAUGE_CNT0_QERR_CNT : Fld := ⟨16, 16⟩
def GAUGE_CNT0_CLIP_CNT : Fld := ⟨0, 16⟩
def GAUGE_CNT1_REF_CNT : Fld := ⟨16, 16⟩
def GAUGE_CNT1_ZERO_COLLIDE_CNT : Fld := ⟨0, 16⟩
def GAUGE_SPEED_CFG_FORCE : Fld := ⟨31, 1⟩
def GAUGE_SPEED_CFG_METHOD_SEL : Fld := ⟨30, 1⟩
def GAUGE_SPEED_CFG_DIFF_WIN : Fld := ⟨24, 3⟩
def GAUGE_SPEED_CFG_P_AVG : Fld := ⟨16, 2⟩
def GAUGE_SPEED_CFG_STANDSTILL_MS : Fld := ⟨0, 16⟩
def GAUGE_REF_CFG_REF_MODE : Fld := ⟨30, 2⟩
def GAUGE_REF_CFG_REF_POL : Fld := ⟨29, 1⟩
def GAUGE_REF_CFG_REF_GATE : Fld := ⟨0, 12⟩
def GAUGE_WATCH_EN : Fld := ⟨31, 1⟩
def GAUGE_WATCH_THRESH : Fld := ⟨0, 16⟩
def GAUGE_CORR_OFS_COS_OFS : Fld := ⟨16, 16⟩
def GAUGE_CORR_OFS_SIN_OFS : Fld := ⟨0, 16⟩
def GAUGE_CORR_GP_GAIN : Fld := ⟨16, 16⟩
def GAUGE_CORR_GP_PHASE : Fld := ⟨0, 16⟩
def TRIG_ERR_BANK : Fld := ⟨6, 1⟩
def TRIG_ERR_PKT_LATE : Fld := ⟨5, 1⟩
def TRIG_ERR_PKT_DROP : Fld := ⟨4, 1⟩
def TRIG_ERR_LEDGER_OVF : Fld := ⟨3, 1⟩
def TRIG_ERR_OUT_OVERLAP : Fld := ⟨2, 1⟩
def TRIG_ERR_LATE : Fld := ⟨1, 1⟩
def TRIG_ERR_MISSED : Fld := ⟨0, 1⟩
def TRIG_BANK_CFG_OE : Fld := ⟨31, 1⟩
def TRIG_BANK_CFG_MISMATCH : Fld := ⟨8, 6⟩
def TRIG_BANK_CFG_STD : Fld := ⟨0, 6⟩
def TRIG_LIST_SEL_SET : Fld := ⟨4, 1⟩
def TRIG_LIST_SEL_UNIT : Fld := ⟨0, 4⟩
def TRIG_CMP_CFG_AXIS : Fld := ⟨30, 2⟩
def TRIG_CMP_CFG_MODE : Fld := ⟨29, 1⟩
def TRIG_CMP_CFG_FIRE_LATE : Fld := ⟨28, 1⟩
def TRIG_CMP_CFG_STEP_MODE : Fld := ⟨27, 1⟩
def TRIG_CMP_CFG_UNC_HOLD : Fld := ⟨26, 1⟩
def TRIG_CMP_CTL_SET : Fld := ⟨4, 1⟩
def TRIG_CMP_CTL_ARM : Fld := ⟨1, 1⟩
def TRIG_CMP_CTL_STOP : Fld := ⟨0, 1⟩
def TRIG_CMP_STATUS_STATE : Fld := ⟨30, 2⟩
def TRIG_CMP_STATUS_ACTIVE_SET : Fld := ⟨29, 1⟩
def TRIG_CMP_CNT_MISSED_CNT : Fld := ⟨16, 16⟩
def TRIG_CMP_CNT_LATE_CNT : Fld := ⟨0, 16⟩
def TRIG_CMP_LIST_CFG_WRAP : Fld := ⟨31, 1⟩
def TRIG_CMP_LIST_CFG_LEN : Fld := ⟨0, 13⟩
def TRIG_OUT_CFG_EN : Fld := ⟨31, 1⟩
def TRIG_OUT_CFG_POL_EDGES : Fld := ⟨30, 1⟩
def TRIG_OUT_CFG_MODE : Fld := ⟨28, 2⟩
def TRIG_OUT_CFG_WIDTH : Fld := ⟨0, 20⟩
def TRIG_OUT_CNT_OVERLAP_CNT : Fld := ⟨0, 16⟩
def TRIG_IN_CFG_EN : Fld := ⟨31, 1⟩
def TRIG_IN_CFG_POL : Fld := ⟨30, 1⟩
def TRIG_IN_CFG_EDGE : Fld := ⟨28, 2⟩
def TRIG_IN_CFG_AXIS : Fld := ⟨26, 2⟩
def TRIG_IN_CFG_FILTER : Fld := ⟨0, 8⟩
def TRIG_IN_CNT_EDGE_CNT : Fld := ⟨16, 16⟩
def TRIG_IN_CNT_GLITCH_CNT : Fld := ⟨0, 16⟩
def TRIG_PKT_CFG_EN : Fld := ⟨31, 1⟩
def TRIG_PKT_CFG_POL_EDGES : Fld := ⟨30, 1⟩
def TRIG_PKT_CFG_MODE : Fld := ⟨28, 2⟩
def TRIG_PKT_CFG_WIDTH : Fld := ⟨0, 20⟩
def TRIG_PKT_CNT_LATE_CNT : Fld := ⟨16, 16⟩
def TRIG_PKT_CNT_DROP_CNT : Fld := ⟨0, 16⟩
def TRIG_CAM_SRC_KIND : Fld := ⟨30, 2⟩
def TRIG_CAM_SRC_AXIS : Fld := ⟨28, 2⟩
def TRIG_CAM_SRC_INDEX : Fld := ⟨0, 6⟩
def TRIG_LEDGER_STATUS_FILL : Fld := ⟨16, 11⟩
def TRIG_LEDGER_STATUS_OVF_CNT : Fld := ⟨0, 16⟩
def CLL_CFG_EN : Fld := ⟨31, 1⟩
def CLL_CFG_RATE_MAX : Fld := ⟨28, 3⟩
def CLL_CFG_UP_RATE : Fld := ⟨27, 1⟩
def CLL_CFG_BTN_OFF : Fld := ⟨26, 1⟩
def CLL_CFG_CHK : Fld := ⟨25, 1⟩
def CLL_CFG_EXPECT : Fld := ⟨23, 2⟩
def CLL_CFG_HB_TMO : Fld := ⟨0, 16⟩
def CLL_CTL_PWR_RESET : Fld := ⟨5, 1⟩
def CLL_CTL_RETRAIN : Fld := ⟨4, 1⟩
def CLL_CTL_WAKE : Fld := ⟨3, 1⟩
def CLL_CTL_PARK : Fld := ⟨2, 1⟩
def CLL_CTL_STANDBY : Fld := ⟨1, 1⟩
def CLL_STATUS_STATE : Fld := ⟨29, 3⟩
def CLL_STATUS_RATE : Fld := ⟨26, 3⟩
def CLL_STATUS_UP_RATE : Fld := ⟨25, 1⟩
def CLL_STATUS_PRESENT : Fld := ⟨24, 1⟩
def CLL_STATUS_LOS : Fld := ⟨23, 1⟩
def CLL_STATUS_LOCKED : Fld := ⟨22, 1⟩
def CLL_STATUS_ALIGNED : Fld := ⟨21, 1⟩
def CLL_STATUS_RELOCK : Fld := ⟨20, 1⟩
def CLL_STATUS_MASTER : Fld := ⟨19, 1⟩
def CLL_STATUS_STREAMING : Fld := ⟨15, 1⟩
def CLL_GROUP_VALID : Fld := ⟨31, 1⟩
def CLL_GROUP_DEGRADED : Fld := ⟨30, 1⟩
def CLL_GROUP_MASTER : Fld := ⟨24, 6⟩
def CLL_GROUP_INDEX : Fld := ⟨16, 3⟩
def CLL_GROUP_COUNT : Fld := ⟨12, 4⟩
def CLL_GROUP_CAP : Fld := ⟨8, 4⟩
def CLL_ERR_CTL_REFUSED : Fld := ⟨10, 1⟩
def CLL_ERR_EVT_OVF : Fld := ⟨9, 1⟩
def CLL_ERR_CTRL_ERR : Fld := ⟨8, 1⟩
def CLL_ERR_HB_LOST : Fld := ⟨7, 1⟩
def CLL_ERR_PWR_FAULT : Fld := ⟨6, 1⟩
def CLL_ERR_GROUP : Fld := ⟨5, 1⟩
def CLL_ERR_DISC_FAIL : Fld := ⟨4, 1⟩
def CLL_ERR_CODE : Fld := ⟨3, 1⟩
def CLL_ERR_ALIGN : Fld := ⟨2, 1⟩
def CLL_ERR_LOL : Fld := ⟨1, 1⟩
def CLL_ERR_LOS : Fld := ⟨0, 1⟩
def CLL_CNT0_CODE_ERR_CNT : Fld := ⟨16, 16⟩
def CLL_CNT0_DISP_ERR_CNT : Fld := ⟨0, 16⟩
def CLL_CNT1_LOS_CNT : Fld := ⟨16, 16⟩
def CLL_CNT1_LOL_CNT : Fld := ⟨0, 16⟩
def CLL_CNT2_DISC_FAIL_CNT : Fld := ⟨16, 16⟩
def CLL_CNT2_ALIGN_LOSS_CNT : Fld := ⟨0, 16⟩
def CLL_CNT3_EVT_OVF_CNT : Fld := ⟨24, 8⟩
def CLL_CNT3_EVT_CRC_CNT : Fld := ⟨16, 8⟩
def CLL_CNT3_CTRL_TMO_CNT : Fld := ⟨0, 16⟩
def CLL_EQ_APPLIED : Fld := ⟨4, 3⟩
def CLL_EQ_CLASS : Fld := ⟨0, 3⟩
def CLL_IND_FORCE : Fld := ⟨31, 1⟩
def CLL_IND_COLOUR : Fld := ⟨4, 2⟩
def CLL_IND_BLINK : Fld := ⟨0, 2⟩
def CLL_PWR_EN : Fld := ⟨31, 1⟩
def CLL_PWR_AUTO_RETRY : Fld := ⟨30, 1⟩
def CLL_PWR_RETRY_MAX : Fld := ⟨24, 4⟩
def CLL_PWR_PRES_MA : Fld := ⟨16, 8⟩
def CLL_PWR_OC_LIMIT : Fld := ⟨0, 16⟩
def CLL_PWR_STATUS_ON : Fld := ⟨31, 1⟩
def CLL_PWR_STATUS_FAULT : Fld := ⟨30, 1⟩
def CLL_PWR_STATUS_FLT_PIN : Fld := ⟨29, 1⟩
def CLL_PWR_STATUS_OC : Fld := ⟨28, 1⟩
def CLL_PWR_STATUS_RETRIES : Fld := ⟨24, 4⟩
def CLL_PWR_STATUS_CURRENT : Fld := ⟨0, 16⟩
def CLL_CTRL_CMD_GO : Fld := ⟨31, 1⟩
def CLL_CTRL_CMD_WRITE : Fld := ⟨30, 1⟩
def CLL_CTRL_CMD_SIZE : Fld := ⟨0, 9⟩
def CLL_CTRL_STATUS_BUSY : Fld := ⟨31, 1⟩
def CLL_CTRL_STATUS_DONE : Fld := ⟨30, 1⟩
def CLL_CTRL_STATUS_RESULT : Fld := ⟨24, 4⟩
def CLL_CTRL_STATUS_ACK_CODE : Fld := ⟨16, 8⟩
def CLL_CTRL_STATUS_WAITS : Fld := ⟨0, 16⟩
def CLL_PNL_CFG_EN : Fld := ⟨31, 1⟩
def CLL_PNL_CFG_BTN_POL : Fld := ⟨30, 1⟩
def CLL_PNL_CFG_BTN_DEB : Fld := ⟨0, 16⟩
def ASM_CAM_CFG_EN : Fld := ⟨31, 1⟩
def ASM_CAM_CFG_MODE : Fld := ⟨28, 3⟩
def ASM_CAM_CFG_SCAN : Fld := ⟨27, 1⟩
def ASM_CAM_CFG_FID_CHECK : Fld := ⟨26, 1⟩
def ASM_CAM_CFG_CONN : Fld := ⟨16, 6⟩
def ASM_CAM_CFG_FILL : Fld := ⟨0, 16⟩
def ASM_FRAME_CFG_FRAME_LINES : Fld := ⟨0, 24⟩
def ASM_CTL_FLUSH : Fld := ⟨2, 1⟩
def ASM_CTL_QRESET : Fld := ⟨1, 1⟩
def ASM_CTL_CLOSE : Fld := ⟨0, 1⟩
def ASM_STATUS_OPEN : Fld := ⟨31, 1⟩
def ASM_STATUS_MODE : Fld := ⟨28, 3⟩
def ASM_ERR_CRC : Fld := ⟨10, 1⟩
def ASM_ERR_CFG : Fld := ⟨9, 1⟩
def ASM_ERR_FRAMING : Fld := ⟨8, 1⟩
def ASM_ERR_WIDTH : Fld := ⟨7, 1⟩
def ASM_ERR_UNMATCHED : Fld := ⟨6, 1⟩
def ASM_ERR_NO_FRAME : Fld := ⟨5, 1⟩
def ASM_ERR_LONG : Fld := ⟨4, 1⟩
def ASM_ERR_SHORT : Fld := ⟨3, 1⟩
def ASM_ERR_MARK_LOST : Fld := ⟨2, 1⟩
def ASM_ERR_PTR : Fld := ⟨1, 1⟩
def ASM_ERR_QOVF : Fld := ⟨0, 1⟩
def ASM_CNT0_FROG_CNT : Fld := ⟨16, 16⟩
def ASM_CNT0_QOVF_CNT : Fld := ⟨0, 16⟩
def ASM_CNT1_MARK_LOST_CNT : Fld := ⟨16, 16⟩
def ASM_CNT1_PTR_RESET_CNT : Fld := ⟨0, 16⟩
def ASM_CNT2_SHORT_CNT : Fld := ⟨16, 16⟩
def ASM_CNT2_LONG_CNT : Fld := ⟨0, 16⟩
def ASM_CNT3_UNMATCHED_CNT : Fld := ⟨16, 16⟩
def ASM_CNT3_NO_FRAME_CNT : Fld := ⟨0, 16⟩
def ASM_CNT4_FRAMING_CNT : Fld := ⟨16, 16⟩
def ASM_CNT4_WIDTH_ERR_CNT : Fld := ⟨0, 16⟩
def ASM_Q_CFG_MERGE_SKEW : Fld := ⟨16, 8⟩
def ASM_Q_CFG_FORFEIT : Fld := ⟨0, 8⟩
def ASM_Q_STATUS_MARKS : Fld := ⟨29, 3⟩
def ASM_Q_STATUS_RESETTING : Fld := ⟨28, 1⟩
def ASM_Q_STATUS_FILL : Fld := ⟨0, 14⟩
def CAR_CFG_EN : Fld := ⟨31, 1⟩
def CAR_CFG_MEM_EN : Fld := ⟨30, 1⟩
def CAR_CTL_RESET : Fld := ⟨0, 1⟩
def CAR_STATUS_INLINE : Fld := ⟨31, 1⟩
def CAR_STATUS_MEM_BUSY : Fld := ⟨30, 1⟩
def CAR_STATUS_INLINE_CAM : Fld := ⟨24, 6⟩
def CAR_STATUS_MEM_CAMS : Fld := ⟨20, 4⟩
def CAR_STATUS_LOAD : Fld := ⟨0, 10⟩
def CAR_ERR_CFG : Fld := ⟨10, 1⟩
def CAR_ERR_FMT : Fld := ⟨9, 1⟩
def CAR_ERR_INLINE_OVF : Fld := ⟨8, 1⟩
def CAR_ERR_MEM_SKIP : Fld := ⟨7, 1⟩
def CAR_ERR_OUT_DROP : Fld := ⟨6, 1⟩
def CAR_ERR_CPB_LATE : Fld := ⟨5, 1⟩
def CAR_ERR_CPB_STALE : Fld := ⟨4, 1⟩
def CAR_ERR_DPC_ORDER : Fld := ⟨3, 1⟩
def CAR_ERR_PSID_MISMATCH : Fld := ⟨2, 1⟩
def CAR_ERR_SET_FAIL : Fld := ⟨1, 1⟩
def CAR_ERR_SET_LATE : Fld := ⟨0, 1⟩
def CAR_CNT0_INLINE_OVF_CNT : Fld := ⟨16, 16⟩
def CAR_CNT0_MEM_SKIP_CNT : Fld := ⟨0, 16⟩
def CAR_CNT1_OUT_DROP_CNT : Fld := ⟨16, 16⟩
def CAR_CNT1_CPB_LATE_CNT : Fld := ⟨0, 16⟩
def CAR_CNT2_FMT_CNT : Fld := ⟨24, 8⟩
def CAR_CNT2_DPC_ORDER_CNT : Fld := ⟨16, 8⟩
def CAR_CNT2_CPB_STALE_CNT : Fld := ⟨8, 8⟩
def CAR_CNT2_RESET_DROP_CNT : Fld := ⟨0, 8⟩
def CAR_CAM_PATH_PATH : Fld := ⟨30, 2⟩
def CAR_CAM_PATH_CARRIAGE : Fld := ⟨28, 2⟩
def CAR_CAM_PATH_REGION : Fld := ⟨16, 5⟩
def CAR_MDL_CFG_EN : Fld := ⟨31, 1⟩
def CAR_MDL_CFG_UNIT : Fld := ⟨30, 1⟩
def CAR_MDL_CFG_DELAY : Fld := ⟨24, 4⟩
def CAR_MDL_CFG_ACK_LAT : Fld := ⟨0, 16⟩
def CAR_MDL_WIN_WIN_START : Fld := ⟨16, 16⟩
def CAR_MDL_WIN_WIN_END : Fld := ⟨0, 16⟩
def CAR_MDL_STATUS_PSID : Fld := ⟨16, 16⟩
def CAR_SET_CTL_GO : Fld := ⟨31, 1⟩
def CAR_SET_CTL_TGT_KIND : Fld := ⟨29, 2⟩
def CAR_SET_CTL_AXIS : Fld := ⟨27, 2⟩
def CAR_SET_CTL_COUNT : Fld := ⟨0, 5⟩
def CAR_SET_STATUS_PENDING : Fld := ⟨31, 1⟩
def CAR_SET_STATUS_ISSUING : Fld := ⟨30, 1⟩
def CAR_SET_STATUS_DONE : Fld := ⟨29, 1⟩
def CAR_SET_STATUS_RESULT : Fld := ⟨24, 4⟩
def CAR_SET_STATUS_PSID : Fld := ⟨0, 16⟩
def CAR_MDL_CNT_LATE_CNT : Fld := ⟨24, 8⟩
def CAR_MDL_CNT_SUPERSEDED_CNT : Fld := ⟨16, 8⟩
def CAR_MDL_CNT_FAIL_CNT : Fld := ⟨8, 8⟩
def CAR_MDL_CNT_MISMATCH_CNT : Fld := ⟨0, 8⟩
def STE_CFG_EN : Fld := ⟨31, 1⟩
def STE_CFG_STEAL_IN : Fld := ⟨30, 1⟩
def STE_CFG_STEAL_OUT : Fld := ⟨29, 1⟩
def STE_CFG_RADIUS : Fld := ⟨24, 3⟩
def STE_CFG_ENG_EN : Fld := ⟨0, 16⟩
def STE_CTL_RESET : Fld := ⟨31, 1⟩
def STE_CTL_FENCE : Fld := ⟨8, 1⟩
def STE_CTL_ENGINE : Fld := ⟨0, 4⟩
def STE_STATUS_ON : Fld := ⟨31, 1⟩
def STE_STATUS_HALVED : Fld := ⟨30, 1⟩
def STE_STATUS_FREQ : Fld := ⟨16, 12⟩
def STE_STATUS_RUN : Fld := ⟨0, 16⟩
def STE_ERR_ORD_FULL : Fld := ⟨9, 1⟩
def STE_ERR_CFG : Fld := ⟨8, 1⟩
def STE_ERR_SEL_FILL : Fld := ⟨7, 1⟩
def STE_ERR_BAND_DROP : Fld := ⟨6, 1⟩
def STE_ERR_ENG_FAULT : Fld := ⟨5, 1⟩
def STE_ERR_KFAULT : Fld := ⟨4, 1⟩
def STE_ERR_GIVEUP : Fld := ⟨3, 1⟩
def STE_ERR_LATE_RESULT : Fld := ⟨2, 1⟩
def STE_ERR_FENCE : Fld := ⟨1, 1⟩
def STE_ERR_WDOG : Fld := ⟨0, 1⟩
def STE_CNT0_WDOG_CNT : Fld := ⟨16, 16⟩
def STE_CNT0_LATE_RESULT_CNT : Fld := ⟨0, 16⟩
def STE_CNT1_REISSUE_CNT : Fld := ⟨16, 16⟩
def STE_CNT1_GIVEUP_CNT : Fld := ⟨0, 16⟩
def STE_CNT2_STEAL_LOCAL_CNT : Fld := ⟨16, 16⟩
def STE_CNT2_STEAL_REMOTE_CNT : Fld := ⟨0, 16⟩
def STE_CNT3_KFAULT_CNT : Fld := ⟨16, 16⟩
def STE_CNT3_DISCARD_CNT : Fld := ⟨0, 16⟩
def STE_WDOG_REISSUE_MAX : Fld := ⟨24, 4⟩
def STE_WDOG_LIMIT : Fld := ⟨0, 20⟩
def STE_FCAP_CAP : Fld := ⟨0, 5⟩
def STE_ENG_STATUS_STATE : Fld := ⟨29, 3⟩
def STE_ENG_STATUS_DEPTH : Fld := ⟨16, 6⟩
def STE_ENG_STATUS_EPOCH : Fld := ⟨0, 16⟩
def STE_ENG_ITEM_VALID : Fld := ⟨31, 1⟩
def STE_ENG_ITEM_DEFERRED : Fld := ⟨30, 1⟩
def STE_ORD_CFG_ORDER_WIN : Fld := ⟨0, 12⟩
def STE_ORD_STATUS_FULL : Fld := ⟨31, 1⟩
def STE_CAM_CFG_EN : Fld := ⟨31, 1⟩
def STE_CAM_CFG_KERNEL : Fld := ⟨24, 5⟩
def STE_CAM_CFG_CLUSTERS : Fld := ⟨0, 16⟩
def STE_CAM_TILE_SEL_X : Fld := ⟨28, 4⟩
def STE_CAM_TILE_SEL_Y : Fld := ⟨24, 4⟩
def STE_CAM_TILE_TILE_W : Fld := ⟨12, 12⟩
def STE_CAM_TILE_TILE_H : Fld := ⟨0, 12⟩
def STE_CAM_BANDS_BANDS : Fld := ⟨24, 4⟩
def STE_CAM_BANDS_BASE : Fld := ⟨12, 9⟩
def STE_CAM_CNT_BAND_DROP_CNT : Fld := ⟨16, 16⟩
def STE_CAM_CNT_SEL_FILL_CNT : Fld := ⟨0, 16⟩
def JOB_STATUS_EPOCH : Fld := ⟨16, 16⟩
def JOB_STATUS_ARMED : Fld := ⟨15, 1⟩
def JOB_STATUS_SWATCH : Fld := ⟨14, 1⟩
def JOB_STATUS_SLOT1 : Fld := ⟨9, 3⟩
def JOB_STATUS_SLOT0 : Fld := ⟨6, 3⟩
def JOB_CTL_RESET : Fld := ⟨7, 1⟩
def JOB_CTL_ABORT : Fld := ⟨6, 1⟩
def JOB_CTL_RELEASE : Fld := ⟨5, 1⟩
def JOB_CTL_SWATCH_RESTART : Fld := ⟨4, 1⟩
def JOB_CTL_START : Fld := ⟨3, 1⟩
def JOB_CTL_ARM : Fld := ⟨2, 1⟩
def JOB_CTL_STAGE : Fld := ⟨1, 1⟩
def JOB_ERR_SWATCH_FAIL : Fld := ⟨7, 1⟩
def JOB_ERR_CAMSET : Fld := ⟨6, 1⟩
def JOB_ERR_FAB_MISMATCH : Fld := ⟨5, 1⟩
def JOB_ERR_ABORT_LATE : Fld := ⟨4, 1⟩
def JOB_ERR_ARM_REFUSED : Fld := ⟨3, 1⟩
def JOB_ERR_STAGE_FAIL : Fld := ⟨2, 1⟩
def JOB_ERR_DRAIN_FORCED : Fld := ⟨1, 1⟩
def JOB_ERR_CTL_REFUSED : Fld := ⟨0, 1⟩
def JOB_CNT0_STAGE_FAIL_CNT : Fld := ⟨16, 16⟩
def JOB_CNT0_ARM_REFUSED_CNT : Fld := ⟨0, 16⟩
def JOB_CNT1_CAMSET_LATE_CNT : Fld := ⟨16, 16⟩
def JOB_CNT1_ABORT_CNT : Fld := ⟨0, 16⟩
def JOB_STAGE_STATUS_BUSY : Fld := ⟨31, 1⟩
def JOB_STAGE_STATUS_DONE : Fld := ⟨30, 1⟩
def JOB_STAGE_STATUS_RESULT : Fld := ⟨24, 4⟩
def JOB_STAGE_STATUS_SECTION : Fld := ⟨16, 8⟩
def JOB_SPLICE_CFG_AXIS : Fld := ⟨30, 2⟩
def JOB_SPLICE_CFG_FAB_SEND : Fld := ⟨29, 1⟩
def JOB_SPLICE_CFG_FAB_ACCEPT : Fld := ⟨28, 1⟩
def JOB_SPLICE_CFG_RING : Fld := ⟨16, 6⟩
def JOB_SWATCH_STATUS_ACTIVE : Fld := ⟨31, 1⟩
def JOB_SWATCH_STATUS_K : Fld := ⟨16, 7⟩
def JOB_SWATCH_STATUS_EXTRA : Fld := ⟨8, 8⟩
def JOB_SWATCH_STATUS_REPEAT : Fld := ⟨0, 7⟩
def JOB_ARM_STATUS_RESULT : Fld := ⟨28, 4⟩
def JOB_ARM_STATUS_FROM_FAB : Fld := ⟨27, 1⟩
def JOB_ARM_STATUS_FAB_LATE : Fld := ⟨26, 1⟩
def JOB_ARM_STATUS_ABORT_LATE : Fld := ⟨25, 1⟩
def JOB_ARM_STATUS_EPOCH : Fld := ⟨0, 16⟩
def HOOK_ERR_CTL_REFUSED : Fld := ⟨8, 1⟩
def HOOK_ERR_COLLIDE : Fld := ⟨7, 1⟩
def HOOK_ERR_WRITE_ERR : Fld := ⟨6, 1⟩
def HOOK_ERR_READ_ERR : Fld := ⟨5, 1⟩
def HOOK_ERR_DENY : Fld := ⟨4, 1⟩
def HOOK_ERR_OVERLAP : Fld := ⟨3, 1⟩
def HOOK_ERR_DECODE : Fld := ⟨2, 1⟩
def HOOK_ERR_MISALIGN : Fld := ⟨1, 1⟩
def HOOK_ERR_DESC : Fld := ⟨0, 1⟩
def HOOK_CTL_RESET : Fld := ⟨0, 1⟩
def HOOK_CNT0_COLLIDE_CNT : Fld := ⟨16, 16⟩
def HOOK_CNT0_CTL_REFUSED_CNT : Fld := ⟨0, 16⟩
def HOOK_CFG_BARRIER : Fld := ⟨31, 1⟩
def HOOK_CFG_OVERLAP_OK : Fld := ⟨30, 1⟩
def HOOK_CFG_PRIO : Fld := ⟨28, 2⟩
def HOOK_CFG_SLOTS : Fld := ⟨20, 4⟩
def HOOK_CFG_ESIZE : Fld := ⟨0, 3⟩
def HOOK_CH_CTL_ABORT : Fld := ⟨1, 1⟩
def HOOK_CH_CTL_GO : Fld := ⟨0, 1⟩
def HOOK_CH_STATUS_BUSY : Fld := ⟨31, 1⟩
def HOOK_CH_STATUS_DONE : Fld := ⟨30, 1⟩
def HOOK_CH_STATUS_ABORT_LATE : Fld := ⟨29, 1⟩
def HOOK_CH_STATUS_STAGED : Fld := ⟨28, 1⟩
def HOOK_CH_STATUS_COLLIDE : Fld := ⟨27, 1⟩
def HOOK_CH_STATUS_STATE : Fld := ⟨20, 4⟩
def HOOK_CH_STATUS_RESULT : Fld := ⟨12, 4⟩
def HOOK_CH_CNT_END_CNT : Fld := ⟨16, 16⟩
def HOOK_CH_CNT_ERR_CNT : Fld := ⟨0, 16⟩
def HOST_STATUS_L0 : Fld := ⟨31, 1⟩
def HOST_STATUS_DL_UP : Fld := ⟨30, 1⟩
def HOST_STATUS_FLIT : Fld := ⟨29, 1⟩
def HOST_STATUS_RATE : Fld := ⟨26, 3⟩
def HOST_STATUS_WIDTH : Fld := ⟨21, 5⟩
def HOST_STATUS_DSTATE : Fld := ⟨19, 2⟩
def HOST_STATUS_FLR_BUSY : Fld := ⟨18, 1⟩
def HOST_STATUS_MSIX_EN : Fld := ⟨17, 1⟩
def HOST_STATUS_INTA : Fld := ⟨16, 1⟩
def HOST_ERR_WIN_MERGE : Fld := ⟨13, 1⟩
def HOST_ERR_TRIP_ACCESS : Fld := ⟨12, 1⟩
def HOST_ERR_FLR : Fld := ⟨11, 1⟩
def HOST_ERR_LINK_DOWN : Fld := ⟨10, 1⟩
def HOST_ERR_RAW_ABANDON : Fld := ⟨9, 1⟩
def HOST_ERR_STATS_DROP : Fld := ⟨8, 1⟩
def HOST_ERR_DOORBELL : Fld := ⟨7, 1⟩
def HOST_ERR_BAD_DESC : Fld := ⟨6, 1⟩
def HOST_ERR_RING_ERR : Fld := ⟨5, 1⟩
def HOST_ERR_XLATE : Fld := ⟨4, 1⟩
def HOST_ERR_POISON_RX : Fld := ⟨3, 1⟩
def HOST_ERR_CPL_ERR : Fld := ⟨2, 1⟩
def HOST_ERR_LATE_CPL : Fld := ⟨1, 1⟩
def HOST_ERR_CTO : Fld := ⟨0, 1⟩
def HOST_CNT0_CTO_CNT : Fld := ⟨16, 16⟩
def HOST_CNT0_LATE_CPL_CNT : Fld := ⟨0, 16⟩
def HOST_CNT1_POISON_RX_CNT : Fld := ⟨16, 16⟩
def HOST_CNT1_CPL_ERR_CNT : Fld := ⟨0, 16⟩
def HOST_CNT2_RECOVERY_CNT : Fld := ⟨16, 16⟩
def HOST_CNT2_LINK_DOWN_CNT : Fld := ⟨0, 16⟩
def HOST_CNT3_STATS_DROP_CNT : Fld := ⟨16, 16⟩
def HOST_CNT3_RAW_ABANDON_CNT : Fld := ⟨0, 16⟩
def HOST_CNT4_XLATE_FAIL_CNT : Fld := ⟨16, 16⟩
def HOST_CNT4_INVAL_CNT : Fld := ⟨0, 16⟩
def HOST_CNT5_BAD_DESC_CNT : Fld := ⟨16, 16⟩
def HOST_CNT5_DISCARD_CNT : Fld := ⟨0, 16⟩
def HOST_DLV_CFG_EVT_EN : Fld := ⟨31, 1⟩
def HOST_DLV_CFG_NOTICE_EN : Fld := ⟨30, 1⟩
def HOST_DLV_CFG_EVT_RING : Fld := ⟨24, 6⟩
def HOST_DLV_CFG_NOTICE_RING : Fld := ⟨16, 6⟩
def HOST_DLV_CFG_RAW_LAG : Fld := ⟨0, 16⟩
def HOST_DLV_STATUS_HOLD : Fld := ⟨31, 1⟩
def HOST_DLV_STATUS_BACKLOG : Fld := ⟨30, 1⟩
def HOST_WIN_APPLY_APPLY : Fld := ⟨0, 1⟩
def HOST_WIN_STATUS_PENDING : Fld := ⟨31, 1⟩
def HOST_WIN_STATUS_APPLIED : Fld := ⟨30, 1⟩
def HOST_WIN_SHADOW_EN : Fld := ⟨31, 1⟩
def HOST_WIN_SHADOW_BASE : Fld := ⟨0, 6⟩
def HOST_CAM_DLV_RAW_EN : Fld := ⟨31, 1⟩
def HOST_CAM_DLV_RAW_RING : Fld := ⟨24, 6⟩
def HOST_RING_CFG_EN : Fld := ⟨31, 1⟩
def HOST_RING_CFG_PACK : Fld := ⟨30, 1⟩
def HOST_RING_CFG_RO : Fld := ⟨29, 1⟩
def HOST_RING_CFG_DISCARD : Fld := ⟨28, 1⟩
def HOST_RING_CFG_DLOG : Fld := ⟨16, 5⟩
def HOST_RING_CFG_CLOG : Fld := ⟨8, 5⟩
def HOST_RING_CTL_REVOKE : Fld := ⟨0, 1⟩
def HOST_RING_STATUS_STATE : Fld := ⟨30, 2⟩
def HOST_RING_STATUS_ERR_CODE : Fld := ⟨28, 2⟩
def HOST_RING_STATUS_WAIT_DESC : Fld := ⟨27, 1⟩
def HOST_RING_STATUS_WAIT_CQ : Fld := ⟨26, 1⟩
def HOST_RING_CNT_WAIT_CNT : Fld := ⟨16, 16⟩
def HOST_RING_CNT_ABANDON_CNT : Fld := ⟨0, 16⟩
def HOST_RING_IRQ_EN : Fld := ⟨31, 1⟩
def HOST_RING_IRQ_COUNT : Fld := ⟨16, 8⟩
def HOST_RING_IRQ_TIME : Fld := ⟨0, 16⟩
def FAB_CFG_EN : Fld := ⟨31, 1⟩
def FAB_CFG_PREF_VALID : Fld := ⟨30, 1⟩
def FAB_CFG_PREF_ADDR : Fld := ⟨24, 6⟩
def FAB_CFG_ROOT_PRIO : Fld := ⟨8, 8⟩
def FAB_CFG_SINK_PRIO : Fld := ⟨0, 8⟩
def FAB_CTL_CLEAR_SPARE : Fld := ⟨2, 1⟩
def FAB_CTL_MARK_TX : Fld := ⟨1, 1⟩
def FAB_CTL_TIME_CAP : Fld := ⟨0, 1⟩
def FAB_STATUS_STATE : Fld := ⟨29, 3⟩
def FAB_STATUS_ROOT : Fld := ⟨28, 1⟩
def FAB_STATUS_SINK : Fld := ⟨27, 1⟩
def FAB_STATUS_TIME_LOCKED : Fld := ⟨26, 1⟩
def FAB_STATUS_UP_PORT : Fld := ⟨24, 2⟩
def FAB_STATUS_ADDR : Fld := ⟨16, 6⟩
def FAB_STATUS_HOPS : Fld := ⟨12, 4⟩
def FAB_STATUS_MEMBERS : Fld := ⟨0, 7⟩
def FAB_ERR_ADDR_CONFLICT : Fld := ⟨12, 1⟩
def FAB_ERR_MARK_NONE : Fld := ⟨11, 1⟩
def FAB_ERR_TIME_STEP : Fld := ⟨10, 1⟩
def FAB_ERR_FULL : Fld := ⟨9, 1⟩
def FAB_ERR_NOROUTE : Fld := ⟨8, 1⟩
def FAB_ERR_HOP_DROP : Fld := ⟨7, 1⟩
def FAB_ERR_LATE_RSP : Fld := ⟨6, 1⟩
def FAB_ERR_REQ_TMO : Fld := ⟨5, 1⟩
def FAB_ERR_FENCED : Fld := ⟨4, 1⟩
def FAB_ERR_EPOCH_REJ : Fld := ⟨3, 1⟩
def FAB_ERR_CRC : Fld := ⟨2, 1⟩
def FAB_ERR_TRAIN_FAIL : Fld := ⟨1, 1⟩
def FAB_ERR_PORT_DOWN : Fld := ⟨0, 1⟩
def FAB_CNT0_EPOCH_REJ_CNT : Fld := ⟨16, 16⟩
def FAB_CNT0_REQ_TMO_CNT : Fld := ⟨0, 16⟩
def FAB_CNT1_LATE_RSP_CNT : Fld := ⟨16, 16⟩
def FAB_CNT1_HOP_DROP_CNT : Fld := ⟨0, 16⟩
def FAB_CNT2_MARK_RX_CNT : Fld := ⟨16, 16⟩
def FAB_CNT2_MARK_DUP_CNT : Fld := ⟨0, 16⟩
def FAB_TMO_OT_TMO : Fld := ⟨24, 8⟩
def FAB_TMO_MEMBER_TMO : Fld := ⟨16, 8⟩
def FAB_TMO_REQ_TMO : Fld := ⟨0, 16⟩
def FAB_ROLE_OT_VALID : Fld := ⟨31, 1⟩
def FAB_ROLE_SINK_VALID : Fld := ⟨23, 1⟩
def FAB_SINK_CFG_HOOK : Fld := ⟨16, 16⟩
def FAB_SINK_CFG_RGN : Fld := ⟨0, 5⟩
def FAB_TIME_CFG_PULSE_EN : Fld := ⟨31, 1⟩
def FAB_TIME_CFG_PERIOD : Fld := ⟨0, 24⟩
def FAB_PORT_CFG_EN : Fld := ⟨31, 1⟩
def FAB_PORT_CFG_ASYM : Fld := ⟨0, 16⟩
def FAB_PORT_STATUS_STATE : Fld := ⟨30, 2⟩
def FAB_PORT_STATUS_PHASE : Fld := ⟨28, 2⟩
def FAB_PORT_STATUS_TREE : Fld := ⟨27, 1⟩
def FAB_PORT_STATUS_LOCKED : Fld := ⟨22, 4⟩
def FAB_PORT_STATUS_PEER_ADDR : Fld := ⟨16, 6⟩
def FAB_PORT_STATUS_PEER_PORT : Fld := ⟨14, 2⟩
def FAB_PORT_STATUS_BACKOFF : Fld := ⟨11, 3⟩
def FAB_PORT_CNT0_CRC_CNT : Fld := ⟨16, 16⟩
def FAB_PORT_CNT0_REPLAY_CNT : Fld := ⟨0, 16⟩
def FAB_PORT_CNT1_TRAIN_FAIL_CNT : Fld := ⟨16, 16⟩
def FAB_PORT_CNT1_RETRAIN_CNT : Fld := ⟨0, 16⟩
def FAB_PORT_CNT2_BIP_CNT : Fld := ⟨0, 16⟩
def FAB_ROUTE_VALID : Fld := ⟨31, 1⟩
def FAB_ROUTE_HOPS : Fld := ⟨20, 4⟩
def FAB_ROUTE_ALT_VALID : Fld := ⟨9, 1⟩
def FAB_ROUTE_ALT : Fld := ⟨4, 2⟩
def FAB_ROUTE_PORT : Fld := ⟨0, 2⟩
def FAB_PEER_ACC_SKEIN : Fld := ⟨2, 2⟩
def FAB_PEER_ACC_REG : Fld := ⟨0, 2⟩
def SKEIN_STATUS_INIT_DONE : Fld := ⟨31, 1⟩
def SKEIN_STATUS_TRAIN_FAIL : Fld := ⟨30, 1⟩
def SKEIN_STATUS_LOCK : Fld := ⟨29, 1⟩
def SKEIN_STATUS_HIST_ON : Fld := ⟨28, 1⟩
def SKEIN_STATUS_TRAINED : Fld := ⟨0, 16⟩
def SKEIN_CTL_FLUSH : Fld := ⟨0, 1⟩
def SKEIN_ERR_RETRO_REFUSED : Fld := ⟨8, 1⟩
def SKEIN_ERR_HIST_DROP : Fld := ⟨7, 1⟩
def SKEIN_ERR_HIST_CFG : Fld := ⟨6, 1⟩
def SKEIN_ERR_HIST_UNDELIV : Fld := ⟨5, 1⟩
def SKEIN_ERR_HIST_OVW : Fld := ⟨4, 1⟩
def SKEIN_ERR_TRAIN_FAIL : Fld := ⟨3, 1⟩
def SKEIN_ERR_UE : Fld := ⟨2, 1⟩
def SKEIN_ERR_LINK_CE : Fld := ⟨1, 1⟩
def SKEIN_ERR_CE : Fld := ⟨0, 1⟩
def SKEIN_CNT0_CE_CNT : Fld := ⟨16, 16⟩
def SKEIN_CNT0_UE_CNT : Fld := ⟨0, 16⟩
def SKEIN_CNT1_LINK_CE_CNT : Fld := ⟨16, 16⟩
def SKEIN_CNT1_REFUSE_CNT : Fld := ⟨0, 16⟩
def SKEIN_CNT2_HIST_OVW_CNT : Fld := ⟨16, 16⟩
def SKEIN_CNT2_HIST_UNDELIV_CNT : Fld := ⟨8, 8⟩
def SKEIN_CNT2_HIST_DROP_CNT : Fld := ⟨0, 8⟩
def SKEIN_ECC_INFO_VALID : Fld := ⟨31, 1⟩
def SKEIN_ECC_INFO_UE : Fld := ⟨30, 1⟩
def SKEIN_ECC_INFO_CHANNEL : Fld := ⟨24, 4⟩
def SKEIN_ECC_INFO_MASTER : Fld := ⟨0, 8⟩
def SKEIN_SCRUB_CFG_EN : Fld := ⟨31, 1⟩
def SKEIN_SCRUB_CFG_RATE : Fld := ⟨0, 16⟩
def SKEIN_SCRUB_STATUS_PASSES : Fld := ⟨16, 16⟩
def SKEIN_HIST_CFG_EN : Fld := ⟨31, 1⟩
def SKEIN_HIST_CFG_REGION : Fld := ⟨16, 5⟩
def SKEIN_HIST_CFG_INDEX : Fld := ⟨0, 8⟩
def SKEIN_RETRO_CTL_GO : Fld := ⟨31, 1⟩
def SKEIN_RETRO_CTL_AXIS : Fld := ⟨28, 2⟩
def SKEIN_RETRO_STATUS_BUSY : Fld := ⟨31, 1⟩
def SKEIN_RETRO_STATUS_DONE : Fld := ⟨30, 1⟩
def SKEIN_RETRO_STATUS_FOUND : Fld := ⟨20, 10⟩
def SKEIN_RETRO_STATUS_MISSING : Fld := ⟨10, 10⟩
def SKEIN_RETRO_STATUS_STALE : Fld := ⟨0, 10⟩
def SKEIN_RGN_UNIT_STE : Fld := ⟨16, 16⟩
def SKEIN_RGN_UNIT_HOOK : Fld := ⟨0, 16⟩
def SKEIN_RGN_ACC_EN : Fld := ⟨31, 1⟩
def SKEIN_RGN_ACC_CAR_MASK : Fld := ⟨20, 4⟩
def SKEIN_RGN_ACC_Class_pairs : Fld := ⟨0, 16⟩
def STASH_ERR_BANK_BAD : Fld := ⟨3, 1⟩
def STASH_ERR_TEST_FAIL : Fld := ⟨2, 1⟩
def STASH_ERR_HANDOVER : Fld := ⟨1, 1⟩
def STASH_ERR_COLLIDE : Fld := ⟨0, 1⟩
def STASH_CNT0_COLLIDE_CNT : Fld := ⟨16, 16⟩
def STASH_CNT0_HANDOVER_REF_CNT : Fld := ⟨0, 16⟩
def STASH_CNT1_TEST_FAIL_CNT : Fld := ⟨16, 16⟩
def STASH_CNT1_URGENT_CNT : Fld := ⟨0, 16⟩
def STASH_COLL_INFO_VALID : Fld := ⟨31, 1⟩
def STASH_COLL_INFO_ENG_VALID : Fld := ⟨30, 1⟩
def STASH_COLL_INFO_CLUSTER : Fld := ⟨26, 4⟩
def STASH_COLL_INFO_BANK : Fld := ⟨22, 4⟩
def STASH_COLL_INFO_ENGINE : Fld := ⟨8, 8⟩
def STASH_COLL_INFO_MASTER : Fld := ⟨0, 8⟩
def STASH_TEST_CFG_EN : Fld := ⟨31, 1⟩
def STASH_TEST_CFG_RATE : Fld := ⟨0, 8⟩
def STASH_TEST_STATUS_PASSES : Fld := ⟨16, 16⟩
def STASH_TEST_INFO_VALID : Fld := ⟨31, 1⟩
def STASH_TEST_INFO_SCR : Fld := ⟨30, 1⟩
def STASH_TEST_INFO_CLUSTER : Fld := ⟨26, 4⟩
def STASH_TEST_INFO_UNIT : Fld := ⟨22, 4⟩
def STASH_TEST_INFO_LINE : Fld := ⟨10, 12⟩
def STASH_BANK_OWN_BAD : Fld := ⟨31, 1⟩
def STASH_BANK_OWN_PENDING : Fld := ⟨30, 1⟩
def STASH_BANK_OWN_EXPECT : Fld := ⟨8, 8⟩
def STASH_BANK_OWN_OWNER : Fld := ⟨0, 8⟩
def STASH_REPAIR_BAD : Fld := ⟨16, 16⟩
def STASH_SCR_OWN_OWNER : Fld := ⟨0, 8⟩

end Sys2Proof.Machine.F
end

