-- ==== Sys2Proof/Machine/State.lean ====
section
/-! DEFINITION. The state of the Talom as plain data: the registers of BAR0 in one sparse table, and beside it what the
spec gives each block beyond its registers. The queue of waiting commands stands beside the device, so that no command's
meaning reaches it. -/

namespace Sys2Proof.Machine

/-- Why a step stops with a fault. No command of this block stops with one: every event the spec describes has an effect,
or none, and a denied access is answered (R53, R59). The type is kept closed and empty of reasons that are not the spec's. -/
inductive Fault where
  /-- Raised by no command; it stands for an access to memory that the spec does not have (safe: the machine stops). -/
  | noSuchAddress (addr : Nat)
deriving DecidableEq, Repr

/-- Why a command has no meaning. -/
inductive Refusal where
  /-- A command whose meaning is not written yet (safe). -/
  | notModelled (mnemonic : String)
deriving DecidableEq, Repr

/-- The service modes of R61. -/
inductive Mode where
  | bringup | service | test | recovery
deriving DecidableEq, Repr

/-- The device Bind-off of R63. -/
inductive Bindoff where
  | none | inProgress | done
deriving DecidableEq, Repr

/-- The timers whose end is a command of its own. -/
inductive Timer where
  | shedRaise | shedLower
  | settle (a : Nat)
  | loss (n : Nat) | ctrl (n : Nat) | ctrlEnd (n : Nat) | joinWait (n : Nat) | discover (n : Nat) | train (n : Nat)
  | mergeSkew (c : Nat)
  | hb (n : Nat) | pwrRetry (n : Nat) | pwrClear (n : Nat)
  | skeinInit | retro | recovery | flr
deriving DecidableEq, Repr

/-- An event the Chain has delivered towards a task input and the input has not acted on yet (R155, R159). -/
structure InFlight where
  task : Nat
  ch   : Nat
  src  : Nat
  hop  : Nat
  at_  : Nat
deriving DecidableEq, Repr

/-- One Chain channel: whether it has published, when, until when its spacing S runs, and the event it holds (R156, R157). -/
structure Chan where
  used   : Bool
  lastAt : Nat
  freeAt : Nat
  held   : Option (Nat × Nat)
deriving DecidableEq, Repr

def Chan.init : Chan := { used := false, lastAt := 0, freeAt := 0, held := none }

/-- One Chain counter beyond its registers (R169): the open 1 ns window after a count, and whether a counter without RELOAD
has published since it was cleared. -/
structure Ctr where
  window : Bool
  winAt  : Nat
  winHop : Nat
  winCnt : Nat
  fired  : Bool
deriving DecidableEq, Repr

def Ctr.init : Ctr := { window := false, winAt := 0, winHop := 0, winCnt := 0, fired := false }

/-- The Chain beyond its registers. -/
structure ChainSt where
  chans  : Tbl Chan
  flight : List InFlight
  ctrs   : Tbl Ctr
deriving DecidableEq, Repr

def ChainSt.init : ChainSt := { chans := [], flight := [], ctrs := [] }

/-- The states of an encoder axis (R105). -/
inductive AxisState where
  | off | settle | run | watch
deriving DecidableEq, Repr

/-- One sample of an axis as it leaves the Gauge (R80, R81, R99): its aperture instant on the local clock, its ts, the fine wp
in 1/65,536 nm, the selected speed in 2^-16 nm/us, METHOD, and POS_UNCERTAIN. -/
structure Smp where
  at_    : Nat
  ts     : Int
  wpFine : Int
  speed  : Int
  method : Bool
  unc    : Bool
deriving DecidableEq, Repr

/-- The corrections of R78 in use. -/
structure Corr where
  sinOfs : Int
  cosOfs : Int
  gain   : Nat
  phase  : Int
deriving DecidableEq, Repr

/-- The extremes of the two tracks since the last estimate, and the complete periods seen (R79). -/
structure Extremes where
  sinMin  : Int
  sinMax  : Int
  cosMin  : Int
  cosMax  : Int
  periods : Nat
deriving DecidableEq, Repr

/-- One encoder axis beyond its registers (R76 to R105). -/
structure Axis where
  state    : AxisState
  digital  : Bool
  rev      : Bool
  wasWatch : Bool
  phase    : Nat
  quarter  : Nat
  refWas   : Bool
  c        : Int
  cZero    : Int
  zeroWp   : Int
  num      : Nat
  den      : Nat
  unc      : Bool
  dirRev   : Bool
  far      : Int
  still    : Bool
  stillC   : Int
  runAt    : Nat
  refDone  : Bool
  lowRun   : Nat
  lowSeen  : Bool
  method   : Bool
  edgeAt   : Nat
  hist     : List (Nat × Int × Int)
  passes   : List Nat
  speedP   : Int
  speedD   : Int
  smps     : List Smp
  posRecs  : List Smp
  amps     : List Nat
  reqZero  : Bool
  reqScale : Bool
  reqSnap  : Bool
  corr     : Corr
  ext      : Option Extremes
  watchErr : Bool
  watchPub : Bool
deriving DecidableEq, Repr

def Axis.init : Axis :=
  { state := .off, digital := false, rev := false, wasWatch := false, phase := 0, quarter := 0, refWas := false,
    c := 0, cZero := 0, zeroWp := 0, num := 1, den := 1, unc := false, dirRev := false, far := 0, still := false,
    stillC := 0, runAt := 0, refDone := false, lowRun := 0, lowSeen := false, method := false, edgeAt := 0,
    hist := [], passes := [], speedP := 0, speedD := 0, smps := [], posRecs := [], amps := [], reqZero := false,
    reqScale := false, reqSnap := false, corr := { sinOfs := 0, cosOfs := 0, gain := 0x8000, phase := 0 },
    ext := none, watchErr := false, watchPub := false }

/-- The Gauge beyond its registers: the axes and the converter check (R104). -/
structure GaugeSt where
  axes      : Tbl Axis
  checkOn   : Bool
  checkStep : Nat
  checkCyc  : Nat
deriving DecidableEq, Repr

def GaugeSt.init : GaugeSt := { axes := [], checkOn := true, checkStep := 0, checkCyc := 0 }

/-- The states of a compare unit (R119). -/
inductive UnitState where
  | idle | armed | hold | done
deriving DecidableEq, Repr

/-- A fire of a compare unit, as the entries it causes carry it (R121, R139). -/
structure Fire where
  at_   : Nat
  wp    : Int
  ts    : Int
  idx   : Nat
  set   : Nat
  late  : Bool
  unc   : Bool
  speed : Int
  axis  : Nat
deriving DecidableEq, Repr

/-- One compare unit beyond its registers (R115 to R129). -/
structure CmpUnit where
  state  : UnitState
  set    : Nat
  axis   : Nat
  pitch  : Bool
  idx    : Nat
  wrap   : Nat
  n      : Nat
  hwm    : Int
  hasHwm : Bool
  first  : Bool
  armAt  : Option (Nat × Nat)
  stopAt : Option Nat
  fires  : List Fire
deriving DecidableEq, Repr

def CmpUnit.init : CmpUnit :=
  { state := .idle, set := 0, axis := 0, pitch := false, idx := 0, wrap := 0, n := 0, hwm := 0, hasHwm := false,
    first := false, armAt := none, stopAt := none, fires := [] }

/-- One trigger output beyond its registers: a pulse in progress with its end, and the toggle state (R131). -/
structure TrigPin where
  pulse  : Bool
  endAt  : Nat
  toggle : Bool
deriving DecidableEq, Repr

def TrigPin.init : TrigPin := { pulse := false, endAt := 0, toggle := false }

/-- One trigger input: the level at the pin, the level accepted, and the instant and ts of a change not accepted yet
(R133). -/
structure TrigInput where
  level    : Bool
  accepted : Bool
  since    : Option (Nat × Nat)
deriving DecidableEq, Repr

def TrigInput.init : TrigInput := { level := false, accepted := false, since := none }

/-- A trigger packet waiting for its character boundary: its placement instant (a ts), and the fire that caused it. -/
structure PktDue where
  place : Int
  fire  : Option (Nat × Fire)
deriving DecidableEq, Repr

/-- One packet generator: rising-edge packets waiting, and falling-edge packets waiting with their placement instants. -/
structure PktGen where
  rising  : List PktDue
  falling : List Int
deriving DecidableEq, Repr

def PktGen.init : PktGen := { rising := [], falling := [] }

/-- One trigger ledger entry (R139). -/
structure LedgerEntry where
  seq    : Nat
  idx    : Nat
  wp     : Int
  ts     : Int
  speed  : Int
  epoch  : Nat
  axis   : Nat
  kind   : Nat
  unit   : Nat
  unc    : Bool
  late   : Bool
  lost   : Bool
  pred   : Bool
  set    : Nat
deriving DecidableEq, Repr

/-- One camera's trigger ledger: its unconsumed entries, oldest first, its next trigger_seq, and whether an entry has been
lost since the last one written (R140). `recent` keeps the newest entries, newest first, for the sensor-delay model (R302). -/
structure Ledger where
  entries : List LedgerEntry
  seq     : Nat
  lost    : Bool
  recent  : List LedgerEntry
deriving DecidableEq, Repr

def Ledger.init : Ledger := { entries := [], seq := 0, lost := false, recent := [] }

/-- The TRIG block beyond its registers. -/
structure TrigSt where
  units   : Tbl CmpUnit
  lists   : Tbl DWord
  pins    : Tbl TrigPin
  inputs  : Tbl TrigInput
  pkts    : Tbl PktGen
  ledgers : Tbl Ledger
  supply  : Tbl BankSupply
deriving DecidableEq, Repr

def TrigSt.init : TrigSt :=
  { units := [], lists := [], pins := [], inputs := [], pkts := [], ledgers := [], supply := [] }

/-- The states of a camera connection (R195). -/
inductive ConnState where
  | off | absent | discover | train | up | standby | park
deriving DecidableEq, Repr

/-- The steps of discovery that a control command makes (R180, R198, R199). -/
inductive DiscStep where
  | standard | devId | cfgDefault | pktSize | pktSizeWrite | tagWrite | tagRead | cfgWrite
deriving DecidableEq, Repr

/-- What a control command is for (R192): a write of a parameter set of camera `cam`, to
consecutive addresses from `addr`, a step of discovery or
training, or the host mailbox. -/
inductive CtrlKind where
  | set (cam : Nat) (addr : Nat) (values : List Nat)
  | disc (step : DiscStep)
  | mailbox
deriving DecidableEq, Repr

/-- A mailbox command as captured at GO (R207): read or write, address, size and write data. -/
structure MailCmd where
  write : Bool
  addr  : Nat
  size  : Nat
  data  : List Byte
deriving DecidableEq, Repr

/-- What leaves the Talom at its pins and links, in order. -/
inductive Out where
  /-- An MSI-X message: vector, address and data of its table entry (R539). -/
  | msix (vector : Nat) (addr : DWord) (data : Word)
  /-- Assert_INTA or Deassert_INTA (R540). -/
  | intx (asserted : Bool)
  /-- Trigger output pin `p` takes a level at an instant of the local clock (R131). -/
  | trigPin (p : Nat) (level : Bool) (at_ : Nat)
  /-- A CoaXPress trigger packet on the uplink of connection `n`, with its delay field (R134, R135). -/
  | trigPacket (n : Nat) (rising : Bool) (delay : Nat)
  /-- A control command on the uplink of connection `n` (R192, R193): a camera register written or read. -/
  | control (n : Nat) (write : Bool) (addr size : Nat) (data : List Byte)
  /-- A control command of discovery or training on the uplink of connection `n`, with the value written (R198, R199). -/
  | bootstrap (n : Nat) (step : DiscStep) (value : Nat)
  /-- CXP_PWR_EN(n) takes a level (R210). -/
  | cxpPower (n : Nat) (level : Bool)
  /-- One panel frame: the 96 indicator bits (R213, R214). -/
  | panel (bits : Nat)
  /-- A memory write to a host address, untranslated or translated, with or without Relaxed Ordering (R520). -/
  | hostWrite (addr : Nat) (relaxed : Bool) (data : List Byte)
  /-- A memory read request to a host address with a tag (R520, R521). -/
  | hostRead (tag addr len : Nat)
  /-- An ATS Translation Request with a tag (R525), and an Invalidate Completion (R526). -/
  | xlateRequest (tag iova : Nat)
  | invalidateDone (itag : Nat)
  /-- The data of a completion for an inbound read, or a poisoned one (R514, R515). -/
  | completion (data : List Byte) (poisoned : Bool)
  /-- A completion with status Configuration Request Retry Status or Unsupported Request (R541, R544). -/
  | completionError (retry : Bool)
  /-- An error message: 0 ERR_COR, 1 ERR_NONFATAL, 2 ERR_FATAL (R541). -/
  | errMessage (severity : Nat)
  /-- The data of a Stash read granted to a port of bank 16c + b (R439). -/
  | bankData (bank : Nat) (data : List Byte)
  /-- A packet that a fabric port sends, with its link sequence (R559, R562), and NAK in a control unit. -/
  | fabPacket (port seq : Nat) (pkt : FabPacket)
  | fabNak (port seq : Nat)
  /-- The tap status of a lane's transmitter in its training blocks (R564): pre status, post status, pre tap, post tap. -/
  | fabTaps (port lane preStatus postStatus pre post : Nat)
  /-- A byte string written to the NVM, or a sector erased (R600, R604). -/
  | nvmProgram (addr : Nat) (data : List Byte)
  | nvmErase (sector : Nat)
  /-- THERM_TRIP_N (R650), and the voltage in mV commanded of the VDD_CORE regulator (R632, R649). -/
  | thermTrip (low : Bool)
  | vcore (mV : Nat)
  /-- PM_PME on the link (R547), and the level of WAKE#. -/
  | pmPme
  | wakePin (low : Bool)
deriving DecidableEq, Repr

/-- One camera connection beyond its registers (R182 to R216). -/
structure Conn where
  state    : ConnState
  los      : Bool
  locked   : Bool
  aligned  : Bool
  relock   : Bool
  waking   : Bool
  rate     : Nat
  upRate   : Bool
  eq       : Nat
  joined   : Bool
  devId    : Nat
  master   : Nat
  cap      : Nat
  maxRate  : Nat
  count    : Nat
  disc     : Option DiscStep
  cmd      : Option CtrlKind
  cmdAt    : Nat
  mailbox  : Option MailCmd
  setQ     : List (Nat × Nat × List Nat)
  streamAt : Option Nat
  lolAt    : Option Nat
  events   : List (Nat × List Byte)
  pwrOn    : Bool
  fault    : Bool
  fltPin   : Bool
  oc       : Bool
  overOnce : Bool
  retries  : Nat
  current  : Nat
  btnRun   : Nat
deriving DecidableEq, Repr

def Conn.init : Conn :=
  { state := .off, los := true, locked := false, aligned := false, relock := false, waking := false, rate := 0,
    upRate := false, eq := 2, joined := false, devId := 0, master := 0, cap := 0, maxRate := 0, count := 0, disc := none,
    cmd := none, cmdAt := 0, mailbox := none, setQ := [], streamAt := none, lolAt := none, events := [], pwrOn := false,
    fault := false, fltPin := false, oc := false, overOnce := false, retries := 0, current := 0, btnRun := 0 }

/-- The CLL block beyond its registers; `pwrReady` says that Cast-on has applied the board table (R210). -/
structure CllSt where
  conns    : Tbl Conn
  pwrReady : Bool
deriving DecidableEq, Repr

def CllSt.init : CllSt := { conns := [], pwrReady := false }

/-- The holder of a queue mark (R239): the tile writer, or an engine (0 to 255). -/
inductive MarkHolder where
  | tiles
  | engine (e : Nat)
deriving DecidableEq, Repr

/-- A mark of a Ply queue (R239): its number, place among the queue's four, entry, holder, the engine's ownership epoch, whether it
has been forfeited, and the frame that holds the marked line. -/
structure Mark where
  id     : Nat
  slot   : Nat
  entry  : Nat
  holder : MarkHolder
  epoch  : Nat
  lost   : Bool
  cam    : Nat
  frame  : Nat
deriving DecidableEq, Repr

/-- A committed packet in a Ply queue: its first entry, its length in entries, the ts of its first character (R232), the frame it
fell in once it has been read, and whether it has been read. -/
structure PlyPacket where
  start : Nat
  len   : Nat
  ts    : Int
  frame : Nat
  taken : Bool
  pkt   : StreamPacket
deriving DecidableEq, Repr

/-- One Ply queue (R229 to R242). Pointers count entries without wrapping; the hardware's are these modulo 16,384. -/
structure Ply where
  commit    : Nat
  read      : Nat
  packets   : List PlyPacket
  marks     : List Mark
  nextMark  : Nat
  resetting : Bool
deriving DecidableEq, Repr

def Ply.init : Ply := { commit := 0, read := 0, packets := [], marks := [], nextMark := 0, resetting := false }

/-- The position of one row of a frame: wp, ts and trigger_seq of its trigger, and what is known of it. -/
structure RowInfo where
  wp     : Int
  ts     : Int
  seq    : Nat
  filled : Bool
deriving DecidableEq, Repr

/-- A stamped line as it leaves the assembler: camera, frame_seq, row, splice epoch, psid, stamp, pixel format, pixels, the
runs of pixels that are fill (first, number), whether its position is uncertain, and the queue entries it came from (queue, entry). -/
structure LineRec where
  cam    : Nat
  frame  : Nat
  row    : Nat
  epoch  : Nat
  psid   : Nat
  info   : RowInfo
  format : Nat
  px     : List Nat
  fill   : List (Nat × Nat)
  unc    : Bool
  src    : List (Nat × Nat)
deriving DecidableEq, Repr

/-- A frame tag (R260, R261). -/
structure FrameTag where
  cam     : Nat
  output  : Nat
  seq     : Nat
  trig    : Nat
  job     : Nat
  epoch   : Nat
  psid    : Nat
  flags   : Nat
  wpFirst : Int
  wpLast  : Int
  tsFirst : Int
  lines   : Nat
  width   : Nat
  format  : Nat
  crc     : Nat
  fid     : Nat
deriving DecidableEq, Repr

/-- The settings of a camera in use (R244, R249). -/
structure CamCfg where
  lines  : Nat
  width  : Nat
  org    : Int
  len    : Nat
  latMin : Nat
  latMax : Nat
  fill   : Nat
  scan   : Bool
  fid    : Bool
deriving DecidableEq, Repr

def CamCfg.init : CamCfg :=
  { lines := 0, width := 0, org := 0, len := 0, latMin := 0, latMax := 0, fill := 0, scan := false, fid := false }

/-- What a match gives a frame or a line (R255, R256): the wp, ts, axis, trigger_seq and epoch; whether its position is
uncertain; TRIG_LATE and LOST_BEFORE of the entry. -/
structure Match where
  wp    : Int
  ts    : Int
  axis  : Nat
  seq   : Nat
  epoch : Nat
  unc   : Bool
  late  : Bool
  lost  : Bool
deriving DecidableEq, Repr

/-- The line being assembled: its pixels so far, its match, the entries skipped for it, whether a packet of it arrived, its lost
packets and the runs of pixels filled in their place, the pixels of each of its packets, its arrival, and the first queue
entry it came from in each queue. -/
structure CurLine where
  px    : List Nat
  match_ : Option Match
  skips : List LedgerEntry
  got   : Bool
  lost  : Nat
  fill  : List (Nat × Nat)
  pkts  : List Nat
  at_   : Int
  src   : List (Nat × Nat)
deriving DecidableEq, Repr

/-- The open frame of a camera: frame_seq, position window, expected lines, the match of its first and last lines, its arrival,
received lines, rows so far (filled ones among them), lost packets, flags, width, format, frame ID, and chunk data. -/
structure OpenFrame where
  seq      : Nat
  k        : Int
  count    : Nat
  first    : Option Match
  last     : Option Match
  arrival  : Int
  lines    : Nat
  rows     : Nat
  crc      : Nat
  flags    : Nat
  width    : Nat
  format   : Nat
  fid      : Nat
  chunks   : List (Nat × Nat)
deriving DecidableEq, Repr

/-- One camera of the assembler (R244 to R262). -/
structure AsmCam where
  on        : Bool
  conn      : Nat
  mode      : Nat
  cfg       : CamCfg
  expected  : Option Nat
  waiting   : List (Nat × Nat × PlyPacket)
  header    : Option ImageHeader
  lastFid   : Option Nat
  openF     : Option OpenFrame
  cur       : Option CurLine
  perPacket : Option Nat
  lostCrc   : Nat
  markLost  : Bool
  gap       : Bool
  lastK     : Option Int
  closeReq  : Bool
  orderUnc  : Bool
  seq       : Nat
  lastTrig  : Nat
deriving DecidableEq, Repr

def AsmCam.init : AsmCam :=
  { on := false, conn := 0, mode := 0, cfg := CamCfg.init, expected := none, waiting := [], header := none, lastFid := none,
    openF := none, cur := none, perPacket := none, lostCrc := 0, markLost := false, gap := false, lastK := none,
    closeReq := false, orderUnc := false, seq := 0, lastTrig := 0xFFFFFFFF }

/-- The Ply queues and the assembler beyond their registers. -/
structure AsmSt where
  plys : Tbl Ply
  cams : Tbl AsmCam
deriving DecidableEq, Repr

def AsmSt.init : AsmSt := { plys := [], cams := [] }

/-- The states of a recipe slot (R393). -/
inductive SlotState where
  | free | staging | staged | live | draining
deriving DecidableEq, Repr

/-- A CAMERA entry of a recipe (R397). -/
structure CamEntry where
  cam      : Nat
  swatch   : Bool
  orgRel   : Bool
  refRel   : Bool
  swKernel : Nat
  lines    : Nat
  org      : Int
  len      : Nat
  width    : Nat
  fill     : Nat
  latMin   : Nat
  latMax   : Nat
  path     : Nat
  steCfg   : Nat
  steTile  : Nat
  steBands : Nat
  steParam : Nat
  rate     : Nat
deriving DecidableEq, Repr

/-- A TRIG_SET entry of a recipe (R398). -/
structure TrigEntry where
  unit    : Nat
  rel     : Bool
  listCfg : Nat
  ofs     : Int
  start   : Int
  pitch   : Nat
  count   : Nat
  repeat_ : Int
  list    : List Int
deriving DecidableEq, Repr

/-- A CAMSET entry of a recipe (R396): the CPB and the writes, register address and value. -/
structure CamSet where
  cam    : Nat
  cpb    : Nat
  writes : List (Nat × Nat)
deriving DecidableEq, Repr

/-- A recipe as its slot holds it (R391, R395, R400): the header's job_id, swatch numbers and deadline, and the shadows. -/
structure Recipe where
  jobId    : Nat
  swatchK  : Nat
  extra    : Nat
  deadline : Nat
  scales   : List (Nat × Nat × Nat)
  trigs    : List TrigEntry
  cams     : List CamEntry
  sets     : List CamSet
deriving DecidableEq, Repr

/-- The steps of a camera's swatch (R419). -/
inductive SwatchPhase where
  | seekBase | accumulate | done | failed
deriving DecidableEq, Repr

/-- A camera's swatch (R418 to R420): its phase, the mark and length of its repeats, K and the allowance, the repeat in progress,
the repeat at which counting began, usable repeats in a row with the base among them, the base repeat and its first wp, the
repeats found unusable, the repeat after which the camera carries on (once known), and the reference rows that are final. -/
structure Swatch where
  phase  : SwatchPhase
  mark   : Int
  len    : Nat
  k      : Nat
  extra  : Nat
  rep    : Nat
  from_  : Nat
  good   : Nat
  base   : Nat
  baseWp : Int
  bad    : List Nat
  endWp  : Int
  endTs  : Int
  lastRep : Option Nat
  final  : List Nat
deriving DecidableEq, Repr

def Swatch.init : Swatch :=
  { phase := .failed, mark := 0, len := 0, k := 0, extra := 0, rep := 1, from_ := 1, good := 0, base := 0, baseWp := 0, bad := [],
    endWp := 0, endTs := 0, lastRep := none, final := [] }

/-- The JOB block beyond its registers: the armed or last splice (axis, mark, whether a switch has been made, the units that
change set, the target set), the epoch and the one before it, the slots and their recipes, the job_id of recent epochs, the
hop count of JOB_ARMED, the package being staged, cameras whose CAMERA entry waits for its first frame, PSIDs of splice sets,
cameras whose splice set was refused or late, whether the last splice armed has switched, whether it came late from the fabric,
the declared pixel rates of cameras (R399), and the swatches. -/
structure JobSt where
  armed    : Bool
  axis     : Nat
  mark     : Int
  epoch    : Nat
  prev     : Nat
  switched : Bool
  swaps    : List (Nat × Bool × Int)
  swapSet  : Nat
  slot0    : SlotState
  slot1    : SlotState
  rec0     : Option Recipe
  rec1     : Option Recipe
  jobs     : List (Nat × Nat)
  hop      : Nat
  fab      : Bool
  staging  : Option Nat
  camsDue  : List Nat
  psids    : List (Nat × Nat)
  lateCams : List Nat
  refused  : List Nat
  hit      : Bool
  fabLate  : Bool
  rates    : Tbl Nat
  swatch   : Tbl Swatch
  swatching : List Nat
deriving DecidableEq, Repr

def JobSt.init : JobSt :=
  { armed := false, axis := 0, mark := 0, epoch := 0, prev := 0, switched := false, swaps := [], swapSet := 0,
    slot0 := .free, slot1 := .free, rec0 := none, rec1 := none, jobs := [], hop := 0, fab := false, staging := none,
    camsDue := [], psids := [], lateCams := [], refused := [], hit := false, fabLate := false, rates := [], swatch := [], swatching := [] }

/-- The epoch after `e` (R392): 0 is never reused and the slot alternates. -/
def nextEpoch (e : Nat) : Nat := if e = 65535 then 2 else e + 1

/-- The state of the slot of an epoch's parity. -/
def JobSt.slot (j : JobSt) (h : Nat) : SlotState := if h % 2 = 0 then j.slot0 else j.slot1

/-- The recipe in a slot. -/
def JobSt.recipe (j : JobSt) (h : Nat) : Option Recipe := if h % 2 = 0 then j.rec0 else j.rec1

/-- The GLB block beyond its registers: the mode, the Bind-off, the lock of the access tables and the shedding
controller. -/
structure GlbSt where
  mode      : Mode
  bindoff   : Bindoff
  accLocked : Bool
  skeinLocked : Bool
  shed      : Nat
  floor     : Bool
  pressure  : List Pressure
deriving DecidableEq, Repr

def GlbSt.init : GlbSt :=
  { mode := .bringup, bindoff := .none, accLocked := false, skeinLocked := false, shed := 0, floor := false, pressure := [] }

/-- The parcel types of R527. -/
inductive ParcelKind where
  | release | raw | output | stats | snag | crop | splice | event | notice
deriving DecidableEq, Repr

/-- A parcel: type, ring, camera or connection (0xFF for none), seq of its completion, contents, its hand-over number, and
whether its wait has been counted (R527, R534). `carriage` and `output` name the source of an OUTPUT parcel. -/
structure Parcel where
  kind     : ParcelKind
  ring     : Nat
  cam      : Nat
  seq      : Nat
  bytes    : List Byte
  number   : Nat
  waited   : Bool
  carriage : Nat
  output   : Nat
deriving DecidableEq, Repr

/-- A raw frame that awaits delivery from the history ring (R527, R535). -/
structure RawWait where
  cam    : Nat
  frame  : Nat
  ring   : Nat
  size   : Nat
  number : Nat
  waited : Bool
deriving DecidableEq, Repr

/-- A descriptor as fetched, with its place in the descriptor count (R530). -/
structure Desc where
  addr   : Nat
  len    : Nat
  cookie : Nat
  idx    : Nat
deriving DecidableEq, Repr

/-- A piece of a parcel that is being written: its place in the parcel and in the buffer, its length and number (R531). -/
structure Piece where
  parcel : Parcel
  pos    : Nat
  len    : Nat
  offset : Nat
  no     : Nat
deriving DecidableEq, Repr

/-- A completion as R532 lays it out. -/
structure Cqe where
  cookie : Nat
  offset : Nat
  len    : Nat
  kind   : Nat
  cam    : Nat
  status : Nat
  done   : Bool
  first  : Bool
  last   : Bool
  seq    : Nat
  idx    : Nat
  no     : Nat
deriving DecidableEq, Repr

/-- The states of a delivery ring (R554). -/
inductive RingState where
  | off | run | error | revoking
deriving DecidableEq, Repr

/-- One delivery ring beyond its registers (R529 to R538). -/
structure Ring where
  state    : RingState
  errCode  : Nat
  dlog     : Nat
  clog     : Nat
  dbase    : Nat
  cbase    : Nat
  fetched  : Nat
  fetching : Nat
  unbegun  : List Desc
  returns  : List Cqe
  buf      : Option (Desc × Nat)
  piece    : Option Piece
  rest     : Option (Parcel × Nat × Nat)
  unsig    : Nat
  oldest   : Option Nat
deriving DecidableEq, Repr

def Ring.init : Ring :=
  { state := .off, errCode := 0, dlog := 4, clog := 4, dbase := 0, cbase := 0, fetched := 0, fetching := 0, unbegun := [],
    returns := [], buf := none, piece := none, rest := none, unsig := 0, oldest := none }

/-- What an outbound non-posted request is for (R520, R522). -/
inductive ReqKind where
  | desc (r n : Nat)
  | hook (ch slot : Nat)
  | xlate (iova : Nat) (write : Bool) (user : AtsUser)
deriving DecidableEq, Repr

/-- An outstanding outbound request: its tag, purpose, IOVA and length, and when it was sent. -/
structure OutReq where
  tag  : Nat
  kind : ReqKind
  addr : Nat
  len  : Nat
  sent : Nat
deriving DecidableEq, Repr

/-- One entry of the translation cache: first IOVA, size, translated address, permissions (R525). -/
structure AtsEntry where
  base  : Nat
  size  : Nat
  target : Nat
  read  : Bool
  write : Bool
deriving DecidableEq, Repr

/-- Device control state of configuration space that the endpoint's behaviour reads (R511, R520, R521, R525, R547). -/
structure CfgSpace where
  mps     : Nat
  mrrs    : Nat
  relax   : Bool
  ctoSub  : Nat
  ctoOff  : Bool
  tag10   : Bool
  atsEn   : Bool
  stu     : Nat
  pmeEn   : Bool
  pmeStat : Bool
  errCor  : Bool
  errNon  : Bool
  errFat  : Bool
  subsys  : Nat
deriving DecidableEq, Repr

/-- Reset values of the fields (PRESUMED: those of PCI Express; MPS 128, MRRS 512, Relaxed Ordering enabled). -/
def CfgSpace.init : CfgSpace :=
  { mps := 128, mrrs := 512, relax := true, ctoSub := 0, ctoOff := false, tag10 := false, atsEn := false, stu := 0,
    pmeEn := false, pmeStat := false, errCor := false, errNon := false, errFat := false, subsys := 0x00001D5F }

/-- The host endpoint beyond its registers. -/
structure HostSt where
  l0       : Bool
  ltssm    : Bool
  l1       : Bool
  dlUp     : Bool
  rate     : Nat
  width    : Nat
  flit     : Bool
  perst    : Bool
  d0       : Bool
  flrBusy  : Bool
  bme      : Bool
  msixEn   : Bool
  fnMask   : Bool
  intxDis  : Bool
  intA     : Bool
  wakeLow  : Bool
  cfg      : CfgSpace
  hdrLog   : Option (List Byte)
  msix     : Tbl Word
  pba      : List Nat
  msgWait  : List Nat
  rings    : Tbl Ring
  offers   : List Parcel
  staged   : List Parcel
  raw      : List RawWait
  gapNext  : List Nat
  nextNo   : Nat
  notices  : Nat
  reqs     : List OutReq
  quar     : List (Nat × Nat)
  ats      : List AtsEntry
  invals   : List (Nat × List Nat)
  winPend  : Option Nat
  applySeq : Nat
deriving DecidableEq, Repr

def HostSt.init : HostSt :=
  { l0 := false, ltssm := false, l1 := false, dlUp := false, rate := 0, width := 0, flit := false, perst := true, d0 := true, flrBusy := false, bme := false, msixEn := false,
    fnMask := false, intxDis := false, intA := false, wakeLow := false, cfg := CfgSpace.init, hdrLog := none, msix := [],
    pba := [], msgWait := [], rings := [], offers := [], staged := [], raw := [], gapNext := [], nextNo := 0, notices := 0,
    reqs := [], quar := [], ats := [], invals := [], winPend := none, applySeq := 0 }

/-- A parameter set of the sensor-delay model (R298 to R301): its PSID, whether JOB submitted it, its CPB (0 names none), its
control commands (address and consecutive values), its target, and the model settings sampled with it. -/
structure SetRec where
  psid  : Nat
  job   : Bool
  cpb   : Nat
  cmds  : List (Nat × List Nat)
  kind  : Nat
  axis  : Nat
  tgt   : Int
  delay : Nat
  lines : Bool
  winLo : Nat
  winHi : Nat
  dur   : Nat
  at_   : Nat
deriving DecidableEq, Repr

/-- A set that has taken effect (R302 to R304): the trigger_seq of its effect, that of its first write, its PSID, whether a write
failed, the registers it wrote, and when it was submitted. -/
structure SetEffect where
  eff    : Nat
  first  : Nat
  psid   : Nat
  failed : Bool
  job    : Bool
  writes : List (Nat × Nat)
  at_    : Nat
deriving DecidableEq, Repr

/-- A memory-mode frame in a camera's ring (R273): its tag, lines, bytes, and the Skein DA of its place. -/
structure MemFrame where
  tag   : FrameTag
  lines : List LineRec
  size  : Nat
  da    : Nat
deriving DecidableEq, Repr

/-- The camera area of the CAR block beyond its registers (R271, R273, R287, R297 to R305): the path in use, the newest PSID,
the pending and the issuing set with the effect of its first write and the commands done, effects (newest first), CPB addresses
(newest first), the frames that stand for triggers, the memory-mode ring with the place of its next byte and the lines of its
open frame, and the CPB of the last memory-mode frame. A `car` of 4 stands for a Carriage that refuses the camera. -/
structure CarCam where
  path    : Nat
  car     : Nat
  region  : Nat
  psid    : Nat
  pending : Option SetRec
  issuing : Option SetRec
  done    : Nat
  first   : Option Nat
  effects : List SetEffect
  cpbs    : List (Nat × Nat)
  frames  : List (Nat × Int × Int)
  ring    : List MemFrame
  ringAt  : Nat
  opened  : List LineRec
  used    : List Byte
deriving DecidableEq, Repr

def CarCam.init : CarCam :=
  { path := 0, car := 0, region := 0, psid := 0, pending := none, issuing := none, done := 0, first := none, effects := [],
    cpbs := [], frames := [], ring := [], ringAt := 0, opened := [], used := [] }

/-- What crosses from the assembler to a Carriage: a line of the bound camera, or the end of its frame with the tag (R272). -/
inductive CarIn where
  | line (l : LineRec)
  | close (t : FrameTag)
deriving DecidableEq, Repr

/-- A CPB copy: PSID, DA, and bytes, none where the Carriage has refused the CPB (R284, R286). -/
structure CpbCopy where
  psid  : Nat
  da    : Nat
  bytes : List Byte
deriving DecidableEq, Repr

/-- One Carriage beyond its registers: what crosses to it, the fill of its input queue, the lines of the in-line frame, the
frame (camera, frame_seq) that is abandoned, whether the frame carries PSID_MISMATCH, its closed frame, the memory-mode frame in progress, the working and the
shadow CPB of the bound camera, and the record that waits for its end. -/
structure Carriage where
  cross    : List CarIn
  fill     : Nat
  cur      : List LineRec
  abandon  : Option (Nat × Nat)
  mismatch : Bool
  closed   : Option FrameTag
  mem      : Option (Nat × MemFrame × CpbCopy × Bool)
  work     : Option CpbCopy
  shadow   : Option CpbCopy
  stats    : List Parcel
deriving DecidableEq, Repr

def Carriage.init : Carriage :=
  { cross := [], fill := 0, cur := [], abandon := none, mismatch := false, closed := none, mem := none, work := none,
    shadow := none, stats := [] }

/-- The Carriages and the sensor-delay model beyond their registers; `gaps` lists the outputs (camera, output) whose next tag
carries GAP_BEFORE (R291). -/
structure CarSt where
  cars : Tbl Carriage
  cams : Tbl CarCam
  gaps : List (Nat × Nat)
deriving DecidableEq, Repr

def CarSt.init : CarSt := { cars := [], cams := [], gaps := [] }

/-- One cluster's background test (R445): the line under test (0 to 81,919; 81,920 when its pass is done), the steps made on
it, and the save register. -/
structure TestSt where
  line : Nat
  step : Nat
  save : List Byte
deriving DecidableEq, Repr

def TestSt.init : TestSt := { line := 0, step := 0, save := [] }

/-- A request that waits at a bank, with the core cycle it arrived in and whether it is URGENT (R439, R441). -/
structure BankWait where
  req    : BankReq
  at_    : Nat
  urgent : Bool
deriving DecidableEq, Repr

/-- The Stash: cluster banks (key: cluster × 2 MiB + offset), engine scratch (key: engine × 32 KiB + offset), BAD banks,
repaired banks, engines held OFF and repaired scratches by cluster, handovers in progress (bank, new owner), requests that
wait by bank, the run of TILE grants by bank, and the background test. Banks are numbered 16 × cluster + bank. -/
structure StashSt where
  mem     : Tbl Byte
  scr     : Tbl Byte
  bad     : List Nat
  fixed   : List Nat
  scrOff  : List Nat
  scrFix  : List Nat
  hand    : List (Nat × Nat)
  waits   : Tbl (List BankWait)
  tileRun : Tbl Nat
  cycle   : Tbl Nat
  tests   : Tbl TestSt
deriving DecidableEq, Repr

def StashSt.init : StashSt :=
  { mem := [], scr := [], bad := [], fixed := [], scrOff := [], scrFix := [], hand := [], waits := [], tileRun := [],
    cycle := [], tests := [] }

/-- A camera's settings on the array, sampled when a frame opens (R322 to R324): home clusters in order, kernel, selvedge, tile
size, band buffers and their first byte, kernel parameters, bytes per pixel, pixel format, and whether it is line-scan. -/
structure TileCfg where
  homes   : List Nat
  kernel  : Nat
  selX    : Nat
  selY    : Nat
  tileW   : Nat
  tileH   : Nat
  bands   : Nat
  base    : Nat
  param   : Nat
  scan    : Bool
deriving DecidableEq, Repr

/-- A row of a band as the tile writer writes it: its pixels as lists of bytes, its position, its runs of fill pixels, whether
its position is uncertain, and the queue entries it came from. -/
structure TileRow where
  px    : List (List Nat)
  info  : RowInfo
  fill  : List (Nat × Nat)
  unc   : Bool
  src   : List (Nat × Nat)
deriving DecidableEq, Repr

/-- A frame as the tile writer takes it: what its items carry, its width, the expected lines, whether its top is an edge. -/
structure TileFrame where
  cam      : Nat
  seq      : Nat
  job      : Nat
  epoch    : Nat
  psid     : Nat
  axis     : Nat
  format   : Nat
  bpp      : Nat
  width    : Nat
  expect   : Nat
  edgeTop  : Bool
  straddle : Bool
  cfg      : TileCfg
deriving DecidableEq, Repr

/-- What crosses to the tile writer of a camera: the opening of a frame, a row, its close (the Boolean says that the bottom is an
edge), or the opening of a frame that is not inspected. -/
inductive TileIn where
  | frame (f : TileFrame)
  | row (r : TileRow)
  | close (straddle edge : Bool)
  | gap
deriving DecidableEq, Repr

/-- A work item (R329) beyond its bytes: what the dispatcher, the order stage and the engines read of it, its tile column, the wp of
its last core row, its band and the instant it was built. -/
structure Item where
  kind    : Nat
  cam     : Nat
  seq     : Nat
  frame   : Nat
  job     : Nat
  epoch   : Nat
  psid    : Nat
  tflags  : Nat
  kernel  : Nat
  reissue : Nat
  col     : Nat
  x0      : Nat
  coreW   : Nat
  y0      : Nat
  coreH   : Nat
  selX    : Nat
  selY    : Nat
  pixOfs  : Nat
  pitch   : Nat
  format  : Nat
  bpp     : Nat
  rowsOfs : Nat
  param   : Nat
  home    : Nat
  axis    : Nat
  wp      : Int
  wpHi    : Int
  ts      : Int
  band    : Nat
  since   : Nat
deriving DecidableEq, Repr

/-- A band of a camera in a buffer (R323 to R328): its frame, kind (0 live, 1 deferred, 2 swatch), first core row and core rows so
far, the region rows written, whether its core is full, the edges met, whether its items have been made, the items left, and
whether its shared rows have been written on. -/
structure Band where
  id      : Nat
  buf     : Nat
  frame   : TileFrame
  kind    : Nat
  y0      : Nat
  coreH   : Nat
  rows    : List TileRow
  full    : Bool
  edgeT   : Bool
  edgeB   : Bool
  selFill : Bool
  made    : Bool
  left    : Nat
  last    : Bool
deriving DecidableEq, Repr

/-- A band that awaits deferred inspection (R328, R349, R472): `cols` lists its tile columns, none for all; the wp of its first and
last core rows and the ts of its first. -/
structure Deferred where
  cam   : Nat
  frame : TileFrame
  y0    : Nat
  coreH : Nat
  cols  : List Nat
  lo    : Int
  hi    : Int
  ts    : Int
deriving DecidableEq, Repr

/-- A band in progress that has no buffer: first row, rows so far, whether it is inspected later, the wp of its first and last rows,
and the ts of its first. -/
structure SkipBand where
  y0    : Nat
  n     : Nat
  later : Bool
  lo    : Int
  hi    : Int
  ts    : Int
deriving DecidableEq, Repr

/-- The tile writer of one camera: what crosses to it, the frame in progress with its rows so far, the newest rows of the stream, the
bands in buffers, the band being filled, the band in progress that has no buffer, the buffer kept for the
next band, whether its first shared row came before a buffer was free, whether the shared rows could be read again, the marks
held (queue, mark), and the next deferred_seq, the oldest unfinished one, and the next snag_seq. -/
structure CamTiles where
  queue   : List TileIn
  frame   : Option TileFrame
  count   : Nat
  last    : List TileRow
  bands   : List Band
  cur     : Option Nat
  skip    : Option SkipBand
  nextId  : Nat
  next    : Option Nat
  late    : Bool
  rewound : Bool
  marks   : List (Nat × Nat)
  dseq    : Nat
  dord    : Nat
  snag    : Nat
deriving DecidableEq, Repr

def CamTiles.init : CamTiles :=
  { queue := [], frame := none, count := 0, last := [], bands := [], cur := none, skip := none, nextId := 0, next := none,
    late := false, rewound := false, marks := [], dseq := 0, dord := 0, snag := 0 }

/-- The states of an engine (R356). -/
inductive EngState where
  | off | idle | steal | run | fenced | fault
deriving DecidableEq, Repr

/-- A transfer between engine memory and a DA (R371, R372): tag, direction, DA, the plain BAR0 offset of the engine side and how a
write reaches it, length, the bytes of an XST as they stood at its issue (or those an alias changes), and the run that issued it. -/
structure Xfer where
  tag   : Nat
  store : Bool
  da    : Nat
  at_   : Nat
  op    : BankOp
  len   : Nat
  data  : List Byte
  run   : Nat
deriving DecidableEq, Repr

/-- A Ply mark that an engine holds (R381): its handle's queue and index, the mark's number, and the read cursor. -/
structure MarkHandle where
  queue  : Nat
  idx    : Nat
  mark   : Nat
  cursor : Option Nat
deriving DecidableEq, Repr

/-- A Stitch engine (R338, R359): state, ownership epoch, deque, the item held with the instant of its take and the time it has
stalled (R347), the epoch and item of a kernel that a fence has cut off and no reset has yet stopped (R341, R382), the runs it has
started, the architectural registers, transfers outstanding, data that awaits its XWAIT (tag, BAR0 offset, bytes), marks, records
emitted, the parameters read at the start (R385), and the hop count that PUB carries (R383). -/
structure Engine where
  state   : EngState
  epoch   : Nat
  deque   : List Item
  item    : Option Item
  takenAt : Nat
  paused  : Nat
  stall   : Option Nat
  fenceAt : Nat
  old     : Option (Nat × Item)
  runs    : Nat
  s       : Tbl Word
  v       : Tbl VWord
  p       : Tbl Word
  pc      : Nat
  xfers   : List Xfer
  landed  : List (Nat × Nat × List Byte)
  marks   : List MarkHandle
  emitted : Nat
  maxSnag : Nat
  cropDa  : Nat
  cropLen : Nat
  hop     : Nat
deriving DecidableEq, Repr

def Engine.init : Engine :=
  { state := .off, epoch := 0, deque := [], item := none, takenAt := 0, paused := 0, stall := none, fenceAt := 0, old := none, runs := 0,
    s := [], v := [], p := [], pc := 0, xfers := [], landed := [], marks := [], emitted := 0, maxSnag := 64, cropDa := 0,
    cropLen := 0, hop := 0 }

/-- An allocation in a camera's crop ring (R379): ring base, offset, bytes, and the camera and snag_seq of its record once the record
is released. -/
structure CropAlloc where
  base  : Nat
  start : Nat
  len   : Nat
  cam   : Nat
  snag  : Option Nat
deriving DecidableEq, Repr

/-- A result: the record with snag_seq open, its rings, and its crop (DA, bytes). -/
structure Result where
  record   : List Byte
  snagRing : Nat
  cropRing : Nat
  crop     : Option (CropAlloc × List Byte)
deriving DecidableEq, Repr

/-- An item in the order stage (R345): its item, holder (engine and epoch), whether it ended or was given up, and the results
held. -/
structure OrderItem where
  item    : Item
  holder  : Option (Nat × Nat)
  ended   : Bool
  results : List Result
deriving DecidableEq, Repr

/-- A result on its way from an engine to the order stage (R341, R348). -/
structure ResultFlight where
  engine : Nat
  epoch  : Nat
  cam    : Nat
  defer  : Bool
  seq    : Nat
  result : Result
deriving DecidableEq, Repr

/-- One cluster: its dispatch queue, deferred list, the remote search in progress (thief and clusters still to probe), engines
that wait for their next search and when it is due, the event count (R384) with the hop of the last activation, and whether the
electrical limit halves the clock. -/
structure Cluster where
  queue   : List Item
  defer   : List Item
  probe   : Option (Nat × List Nat)
  retry   : List (Nat × Nat)
  events  : Nat
  evHop   : Nat
  halved  : Bool
deriving DecidableEq, Repr

def Cluster.init : Cluster :=
  { queue := [], defer := [], probe := none, retry := [], events := 0, evHop := 0, halved := false }

/-- The Stitch engine array beyond its registers: engines, clusters, cameras' tile writers, tile settings of open frames by camera
and frame, instruction memory (key: cluster × 16 KiB + half × 8 KiB + offset), the order stage, results on their way, bands that
await deferred inspection, frames whose retro bands are listed, and crop allocations in use. -/
structure SteSt where
  engines  : Tbl Engine
  clusters : Tbl Cluster
  cams     : Tbl CamTiles
  frames   : List TileFrame
  imem     : Tbl Byte
  order    : List OrderItem
  flights  : List ResultFlight
  deferred : List Deferred
  retroed  : List (Nat × Nat)
  crops    : List CropAlloc
  cropNext : Tbl Nat
deriving DecidableEq, Repr

def SteSt.init : SteSt :=
  { engines := [], clusters := [], cams := [], frames := [], imem := [], order := [], flights := [], deferred := [], retroed := [],
    crops := [], cropNext := [] }

/-- The states of a Hook channel (R500). -/
inductive HookState where
  | idle | check | waitBuf | run | drain | flush
deriving DecidableEq, Repr

/-- A Hook descriptor as copied at GO (R483, R484, R507); `resv` says that a reserved field is not zero. -/
structure HookDesc where
  src     : Nat
  dst     : Nat
  count   : List Nat
  sstep   : List Int
  dstep   : List Int
  esize   : Nat
  barrier : Bool
  overlap : Bool
  prio    : Nat
  slots   : Nat
  resv    : Bool
deriving DecidableEq, Repr

def HookDesc.init : HookDesc :=
  { src := 0, dst := 0, count := [1, 1, 1], sstep := [0, 0, 0], dstep := [0, 0, 0], esize := 0, barrier := false, overlap := false,
    prio := 0, slots := 4, resv := false }

/-- A burst of a channel in a buffer slot (R488): its first element (a byte offset in the footprint where the channel reads a
staged copy), its bytes, the pieces that have arrived from a host or a peer, its data once it is in the slot, and its number
among completed bursts. -/
structure HookBurst where
  first : Nat
  len   : Nat
  parts : List (Nat × List Byte)
  data  : Option (List Byte)
  order : Nat
deriving DecidableEq, Repr

/-- One Hook channel beyond its registers: state, descriptor, whether it is staged, the next element (or staged byte) to read, the
elements written, bursts in the buffer, the staged copy, slots held for a staged transfer and since when it waits, the end
decided so far (result, first element not written, failing DA), acknowledgements on their way from local targets and from
hosts or peers, and the number of the last burst of a staged copy among completed bursts. -/
structure HookCh where
  state  : HookState
  desc   : HookDesc
  staged : Bool
  next   : Nat
  wrote  : Nat
  bursts : List HookBurst
  copy   : List (Nat × List Byte)
  slots  : Nat
  waitAt : Nat
  fail   : Option (Nat × Nat × Nat)
  acks   : Nat
  remote : Nat
  order  : Nat
deriving DecidableEq, Repr

def HookCh.init : HookCh :=
  { state := .idle, desc := HookDesc.init, staged := false, next := 0, wrote := 0, bursts := [], copy := [], slots := 0,
    waitAt := 0, fail := none, acks := 0, remote := 0, order := 0 }

/-- Hook beyond its registers: the channels, the reserved bits last written to the HOOK_CFG and COUNT registers (R486), the count of completed bursts, and the channel served last. -/
structure HookSt where
  chs   : Tbl HookCh
  resv  : Tbl Word
  order : Nat
  last  : Nat
deriving DecidableEq, Repr

def HookSt.init : HookSt := { chs := [], resv := [], order := 0, last := 15 }

/-- One line record in the history ring: the DA range it fills, its camera, frame and ts (R467). -/
structure HistRec where
  start : Nat
  stop  : Nat
  cam   : Nat
  frame : Nat
  row   : Nat
  ts    : Int
  info  : RowInfo
deriving DecidableEq, Repr

/-- One index entry of the history ring (R468): its slot, the frame's tag, the DA range of its records, and its flags. -/
structure HistFrame where
  slot    : Nat
  tag     : FrameTag
  first   : Nat
  last    : Nat
  valid   : Bool
  inspect : Bool
  deliver : Bool
  retro   : Bool
deriving DecidableEq, Repr

/-- The history ring (R466 to R471); `spoiled` lists frames that have lost a record before their index entry is written. -/
structure HistSt where
  on      : Bool
  base    : Nat
  dataEnd : Nat
  slots   : Nat
  next    : Nat
  slot    : Nat
  recs    : List HistRec
  frames  : List HistFrame
  spoiled : List (Nat × Nat)
deriving DecidableEq, Repr

def HistSt.init : HistSt :=
  { on := false, base := 0, dataEnd := 0, slots := 0, next := 0, slot := 0, recs := [], frames := [], spoiled := [] }

/-- A retro-inspection request as sampled at GO (R472). -/
structure Retro where
  cams : Nat
  lo   : Int
  hi   : Int
  axis : Nat
deriving DecidableEq, Repr

/-- Skein: its bytes, capacity, trained channels, uncorrectable blocks, cached check blocks by channel, the scrub's next
block, the history ring, a retro scan in progress, and refusals of the window for the pressure signal (R42, R455 to R477). -/
structure SkeinSt where
  mem     : Tbl Byte
  cap     : Nat
  trained : Nat
  inited  : Bool
  bad     : List Nat
  cached  : Tbl (List Nat)
  scrub   : Nat
  hist    : HistSt
  retro   : Option Retro
  refused : List Nat
  refreshed : Tbl Nat
deriving DecidableEq, Repr

def SkeinSt.init : SkeinSt :=
  { mem := [], cap := 0, trained := 0, inited := false, bad := [], cached := [], scrub := 0, hist := HistSt.init,
    retro := none, refused := [], refreshed := [] }

/-- One entry of the Steward's log buffer (R606). -/
structure LogEntry where
  kind   : Nat
  block  : Nat
  ts     : Nat
  detail : DWord
  rep    : Nat
deriving DecidableEq, Repr

/-- Where the device stands in a reset (R590, R591): held in reset, in Cast-on, or started. -/
inductive BootState where
  | held | caston | done
deriving DecidableEq, Repr

/-- A pipe operation in progress (R600): OP, operands, and whether ABORT has been written. -/
structure NvmOp where
  op    : Nat
  addr  : Nat
  len   : Nat
  da    : Nat
  arg   : Nat
  abort : Bool
deriving DecidableEq, Repr

/-- The access register of the test port (R611): DA, data, status, and the access in progress (write). -/
structure JtagAccess where
  da     : Nat
  data   : Word
  status : Nat
  busy   : Option Bool
deriving DecidableEq, Repr

/-- The Steward beyond its registers: where the device stands in a reset and since when, whether the reset was cold, the NVM, the update session's slot (0 A, 1 B) and what VERIFY found (version, length, CRC), whether a board table was
applied and the NVM is usable, the pipe operation, the newest log entry's number and NVM address, the log's current sector, retired
sectors, the log buffer, the time of the pending entry, page credits, the test port's instruction, boundary register and
access register, and whether it holds the pins. -/
structure StwSt where
  boot     : BootState
  since    : Nat
  cold     : Bool
  nvm      : Tbl Byte
  session  : Option Nat
  verified : Option (Nat × Nat × Nat)
  boardOk  : Bool
  nvmOk    : Bool
  op       : Option NvmOp
  logSeq   : Nat
  logAt    : Option Nat
  sector   : Nat
  retired  : List Nat
  log      : List LogEntry
  logTimes : List Nat
  ir       : JtagIr
  bsr      : List Bool
  acc      : JtagAccess
deriving DecidableEq, Repr

def StwSt.init : StwSt :=
  { boot := .caston, since := 0, cold := true, nvm := [], session := none, verified := none, boardOk := false, nvmOk := false,
    op := none, logSeq := 0, logAt := none, sector := 0, retired := [], log := [], logTimes := [], ir := .idcode, bsr := [],
    acc := { da := 0, data := 0, status := 0, busy := none } }

/-- The power states of the device. -/
inductive PowerState where
  | active | entry | watch | exit
deriving DecidableEq, Repr

/-- Power beyond its registers: the state of the device, the hardware trip, the governor's cap of the cluster clocks in MHz, its step
and the instant of the last change of cap, whether a watch request waits for a pipe operation, when a sequence started, the exit
cause (3 none) and one that waits, whether the electrical limit halves the clocks, since when every sensor has been cool, urgent
conversions that wait and those made in this frame, channels' runs of deviating conversions, the next slot of the frame, the voltage last commanded of the VDD_CORE regulator in
mV, and whether the regulator answers. -/
structure PwrSt where
  state    : PowerState
  trip     : Bool
  cap      : Nat
  step     : Nat
  capAt    : Nat
  request  : Bool
  since    : Nat
  cause    : Nat
  heldBy   : Option Nat
  halved   : Bool
  coolAt   : Option Nat
  urgent   : List Nat
  urgents  : Nat
  runs     : Tbl Nat
  slot     : Nat
  vcore    : Nat
  pmbus    : Bool
deriving DecidableEq, Repr

def PwrSt.init : PwrSt :=
  { state := .active, trip := false, cap := 3000, step := 0, capAt := 0, request := false, since := 0, cause := 3, heldBy := none,
    halved := false, coolAt := none, urgent := [], urgents := 0, runs := [], slot := 0, vcore := 850, pmbus := true }

/-- The states of a fabric port (R563), and of the device in the fabric (R565). -/
inductive PortState where
  | off | train | up | down
deriving DecidableEq, Repr

inductive FabState where
  | off | alone | joining | member | spare
deriving DecidableEq, Repr

/-- One fabric port beyond its registers: state, training phase and its start, back-off step, whether it is a tree edge, lanes with
block lock, the partner, taps of the own transmitter by lane, link sequence numbers, credits by class, packets that wait, packets
sent and not acknowledged, replays without progress, the one-way delay and markers sent (R557 to R564). -/
structure FabPort where
  state    : PortState
  phase    : Nat
  since    : Nat
  back     : Nat
  tree     : Bool
  locked   : Nat
  peerAddr : Nat
  peerPort : Nat
  peer     : Nat
  taps     : List (Nat × Nat)
  txSeq    : Nat
  rxSeq    : Nat
  credit   : List Nat
  queue    : List FabPacket
  unacked  : List (Nat × FabPacket)
  replays  : Nat
  delay    : Nat
  markers  : Nat
deriving DecidableEq, Repr

def FabPort.init : FabPort :=
  { state := .off, phase := 0, since := 0, back := 0, tree := false, locked := 0, peerAddr := 0, peerPort := 0, peer := 0,
    taps := [(0, 0), (0, 0), (0, 0), (0, 0)], txSeq := 0, rxSeq := 0, credit := [0, 0, 0, 0], queue := [], unacked := [],
    replays := 0, delay := 0, markers := 0 }

/-- What the root knows of a member (R566 to R569). -/
structure FabMember where
  serial   : Nat
  addr     : Nat
  sinkPrio : Nat
  spare    : Bool
  dead     : Bool
  lastAt   : Nat
  links    : List (Nat × Nat × Nat)
deriving DecidableEq, Repr

/-- What a request to a peer is for: a read of a Hook burst (channel, first element of the burst, place of the piece) or a write of
a channel. -/
inductive FabUse where
  | read (ch first pos : Nat)
  | write (ch first : Nat) (barrier : Bool)
deriving DecidableEq, Repr

/-- An outstanding request to a peer (R573). -/
structure FabReq where
  txid : Nat
  use  : FabUse
  len  : Nat
  sent : Nat
deriving DecidableEq, Repr

/-- The fabric beyond its registers (R555 to R587): ports; membership state, address, roles, epochs, the root and the sink, the member
map, the way to the root; epochs of roles held or last held; time: whether the device has ever joined and exchanged, the last offset in
ps, runs of exchanges, the rate correction in parts per 10^9 and its remainder, the upstream's stamps; instants of the last root
heard, of the entry into the state, of the loss of the last port and of the start of claims; claims heard; what the root
knows of members; requests outstanding and txids quarantined; marks sent and the last 64 taken. -/
structure FabSt where
  ports    : Tbl FabPort
  state    : FabState
  addr     : Option Nat
  root     : Bool
  sink     : Bool
  rootEp   : Nat
  sinkEp   : Nat
  rootAddr : Option Nat
  sinkAddr : Option Nat
  rootId   : Nat
  members  : Nat
  upPort   : Nat
  hops     : Nat
  heldRoot : Option Nat
  heldSink : Option Nat
  locked   : Bool
  joined   : Bool
  exchanged : Bool
  ofs      : Int
  good     : Nat
  bad      : Nat
  rate     : Int
  frac     : Int
  stamps   : Option (Int × Int)
  rootAt   : Nat
  stateAt  : Nat
  lostAt   : Option Nat
  claimAt  : Option Nat
  claims   : List FabClaim
  table    : List FabMember
  reqs     : List FabReq
  quar     : List (Nat × Nat)
  nextTx   : Nat
  markSeq  : Nat
  marks    : List (Nat × Nat)
deriving DecidableEq, Repr

def FabSt.init : FabSt :=
  { ports := [], state := .off, addr := none, root := false, sink := false, rootEp := 0, sinkEp := 0, rootAddr := none, sinkAddr := none,
    rootId := 0, members := 0, upPort := 0, hops := 0, heldRoot := none, heldSink := none, locked := false, joined := false,
    exchanged := false, ofs := 0, good := 0, bad := 0, rate := 0, frac := 0, stamps := none, rootAt := 0, stateAt := 0,
    lostAt := none, claimAt := none, claims := [], table := [], reqs := [], quar := [], nextTx := 0, markSeq := 0, marks := [] }

/-- The device: everything but the queue of commands. -/
structure Dev where
  now    : Nat
  ts     : Nat
  free   : Nat
  regs   : Tbl Word
  held   : Tbl Word
  latch  : Tbl Word
  rdata  : Word
  timers : List (Timer × Nat)
  outbox : List (Nat × Out)
  glb    : GlbSt
  chain  : ChainSt
  gauge  : GaugeSt
  trig   : TrigSt
  cll    : CllSt
  asm    : AsmSt
  job    : JobSt
  host   : HostSt
  skein  : SkeinSt
  car    : CarSt
  stash  : StashSt
  ste    : SteSt
  hook   : HookSt
  stw    : StwSt
  pwr    : PwrSt
  fab    : FabSt
deriving DecidableEq, Repr

def Dev.init : Dev :=
  { now := 0, ts := 0, free := 0, regs := [], held := [], latch := [], rdata := 0, timers := [], outbox := [], glb := GlbSt.init,
    chain := ChainSt.init, gauge := GaugeSt.init, trig := TrigSt.init, cll := CllSt.init, asm := AsmSt.init, job := JobSt.init,
    host := HostSt.init, skein := SkeinSt.init, car := CarSt.init, stash := StashSt.init, ste := SteSt.init, hook := HookSt.init,
    stw := StwSt.init, pwr := PwrSt.init, fab := FabSt.init }

/-- The whole state: the device and the commands that wait, first in first out. -/
structure State where
  dev     : Dev
  pending : List Instr
deriving DecidableEq, Repr

/-- The state at the release of a cold reset that rising supplies caused (R588, R591): Cast-on starts. -/
def State.reset : State := { dev := { Dev.init with regs := [(R.STW_RESET_CAUSE, 0x20)] }, pending := [] }

end Sys2Proof.Machine
end

