-- ==== Sys2Proof/Machine/Ops.lean ====
section
/-! DEFINITION. The operations every block shares: registers and their fields, saturating counters, timers, free values,
error bits and their summary, the global interrupt, MSI-X messages, the denial log and the fault log. -/

namespace Sys2Proof.Machine

/-! Fields of words. -/

/-- The value of a field. -/
def fld (v : Word) (f : Fld) : Nat := v.toNat / 2 ^ f.lo % 2 ^ f.w

/-- The mask of a field. -/
def Fld.mask (f : Fld) : Word := BitVec.ofNat 32 ((2 ^ f.w - 1) * 2 ^ f.lo)

/-- The word with a field set to a number, taken modulo the field's width. -/
def setFld (v : Word) (f : Fld) (n : Nat) : Word :=
  (v &&& ~~~ f.mask) ||| BitVec.ofNat 32 (n % 2 ^ f.w * 2 ^ f.lo)

/-- One bit of a word. -/
def bitF (n : Nat) : Fld := ⟨n, 1⟩

/-! Registers as the machine holds them. An offset is a BAR0 word offset. -/

/-- The stored value of a register word. -/
def Dev.rd (off : Nat) (d : Dev) : Word := d.regs.get regDefault off

/-- The device with a register word stored. -/
def Dev.wr (off : Nat) (v : Word) (d : Dev) : Dev := { d with regs := d.regs.set regDefault off v }

/-- The stored value of a 64-bit register. -/
def Dev.rd64 (off : Nat) (d : Dev) : DWord := dword (d.rd (off + 4)) (d.rd off)

/-- The device with a 64-bit register stored. -/
def Dev.wr64 (off : Nat) (v : DWord) (d : Dev) : Dev := (d.wr off v.lo).wr (off + 4) v.hi

/-- A field of a register. -/
def Dev.f (off : Nat) (f : Fld) (d : Dev) : Nat := fld (d.rd off) f

/-- Whether a one-bit field is 1. -/
def Dev.b (off : Nat) (f : Fld) (d : Dev) : Bool := d.f off f != 0

/-- The device with a field of a register set. -/
def Dev.sf (off : Nat) (f : Fld) (n : Nat) (d : Dev) : Dev := d.wr off (setFld (d.rd off) f n)

/-- The device with a one-bit field set or cleared. -/
def Dev.sb (off : Nat) (f : Fld) (v : Bool) (d : Dev) : Dev := d.sf off f (if v then 1 else 0)

/-- The device with an error or event counter increased by `n`, saturating (R20). -/
def Dev.bump (off : Nat) (f : Fld) (n : Nat) (d : Dev) : Dev := d.sf off f (min (d.f off f + n) (2 ^ f.w - 1))

/-- The device with a free-running total or sequence number increased by `n`, wrapping (R20). -/
def Dev.count (off : Nat) (f : Fld) (n : Nat) (d : Dev) : Dev := d.sf off f (d.f off f + n)

/-- The whole word as one field. -/
def whole : Fld := ⟨0, 32⟩

/-- A stored 64-bit register as a signed number (R8). -/
def Dev.int64 (off : Nat) (d : Dev) : Int := (d.rd64 off).toInt

/-! Free values, timers, outputs. -/

/-- A free value of `w` bits, and the device with the counter advanced. -/
def Dev.fresh (w : Nat) (d : Dev) : BitVec w × Dev := (Config.freeBits w d.free, { d with free := d.free + 1 })

/-- The device with a timer set to end at an instant. -/
def Dev.arm (t : Timer) (due : Nat) (d : Dev) : Dev :=
  { d with timers := (t, due) :: d.timers.filter (fun p => p.1 ≠ t) }

/-- The device with a timer stopped. -/
def Dev.disarm (t : Timer) (d : Dev) : Dev := { d with timers := d.timers.filter (fun p => p.1 ≠ t) }

/-- The instant at which a running timer ends. -/
def Dev.timer (t : Timer) (d : Dev) : Option Nat := (d.timers.find? (fun p => p.1 = t)).map (·.2)

/-- Whether a timer runs and its end has come. -/
def Dev.due (t : Timer) (d : Dev) : Bool :=
  match d.timer t with
  | some x => decide (x ≤ d.now)
  | none => false

/-- Whether a boundary-scan instruction holds the pins (R610). -/
def Dev.pinsHeld (d : Dev) : Bool := d.stw.ir == .extest || d.stw.ir == .clamp || d.stw.ir == .highz

/-- Whether an output stays inside the package. -/
def Out.inside : Out → Bool
  | .bankData _ _ => true
  | .nvmProgram _ _ => true
  | .nvmErase _ => true
  | _ => false

/-- The device with an output event appended. While boundary scan holds the pins, none serves its function (R610). -/
def Dev.emit (o : Out) (d : Dev) : Dev :=
  if d.pinsHeld && !o.inside then d else { d with outbox := d.outbox ++ [(d.now, o)] }

/-- The ts register value of the present instant (R9: 64 bits). -/
def Dev.tsWord (d : Dev) : DWord := BitVec.ofNat 64 d.ts

/-! MSI-X messages (R538 to R540). -/

/-- Sends the message of a vector now: its table entry's address and data. -/
def Dev.msixSend (v : Nat) (d : Dev) : Dev :=
  let w := fun k => d.host.msix.get (fun i => if i % 4 = 3 then 1 else 0) (4 * v + k)
  d.emit (.msix v (dword (w 1) (w 0)) (w 2))

/-- Whether vector `v` is masked in its table entry or by Function Mask. The Vector Control words reset to 1, masked
(PRESUMED: the PCI Express rule; the spec gives the table no reset value). -/
def Dev.msixMasked (v : Nat) (d : Dev) : Bool :=
  d.host.fnMask || fld (d.host.msix.get (fun i => if i % 4 = 3 then 1 else 0) (4 * v + 3)) (bitF 0) == 1

/-- Whether messages can leave: link in L0, function in D0, Bus Master Enable set (R539). -/
def Dev.canSend (d : Dev) : Bool := d.host.l0 && d.host.d0 && d.host.bme

/-- Whether some HOST_INTX_PEND bit is set. -/
def Dev.intxAny (d : Dev) : Bool := (List.range 8).any (fun k => d.rd (R.HOST_INTX_PEND k) != 0)

/-- INTA follows HOST_INTX_PEND, Interrupt Disable and MSI-X Enable (R540). -/
def Dev.intxUpdate (d : Dev) : Dev :=
  let want := d.intxAny && !d.host.intxDis && !d.host.msixEn
  if want = d.host.intA then d
  else { d with host := { d.host with intA := want } }.emit (.intx want)

/-- A message of vector `v` that R72, R165, R494, R538 or R539 decides to send: it sets HOST_INTX_PEND while MSI-X is off,
sets its PBA bit while masked, waits while messages cannot leave, and is sent otherwise. -/
def Dev.message (v : Nat) (d : Dev) : Dev :=
  if !d.host.msixEn then
    (d.sf (R.HOST_INTX_PEND (v / 32)) (bitF (v % 32)) 1).intxUpdate
  else if d.msixMasked v then
    { d with host := { d.host with pba := if d.host.pba.contains v then d.host.pba else d.host.pba ++ [v] } }
  else if d.canSend then d.msixSend v
  else { d with host := { d.host with msgWait := if d.host.msgWait.contains v then d.host.msgWait
                                                 else d.host.msgWait ++ [v] } }

/-! The global interrupt and the error summary (R68, R71, R72). -/

/-- GLB_INT_STATUS AND GLB_INT_EN. -/
def Dev.intPending (d : Dev) : Word := d.rd R.GLB_INT_STATUS &&& d.rd R.GLB_INT_EN

/-- A cause of R71 is set; vector 0 is sent when the enabled causes change from zero to non-zero (R72). -/
def Dev.intCause (bit : Nat) (d : Dev) : Dev :=
  let d1 := d.sf R.GLB_INT_STATUS (bitF bit) 1
  if d.intPending = 0 ∧ d1.intPending ≠ 0 then d1.message 0 else d1

/-- The error register and the mask register of every instance of the block with the given index (R52, R68). -/
def errRegs (blk : Nat) : List (Nat × Nat) :=
  let inst (n : Nat) (e m : Nat → Nat) := (List.range n).map (fun i => (e i, m i))
  match blk with
  | 1 => [(R.STW_ERR, R.STW_ERR_MASK)]
  | 2 => [(R.PWR_ERR, R.PWR_ERR_MASK)]
  | 3 => [(R.CHAIN_ERR, R.CHAIN_ERR_MASK)]
  | 4 => inst 4 R.GAUGE_ERR R.GAUGE_ERR_MASK
  | 5 => [(R.TRIG_ERR, R.TRIG_ERR_MASK)]
  | 6 => inst 48 R.CLL_ERR R.CLL_ERR_MASK
  | 7 => inst 48 R.ASM_ERR R.ASM_ERR_MASK
  | 8 => inst 4 R.CAR_ERR R.CAR_ERR_MASK
  | 9 => inst 16 R.STE_ERR R.STE_ERR_MASK
  | 10 => [(R.JOB_ERR, R.JOB_ERR_MASK)]
  | 11 => [(R.HOOK_ERR, R.HOOK_ERR_MASK)]
  | 12 => [(R.HOST_ERR, R.HOST_ERR_MASK)]
  | 13 => [(R.FAB_ERR, R.FAB_ERR_MASK)]
  | 14 => [(R.SKEIN_ERR, R.SKEIN_ERR_MASK)]
  | 15 => [(R.STASH_ERR, R.STASH_ERR_MASK)]
  | _ => []

/-- Whether a block has an unmasked error bit set (R68). -/
def Dev.blkErr (blk : Nat) (d : Dev) : Bool :=
  (errRegs blk).any (fun p => (d.rd p.1 &&& ~~~ d.rd p.2) != 0)

/-- GLB_ERR as it reads: its own W1C bits and the live block bits. -/
def Dev.glbErr (d : Dev) : Word :=
  d.rd R.GLB_ERR ||| BitVec.ofNat 32 (((List.range 16).map (fun k => if k ≠ 0 ∧ d.blkErr k then 2 ^ (3 + k) else 0)).sum)

/-- A change `g` of block `blk`'s error or mask registers; a block bit of GLB_ERR that rises is cause ERR (R71). -/
def Dev.withBlkErr (blk : Nat) (g : Dev → Dev) (d : Dev) : Dev :=
  let d1 := g d
  if !d.blkErr blk && d1.blkErr blk then d1.intCause 0 else d1

/-- Sets bit `bit` of the error register at `off` of block `blk`. -/
def Dev.err (blk off bit : Nat) (d : Dev) : Dev := d.withBlkErr blk (fun x => x.sf off (bitF bit) 1)

/-- Sets a W1C bit of GLB_ERR itself; a rise is cause ERR (R71). -/
def Dev.glbErrSet (bit : Nat) (d : Dev) : Dev :=
  let d1 := d.sf R.GLB_ERR (bitF bit) 1
  if d.f R.GLB_ERR (bitF bit) = 0 then d1.intCause 0 else d1

/-! The denial log (R53, R59). -/

/-- The address an access is logged with: the BAR offset for host accesses, the DA otherwise (GLB_DENY_ADDR). -/
def denyAddr (master off : Nat) : Nat := if master ≤ 1 then off else 0x10_0000_0000 + off

/-- Captures an access in the denial log unless the log holds one. -/
def Dev.denyCapture (master : Nat) (write : Bool) (kind addr : Nat) (d : Dev) : Dev :=
  if d.b R.GLB_DENY_INFO F.GLB_DENY_INFO_VALID then d
  else
    ((d.wr R.GLB_DENY_INFO (BitVec.ofNat 32
        (0x80000000 + (if write then 0x40000000 else 0) + kind % 4 * 0x10000000 + master % 256))).wr64
      R.GLB_DENY_ADDR (BitVec.ofNat 64 addr)).wr64 R.GLB_DENY_TS d.tsWord

/-- A denied access (R59). -/
def Dev.deny (master : Nat) (write : Bool) (addr : Nat) (d : Dev) : Dev :=
  ((d.glbErrSet 1).bump R.GLB_ERR_CNT0 F.GLB_ERR_CNT0_DENY_CNT 1).denyCapture master write 0 addr

/-- A decode error (R53). -/
def Dev.decodeError (master : Nat) (write : Bool) (addr : Nat) (d : Dev) : Dev :=
  ((d.glbErrSet 2).bump R.GLB_ERR_CNT0 F.GLB_ERR_CNT0_DECODE_CNT 1).denyCapture master write 1 addr

/-- A write that would change a locked RWL field (R19). -/
def Dev.lockedWrite (d : Dev) : Dev := (d.glbErrSet 0).bump R.GLB_ERR_CNT1 F.GLB_ERR_CNT1_LOCKED_WR_CNT 1

/-- Whether the core, the Stash and Skein have power and clock: ACTIVE, and ENTERING while transfers complete (R504, R619). -/
def Dev.powered (d : Dev) : Bool := d.pwr.state == .active || d.pwr.state == .entry

/-! The outcome of a command. -/

/-- A command's meaning: what it makes of the device; the queue is not its concern. -/
def State.run (s : State) (g : Dev → Dev) : Host.Outcome State Fault Refusal := .next { s with dev := g s.dev }

end Sys2Proof.Machine
end

