-- ==== Sys2Proof/Machine/Regs.lean ====
section
/-! DEFINITION. What a write does to the fields of a register (R14, R15, R19), how a 64-bit register takes its two words
(R13), and what a read clears (R15 RC, R17). The effects that a register's own row or chapter adds are in the blocks. -/

namespace Sys2Proof.Machine

/-- The RWL bits of a register word whose lock is set: the access tables after the first entry into SERVICE (R62), the Chain
configuration while LOCK is set (R168; all 64 locks rise and fall together), the Skein regions and history configuration
and the peer access tables as their chapters state. -/
def Dev.lockedBits (off : Nat) (d : Dev) : Word :=
  let all : Word := 0xFFFFFFFF
  if R.GLB_ACC 0 ≤ off ∧ off ≤ R.GLB_ACC 15 then (if d.glb.accLocked then all else 0)
  else if 0x40000 ≤ off ∧ off < 0x50000 then
    (if d.b (R.CHAIN_CH_CFG 0) F.CHAIN_CH_CFG_LOCK then all else 0)
  else if 0x400000 ≤ off ∧ off < 0x410000 then (if d.glb.skeinLocked then all else 0)
  else if 0x3C0000 ≤ off ∧ off < 0x3D0000 then (if d.glb.accLocked then all else 0)
  else 0

/-- The value a register word takes from a write, field by field (R15). -/
def writtenWord (row : RegRow) (k : Nat) (old v locked : Word) : Word :=
  let rw := RegRow.part row.rw k
  let w1c := RegRow.part row.w1c k
  let rwl := RegRow.part row.rwl k
  (old &&& ~~~ (rw ||| w1c ||| rwl)) ||| (v &&& rw) ||| (old &&& ~~~ v &&& w1c)
    ||| (v &&& rwl &&& ~~~ locked) ||| (old &&& rwl &&& locked)

/-- Whether a write would change a locked RWL field (R19). -/
def lockedHit (row : RegRow) (k : Nat) (old v locked : Word) : Bool :=
  ((v ^^^ old) &&& RegRow.part row.rwl k &&& locked) != 0

/-- A write of one word takes effect field by field; a write that would change a locked field is counted once. -/
def Dev.writeWord (row : RegRow) (k off : Nat) (v : Word) (d : Dev) : Dev :=
  let old := d.rd off
  let lk := d.lockedBits off
  let d1 := d.wr off (writtenWord row k old v lk)
  if lockedHit row k old v lk then d1.lockedWrite else d1

/-- The low word that a high-word write combines with when none is held (R13): an RW or RWL half keeps its value, a W1C or
WO half acts as a write of 0. -/
def lowAsItStands (row : RegRow) (old : Word) : Word := old &&& RegRow.part (row.rw ||| row.rwl) 0

/-- Both words of a 64-bit register take effect together; locked fields are counted once for the one write. -/
def Dev.writePair (row : RegRow) (off : Nat) (lo hi : Word) (d : Dev) : Dev :=
  let ol := d.rd off
  let oh := d.rd (off + 4)
  let ll := d.lockedBits off
  let lh := d.lockedBits (off + 4)
  let d1 := (d.wr off (writtenWord row 0 ol lo ll)).wr (off + 4) (writtenWord row 1 oh hi lh)
  if lockedHit row 0 ol lo ll || lockedHit row 1 oh hi lh then d1.lockedWrite else d1

/-- The low word a 64-bit register holds, if it holds one (R13). -/
def Dev.heldLow (off : Nat) (d : Dev) : Option Word := (d.held.find? (fun p => p.1 = off)).map (·.2)

/-- A low-word write is held, replacing one already held. -/
def Dev.hold (off : Nat) (v : Word) (d : Dev) : Dev := { d with held := (d.held.filter (fun p => p.1 ≠ off)) ++ [(off, v)] }

/-- The held low word is discarded. -/
def Dev.unhold (off : Nat) (d : Dev) : Dev := { d with held := d.held.filter (fun p => p.1 ≠ off) }

/-- The 64-bit value that a high-word write makes effective: with the held low word, or with the low half as it stands. -/
def Dev.joined (row : RegRow) (off : Nat) (hi : Word) (d : Dev) : Word × Word :=
  ((d.heldLow off).getD (lowAsItStands row (d.rd off)), hi)

/-- A plain write of a register word: held, joined or direct as the register's width asks; reserved offsets are dropped
(R14). -/
def Dev.plainWrite (off : Nat) (v : Word) (d : Dev) : Dev :=
  match RegMap.lookup off with
  | none => d
  | some (row, k) =>
    if row.wide then
      if k = 0 then d.hold off v
      else
        let p := d.joined row (off - 4) v
        (d.writePair row (off - 4) p.1 p.2).unhold (off - 4)
    else d.writeWord row 0 off v

/-- What a read of a word clears: its RC fields (R15). -/
def Dev.clearRC (off : Nat) (d : Dev) : Dev :=
  match RegMap.lookup off with
  | none => d
  | some (row, k) => if RegRow.part row.rc k = 0 then d else d.wr off (d.rd off &&& ~~~ RegRow.part row.rc k)

end Sys2Proof.Machine
end

