-- ==== Sys2Proof/Machine/Chain.lean ====
section
/-! DEFINITION. The Chain (spec/05): publication, held and merged events, delivery, activations at task inputs, loop cuts,
software fires, interrupts, ownership and the clockless counters. -/

namespace Sys2Proof.Machine

/-! Source and task-input numbers of R172 and R173. -/

namespace Src
def gaugeRef (a : Nat) : Nat := a
def gaugeUncertain (a : Nat) : Nat := 4 + a
def gaugeReverse (a : Nat) : Nat := 8 + a
def gaugeStandstill (a : Nat) : Nat := 12 + a
def gaugeMoving (a : Nat) : Nat := 16 + a
def gaugeWatch (a : Nat) : Nat := 20 + a
def gaugeErr (a : Nat) : Nat := 24 + a
def trigCmp (u : Nat) : Nat := 32 + u
def trigCmpDone (u : Nat) : Nat := 48 + u
def trigCmpMiss (u : Nat) : Nat := 64 + u
def trigIn (i : Nat) : Nat := 80 + i
def trigErr : Nat := 96
def cllState (n : Nat) : Nat := 128 + n
def cllButton (n : Nat) : Nat := 176 + n
def cllEvent (n : Nat) : Nat := 224 + n
def asmFrame (c : Nat) : Nat := 272 + c
def asmErr : Nat := 320
def carFrame (k : Nat) : Nat := 321 + k
def carStats (k : Nat) : Nat := 325 + k
def steErr (c : Nat) : Nat := 329 + c
def steUser (c : Nat) : Nat := 345 + c
def jobArmed : Nat := 361
def jobSplice : Nat := 362
def jobSwatchDone : Nat := 363
def jobErr : Nat := 364
def hookDone (ch : Nat) : Nat := 365 + ch
def hostLink : Nat := 381
def hostErr : Nat := 382
def fabMark : Nat := 383
def fabTime : Nat := 384
def fabEpoch : Nat := 385
def fabErr : Nat := 386
def glbShed : Nat := 387
def pwrThermal : Nat := 388
def pwrTrip : Nat := 389
def chainCtr (k : Nat) : Nat := 390 + k
def softwareFire : Nat := 511
end Src

namespace Task
def gaugeSnap : Nat := 0
def gaugeZero (a : Nat) : Nat := 1 + a
def cmpArm (u : Nat) : Nat := 8 + u
def cmpStop (u : Nat) : Nat := 24 + u
def trigOut (p : Nat) : Nat := 40 + p
def trigPkt (n : Nat) : Nat := 72 + n
def asmClose (c : Nat) : Nat := 120 + c
def steEvent (c : Nat) : Nat := 168 + c
def jobArm : Nat := 184
def jobAbort : Nat := 185
def fabMarkTx : Nat := 186
def fabTimeCap : Nat := 187
def pwrWake : Nat := 188
def ctrInc (k : Nat) : Nat := 192 + k
def ctrClr (k : Nat) : Nat := 208 + k
end Task

/-- The task inputs the catalogue lists (R173); the others act on nothing. -/
def taskExists (t : Nat) : Bool := t ≤ 4 || (8 ≤ t && t ≤ 188) || (192 ≤ t && t ≤ 223)

/-- The inputs that act in the watch state (R170, R173). -/
def taskInWatch (t : Nat) : Bool := t == 188 || (192 ≤ t && t ≤ 223)

/-- The sources that act in the watch state (R170, R172). -/
def sourceInWatch (src : Nat) : Bool :=
  (20 ≤ src && src ≤ 23) || src == 389 || (390 ≤ src && src ≤ 405) || src == 511

/-- Count inputs (R173). -/
def taskCounts (t : Nat) : Bool := (168 ≤ t && t ≤ 183) || (192 ≤ t && t ≤ 207)

/-- The inputs in no clock island: pads and the clockless counters (R159). -/
def taskClockless (t : Nat) : Bool := (40 ≤ t && t ≤ 71) || (192 ≤ t && t ≤ 223)

/-- Whether two events at a task input coincide: within 1 ns where the input is in no island, else in one cycle of its
island; the model's grain is 1 ns (DESIGN CHOICE, log entry 12). -/
def coincident (t a b : Nat) : Bool := if taskClockless t then a ≤ b + 1 && b ≤ a + 1 else a == b

def Dev.chan (ch : Nat) (d : Dev) : Chan := d.chain.chans.get (fun _ => Chan.init) ch

def Dev.setChan (ch : Nat) (c : Chan) (d : Dev) : Dev :=
  { d with chain := { d.chain with chans := d.chain.chans.set (fun _ => Chan.init) ch c } }

/-- The spacing S of a channel: the greater of 2 ns and REFRACT (R156). -/
def Dev.spacing (ch : Nat) (d : Dev) : Nat := max 2 (d.f (R.CHAIN_CH_CFG ch) F.CHAIN_CH_CFG_REFRACT)

/-- Whether task input `t` subscribes to channel `ch` (R153). -/
def Dev.subscribes (t ch : Nat) (d : Dev) : Bool :=
  let v := d.rd (R.CHAIN_TASK_CFG t)
  (fld v F.CHAIN_TASK_CFG_EN0 == 1 && fld v F.CHAIN_TASK_CFG_CH0 == ch) ||
    (fld v F.CHAIN_TASK_CFG_EN1 == 1 && fld v F.CHAIN_TASK_CFG_CH1 == ch)

/-- The task inputs that subscribe to a channel now. -/
def Dev.subscribers (ch : Nat) (d : Dev) : List Nat :=
  (List.range 224).filter (fun t => taskExists t && d.subscribes t ch)

/-- A word of CHAIN_IRQ_STATUS or CHAIN_IRQ_EN that holds bit `ch`. -/
def irqWord (base ch : Nat) : Nat := base + 4 * (ch / 32)

/-- A delivered event sets CHAIN_IRQ_STATUS bit `ch`; vector 81 + ch is sent when the bit of STATUS AND EN goes from 0 to 1
(R165). -/
def Dev.chainIrq (ch : Nat) (d : Dev) : Dev :=
  let st := irqWord R.CHAIN_IRQ_STATUS ch
  let d1 := d.sf st (bitF (ch % 32)) 1
  if d.f st (bitF (ch % 32)) = 0 ∧ d.f (irqWord R.CHAIN_IRQ_EN ch) (bitF (ch % 32)) = 1 then d1.message (81 + ch) else d1

/-- A cut event is counted, sets LOOP_CUT and may be captured (R163). -/
def Dev.loopCut (ch src : Nat) (d : Dev) : Dev :=
  let d1 := (d.bump (R.CHAIN_CH_CNT2 ch) F.CHAIN_CH_CNT2_LOOP_CUT_CNT 1).err 3 R.CHAIN_ERR 0
  if d1.b R.CHAIN_LOOP_INFO F.CHAIN_LOOP_INFO_VALID then d1
  else d1.wr R.CHAIN_LOOP_INFO (BitVec.ofNat 32 (0x80000000 + ch % 64 * 0x10000 + src % 512))

/-- Delivery of a published event to every input that subscribes at this instant (R155). -/
def Dev.deliver (ch src hop : Nat) (d : Dev) : Dev :=
  let recs := (d.subscribers ch).map (fun t => { task := t, ch := ch, src := src, hop := hop, at_ := d.now : InFlight })
  ({ d with chain := { d.chain with flight := d.chain.flight ++ recs } }).chainIrq ch

/-- An idle channel publishes: it counts the event, starts its spacing, and delivers or cuts it (R155, R156, R163). -/
def Dev.publishNow (ch src hop : Nat) (d : Dev) : Dev :=
  let d1 := (d.bump (R.CHAIN_CH_CNT ch) whole 1).setChan ch
    { used := true, lastAt := d.now, freeAt := d.now + d.spacing ch, held := none }
  if 7 ≤ hop then d1.loopCut ch src else d1.deliver ch src hop

/-- A publication absorbed into another is counted and sets MERGE (R158). -/
def Dev.mergeCount (ch : Nat) (d : Dev) : Dev :=
  (d.bump (R.CHAIN_CH_CNT2 ch) F.CHAIN_CH_CNT2_MERGE_CNT 1).err 3 R.CHAIN_ERR 1

/-- A publication at the instant of the channel's last one merges into it: its deliveries take the lowest source and the
greatest hop, and are cut where that hop is 7 (R157, R158, R163). -/
def Dev.mergeSame (ch src hop : Nat) (d : Dev) : Dev :=
  let same := fun (r : InFlight) => r.ch == ch && r.at_ == d.now
  let up := fun (r : InFlight) => if same r then { r with src := min r.src src, hop := max r.hop hop } else r
  let fl := d.chain.flight.map up
  let d1 := d.mergeCount ch
  if 7 ≤ hop then
    ({ d1 with chain := { d1.chain with flight := fl.filter (fun r => !same r) } }).loopCut ch src
  else { d1 with chain := { d1.chain with flight := fl } }

/-- A publication on a channel (R154, R157, R158): discarded where the channel is disabled, merged or held where it is busy,
published at once where it is idle. -/
def Dev.publishCh (ch src hop : Nat) (d : Dev) : Dev :=
  if d.f (R.CHAIN_CH_CFG ch) F.CHAIN_CH_CFG_EN = 0 then d
  else
    let c := d.chan ch
    match c.held with
    | some (s0, h0) => (d.setChan ch { c with held := some (min s0 src, max h0 hop) }).mergeCount ch
    | none =>
      if c.used && c.lastAt == d.now then d.mergeSame ch src hop
      else if c.used && d.now < c.freeAt then d.setChan ch { c with held := some (src, hop) }
      else d.publishNow ch src hop

/-- A source publishes (R152): on the channel its configuration names, or nowhere. In the watch state only the sources
marked W act (R170). -/
def Dev.publish (src hop : Nat) (d : Dev) : Dev :=
  let v := d.rd (R.CHAIN_SRC_CFG src)
  if fld v F.CHAIN_SRC_CFG_EN = 0 then d
  else if d.pwr.state = .watch ∧ ¬ sourceInWatch src then d
  else d.publishCh (fld v F.CHAIN_SRC_CFG_CH) src hop

/-- Publications that reach the channels in turn. -/
def Dev.publishAll (evs : List (Nat × Nat)) (d : Dev) : Dev := evs.foldl (fun x e => x.publish e.1 e.2) d

/-- An activation as its input settles it: the lowest source, the greatest hop, the number of events (R160), and the instant
of the first publication. -/
structure Act where
  src : Nat
  hop : Nat
  n   : Nat
  at_ : Nat
deriving DecidableEq, Repr

/-- The first event in flight towards an input. -/
def Dev.firstFlight (t : Nat) (d : Dev) : Option InFlight := d.chain.flight.find? (fun r => r.task == t)

/-- A task input acts on the event in flight towards it (R159, R160, R161): coincident events make one activation, which is
counted; none is made where no event is in flight or the input's island is down in the watch state. -/
def Dev.activate (t : Nat) (d : Dev) : Option Act × Dev :=
  match d.firstFlight t with
  | none => (none, d)
  | some r0 =>
    let mine := d.chain.flight.filter (fun r => r.task == t && coincident t r0.at_ r.at_)
    let d1 := { d with chain := { d.chain with
      flight := d.chain.flight.filter (fun r => !(r.task == t && coincident t r0.at_ r.at_)) } }
    if d.pwr.state = .watch ∧ ¬ taskInWatch t then (none, d1)
    else
      let n := mine.length
      let src := mine.foldl (fun m r => min m r.src) r0.src
      let hop := mine.foldl (fun m r => max m r.hop) r0.hop
      let d2 := if n ≤ 1 then d1 else
        let e := d1.bump (R.CHAIN_TASK_CNT t) F.CHAIN_TASK_CNT_COINC_CNT 1
        if taskCounts t then e else e.err 3 R.CHAIN_ERR 2
      let k := if taskCounts t then n else 1
      (some { src := src, hop := hop, n := k, at_ := r0.at_ }, d2.bump (R.CHAIN_TASK_CNT t) F.CHAIN_TASK_CNT_ACT_CNT k)

/-! Counters (R169). -/

def Dev.ctr (k : Nat) (d : Dev) : Ctr := d.chain.ctrs.get (fun _ => Ctr.init) k

def Dev.setCtr (k : Nat) (c : Ctr) (d : Dev) : Dev :=
  { d with chain := { d.chain with ctrs := d.chain.ctrs.set (fun _ => Ctr.init) k c } }

/-- The counter's window after a count ends: it judges THRESH on the count as it stands and publishes once (R169). -/
def Dev.ctrJudge (k : Nat) (d : Dev) : Dev :=
  let c := d.ctr k
  if !c.window then d
  else
    let d1 := d.setCtr k { c with window := false }
    let thr := max 1 (d.f (R.CHAIN_CTR_CFG k) F.CHAIN_CTR_CFG_THRESH)
    let val := d.f (R.CHAIN_CTR_VAL k) ⟨0, 24⟩
    let reload := d.b (R.CHAIN_CTR_CFG k) F.CHAIN_CTR_CFG_RELOAD
    if val < thr ∨ (!reload ∧ c.fired) then d1
    else
      let d2 := if reload then d1.sf (R.CHAIN_CTR_VAL k) ⟨0, 24⟩ (val - thr)
                else d1.setCtr k { c with window := false, fired := true }
      d2.publish (Src.chainCtr k) (c.winHop + 1)

/-- Events counted by counter `k` (R169): only while EN is 1, clamped at 0xFF_FFFF; the judgement follows 1 ns later. -/
def Dev.ctrCount (k : Nat) (a : Act) (d : Dev) : Dev :=
  if d.f (R.CHAIN_CTR_CFG k) F.CHAIN_CTR_CFG_EN = 0 then d
  else
    let d0 := d.ctrJudge k
    let val := d0.f (R.CHAIN_CTR_VAL k) ⟨0, 24⟩
    (d0.sf (R.CHAIN_CTR_VAL k) ⟨0, 24⟩ (min (val + a.n) 0xFFFFFF)).setCtr k
      { d0.ctr k with window := true, winAt := d0.now, winHop := a.hop, winCnt := a.n }

/-- A clear of counter `k`: the count is 0, or the events counted within 1 ns of the clear, which acts first (R169). -/
def Dev.ctrClear (k : Nat) (d : Dev) : Dev :=
  let c := d.ctr k
  let keep := if c.window && d.now ≤ c.winAt + 1 then c.winCnt else 0
  (d.sf (R.CHAIN_CTR_VAL k) ⟨0, 24⟩ keep).setCtr k { c with fired := false }

/-! Ownership and locks (R166 to R168). -/

/-- Whether a master owns a channel (R167). -/
def Dev.ownsCh (master ch : Nat) (d : Dev) : Bool :=
  let v := d.rd (R.CHAIN_CH_OWN ch)
  let own := fld v F.CHAIN_CH_OWN_OWNER
  let remote := master == 1 || (0x40 ≤ master && master ≤ 0x7F)
  if master == 2 then true
  else if fld v F.CHAIN_CH_OWN_SEC == 1 && remote then false
  else own == master || own == 0xFF

/-- Whether a master may fire a channel by software (R166). -/
def Dev.mayFire (master ch : Nat) (d : Dev) : Bool :=
  if d.glb.mode = .service then d.b (R.CHAIN_CH_CFG ch) F.CHAIN_CH_CFG_SWFIRE else d.ownsCh master ch

/-- The channels a CHAIN_TASK_CFG value names (R166). -/
def taskNames (v : Word) : List Nat :=
  (if fld v F.CHAIN_TASK_CFG_EN0 = 1 then [fld v F.CHAIN_TASK_CFG_CH0] else []) ++
    (if fld v F.CHAIN_TASK_CFG_EN1 = 1 then [fld v F.CHAIN_TASK_CFG_CH1] else [])

/-- The channel a CHAIN_SRC_CFG value names (R166). -/
def srcNames (v : Word) : List Nat :=
  if fld v F.CHAIN_SRC_CFG_EN = 1 then [fld v F.CHAIN_SRC_CFG_CH] else []

/-- The channels whose ownership a configuration write of the word at `off` needs (R166, R167). -/
def Dev.configNeeds (off : Nat) (v : Word) (d : Dev) : List Nat :=
  if 0x40100 ≤ off ∧ off < 0x40500 then [(off - 0x40100) / 16]
  else if 0x41000 ≤ off ∧ off < 0x41800 then srcNames (d.rd off) ++ srcNames v
  else if 0x42000 ≤ off ∧ off < 0x43000 then taskNames (d.rd off) ++ taskNames v
  else []

/-- Whether the word at `off` is Chain configuration: CHAIN_CH_CFG, CHAIN_CH_OWN, CHAIN_SRC_CFG or CHAIN_TASK_CFG. -/
def isChainConfig (off : Nat) : Bool :=
  (0x40100 ≤ off && off < 0x40500 && (off % 16 == 0 || off % 16 == 4)) || (0x41000 ≤ off && off < 0x41800 && off % 4 == 0) ||
    (0x42000 ≤ off && off < 0x43000 && off % 8 == 0)

/-- A write to Chain configuration (R166 to R168): in SERVICE the RWL fields are locked and CHAIN_CH_OWN is read-only; in
every other mode a master that does not own every channel concerned is denied. -/
def Dev.chainConfigWrite (master off : Nat) (v : Word) (d : Dev) : Dev :=
  if d.glb.mode = .service then
    if 0x40100 ≤ off ∧ off < 0x40500 ∧ off % 16 = 4 then d else d.plainWrite off v
  else if (d.configNeeds off v).all (fun ch => d.ownsCh master ch) then d.plainWrite off v
  else d.deny master true (denyAddr master off)

/-! Software fires and interrupts (R164, R165). -/

/-- Fires channel `ch`, if the master may; the answer says whether it may. -/
def Dev.softFire (master ch : Nat) (d : Dev) : Bool × Dev :=
  if d.mayFire master ch then (true, d.publishCh ch Src.softwareFire 0) else (false, d)

/-- Fires the permitted channels of a 64-bit value in ascending order; one denial is counted where some named channel is not
permitted (R164). -/
def Dev.fireMulti (master : Nat) (lo hi : Word) (d : Dev) : Dev :=
  let bits := (List.range 64).filter (fun ch => Nat.bitAt (dword hi lo).toNat ch)
  let d1 := bits.foldl (fun x ch => (x.softFire master ch).2) d
  if bits.all (fun ch => d.mayFire master ch) then d1 else d1.deny master true (denyAddr master R.CHAIN_FIRE_MULTI)

/-- After a software write of CHAIN_IRQ_STATUS or CHAIN_IRQ_EN the vector of every bit still set in both is sent again
(R165). -/
def Dev.irqResend (d : Dev) : Dev :=
  let both := (d.rd64 R.CHAIN_IRQ_STATUS &&& d.rd64 R.CHAIN_IRQ_EN).toNat
  ((List.range 64).filter (fun ch => Nat.bitAt both ch)).foldl (fun x ch => x.message (81 + ch)) d

/-! The commands. -/

/-- CHAIN_FIRE (R164). -/
def execChainFire (master : Nat) (ch : Fin 64) (s : State) : Host.Outcome State Fault Refusal :=
  s.run fun d => let r := d.softFire master ch; if r.1 then r.2 else d.deny master true (denyAddr master R.CHAIN_FIRE)

/-- CHAIN_FIRE_MULTI (R164): the write of the high word, with the held low word or 0. -/
def execChainFireMulti (master : Nat) (hi : Word) (s : State) : Host.Outcome State Fault Refusal :=
  s.run fun d => (d.fireMulti master ((d.heldLow R.CHAIN_FIRE_MULTI).getD 0) hi).unhold R.CHAIN_FIRE_MULTI

/-- CHAIN_HELD_PUBLISH (R157): at the end of S the held event is published. -/
def execChainHeldPublish (ch : Fin 64) (s : State) : Host.Outcome State Fault Refusal :=
  s.run fun d =>
    let c := d.chan ch
    match c.held with
    | none => d
    | some (src, hop) => if d.now < c.freeAt then d else d.publishNow ch src hop

/-- CHAIN_IRQ_WRITE (R165): a write of a word of CHAIN_IRQ_STATUS (`en` false) or CHAIN_IRQ_EN (`en` true). -/
def execChainIrqWrite (en hiWord : Bool) (v : Word) (s : State) : Host.Outcome State Fault Refusal :=
  s.run fun d =>
    let off := (if en then R.CHAIN_IRQ_EN else R.CHAIN_IRQ_STATUS) + (if hiWord then 4 else 0)
    let d1 := d.plainWrite off v
    if hiWord then d1.irqResend else d1

/-- CHAIN_CONFIG_WRITE (R166): a write of a configuration word at BAR0 offset `off` by a master. -/
def execChainConfigWrite (master off : Nat) (v : Word) (s : State) : Host.Outcome State Fault Refusal :=
  s.run fun d => if isChainConfig off then d.chainConfigWrite master off v else d

/-- CHAIN_CTR_INC(k) (R169): the activation adds its events to the count. -/
def execChainCtrInc (k : Fin 16) (s : State) : Host.Outcome State Fault Refusal :=
  s.run fun d => match d.activate (Task.ctrInc k) with
    | (some a, d1) => d1.ctrCount k a
    | (none, d1) => d1

/-- CHAIN_CTR_CLR(k) (R169). -/
def execChainCtrClr (k : Fin 16) (s : State) : Host.Outcome State Fault Refusal :=
  s.run fun d => match d.activate (Task.ctrClr k) with
    | (some _, d1) => d1.ctrClear k
    | (none, d1) => d1

/-- A software write of CHAIN_CTR_VAL(k) (R169): the count takes the value, plus the events counted in the same instant, and
the counter may publish again. -/
def Dev.ctrValWrite (k : Nat) (v : Word) (d : Dev) : Dev :=
  let c := d.ctr k
  let extra := if c.window && c.winAt == d.now then c.winCnt else 0
  (d.sf (R.CHAIN_CTR_VAL k) ⟨0, 24⟩ (min (v.toNat % 2 ^ 24 + extra) 0xFFFFFF)).setCtr k { c with fired := false }

/-- CHAIN_CTR_VAL_WRITE (R169). -/
def execChainCtrValWrite (k : Fin 16) (v : Word) (s : State) : Host.Outcome State Fault Refusal :=
  s.run fun d => d.ctrValWrite k v

/-- CHAIN_CTR_WINDOW_END (R169): 1 ns after the activation. -/
def execChainCtrWindowEnd (k : Fin 16) (s : State) : Host.Outcome State Fault Refusal :=
  s.run fun d => if (d.ctr k).winAt + 1 ≤ d.now then d.ctrJudge k else d

end Sys2Proof.Machine
end

