-- ==== Sys2Proof/Machine/Gauge.lean ====
section
/-! DEFINITION. The Gauge (spec/03): axes, counts and web positions, reference marks and re-zeroing, position uncertainty,
speed, snapshots, the watch counter and the converter check. -/

namespace Sys2Proof.Machine

def Dev.axis (a : Nat) (d : Dev) : Axis := d.gauge.axes.get (fun _ => Axis.init) a

def Dev.setAxis (a : Nat) (x : Axis) (d : Dev) : Dev :=
  { d with gauge := { d.gauge with axes := d.gauge.axes.set (fun _ => Axis.init) a x } }

def Dev.modAxis (a : Nat) (g : Axis → Axis) (d : Dev) : Dev := d.setAxis a (g (d.axis a))

/-- A GAUGE_ERR(a) bit is set; GAUGE_ERR(a) is published when an unmasked bit rises (R106). -/
def Dev.gaugeErr (a bit : Nat) (d : Dev) : Dev :=
  let rises := d.f (R.GAUGE_ERR a) (bitF bit) = 0 ∧ d.f (R.GAUGE_ERR_MASK a) (bitF bit) = 0
  let d1 := d.err 4 (R.GAUGE_ERR a) bit
  if rises then d1.publish (Src.gaugeErr a) 0 else d1

/-- POS_UNCERTAIN is set; GAUGE_UNCERTAIN(a) is published when it rises (R93). -/
def Dev.setUnc (a : Nat) (d : Dev) : Dev :=
  if (d.axis a).unc then d else (d.modAxis a fun x => { x with unc := true }).publish (Src.gaugeUncertain a) 0

/-! From count to web position (R85). -/

/-- The fine wp at a count, in 1/65,536 nm. -/
def Axis.wpFineAt (x : Axis) (c : Int) : Int := x.zeroWp * 65536 + (c - x.cZero) * x.num * 65536 / x.den

/-- The wp at a count, in nm. -/
def Axis.wpAt (x : Axis) (c : Int) : Int := x.wpFineAt c / 65536

/-- The present wp. -/
def Axis.wp (x : Axis) : Int := x.wpAt x.c

/-- A signed 64-bit register value. -/
def wpWord (v : Int) : DWord := BitVec.ofInt 64 v

/-! Re-zeroing and scale (R86, R90, R91). -/

/-- A compare unit applies the step of a re-zero of its axis (R127): to its high-water mark, and with KEEP_PLACE to its
offset. -/
def Dev.unitStep (a : Nat) (step : Int) (u : Nat) (d : Dev) : Dev :=
  let x := d.trig.units.get (fun _ => CmpUnit.init) u
  let ax := if x.state = .idle then d.f (R.TRIG_CMP_CFG u) F.TRIG_CMP_CFG_AXIS else x.axis
  if ax ≠ a then d
  else
    let us := d.trig.units.set (fun _ => CmpUnit.init) u { x with hwm := x.hwm + step * 65536 }
    let d1 := { d with trig := { d.trig with units := us } }
    if d.b (R.TRIG_CMP_CFG u) F.TRIG_CMP_CFG_STEP_MODE then d1
    else d1.wr64 (R.TRIG_CMP_OFS u) (wpWord (d1.int64 (R.TRIG_CMP_OFS u) + step))

/-- The step of a re-zero reaches the compare units (R127) and the mark of a splice on that axis (R404). -/
def Dev.applyStep (a : Nat) (step : Int) (d : Dev) : Dev :=
  let d1 := (List.range 16).foldl (fun x u => x.unitStep a step u) d
  if d1.job.axis = a then { d1 with job := { d1.job with mark := d1.job.mark + step } } else d1

/-- The history after the wp of every count has moved by `fine`: speeds are unchanged by it (R91). -/
def histMoved (fine : Int) (h : List (Nat × Int × Int)) : List (Nat × Int × Int) := h.map fun p => (p.1, p.2.1, p.2.2 + fine)

/-- A re-zero sets the wp at count `m`, records the step, and clears POS_UNCERTAIN (R91, R94). -/
def Dev.reZero (a : Nat) (m : Int) (newWp : Int) (d : Dev) : Dev :=
  let x := d.axis a
  let step := newWp - x.wpAt m
  let y := { x with zeroWp := newWp, cZero := m, unc := false, hist := histMoved (newWp * 65536 - x.wpFineAt m) x.hist }
  ((d.setAxis a y).wr64 (R.GAUGE_STEP a) (wpWord step)).applyStep a step

/-- Whether a scale is valid (R86). -/
def scaleValid (num den : Nat) : Bool := 1 ≤ num && 1 ≤ den && num ≤ 65536 * den

/-- The shadow scale is applied at a sample, the wp continuous; an invalid one is refused (R86). -/
def Dev.scaleApply (a : Nat) (d : Dev) : Dev :=
  let num := (d.rd (R.GAUGE_SCALE_NUM a)).toNat
  let den := (d.rd (R.GAUGE_SCALE_DEN a)).toNat
  let x := d.axis a
  if scaleValid num den then
    d.setAxis a { x with reqScale := false, zeroWp := x.wp, cZero := x.c, num := num, den := den }
  else (d.setAxis a { x with reqScale := false }).gaugeErr a 0

/-! One sample. -/

/-- What a sample does to the count: the new count, the signed step, the phase and quarter it leaves, in digital mode the edge it
shows (whether forward, and its point of a period), and the flags. -/
structure Advance where
  c       : Int
  step    : Int
  phase   : Nat
  quarter : Nat
  edge    : Option (Bool × Nat)
  qerr    : Bool
  ovr     : Bool
deriving DecidableEq, Repr

/-- The phase of a sample in the axis's forward sense (R76, R78). -/
def Axis.phaseOf (x : Axis) (s : EncSample) : Nat :=
  let p := (Config.phase s.sin.toInt s.cos.toInt x.corr.sinOfs x.corr.cosOfs x.corr.gain x.corr.phase).toNat
  if x.rev then (4096 - p) % 4096 else p

/-- The quarter of an (A, B) pair in the forward order (1,1), (1,0), (0,0), (0,1) (R82). -/
def quarterOf (a b : Bool) : Nat :=
  match a, b with
  | true, true => 0
  | true, false => 1
  | false, false => 2
  | false, true => 3

/-- The step between two phases along the shorter way; half a period goes in the direction DIR_REV shows (R76). -/
def phaseStep (dirRev : Bool) (old new : Nat) : Int :=
  let k := (new + 4096 - old) % 4096
  if k < 2048 then k
  else if k = 2048 then (if dirRev then -2048 else 2048)
  else (k : Int) - 4096

/-- The least count at or above `c` that lies at point `v` of a period. -/
def nextPoint (c v : Int) : Int := c + (v - c) % 4096

/-- The greatest count at or below `c` that lies at point `v` of a period. -/
def lastPoint (c v : Int) : Int := c - (c - v) % 4096

/-- An analogue sample: the phase unwrapped (R76), OVERSTEP above 1,024 counts (R93). -/
def Axis.advanceAnalogue (x : Axis) (s : EncSample) : Advance :=
  let p := x.phaseOf s
  let k := phaseStep x.dirRev x.phase p
  { c := x.c + k, step := k, phase := p, quarter := x.quarter, edge := none, qerr := false, ovr := 1024 < k.natAbs }

/-- The quarter in the axis's forward sense: with DIR = 1 the sequence runs the other way (R76, R82). -/
def Axis.ownQuarter (x : Axis) (q : Nat) : Nat := if x.rev then 3 - q else q

/-- Whether the axis entered its (A, B) state in reverse: its count is then one quarter period higher (R82). -/
def Axis.enteredReverse (x : Axis) : Bool := (x.c / 1024 - x.ownQuarter x.quarter) % 2 == 1

/-- A digital sample (R82, R83): an edge counts a quarter period; the first edge after a change of direction crosses back over the
point last set and leaves the count; a double change holds it, and later edges count from it. -/
def Axis.advanceDigital (x : Axis) (s : EncSample) : Advance :=
  let q := quarterOf s.a s.b
  let own := x.ownQuarter q
  let k := (own + 4 - x.ownQuarter x.quarter) % 4
  let still : Advance := { c := x.c, step := 0, phase := x.phase, quarter := q, edge := none, qerr := k = 2, ovr := false }
  if k = 0 ∨ k = 2 then still
  else
    let fwd : Bool := k = 1
    let step : Int := if fwd = x.enteredReverse then 0 else if fwd then 1024 else -1024
    let c1 := x.c + step
    { still with c := c1, step := step, phase := (c1 % 4096).toNat, edge := some (fwd, (if fwd then own else (own + 1) % 4) * 1024) }

/-- The count a sample leads to. -/
def Axis.advance (x : Axis) (s : EncSample) : Advance := if x.digital then x.advanceDigital s else x.advanceAnalogue s

/-- The count at which a move from `c0` to `c1` passes a point `g` of a period (R88): forward after `c0` and at or before
`c1`; in reverse at or after `c1` and before `c0`. -/
def passOf (c0 c1 g : Int) : Option Int :=
  if c0 < c1 then
    let m := lastPoint c1 g
    if c0 < m then some m else none
  else if c1 < c0 then
    let m := nextPoint c1 g
    if m < c0 then some m else none
  else none

/-- The instant of a crossing in quarter nanoseconds, interpolated between the previous sample and this one. -/
def crossTime (t0 t1 : Int) (c0 c1 m : Int) : Int :=
  if c0 = c1 then 4 * t1 else 4 * t0 + 4 * (t1 - t0) * (m - c0) / (c1 - c0)

/-- The ts of a sample taken now: the aperture instant, less 5 ns in digital mode (R80, R84). -/
def Dev.sampleTs (digital : Bool) (d : Dev) : Int := if digital then (d.ts : Int) - 5 else d.ts

/-- A reference mark is accepted at count `m` (R89): captured, counted, published and re-zeroed as REF_MODE selects. -/
def Dev.refMark (a : Nat) (m : Int) (ts : Int) (d : Dev) : Bool × Dev :=
  let mode := d.f (R.GAUGE_REF_CFG a) F.GAUGE_REF_CFG_REF_MODE
  if mode = 0 then (false, d)
  else
    let x := d.axis a
    let d1 := (((d.wr64 (R.GAUGE_REF_WP a) (wpWord (x.wpAt m))).wr64 (R.GAUGE_REF_TS a) (wpWord ts)).bump
      (R.GAUGE_CNT1 a) F.GAUGE_CNT1_REF_CNT 1).publish (Src.gaugeRef a) 0
    let zero := x.unc || mode == 3 || (mode == 2 && !x.refDone)
    let d2 := if mode = 2 then d1.modAxis a fun y => { y with refDone := true } else d1
    if zero then (true, d2.reZero a m (d2.int64 (R.GAUGE_REF_VALUE a))) else (false, d2)

/-- The mark a sample accepts, if any: a pass of REF_GATE, or in digital mode the edge REF_GATE[11:10] selects, while REF is
active in this sample or the one before it (R88). -/
def Dev.markOf (a : Nat) (x : Axis) (adv : Advance) (refNow : Bool) (d : Dev) : Option Int :=
  let gate := d.f (R.GAUGE_REF_CFG a) F.GAUGE_REF_CFG_REF_GATE
  if !(refNow || x.refWas) then none
  else if x.digital then
    match adv.edge with
    | some e => if e.2 = gate / 1024 * 1024 then some adv.c else none
    | none => none
  else passOf x.c adv.c gate

/-! Speed (R96 to R101). -/

/-- One period in nm as a fraction: 4,096 num over den. -/
def Axis.periodNum (x : Axis) : Int := 4096 * x.num

/-- The speed of `n` periods over `t` quarter nanoseconds, in 2^-16 nm/us, toward zero. -/
def Axis.periodSpeed (x : Axis) (n : Nat) (t : Int) : Int :=
  if t ≤ 0 then 0 else (n * x.periodNum * 65536 * 4000).tdiv (x.den * t)

/-- The period estimator (R96) at instant `t` in quarter nanoseconds, from the passes timed since the entry into RUN or the
last reversal, newest first. -/
def Axis.estimateP (x : Axis) (n : Nat) (t : Nat) : Int :=
  let mag : Int := match x.passes with
    | p0 :: p1 :: _ =>
      let since : Int := (t : Int) - p0
      match x.passes[n]? with
      | some pn =>
        let tn : Int := (p0 : Int) - pn
        if n * since > tn then x.periodSpeed 1 since else x.periodSpeed n tn
      | none => x.periodSpeed 1 (max ((p0 : Int) - p1) since)
    | _ => 0
  if x.dirRev then -mag else mag

/-- The difference window W in us (R97, R113). -/
def diffWin (cfg : Word) : Nat := 2 ^ min 6 (fld cfg F.GAUGE_SPEED_CFG_DIFF_WIN)

/-- The standstill interval in ms (R113). -/
def stillMs (cfg : Word) : Nat := min 1000 (max 1 (fld cfg F.GAUGE_SPEED_CFG_STANDSTILL_MS))

/-- The newest history point at least `back` ns old, else the oldest there is. -/
def histAt : List (Nat × Int × Int) → Nat → Nat → Option (Nat × Int × Int)
  | [], _, _ => none
  | [p], _, _ => some p
  | p :: q :: rest, now, back => if p.1 + back ≤ now then some p else histAt (q :: rest) now back

/-- The history with the points no longer needed removed: all younger than `back`, and the first one older. -/
def histTrim : List (Nat × Int × Int) → Nat → Nat → List (Nat × Int × Int)
  | [], _, _ => []
  | p :: rest, now, back => if p.1 + back ≤ now then [p] else p :: histTrim rest now back

/-- The difference estimator (R97): the wp difference over W, or over the span of RUN there is, in 2^-16 nm/us. -/
def Axis.estimateD (x : Axis) (wUs now : Nat) : Int :=
  match histAt x.hist now (wUs * 1000) with
  | none => 0
  | some (t0, _, w0) => if now ≤ t0 then 0 else ((x.wpFineAt x.c - w0) * 1000).tdiv ((now - t0 : Nat) : Int)

/-- The estimator selection of R98 for the next sample. -/
def Axis.nextMethod (x : Axis) (cfg : Word) (now : Nat) : Bool :=
  if fld cfg F.GAUGE_SPEED_CFG_FORCE = 1 then fld cfg F.GAUGE_SPEED_CFG_METHOD_SEL == 1
  else
    let w := diffWin cfg
    match histAt x.hist now (w * 1000) with
    | none => x.method
    | some (t0, c0, _) =>
      if t0 + w * 1000 ≤ now then
        let m := (x.c - c0).natAbs * 1000
        if 64 * 4096 * w ≤ m then true else if m < 56 * 4096 * w then false else x.method
      else x.method

/-- The selected speed (R99, R100). -/
def Axis.selected (x : Axis) : Int := if x.still then 0 else if x.method then x.speedD else x.speedP

/-- The passes through period multiples in the direction DIR_REV shows (R96). -/
def Axis.addPass (x : Axis) (adv : Advance) (t0 t1 : Nat) : List Nat :=
  let pass : Option (Bool × Int) :=
    if x.digital then (match adv.edge with
      | some (fwd, 0) => some (!fwd, adv.c)
      | _ => none)
    else (passOf x.c adv.c 0).map fun m => (decide (adv.c < x.c), m)
  match pass with
  | none => x.passes
  | some (back, m) => if back == x.dirRev then ((crossTime t0 t1 x.c adv.c m).toNat :: x.passes).take 9 else x.passes

/-- Standstill, judged at a sample (R100). -/
def Dev.judgeStill (a : Nat) (d : Dev) : Dev :=
  let x := d.axis a
  let ms := stillMs (d.rd (R.GAUGE_SPEED_CFG a))
  if x.still then
    if 4096 ≤ (x.c - x.stillC).natAbs then
      (d.setAxis a { x with still := false }).publish (Src.gaugeMoving a) 0
    else d
  else
    match histAt x.hist d.now (ms * 1000000) with
    | none => d
    | some (_, c0, _) =>
      if x.runAt + ms * 1000000 ≤ d.now ∧ (x.c - c0).natAbs < 4096 then
        (d.setAxis a { x with still := true, stillC := x.c }).publish (Src.gaugeStandstill a) 0
      else d

/-- The direction of motion, judged at a sample (R101). -/
def Dev.judgeDir (a : Nat) (d : Dev) : Dev :=
  let x := d.axis a
  let hyst : Int := d.f (R.GAUGE_AXIS_CFG a) F.GAUGE_AXIS_CFG_REV_HYST
  let far := if x.dirRev then min x.far x.c else max x.far x.c
  if (if x.dirRev then x.c - far else far - x.c) > hyst then
    (d.setAxis a { x with dirRev := !x.dirRev, far := x.c, passes := [] }).publish (Src.gaugeReverse a) 0
  else d.setAxis a { x with far := far }

/-- Whether a converter code is at full scale (R95). -/
def fullScale (v : BitVec 14) : Bool := v == 0x1FFF || v == 0x2000

/-- The error causes a sample shows besides AMP_LOW: QERR, OVERSTEP, OVERSPEED, CLIP (R83, R93, R95). A signal frequency above
10 MHz shows as a step of more than 163.84 counts in one 4 ns sample, or in digital mode as two edges less than 25 ns apart
(DEDUCED, log entry 21). -/
def Dev.sampleErrs (a : Nat) (x : Axis) (s : EncSample) (adv : Advance) (d : Dev) : Dev :=
  let d1 := if adv.qerr then ((d.bump (R.GAUGE_CNT0 a) F.GAUGE_CNT0_QERR_CNT 1).gaugeErr a 1).setUnc a else d
  let d2 := if adv.ovr then (d1.gaugeErr a 5).setUnc a else d1
  let fast := if x.digital then adv.edge.isSome && d.now < x.edgeAt + 25 else 4096 < adv.step.natAbs * 25
  let d3 := if fast then d2.gaugeErr a 4 else d2
  if !x.digital && (fullScale s.sin || fullScale s.cos) then
    (d3.bump (R.GAUGE_CNT0 a) F.GAUGE_CNT0_CLIP_CNT 1).gaugeErr a 3
  else d3

/-- The extremes of the tracks after a sample, collected while the conditions of R79 hold. -/
def Axis.collect (x : Axis) (auto : Bool) (s : EncSample) (newPass : Bool) : Option Extremes :=
  let inRange := match x.passes with
    | p0 :: p1 :: _ => 4000 ≤ p0 - p1 && p0 - p1 ≤ 400000000
    | _ => true
  if !auto || x.digital || x.unc || !inRange then none
  else
    let sn := s.sin.toInt
    let cs := s.cos.toInt
    let k := if newPass then 1 else 0
    match x.ext with
    | none => some { sinMin := sn, sinMax := sn, cosMin := cs, cosMax := cs, periods := k }
    | some e => some { sinMin := min e.sinMin sn, sinMax := max e.sinMax sn, cosMin := min e.cosMin cs,
                       cosMax := max e.cosMax cs, periods := e.periods + k }

/-- The count, the run of low samples and the amplitude history after a sample. -/
def Dev.takeCount (a : Nat) (s : EncSample) (adv : Advance) (d : Dev) : Dev :=
  let x := d.axis a
  let cfg := d.rd (R.GAUGE_AXIS_CFG a)
  let t0 := (x.hist.head?.map (·.1)).getD d.now
  let passes := x.addPass adv t0 d.now
  let newPass := passes != x.passes
  let amp := Config.amplitude s.sin.toInt s.cos.toInt
  let low := !x.digital && amp < 10 * fld cfg F.GAUGE_AXIS_CFG_AMP_MIN
  let back := max (diffWin (d.rd (R.GAUGE_SPEED_CFG a)) * 1000) (stillMs (d.rd (R.GAUGE_SPEED_CFG a)) * 1000000)
  d.setAxis a { x with
    c := adv.c, phase := adv.phase, quarter := adv.quarter, passes := passes,
    edgeAt := if adv.edge.isSome then d.now else x.edgeAt,
    lowRun := if low then min (x.lowRun + 1) 64 else 0, lowSeen := low && x.lowSeen,
    amps := if x.digital then [] else (amp :: x.amps).take 256,
    ext := x.collect (fld cfg F.GAUGE_AXIS_CFG_AUTOCORR = 1) s newPass,
    hist := histTrim ((d.now, adv.c, x.wpFineAt adv.c) :: x.hist) d.now back }

/-- The instant of a mark accepted at count `m`: interpolated between the samples, in digital mode that of the sample. -/
def Dev.markTs (x0 : Axis) (adv : Advance) (m : Int) (d : Dev) : Int :=
  if x0.digital then d.sampleTs true
  else crossTime (((x0.smps.head?).map (·.ts)).getD (d.sampleTs false)) (d.sampleTs false) x0.c adv.c m / 4

/-- The mark that a sample accepts, if any; the answer says whether it re-zeroed the axis. -/
def Dev.takeMark (a : Nat) (x0 : Axis) (adv : Advance) (refNow : Bool) (d : Dev) : Bool × Dev :=
  match d.markOf a x0 adv refNow with
  | some m => d.refMark a m (d.markTs x0 adv m)
  | none => (false, d)

/-- A software or Chain re-zero falls in a sample; `marked` says that a mark re-zeroed the axis in the same sample. -/
def Dev.takeZero (a : Nat) (marked : Bool) (d : Dev) : Dev :=
  if (d.axis a).reqZero then
    let d1 := d.modAxis a fun y => { y with reqZero := false }
    if marked then d1.bump (R.GAUGE_CNT1 a) F.GAUGE_CNT1_ZERO_COLLIDE_CNT 1
    else d1.reZero a (d1.axis a).c (d1.int64 (R.GAUGE_ZERO_VALUE a))
  else d

/-- The requests that fall in a sample, in the order of R92: scale, mark, software or Chain re-zero. -/
def Dev.takeRequests (a : Nat) (x0 : Axis) (adv : Advance) (refNow : Bool) (d : Dev) : Dev :=
  let d1 := if (d.axis a).reqScale then d.scaleApply a else d
  let r := d1.takeMark a x0 adv refNow
  r.2.takeZero a r.1

/-- The estimators and the sample that leaves the Gauge. -/
def Dev.takeSpeed (a : Nat) (d : Dev) : Dev :=
  let cfg := d.rd (R.GAUGE_SPEED_CFG a)
  let x := d.axis a
  let n := 2 ^ fld cfg F.GAUGE_SPEED_CFG_P_AVG
  let x1 := { x with speedP := x.estimateP n (4 * d.now), speedD := x.estimateD (diffWin cfg) d.now }
  let smp : Smp := { at_ := d.now, ts := d.sampleTs x.digital, wpFine := x1.wpFineAt x1.c, speed := x1.selected,
                     method := x1.method, unc := x1.unc }
  d.setAxis a { x1 with smps := (smp :: x1.smps).take 16, method := x1.nextMethod cfg d.now }

/-- A pending snapshot takes the axis at this sample; GAUGE_SNAP_SEQ increments when the last axis has been taken (R102). -/
def Dev.takeSnap (a : Nat) (d : Dev) : Dev :=
  let x := d.axis a
  if !x.reqSnap then d
  else
    match x.smps with
    | [] => d
    | s :: _ =>
      let d1 := (((d.setAxis a { x with reqSnap := false }).wr64 (R.GAUGE_SNAP_WP a) (wpWord (s.wpFine / 65536))).wr64
        (R.GAUGE_SNAP_TS a) (wpWord s.ts)).wr (R.GAUGE_SNAP_SPEED a) (BitVec.ofInt 32 (s.speed.tdiv 65536))
      if (List.range 4).any (fun k => (d1.axis k).reqSnap) then d1 else d1.count R.GAUGE_SNAP_SEQ whole 1

/-- One sample of an axis in RUN (R76 to R102). -/
def Dev.gaugeSample (a : Nat) (s : EncSample) (d : Dev) : Dev :=
  let x := d.axis a
  if x.state ≠ .run then d
  else
    let adv := x.advance s
    let refNow := s.ref != d.b (R.GAUGE_REF_CFG a) F.GAUGE_REF_CFG_REF_POL
    let d1 := (d.takeCount a s adv).sampleErrs a x s adv
    let d2 := (d1.takeRequests a x adv refNow).modAxis a fun y => { y with refWas := refNow }
    let d3 := (d2.judgeDir a).judgeStill a
    (d3.takeSpeed a).takeSnap a

/-! Axis states (R87, R103, R105). -/

/-- The axis starts RUN: estimators, direction and standstill afresh (R105). -/
def Axis.startRun (x : Axis) (now : Nat) : Axis :=
  { x with state := .run, dirRev := false, far := x.c, still := false, stillC := x.c, runAt := now, method := false,
           hist := [(now, x.c, x.wpFineAt x.c)], passes := [], speedP := 0, speedD := 0, lowRun := 0, lowSeen := false, amps := [],
           ext := none }

/-- The first sample in RUN: a scale application and a re-zero that were held apply (R86, R90), and both estimators report 0. -/
def Dev.firstSample (a : Nat) (d : Dev) : Dev :=
  let d1 := (if (d.axis a).reqScale then d.scaleApply a else d).takeZero a false
  d1.modAxis a fun x => { x with smps := [{ at_ := d.now, ts := d.sampleTs x.digital, wpFine := x.wpFineAt x.c, speed := 0, method := false,
                                            unc := x.unc }] }

/-- The end of SETTLE with the first fresh sample (R87, R103): after EN the wp is zeroed and the scale applied; after the
watch state the count is restored near the held count plus 1,024 per quarter period counted. -/
def Dev.settleEnd (a : Nat) (s : EncSample) (d : Dev) : Dev :=
  let x := d.axis a
  let q := quarterOf s.a s.b
  let ph : Nat := if x.digital then x.ownQuarter q * 1024 else x.phaseOf s
  let refNow := s.ref != d.b (R.GAUGE_REF_CFG a) F.GAUGE_REF_CFG_REF_POL
  let base := { x with phase := ph, quarter := q, refWas := refNow, smps := [] }
  if x.wasWatch then
    let near := x.c + 1024 * (d.rd (R.GAUGE_WATCH_CNT a)).toInt
    let c := near + phaseStep false ((near % 4096).toNat) ph
    let d1 := d.setAxis a ({ base with c := c, wasWatch := false }.startRun d.now)
    (if x.watchErr || !d.b (R.GAUGE_WATCH a) F.GAUGE_WATCH_EN then d1.setUnc a else d1).firstSample a
  else
    let c : Int := ph
    let num := (d.rd (R.GAUGE_SCALE_NUM a)).toNat
    let den := (d.rd (R.GAUGE_SCALE_DEN a)).toNat
    let ok := scaleValid num den
    let zw := d.int64 (R.GAUGE_ZERO_VALUE a)
    let y := { base with c := c, cZero := c, zeroWp := zw, num := if ok then num else 1, den := if ok then den else 1,
                         unc := false, reqScale := false }
    let d1 := d.setAxis a (y.startRun d.now)
    (if ok then d1 else d1.gaugeErr a 0).firstSample a

/-- The corrections a pair of register values loads (R78, R109). -/
def corrOf (ofs gp : Word) : Corr :=
  { sinOfs := (ofs.extractLsb' 0 16).toInt, cosOfs := (ofs.extractLsb' 16 16).toInt,
    gain := (gp.extractLsb' 16 16).toNat, phase := (gp.extractLsb' 0 16).toInt }

/-- The written correction values become the corrections in use (R79). -/
def Dev.corrLoad (a : Nat) (d : Dev) : Dev :=
  d.modAxis a fun x => { x with corr := corrOf (d.rd (R.GAUGE_CORR_OFS a)) (d.rd (R.GAUGE_CORR_GP a)) }

/-- A write of GAUGE_AXIS_CFG(a): a rise of EN samples MODE and DIR and enters SETTLE, a fall enters OFF (R105). -/
def Dev.axisCfgWrite (a : Nat) (v : Word) (d : Dev) : Dev :=
  let was := d.b (R.GAUGE_AXIS_CFG a) F.GAUGE_AXIS_CFG_EN
  let d1 := d.plainWrite (R.GAUGE_AXIS_CFG a) v
  let cfg := d1.rd (R.GAUGE_AXIS_CFG a)
  let en := fld cfg F.GAUGE_AXIS_CFG_EN = 1
  if en ∧ !was then
    let dig := fld cfg F.GAUGE_AXIS_CFG_MODE = 1
    ((d1.setAxis a { (d1.axis a) with state := .settle, digital := dig, rev := fld cfg F.GAUGE_AXIS_CFG_DIR = 1,
                                       wasWatch := false }).corrLoad a).arm (.settle a)
      (d.now + if dig then 1000 else 20000)
  else if ¬ en ∧ was then
    (d1.modAxis a fun x => { Axis.init with corr := x.corr, refDone := x.refDone }).disarm (.settle a)
  else d1

/-- A request of a re-zero (R90): held in SETTLE and WATCH, discarded in OFF. -/
def Dev.zeroRequest (a : Nat) (d : Dev) : Dev :=
  if (d.axis a).state = .off then d else d.modAxis a fun x => { x with reqZero := true }

/-- A request of a scale application at the next sample (R86); an axis that is OFF has no sample and applies the shadow when
it next leaves SETTLE (R87). -/
def Dev.scaleRequest (a : Nat) (d : Dev) : Dev :=
  if (d.axis a).state = .off then d else d.modAxis a fun x => { x with reqScale := true }

/-- A request of a snapshot of every axis in RUN (R102); with no axis in RUN nothing is captured and the count rises. -/
def Dev.snapRequest (d : Dev) : Dev :=
  let run := (List.range 4).filter (fun a => (d.axis a).state = .run)
  if run.isEmpty then d.count R.GAUGE_SNAP_SEQ whole 1
  else run.foldl (fun x a => x.modAxis a fun y => { y with reqSnap := true }) d

/-- The position record of an axis (R81): its latest sample reaches the core. -/
def Dev.positionRecord (a : Nat) (d : Dev) : Dev :=
  let x := d.axis a
  if x.state ≠ .run then d
  else match x.smps with
    | [] => d
    | s :: _ => d.setAxis a { x with posRecs := { s with unc := x.unc } :: x.posRecs }

/-- Entry into the watch state (R103): every enabled axis holds its count and enters WATCH; the converter check stops
(R104). -/
def Dev.gaugeWatchEnter (d : Dev) : Dev :=
  let d1 := (List.range 4).foldl (fun x a =>
    if (x.axis a).state = .off then x
    else ((x.modAxis a fun y => { y with
        state := .watch, watchErr := false, watchPub := false, smps := [], reqSnap := false }).wr
      (R.GAUGE_WATCH_CNT a) 0).disarm (.settle a)) d
  { d1 with gauge := { d1.gauge with checkOn := false } }

/-- Exit from the watch state (R103, R104): every axis in WATCH passes through SETTLE; the check resumes at step 1. -/
def Dev.gaugeWatchExit (d : Dev) : Dev :=
  let d1 := (List.range 4).foldl (fun x a =>
    if (x.axis a).state ≠ .watch then x
    else (x.modAxis a fun y => { y with state := .settle, wasWatch := true, dirRev := false, still := false, method := false,
                                        speedP := 0, speedD := 0 }).arm (.settle a)
      (x.now + if (x.axis a).digital then 1000 else 20000)) d
  { d1 with gauge := { d1.gauge with checkOn := d1.b R.GAUGE_CHECK_CFG F.GAUGE_CHECK_CFG_EN, checkStep := 0 } }

/-- A quarter-period crossing in the watch state (R103): `dir` is 1 forward, -1 backward; `illegal` an illegal transition. -/
def Dev.watchEdge (a : Nat) (forward illegal : Bool) (d : Dev) : Dev :=
  let x := d.axis a
  if x.state ≠ .watch ∨ !d.b (R.GAUGE_WATCH a) F.GAUGE_WATCH_EN then d
  else if illegal then (d.setAxis a { x with watchErr := true }).gaugeErr a 6
  else
    let n := (d.rd (R.GAUGE_WATCH_CNT a)).toInt + (if forward then 1 else -1)
    let d1 := d.wr (R.GAUGE_WATCH_CNT a) (BitVec.ofInt 32 n)
    if !x.watchPub ∧ max 1 (d.f (R.GAUGE_WATCH a) F.GAUGE_WATCH_THRESH) ≤ n.natAbs then
      (d1.setAxis a { x with watchPub := true }).publish (Src.gaugeWatch a) 0
    else d1

/-! The converter check (R104). -/

/-- A write of GAUGE_CHECK_CFG: a rise of EN starts the check at step 1, a fall stops it. -/
def Dev.checkCfgWrite (v : Word) (d : Dev) : Dev :=
  let was := d.b R.GAUGE_CHECK_CFG F.GAUGE_CHECK_CFG_EN
  let d1 := d.plainWrite R.GAUGE_CHECK_CFG v
  let en := d1.b R.GAUGE_CHECK_CFG F.GAUGE_CHECK_CFG_EN
  if en == was then d1
  else { d1 with gauge := { d1.gauge with checkOn := en && d1.pwr.state != .watch, checkStep := 0 } }

/-- A step of the check ends with the deviations it measured, in LSB, at the two ends of the swing. -/
def Dev.checkStepEnd (devLow devHigh : Int) (d : Dev) : Dev :=
  if !d.gauge.checkOn then d
  else
    let k := d.gauge.checkStep
    let lim := d.f R.GAUGE_CHECK_CFG F.GAUGE_CHECK_CFG_DEV_LIMIT
    let d1 := if 2 ≤ k ∧ (lim < devLow.natAbs ∨ lim < devHigh.natAbs) then d.gaugeErr ((k - 2) / 2) 7 else d
    { d1 with gauge := { d1.gauge with checkStep := if k = 9 then 0 else k + 1,
                                       checkCyc := if k = 9 then (d.gauge.checkCyc + 1) % 65536 else d.gauge.checkCyc } }

/-! Automatic correction (R79). -/

/-- One correction moved by an eighth of the difference between estimate and value. -/
def eighth (v e : Int) : Int := v + (e - v).tdiv 8

/-- After 256 complete periods the corrections in use move towards the estimates, or the estimate is out of limits. -/
def Dev.corrEstimate (a : Nat) (d : Dev) : Dev :=
  let x := d.axis a
  match x.ext with
  | none => d
  | some e =>
    if e.periods < 256 ∨ !d.b (R.GAUGE_AXIS_CFG a) F.GAUGE_AXIS_CFG_AUTOCORR ∨ x.state ≠ .run then d
    else
      let est := fun k => Config.corrEstimate e.sinMin e.sinMax e.cosMin e.cosMax k
      let d1 := d.setAxis a { x with ext := none }
      let inLimits := (est 0).natAbs ≤ 1024 ∧ (est 1).natAbs ≤ 1024 ∧ 26215 ≤ est 2 ∧ est 2 ≤ 40960 ∧ (est 3).natAbs ≤ 5719
      if inLimits then
        d1.modAxis a fun y => { y with corr :=
          { sinOfs := eighth x.corr.sinOfs (est 0), cosOfs := eighth x.corr.cosOfs (est 1),
            gain := (eighth x.corr.gain (est 2)).toNat, phase := eighth x.corr.phase (est 3) } }
      else d1.gaugeErr a 8

/-! Live registers. -/

/-- GAUGE_AXIS_STATUS(a) as it reads (R111). -/
def Axis.status (x : Axis) : Word :=
  let code := match x.state with
    | .off => 0
    | .settle => 1
    | .run => 2
    | .watch => 3
  let bit := fun (b : Bool) (k : Nat) => if b then 2 ^ k else 0
  BitVec.ofNat 32 (code * 2 ^ 30 + bit x.unc 29 + bit x.dirRev 28 + bit x.still 27 + bit x.method 26 + bit x.refDone 25
    + (x.c % 4096).toNat)

/-- GAUGE_AMP(a) as it reads (R109): the average over the last 256 samples, 0 in digital mode and outside RUN. -/
def Axis.amp (x : Axis) : Nat :=
  if x.digital ∨ x.state ≠ .run ∨ x.amps = [] then 0 else x.amps.sum / x.amps.length

/-! The commands. -/

def execGaugeSample (a : Fin 4) (smp : EncSample) (s : State) : Host.Outcome State Fault Refusal :=
  s.run fun d => d.gaugeSample a smp

/-- AMP_LOW_DETECT (R93): the 64th consecutive low sample, once per run of low samples; GAUGE_ERR(a) is published once per
detection unless the bit is masked. -/
def execAmpLowDetect (a : Fin 4) (s : State) : Host.Outcome State Fault Refusal :=
  s.run fun d =>
    let x := d.axis a
    if x.state = .run ∧ 64 ≤ x.lowRun ∧ !x.lowSeen then
      let d1 := (d.setAxis a { x with lowSeen := true }).err 4 (R.GAUGE_ERR a) 2
      (if d.b (R.GAUGE_ERR_MASK a) (bitF 2) then d1 else d1.publish (Src.gaugeErr a) 0).setUnc a
    else d

def execCorrEstimate (a : Fin 4) (s : State) : Host.Outcome State Fault Refusal := s.run fun d => d.corrEstimate a

def execCorrLoad (a : Fin 4) (s : State) : Host.Outcome State Fault Refusal := s.run fun d => d.corrLoad a

def execScaleApply (a : Fin 4) (s : State) : Host.Outcome State Fault Refusal := s.run fun d => d.scaleRequest a

def execGaugeAxisZero (a : Fin 4) (s : State) : Host.Outcome State Fault Refusal := s.run fun d => d.zeroRequest a

/-- GAUGE_ZERO(a), the Chain task input (R90). -/
def execGaugeZero (a : Fin 4) (s : State) : Host.Outcome State Fault Refusal :=
  s.run fun d => match d.activate (Task.gaugeZero a) with
    | (some _, d1) => d1.zeroRequest a
    | (none, d1) => d1

def execSnapTake (s : State) : Host.Outcome State Fault Refusal := s.run fun d => d.snapRequest

/-- GAUGE_SNAP, the Chain task input (R102). -/
def execGaugeSnap (s : State) : Host.Outcome State Fault Refusal :=
  s.run fun d => match d.activate Task.gaugeSnap with
    | (some _, d1) => d1.snapRequest
    | (none, d1) => d1

/-- A read of the low word of GAUGE_WP(a) (R102): the high word is latched, and GAUGE_WP_TS(a) takes the ts of the same
sample. -/
def Dev.wpLowRead (a : Nat) (d : Dev) : Dev :=
  let x := d.axis a
  let ts : Int := ((x.smps.head?).map (·.ts)).getD d.ts
  let w := wpWord x.wp
  let l := (d.latch.filter (fun p => p.1 ≠ R.GAUGE_WP a)) ++ [(R.GAUGE_WP a, w.hi)]
  { (d.wr64 (R.GAUGE_WP_TS a) (wpWord ts)) with latch := l, rdata := w.lo }

def execGaugeWpLowRead (a : Fin 4) (s : State) : Host.Outcome State Fault Refusal := s.run fun d => d.wpLowRead a

/-- A write of GAUGE_REF_CFG(a) re-arms ONCE and clears REF_DONE (R114). -/
def Dev.refCfgWrite (a : Nat) (v : Word) (d : Dev) : Dev :=
  (d.plainWrite (R.GAUGE_REF_CFG a) v).modAxis a fun x => { x with refDone := false }

def execRefCfgWrite (a : Fin 4) (v : Word) (s : State) : Host.Outcome State Fault Refusal := s.run fun d => d.refCfgWrite a v

def execPositionRecord (a : Fin 4) (s : State) : Host.Outcome State Fault Refusal := s.run fun d => d.positionRecord a

/-- AXIS_ENABLE (R105): a write of GAUGE_AXIS_CFG(a) in which EN rises. -/
def execAxisEnable (a : Fin 4) (v : Word) (s : State) : Host.Outcome State Fault Refusal := s.run fun d => d.axisCfgWrite a v

/-- AXIS_DISABLE (R105): a write of GAUGE_AXIS_CFG(a) in which EN falls. -/
def execAxisDisable (a : Fin 4) (v : Word) (s : State) : Host.Outcome State Fault Refusal := s.run fun d => d.axisCfgWrite a v

/-- SETTLE_END (R87, R105): 20 us (analogue) or 1 us (digital) after SETTLE began, with the first fresh sample. -/
def execSettleEnd (a : Fin 4) (smp : EncSample) (s : State) : Host.Outcome State Fault Refusal :=
  s.run fun d => if (d.axis a).state = .settle ∧ d.due (.settle a) then (d.settleEnd a smp).disarm (.settle a) else d

def execWatchCountEdge (a : Fin 4) (forward illegal : Bool) (s : State) : Host.Outcome State Fault Refusal :=
  s.run fun d => d.watchEdge a forward illegal

def execConvCheckStep (devLow devHigh : Int) (s : State) : Host.Outcome State Fault Refusal :=
  s.run fun d => d.checkStepEnd devLow devHigh

def execConvCheckCfgWrite (v : Word) (s : State) : Host.Outcome State Fault Refusal := s.run fun d => d.checkCfgWrite v

end Sys2Proof.Machine
end

