-- ==== Sys2Proof/Machine/Trig.lean ====
section
/-! DEFINITION. Position compare and trigger placement (spec/04): compare units, trigger outputs and inputs, trigger packets
and the trigger ledgers. -/

namespace Sys2Proof.Machine

def Dev.unit (u : Nat) (d : Dev) : CmpUnit := d.trig.units.get (fun _ => CmpUnit.init) u

def Dev.setUnit (u : Nat) (x : CmpUnit) (d : Dev) : Dev :=
  { d with trig := { d.trig with units := d.trig.units.set (fun _ => CmpUnit.init) u x } }

def Dev.pin (p : Nat) (d : Dev) : TrigPin := d.trig.pins.get (fun _ => TrigPin.init) p

def Dev.setPin (p : Nat) (x : TrigPin) (d : Dev) : Dev :=
  { d with trig := { d.trig with pins := d.trig.pins.set (fun _ => TrigPin.init) p x } }

def Dev.trigInput (i : Nat) (d : Dev) : TrigInput := d.trig.inputs.get (fun _ => TrigInput.init) i

def Dev.setTrigInput (i : Nat) (x : TrigInput) (d : Dev) : Dev :=
  { d with trig := { d.trig with inputs := d.trig.inputs.set (fun _ => TrigInput.init) i x } }

def Dev.pkt (n : Nat) (d : Dev) : PktGen := d.trig.pkts.get (fun _ => PktGen.init) n

def Dev.setPkt (n : Nat) (x : PktGen) (d : Dev) : Dev :=
  { d with trig := { d.trig with pkts := d.trig.pkts.set (fun _ => PktGen.init) n x } }

def Dev.ledger (c : Nat) (d : Dev) : Ledger := d.trig.ledgers.get (fun _ => Ledger.init) c

def Dev.setLedger (c : Nat) (x : Ledger) (d : Dev) : Dev :=
  { d with trig := { d.trig with ledgers := d.trig.ledgers.set (fun _ => Ledger.init) c x } }

/-- A TRIG_ERR bit is set; TRIG_ERR is published when an unmasked bit rises (R141). -/
def Dev.trigErr (bit : Nat) (d : Dev) : Dev :=
  let rises := d.f R.TRIG_ERR (bitF bit) = 0 ∧ d.f R.TRIG_ERR_MASK (bitF bit) = 0
  let d1 := d.err 5 R.TRIG_ERR bit
  if rises then d1.publish Src.trigErr 0 else d1

/-! Prediction (R120, R133). -/

/-- The time from aperture to compare units: 28 ns in analogue mode (R80); 9 ns in digital mode, the synchroniser and decode
of R84. -/
def Axis.latency (x : Axis) : Nat := if x.digital then 9 else 28

/-- The latest sample of an axis that is available now. -/
def Dev.sampleNow (a : Nat) (d : Dev) : Option Smp :=
  let x := d.axis a
  if x.state ≠ .run then none else x.smps.find? (fun s => s.at_ + x.latency ≤ d.now)

/-- The position a sample predicts for the ts `t`: wp_fine + v × (t − ts) in 1/65,536 nm. -/
def Smp.predict (s : Smp) (t : Int) : Int := s.wpFine + s.speed * (t - s.ts) / 1000

/-- The fine position of an axis at the ts `t`, extrapolated from its samples (R133), with the speed in nm/us and
POS_UNCERTAIN. An axis without samples supplies its held position and speed 0 (DESIGN CHOICE, log entry 22). -/
def Dev.extrapolate (a : Nat) (t : Int) (d : Dev) : Int × Int × Bool :=
  match d.sampleNow a with
  | some s => (s.predict t, s.speed.tdiv 65536, s.unc)
  | none => let x := d.axis a; (x.wpFineAt x.c, 0, x.unc)

/-- TRIG_CMP_LEAD(u), signed ns. -/
def Dev.lead (u : Nat) (d : Dev) : Int := ((d.rd (R.TRIG_CMP_LEAD u)).extractLsb' 0 16).toInt

/-! Targets (R116, R117). -/

/-- The pending target of a unit in 1/65,536 nm, or none when its last target is consumed. -/
def Dev.target (u : Nat) (x : CmpUnit) (d : Dev) : Option Int :=
  let ofs := d.int64 (R.TRIG_CMP_OFS u)
  if x.pitch then
    let count := (d.rd (R.TRIG_CMP_COUNT u x.set)).toNat
    if count ≠ 0 ∧ count ≤ x.n then none
    else some ((d.int64 (R.TRIG_CMP_START u x.set) + ofs) * 65536 + x.n * ((d.rd64 (R.TRIG_CMP_PITCH u x.set)).toNat % 2 ^ 48))
  else
    let len := min 4096 (d.f (R.TRIG_CMP_LIST_CFG u x.set) F.TRIG_CMP_LIST_CFG_LEN)
    if len ≤ x.idx then none
    else
      let entry := (d.trig.lists.get (fun _ => 0) (u * 8192 + x.set * 4096 + x.idx)).toInt
      some ((entry + ofs + x.wrap * d.int64 (R.TRIG_CMP_REPEAT u x.set)) * 65536)

/-- The unit after it has taken its pending target. -/
def Dev.nextTarget (u : Nat) (x : CmpUnit) (d : Dev) : CmpUnit :=
  if x.pitch then { x with n := x.n + 1 }
  else
    let len := min 4096 (d.f (R.TRIG_CMP_LIST_CFG u x.set) F.TRIG_CMP_LIST_CFG_LEN)
    if x.idx + 1 < len then { x with idx := x.idx + 1 }
    else if d.b (R.TRIG_CMP_LIST_CFG u x.set) F.TRIG_CMP_LIST_CFG_WRAP then { x with idx := 0, wrap := x.wrap + 1 }
    else { x with idx := x.idx + 1 }

/-- The index a fire of the pending target carries: list index with w × 4,096 added, or pitch n (R139). -/
def CmpUnit.index (x : CmpUnit) : Nat := (if x.pitch then x.n else x.idx + x.wrap * 4096) % 2 ^ 32

/-! Compare cycles (R119 to R129). -/

/-- Whether a hold cause is present: the axis not in RUN, POS_UNCERTAIN under UNC_HOLD, or the watch state (R119). -/
def Dev.holdCause (u : Nat) (x : CmpUnit) (d : Dev) : Bool :=
  let ax := d.axis x.axis
  ax.state != .run || (ax.unc && d.b (R.TRIG_CMP_CFG u) F.TRIG_CMP_CFG_UNC_HOLD) || d.pwr.state == .watch

/-- The hop count of an event this unit publishes now: the arming activation's plus 1 in the cycle of a Chain arm, else 0
(R141). -/
def Dev.unitHop (x : CmpUnit) (d : Dev) : Nat :=
  match x.armAt with
  | some (t, h) => if t = d.now then h + 1 else 0
  | none => 0

/-- A fire with predicted position `p` (R121). -/
def Dev.fire (u : Nat) (smp : Smp) (p : Int) (late : Bool) (d : Dev) : Dev :=
  let x := d.unit u
  let ts : Int := d.ts + 7 + d.lead u
  let fr : Fire := { at_ := d.now, wp := p / 65536, ts := ts, idx := x.index, set := x.set, late := late, unc := smp.unc,
                     speed := smp.speed.tdiv 65536, axis := x.axis }
  ((((d.setUnit u { d.nextTarget u x with fires := (fr :: x.fires).take 16 }).wr64 (R.TRIG_CMP_LAST_WP u)
    (wpWord fr.wp)).wr64 (R.TRIG_CMP_LAST_TS u) (wpWord ts)).count (R.TRIG_CMP_FIRE_CNT u) whole 1).publish
      (Src.trigCmp u) (d.unitHop x)

/-- A passed target is skipped and counted (R125). -/
def Dev.missTarget (u : Nat) (d : Dev) : Dev :=
  let x := d.unit u
  (((d.setUnit u (d.nextTarget u x)).bump (R.TRIG_CMP_CNT u) F.TRIG_CMP_CNT_MISSED_CNT 1).trigErr 0).publish
    (Src.trigCmpMiss u) (d.unitHop x)

/-- The targets of one compare cycle, with `k` passed targets still allowed: `prev` is the high-water mark of the previous
cycle, `p` the predicted position, `fired` whether the unit has fired in this cycle (R120, R125, R126). -/
def Dev.cycleTargets (u : Nat) (smp : Smp) (prev p : Int) : Nat → Nat → Bool → Dev → Dev
  | 0, _, _, d => d
  | fuel + 1, k, fired, d =>
    match d.target u (d.unit u) with
    | none => d
    | some t =>
      if t ≤ prev then
        if k = 0 then d
        else if !fired && d.b (R.TRIG_CMP_CFG u) F.TRIG_CMP_CFG_FIRE_LATE then
          Dev.cycleTargets u smp prev p fuel (k - 1) true
            (((d.fire u smp p true).bump (R.TRIG_CMP_CNT u) F.TRIG_CMP_CNT_LATE_CNT 1).trigErr 1)
        else Dev.cycleTargets u smp prev p fuel (k - 1) fired (d.missTarget u)
      else if t ≤ p ∧ !fired then Dev.cycleTargets u smp prev p fuel k true (d.fire u smp p false)
      else d

/-- The unit starts a set at its first entry (R119, R406). -/
def CmpUnit.restart (x : CmpUnit) : CmpUnit := { x with idx := 0, n := 0, wrap := 0 }

/-- A set change by the JOB block (R119, R398, R406): the new set from its start, the offset written, the high-water mark
kept; a unit in DONE becomes ARMED. -/
def Dev.setChange (u : Nat) (rel : Bool) (ofs : Int) (d : Dev) : Dev :=
  let x := (d.unit u).restart
  let st := if x.state = .done then .armed else x.state
  ({ d.setUnit u { x with set := d.job.swapSet, state := st } with
      job := { d.job with swaps := d.job.swaps.filter (fun w => w.1 ≠ u) } }).wr64
    (R.TRIG_CMP_OFS u) (wpWord (if rel then d.job.mark + ofs else ofs))

/-- The set change a unit makes in its own first cycle at or above the mark (R406), before it compares. -/
def Dev.unitSwap (u : Nat) (p : Int) (d : Dev) : Dev :=
  match d.job.swaps.find? (fun w => w.1 = u) with
  | some (_, rel, ofs) => if (d.unit u).axis = d.job.axis ∧ d.job.mark * 65536 ≤ p then d.setChange u rel ofs else d
  | none => d

/-- DONE is entered when the last target is consumed (R119). -/
def Dev.doneCheck (u : Nat) (d : Dev) : Dev :=
  let x := d.unit u
  match d.target u x with
  | some _ => d
  | none => (d.setUnit u { x with state := .done }).publish (Src.trigCmpDone u) (d.unitHop x)

/-- One compare cycle of a unit that is ARMED with a sample available. -/
def Dev.compare (u : Nat) (smp : Smp) (d : Dev) : Dev :=
  let p := smp.predict ((d.ts : Int) + 7 + d.lead u)
  let d0 := d.unitSwap u p
  let x := d0.unit u
  let prev := if x.first then (if x.hasHwm then max x.hwm p else p) else x.hwm
  let d1 := d0.cycleTargets u smp prev p 18 16 false
  let y := d1.unit u
  (d1.setUnit u { y with hwm := max prev p, hasHwm := true, first := false }).doneCheck u

/-- CMP_CYCLE (R120, R128): hold causes first, then the compare. -/
def Dev.cmpCycle (u : Nat) (d : Dev) : Dev :=
  let x := d.unit u
  match x.state with
  | .idle => d
  | .done => d
  | _ =>
    if d.holdCause u x then d.setUnit u { x with state := .hold }
    else
      let d1 := if x.state = .hold then d.setUnit u { x with state := .armed, first := true } else d
      match d1.sampleNow x.axis with
      | none => d1
      | some smp => d1.compare u smp

/-- Arming (R119, R145): pointer and w to 0, AXIS and MODE sampled, the high-water mark to start at the first cycle. An arm
in the compare cycle of a stop leaves the unit in IDLE. -/
def Dev.armUnit (u : Nat) (set : Option Nat) (hop : Option Nat) (d : Dev) : Dev :=
  let cfg := d.rd (R.TRIG_CMP_CFG u)
  let x := d.unit u
  if x.stopAt = some d.now then d else
  let y := { x.restart with
    state := .armed, set := set.getD x.set, axis := fld cfg F.TRIG_CMP_CFG_AXIS, pitch := fld cfg F.TRIG_CMP_CFG_MODE = 1,
    hasHwm := false, first := true, armAt := hop.map (fun h => (d.now, h)) }
  d.setUnit u (if d.holdCause u y then { y with state := .hold } else y)

/-- STOP takes the unit to IDLE from any state (R119). -/
def Dev.stopUnit (u : Nat) (d : Dev) : Dev := d.setUnit u { d.unit u with state := .idle, stopAt := some d.now }

/-- A write of TRIG_CMP_CTL(u): STOP wins over ARM in one write (R119: an arm and a stop in one cycle leave IDLE). -/
def Dev.cmpCtlWrite (u : Nat) (v : Word) (d : Dev) : Dev :=
  if fld v F.TRIG_CMP_CTL_STOP = 1 then d.stopUnit u
  else if fld v F.TRIG_CMP_CTL_ARM = 1 then d.armUnit u (some (fld v F.TRIG_CMP_CTL_SET)) none
  else d

/-- The unit state code of TRIG_CMP_STATUS (R119). -/
def UnitState.code : UnitState → Nat
  | .idle => 0
  | .armed => 1
  | .hold => 2
  | .done => 3

/-! Ledgers (R137 to R140). -/

/-- The splice epoch an entry carries (R407): by its placement wp against the mark where its source is on the splice axis,
else by its ts against tS. -/
def Dev.epochFor (axis : Nat) (wp ts : Int) (d : Dev) : Nat :=
  let j := d.job
  if j.armed then (if axis = j.axis ∧ j.mark ≤ wp then nextEpoch j.epoch else j.epoch)
  else if j.switched then
    let isNew := if axis = j.axis then decide (j.mark ≤ wp) else decide (d.int64 R.JOB_SPLICE_TS ≤ ts)
    if isNew then j.epoch else j.prev
  else j.epoch

/-- Writes one entry into a camera's ledger; a full ledger discards its oldest entry (R140). -/
def Dev.ledgerWrite (c : Nat) (e : LedgerEntry) (d : Dev) : Dev :=
  let l := d.ledger c
  let full := 1024 ≤ l.entries.length
  let d1 := if full then (d.bump (R.TRIG_LEDGER_STATUS c) F.TRIG_LEDGER_STATUS_OVF_CNT 1).trigErr 3 else d
  let kept := if full then l.entries.drop 1 else l.entries
  let new := { e with seq := l.seq, lost := l.lost || full }
  d1.setLedger c { entries := kept ++ [new], seq := (l.seq + 1) % 2 ^ 32, lost := false, recent := (new :: l.recent).take 64 }

/-- The cameras whose ledger source is of a kind and index (R137, R149). -/
def Dev.ledgerCams (kind index : Nat) (d : Dev) : List Nat :=
  (List.range 48).filter (fun c =>
    let v := d.rd (R.TRIG_CAM_SRC c)
    fld v F.TRIG_CAM_SRC_KIND == kind && fld v F.TRIG_CAM_SRC_INDEX == index)

/-- The fire an activation carries: the latest fire of its source's unit at or before the publication (R138). -/
def Dev.fireOf (a : Act) (d : Dev) : Option (Nat × Fire) :=
  if 32 ≤ a.src ∧ a.src < 48 then
    ((d.unit (a.src - 32)).fires.find? (fun f => f.at_ ≤ a.at_)).map (fun f => (a.src - 32, f))
  else none

/-- The ledger entry of camera `c` for a delivered trigger at the ts `t` (R137, R138): the placement of the causing fire, or
the position of the camera's axis extrapolated to `t`. -/
def Dev.entryFor (c kind : Nat) (fr : Option (Nat × Fire)) (t : Int) (d : Dev) : LedgerEntry :=
  match fr with
  | some (u, f) =>
    { seq := 0, idx := f.idx, wp := f.wp, ts := f.ts, speed := f.speed, epoch := d.epochFor f.axis f.wp f.ts, axis := f.axis,
      kind := kind, unit := u, unc := f.unc, late := f.late, lost := false, pred := true, set := f.set }
  | none =>
    let a := d.f (R.TRIG_CAM_SRC c) F.TRIG_CAM_SRC_AXIS
    let e := d.extrapolate a t
    { seq := 0, idx := 0xFFFFFFFF, wp := e.1 / 65536, ts := t, speed := e.2.1, epoch := d.epochFor a (e.1 / 65536) t,
      axis := a, kind := kind, unit := 0, unc := e.2.2, late := false, lost := false, pred := false, set := 0 }

/-- The entries of a delivered trigger in every ledger whose source it is. -/
def Dev.ledgerAll (kind index : Nat) (fr : Option (Nat × Fire)) (t : Int) (d : Dev) : Dev :=
  (d.ledgerCams kind index).foldl (fun x c => x.ledgerWrite c (x.entryFor c kind fr t)) d

/-! Trigger outputs (R130 to R132). -/

/-- Whether a bank's supply fits its standard (R130). -/
def Dev.bankMismatch (b : Nat) (d : Dev) : Bool :=
  match d.trig.supply.get (fun _ => BankSupply.absent) b with
  | .absent => true
  | .lvds => d.f R.TRIG_BANK_CFG (bitF b) != 0
  | .v33 => d.f R.TRIG_BANK_CFG (bitF b) != 1

/-- Whether an output is at high impedance (R131). -/
def Dev.outHighZ (p : Nat) (d : Dev) : Bool :=
  !d.b R.TRIG_BANK_CFG F.TRIG_BANK_CFG_OE || !d.b (R.TRIG_OUT_CFG p) F.TRIG_OUT_CFG_EN || d.bankMismatch (p / 8)

/-- Whether the pin is active, from its mode and state (R131); in the watch state outputs are inactive. -/
def Dev.outActive (p : Nat) (d : Dev) : Bool :=
  let x := d.pin p
  if d.pwr.state = .watch then false
  else match d.f (R.TRIG_OUT_CFG p) F.TRIG_OUT_CFG_MODE with
    | 0 => x.pulse
    | 1 => x.toggle
    | 2 => false
    | _ => true

/-- The level of an active or inactive output under its polarity (R147). -/
def Dev.outLevel (p : Nat) (active : Bool) (d : Dev) : Bool :=
  active != d.b (R.TRIG_OUT_CFG p) F.TRIG_OUT_CFG_POL_EDGES

/-- WIDTH with the values below 8 treated as 8 (R147). -/
def width (v : Word) : Nat := max 8 (fld v F.TRIG_OUT_CFG_WIDTH)

/-- An activation of output p (R131, R132): the pin acts 4 ns after the activation; in the watch state it holds its inactive
level. -/
def Dev.trigOutAct (p : Nat) (a : Act) (d : Dev) : Dev :=
  if d.outHighZ p ∨ d.pwr.state = .watch then d
  else
    let cfg := d.rd (R.TRIG_OUT_CFG p)
    let x := d.pin p
    let edge := d.now + 4
    let entry := fun (y : Dev) => y.ledgerAll 1 p (d.fireOf a) ((d.ts : Int) + 4)
    match fld cfg F.TRIG_OUT_CFG_MODE with
    | 0 =>
      if x.pulse ∧ edge < x.endAt then (d.bump (R.TRIG_OUT_CNT p) F.TRIG_OUT_CNT_OVERLAP_CNT 1).trigErr 2
      else entry ((d.setPin p { x with pulse := true, endAt := edge + width cfg }).emit
        (.trigPin p (d.outLevel p true) edge))
    | 1 =>
      let d1 := (d.setPin p { x with toggle := !x.toggle }).emit (.trigPin p (d.outLevel p (!x.toggle)) edge)
      if x.toggle then d1 else entry d1
    | _ => d

/-- The end of a pulse: the pin returns to inactive (R131). -/
def Dev.pulseEnd (p : Nat) (d : Dev) : Dev :=
  let x := d.pin p
  if x.pulse ∧ x.endAt ≤ d.now then
    let d1 := d.setPin p { x with pulse := false }
    if d.outHighZ p then d1 else d1.emit (.trigPin p (d.outLevel p false) d.now)
  else d

/-- A write of TRIG_OUT_CFG(p) (R130, R131): a change of MODE ends a pulse and clears the toggle state; the pin takes the
level that the new configuration gives it. -/
def Dev.trigOutCfgWrite (p : Nat) (v : Word) (d : Dev) : Dev :=
  let old := d.rd (R.TRIG_OUT_CFG p)
  let d1 := d.plainWrite (R.TRIG_OUT_CFG p) v
  let d2 := if fld old F.TRIG_OUT_CFG_MODE = fld (d1.rd (R.TRIG_OUT_CFG p)) F.TRIG_OUT_CFG_MODE then d1
            else d1.setPin p TrigPin.init
  if d2.outHighZ p ∨ d2.rd (R.TRIG_OUT_CFG p) = old then d2
  else d2.emit (.trigPin p (d2.outLevel p (d2.outActive p)) d2.now)

/-- A change of bank state `g`: each rise of a MISMATCH bit sets TRIG_ERR.BANK (R130). -/
def Dev.bankChange (g : Dev → Dev) (d : Dev) : Dev :=
  let d1 := g d
  if (List.range 6).any (fun b => !d.bankMismatch b && d1.bankMismatch b) then d1.trigErr 6 else d1

/-- A bank's supply becomes another (R130). -/
def Dev.supplyChange (b : Nat) (sup : BankSupply) (d : Dev) : Dev :=
  d.bankChange fun x => { x with trig := { x.trig with supply := x.trig.supply.set (fun _ => BankSupply.absent) b sup } }

/-- A write of TRIG_BANK_CFG. -/
def Dev.bankCfgWrite (v : Word) (d : Dev) : Dev := d.bankChange fun x => x.plainWrite R.TRIG_BANK_CFG v

/-! Trigger inputs (R133). -/

/-- A level change at input i: it starts the glitch filter; a return before FILTER has passed is a glitch. -/
def Dev.trigInEdge (i : Nat) (level : Bool) (d : Dev) : Dev :=
  let x := d.trigInput i
  if x.level == level then d
  else if !d.b (R.TRIG_IN_CFG i) F.TRIG_IN_CFG_EN || d.bankMismatch (4 + i / 8) then
    d.setTrigInput i { level := level, accepted := level, since := none }
  else if level == x.accepted then
    (d.setTrigInput i { x with level := level, since := none }).bump (R.TRIG_IN_CNT i) F.TRIG_IN_CNT_GLITCH_CNT 1
  else d.setTrigInput i { x with level := level, since := some (d.now, d.ts) }

/-- Whether an accepted level is an edge of the kind EDGE selects (R148): 0 and 3 active, 1 inactive, 2 both. -/
def edgeWanted (cfg : Word) (level : Bool) : Bool :=
  let active := level != (fld cfg F.TRIG_IN_CFG_POL == 1)
  match fld cfg F.TRIG_IN_CFG_EDGE with
  | 1 => !active
  | 2 => true
  | _ => active

/-- An edge that has held FILTER ns is accepted (R133), unless the input is off or its bank does not fit (R130). -/
def Dev.trigInAccept (i : Nat) (d : Dev) : Dev :=
  let x := d.trigInput i
  let cfg := d.rd (R.TRIG_IN_CFG i)
  match x.since with
  | none => d
  | some (t0, ts0) =>
    if d.now < t0 + fld cfg F.TRIG_IN_CFG_FILTER then d
    else
      let d1 := d.setTrigInput i { x with accepted := x.level, since := none }
      if !edgeWanted cfg x.level ∨ fld cfg F.TRIG_IN_CFG_EN = 0 ∨ d.bankMismatch (4 + i / 8) = true then d1
      else
        let ax := fld cfg F.TRIG_IN_CFG_AXIS
        let e := d.extrapolate ax ts0
        let d2 := (((d1.wr64 (R.TRIG_IN_CAP_WP i) (wpWord (e.1 / 65536))).wr64 (R.TRIG_IN_CAP_TS i)
          (wpWord ts0)).bump (R.TRIG_IN_CNT i) F.TRIG_IN_CNT_EDGE_CNT 1).publish (Src.trigIn i) 0
        (d2.ledgerCams 3 i).foldl (fun y c => y.ledgerWrite c
          { seq := 0, idx := 0xFFFFFFFF, wp := e.1 / 65536, ts := ts0, speed := e.2.1, epoch := d.epochFor ax (e.1 / 65536) ts0,
            axis := ax, kind := 3, unit := 0, unc := e.2.2, late := false, lost := false, pred := false, set := 0 }) d2

/-! Trigger packets (R134 to R136). -/

def Dev.conn (n : Nat) (d : Dev) : Conn := d.cll.conns.get (fun _ => Conn.init) n

def Dev.setConn (n : Nat) (x : Conn) (d : Dev) : Dev :=
  { d with cll := { d.cll with conns := d.cll.conns.set (fun _ => Conn.init) n x } }

/-- Whether a connection's group uses it (R199): its Device Connection ID is below the count. -/
def Conn.used (x : Conn) : Bool := decide (x.devId < x.count)

/-- Whether the uplink of connection n sends trigger packets (R191). -/
def Dev.packetAllowed (n : Nat) (d : Dev) : Bool :=
  let x := d.conn n
  d.pwr.state != .watch && d.pwr.state != .entry && (x.state == .up || x.state == .standby || (x.state == .park && x.used))

/-- A trigger packet that the connection's state does not allow is dropped and counted (R136). -/
def Dev.packetDrop (n : Nat) (d : Dev) : Dev := (d.bump (R.TRIG_PKT_CNT n) F.TRIG_PKT_CNT_DROP_CNT 1).trigErr 4

/-- An activation of TRIG_PKT(n) schedules a rising-edge packet (R134): its placement instant is the fire's, or the instant
the activation arrived (R135). -/
def Dev.trigPktAct (n : Nat) (a : Act) (d : Dev) : Dev :=
  if !d.b (R.TRIG_PKT_CFG n) F.TRIG_PKT_CFG_EN then d
  else if !d.packetAllowed n then d.packetDrop n
  else
    let fr := d.fireOf a
    let place : Int := match fr with
      | some (_, f) => f.ts
      | none => d.ts
    let x := d.pkt n
    d.setPkt n { x with rising := x.rising ++ [{ place := place, fire := fr }] }

/-- The delay field for a span of `ns` nanoseconds, rounded to the nearest unit (R135). -/
def delayField (ns : Int) : Nat := ((ns * 1000 * 2 + Config.trigDelayUnit) / (2 * Config.trigDelayUnit)).toNat

/-- A late packet is counted and sets PKT_LATE (R136). -/
def Dev.packetLate (n : Nat) (d : Dev) : Dev := (d.bump (R.TRIG_PKT_CNT n) F.TRIG_PKT_CNT_LATE_CNT 1).trigErr 5

/-- A rising-edge packet whose reference instant is the ts `ref` starts (R135 to R137): with its delay field, later by whole
characters while the delay does not fit, late with delay 0 where the delay is negative; the ledger entry follows. -/
def Dev.pktStart (n : Nat) (ref : Int) (d : Dev) : Dev :=
  let x := d.pkt n
  match x.rising with
  | [] => d
  | q :: rest =>
    if !d.packetAllowed n then (d.setPkt n { x with rising := rest }).packetDrop n
    else
      let delay := q.place - ref
      if Config.trigDelayMax < delayField delay ∧ 0 ≤ delay then d
      else
        let cfg := d.rd (R.TRIG_PKT_CFG n)
        let fall := if fld cfg F.TRIG_PKT_CFG_POL_EDGES = 1 then [q.place + width cfg] else []
        let d1 := d.setPkt n { rising := rest, falling := x.falling ++ fall }
        if delay < 0 then
          let d2 := (d1.emit (.trigPacket n true 0)).packetLate n
          (d2.ledgerCams 2 n).foldl (fun y c =>
            let e := y.entryFor c 2 q.fire q.place
            let p := y.extrapolate e.axis ref
            y.ledgerWrite c { e with late := true, ts := ref, wp := p.1 / 65536,
                                     epoch := y.epochFor e.axis (p.1 / 65536) ref }) d2
        else (d1.emit (.trigPacket n true (delayField delay))).ledgerAll 2 n q.fire q.place

/-- The falling-edge packet, judged late in the same way (R134, R136). -/
def Dev.pktFall (n : Nat) (ref : Int) (d : Dev) : Dev :=
  let x := d.pkt n
  match x.falling with
  | [] => d
  | place :: rest =>
    if !d.packetAllowed n then (d.setPkt n { x with falling := rest }).packetDrop n
    else
      let delay := place - ref
      if Config.trigDelayMax < delayField delay ∧ 0 ≤ delay then d
      else
        let d1 := d.setPkt n { x with falling := rest }
        if delay < 0 then (d1.emit (.trigPacket n false 0)).packetLate n
        else d1.emit (.trigPacket n false (delayField delay))

/-! The list window (R118). -/

/-- A write of a word of list entry `i`: a low word is held, a high word makes the entry take effect (R13, R118). -/
def Dev.listWrite (i : Nat) (hiWord : Bool) (v : Word) (d : Dev) : Dev :=
  let off := R.TRIG_LIST i
  if !hiWord then d.hold off v
  else
    let key := d.f R.TRIG_LIST_SEL F.TRIG_LIST_SEL_UNIT * 8192 + d.f R.TRIG_LIST_SEL F.TRIG_LIST_SEL_SET * 4096 + i
    let lo := (d.heldLow off).getD (d.trig.lists.get (fun _ => 0) key).lo
    let d1 := d.unhold off
    { d1 with trig := { d1.trig with lists := d1.trig.lists.set (fun _ => 0) key (dword v lo) } }

/-! The commands. -/

def execCmpCycle (u : Fin 16) (s : State) : Host.Outcome State Fault Refusal := s.run fun d => d.cmpCycle u

/-- TRIG_CMP_CTL_ARM (R119): a write of ARM with SET. -/
def execTrigCmpCtlArm (u : Fin 16) (set : Fin 2) (s : State) : Host.Outcome State Fault Refusal :=
  s.run fun d => d.armUnit u (some set) none

def execTrigCmpCtlStop (u : Fin 16) (s : State) : Host.Outcome State Fault Refusal := s.run fun d => d.stopUnit u

/-- TRIG_CMP_ARM(u), the Chain task input (R119): the active set is kept. -/
def execTrigCmpArm (u : Fin 16) (s : State) : Host.Outcome State Fault Refusal :=
  s.run fun d => match d.activate (Task.cmpArm u) with
    | (some a, d1) => d1.armUnit u none (some a.hop)
    | (none, d1) => d1

def execTrigCmpStop (u : Fin 16) (s : State) : Host.Outcome State Fault Refusal :=
  s.run fun d => match d.activate (Task.cmpStop u) with
    | (some _, d1) => d1.stopUnit u
    | (none, d1) => d1

def execTrigListWrite (idx : Fin 4096) (hiWord : Bool) (v : Word) (s : State) : Host.Outcome State Fault Refusal :=
  s.run fun d => d.listWrite idx hiWord v

def execTrigOut (p : Fin 32) (s : State) : Host.Outcome State Fault Refusal :=
  s.run fun d => match d.activate (Task.trigOut p) with
    | (some a, d1) => d1.trigOutAct p a
    | (none, d1) => d1

def execTrigOutPulseEnd (p : Fin 32) (s : State) : Host.Outcome State Fault Refusal := s.run fun d => d.pulseEnd p

def execTrigOutModeWrite (p : Fin 32) (v : Word) (s : State) : Host.Outcome State Fault Refusal :=
  s.run fun d => d.trigOutCfgWrite p v

def execBankSupplyChange (b : Fin 6) (sup : BankSupply) (s : State) : Host.Outcome State Fault Refusal :=
  s.run fun d => d.supplyChange b sup

def execTrigInEdge (k : Fin 16) (level : Bool) (s : State) : Host.Outcome State Fault Refusal :=
  s.run fun d => d.trigInEdge k level

def execTrigInAccept (k : Fin 16) (s : State) : Host.Outcome State Fault Refusal := s.run fun d => d.trigInAccept k

def execTrigPkt (n : Fin 48) (s : State) : Host.Outcome State Fault Refusal :=
  s.run fun d => match d.activate (Task.trigPkt n) with
    | (some a, d1) => d1.trigPktAct n a
    | (none, d1) => d1

/-- TRIG_PKT_START (R135): at a character boundary, with the packet's reference instant as CoaXPress defines it. -/
def execTrigPktStart (n : Fin 48) (ref : Int) (s : State) : Host.Outcome State Fault Refusal :=
  s.run fun d => d.pktStart n ref

def execTrigPktFall (n : Fin 48) (ref : Int) (s : State) : Host.Outcome State Fault Refusal :=
  s.run fun d => d.pktFall n ref

end Sys2Proof.Machine
end

