-- ==== Sys2Proof/Machine/CarSet.lean ====
section
/-! DEFINITION. The parameter sets of the sensor-delay model on the uplink (R302 to R304): the camera's record, its triggers, the
effect of a set, its acknowledgements and its failure. Submission and issue are in Machine/CarModel.lean. -/

namespace Sys2Proof.Machine

def Dev.carCam (c : Nat) (d : Dev) : CarCam := d.car.cams.get (fun _ => CarCam.init) c

def Dev.setCarCam (c : Nat) (x : CarCam) (d : Dev) : Dev :=
  { d with car := { d.car with cams := d.car.cams.set (fun _ => CarCam.init) c x } }

def Dev.modCarCam (c : Nat) (g : CarCam → CarCam) (d : Dev) : Dev := d.setCarCam c (g (d.carCam c))

def Dev.carErr (k bit : Nat) (d : Dev) : Dev := d.err 8 (R.CAR_ERR k) bit

/-- A JOB_ERR bit is set; JOB_ERR is published when an unmasked bit rises (R424). -/
def Dev.jobErr (bit : Nat) (d : Dev) : Dev :=
  let rise := d.f R.JOB_ERR (bitF bit) = 0 ∧ d.f R.JOB_ERR_MASK (bitF bit) = 0
  let d1 := d.err 10 R.JOB_ERR bit
  if rise then d1.publish Src.jobErr 0 else d1

def Dev.modJob (g : JobSt → JobSt) (d : Dev) : Dev := { d with job := g d.job }

/-- A splice set was refused or late (R403). -/
def Dev.camsetLate (cam : Nat) (d : Dev) : Dev :=
  ((d.modJob fun j => { j with lateCams := if j.lateCams.contains cam then j.lateCams else j.lateCams ++ [cam] }).bump R.JOB_CNT1
    F.JOB_CNT1_CAMSET_LATE_CNT 1).jobErr 6

/-- The assembler's record of a camera. -/
def Dev.asmCam (c : Nat) (d : Dev) : AsmCam := d.asm.cams.get (fun _ => AsmCam.init) c

/-- The master connection of a camera: CONN as sampled while the camera is enabled. -/
def Dev.masterConn (cam : Nat) (d : Dev) : Nat :=
  if (d.asmCam cam).on then (d.asmCam cam).conn else d.f (R.ASM_CAM_CFG cam) F.ASM_CAM_CFG_CONN

/-- Whether the trigger_seq `a` is at or before `b` (R20: 32 bits, wrapping). -/
def seqLe (a b : Nat) : Bool := decide ((b + 2 ^ 32 - a % 2 ^ 32) % 2 ^ 32 < 2 ^ 31)

/-- A refused set shows its RESULT. -/
def Dev.setResult (cam result : Nat) (d : Dev) : Dev := d.sf (R.CAR_SET_STATUS cam) F.CAR_SET_STATUS_RESULT result

/-- The triggers of a camera, newest first: trigger_seq, ts, wp and axis. A camera with ledger source NONE uses its frames
(R302). -/
def Dev.triggers (cam : Nat) (d : Dev) : List (Nat × Int × Int × Nat) :=
  let src := d.rd (R.TRIG_CAM_SRC cam)
  if fld src F.TRIG_CAM_SRC_KIND = 0 then
    (d.carCam cam).frames.map (fun f => (f.1, f.2.1, f.2.2, fld src F.TRIG_CAM_SRC_AXIS))
  else (d.ledger cam).recent.map (fun e => (e.seq, e.ts, e.wp, e.axis))

/-- SET_LATE is counted (R301). -/
def Dev.setLate (cam : Nat) (job : Bool) (d : Dev) : Dev :=
  let d1 := (d.bump (R.CAR_MDL_CNT cam) F.CAR_MDL_CNT_LATE_CNT 1).carErr 0 0
  if job then d1.camsetLate cam else d1

/-! Effect and failure (R302 to R304). -/

/-- The trigger_seq at which a write acknowledged now takes effect. Where the camera has had no trigger the spec gives none: a
free value. -/
def Dev.effectSeq (cam : Nat) (q : SetRec) (d : Dev) : Nat × Dev :=
  match (d.triggers cam).find? (fun f => decide (f.2.1 ≤ (d.ts : Int))) with
  | some f =>
    if q.lines ∨ (f.2.1 + q.winLo ≤ d.ts ∧ (d.ts : Int) ≤ f.2.1 + q.winHi) then ((f.1 + q.delay) % 2 ^ 32, d)
    else ((f.1 + q.delay + 1) % 2 ^ 32, d)
  | none => let r := d.fresh 32; (r.1.toNat, r.2)

/-- The CPB recorded for a PSID; a set that names none records the CPB of the set before it (R287). -/
def CarCam.recordCpb (psid da : Nat) (x : CarCam) : CarCam :=
  let prev := match x.cpbs with
    | p :: _ => p.2
    | [] => 0
  { x with cpbs := ((psid, if da = 0 then prev else da) :: x.cpbs).take 16 }

/-- The registers a set writes. -/
def SetRec.writes (q : SetRec) : List (Nat × Nat) :=
  q.cmds.flatMap (fun c => c.2.zipIdx.map (fun p => (c.1 + 4 * p.2, p.1)))

/-- The end of the issuing set of a camera: it takes effect, complete or failed. -/
def Dev.setEnd (cam result : Nat) (d : Dev) : Dev :=
  let x := d.carCam cam
  match x.issuing with
  | none => d
  | some q =>
    let r := d.effectSeq cam q
    let sent := if result = 0 then q.cmds else q.cmds.take x.done
    let e : SetEffect :=
      { eff := r.1, first := x.first.getD r.1, psid := q.psid, failed := result != 0, job := q.job, writes := { q with cmds := sent }.writes, at_ := q.at_ }
    let y := { x with issuing := none, done := 0, first := none, effects := e :: x.effects }
    ((((r.2.setCarCam cam (y.recordCpb q.psid q.cpb)).wr (R.CAR_SET_EFFECT cam) (BitVec.ofNat 32 r.1)).sb
      (R.CAR_SET_STATUS cam) F.CAR_SET_STATUS_ISSUING false).sb (R.CAR_SET_STATUS cam) F.CAR_SET_STATUS_DONE true).setResult cam result

/-- A write of the issuing set has been acknowledged. -/
def Dev.setAck (cam : Nat) (d : Dev) : Dev :=
  let x := d.carCam cam
  match x.issuing with
  | none => d
  | some q =>
    let r := if x.first.isNone then (let e := d.effectSeq cam q; (some e.1, e.2)) else (x.first, d)
    let d1 := r.2.setCarCam cam { x with done := x.done + 1, first := r.1 }
    if q.cmds.length ≤ x.done + 1 then d1.setEnd cam 0 else d1

/-- A write of the issuing set has failed (R304). -/
def Dev.setFail (cam : Nat) (d : Dev) : Dev :=
  if (d.carCam cam).issuing.isNone then d
  else
    let m := d.masterConn cam
    let d1 := d.setConn m { d.conn m with setQ := (d.conn m).setQ.filter (fun q => q.1 ≠ cam) }
    ((d1.setEnd cam 2).bump (R.CAR_MDL_CNT cam) F.CAR_MDL_CNT_FAIL_CNT 1).carErr 0 1

end Sys2Proof.Machine
end

