-- ==== Sys2Proof/Machine/Cll.lean ====
section
/-! DEFINITION. Camera connections (spec/06): receivers, connection states and groups, low-power states, PoCXP, heartbeats and
events, and the panel chain. The control commands are in Machine/Control.lean. -/

namespace Sys2Proof.Machine

def Dev.modConn (n : Nat) (g : Conn → Conn) (d : Dev) : Dev := d.setConn n (g (d.conn n))

/-- A CLL_ERR(n) bit is set (R224). -/
def Dev.cllErr (n bit : Nat) (d : Dev) : Dev := d.err 6 (R.CLL_ERR n) bit

/-- The state codes of R195. -/
def ConnState.code : ConnState → Nat
  | .off => 0
  | .absent => 1
  | .discover => 2
  | .train => 3
  | .up => 4
  | .standby => 5
  | .park => 6

/-- PRESENT (R212): LOS clear, or power on and the current at least 2 × PRES_MA mA. -/
def Dev.present (n : Nat) (d : Dev) : Bool :=
  let x := d.conn n
  (x.state != .off && !x.los) || (x.pwrOn && 2 * d.f (R.CLL_PWR n) F.CLL_PWR_PRES_MA ≤ x.current)

/-- A change `g` of connection n; a change of PRESENT publishes CLL_STATE(n) (R212). -/
def Dev.withPresent (n : Nat) (g : Dev → Dev) (d : Dev) : Dev :=
  let d1 := g d
  if d.present n == d1.present n then d1 else d1.publish (Src.cllState n) 0

/-- The mailbox command of connection n ends with a result (R207). -/
def Dev.mailboxEnd (n result : Nat) (d : Dev) : Dev :=
  let d1 := ((d.sb (R.CLL_CTRL_STATUS n) F.CLL_CTRL_STATUS_BUSY false).sb (R.CLL_CTRL_STATUS n)
    F.CLL_CTRL_STATUS_DONE true).sf (R.CLL_CTRL_STATUS n) F.CLL_CTRL_STATUS_RESULT result
  let d2 := d1.modConn n fun x => { x with mailbox := none, cmd := if x.cmd = some .mailbox then none else x.cmd }
  if result = 0 then d2 else d2.cllErr n 8

/-- Whether a state carries the control mailbox and heartbeats: UP or STANDBY. -/
def ConnState.live (s : ConnState) : Bool := s == .up || s == .standby

/-- The applied equaliser class (R189): classes 6 and 7 are treated as 5. -/
def eqClass (k : Nat) : Nat := min k 5

/-- The fields a connection takes at entry into a state (R189, R191, R198, R205, R223). -/
def Dev.entered (n : Nat) (st : ConnState) (x : Conn) (d : Dev) : Conn :=
  let fresh := { x with
    state := st, relock := false, waking := false, joined := false, devId := 0, master := n, cap := 0, maxRate := 0,
    count := 0, disc := none, cmd := none }
  match st with
  | .off => { fresh with los := true, locked := false, aligned := false, rate := 0 }
  | .absent => fresh
  | .discover =>
    { fresh with locked := false, aligned := false, upRate := d.b (R.CLL_CFG n) F.CLL_CFG_UP_RATE,
                 eq := eqClass (d.f (R.CLL_EQ n) F.CLL_EQ_CLASS) }
  | .train => { x with state := st, locked := false, aligned := false, cmd := none }
  | .up => { x with state := st, relock := false, waking := false }
  | .standby => { x with state := st }
  | .park => { x with state := st, locked := false, aligned := false, relock := false, waking := false }

/-- The timers of connection n at entry into a state. -/
def Dev.enterTimers (n : Nat) (st : ConnState) (d : Dev) : Dev :=
  match st with
  | .discover => ((d.disarm (.loss n)).disarm (.train n)).arm (.discover n) (d.now + 1000000000)
  | .train => (d.disarm (.discover n)).arm (.train n) (d.now + 100000000)
  | .up => ((d.disarm (.loss n)).disarm (.train n)).arm (.hb n) d.now
  | .standby => d
  | _ => (((d.disarm (.loss n)).disarm (.train n)).disarm (.discover n)).disarm (.joinWait n)

/-- A group that leaves UP or STANDBY aborts its mailbox command (R207), and its parameter sets fail (R304). -/
def Dev.leaveLive (n : Nat) (d : Dev) : Dev :=
  let x := d.conn n
  let outstanding := match x.cmd with
    | some (.set cam _ _) => [cam]
    | _ => []
  let d1 := if x.mailbox.isSome then d.mailboxEnd n 6 else d
  (outstanding ++ x.setQ.map (·.1)).foldl (fun y c => y.setFail c) d1

/-- Connection n enters a state (R195): commands outstanding at leaving UP and STANDBY are aborted (R207, R304),
CLL_GROUP(n) is cleared at entry into ABSENT or OFF (R223), and CLL_STATE(n) is published (R212). -/
def Dev.toState (st : ConnState) (n : Nat) (d : Dev) : Dev :=
  let x := d.conn n
  if x.state = st then d
  else
    let d0 := if x.state.live && !st.live then d.leaveLive n else d
    let d1 := if x.state = .standby ∧ st = .up then d0.modConn n fun y => { y with state := .up }
      else (d0.setConn n (d0.entered n st (d0.conn n))).enterTimers n st
    let d2 := if st = .off ∨ st = .absent then d1.wr (R.CLL_GROUP n) 0 else d1
    d2.publish (Src.cllState n) 0

/-- The connections of the group whose master is m. -/
def Dev.members (m : Nat) (d : Dev) : List Nat :=
  (List.range 48).filter (fun k => (d.conn k).joined && (d.conn k).master == m)

/-- The connections the group uses (R199). -/
def Dev.usedMembers (m : Nat) (d : Dev) : List Nat := (d.members m).filter (fun k => (d.conn k).used)

/-- Whether n is its group's master (R203). -/
def Dev.isMaster (n : Nat) (d : Dev) : Bool := (d.conn n).joined && (d.conn n).master == n

/-- Every used connection of the group enters UP together, the unused joined ones PARK (R199, R201). -/
def Dev.groupUp (m : Nat) (d : Dev) : Dev :=
  let used := d.usedMembers m
  let rest := (d.members m).filter (fun k => !(d.conn k).used)
  rest.foldl (fun x k => if (x.conn k).state = .discover then x.toState .park k else x) (used.foldl (fun x k => x.toState .up k) d)

/-- DISC_FAIL is counted on connection n (R200, R201). -/
def Dev.discFail (n : Nat) (d : Dev) : Dev := (d.bump (R.CLL_CNT2 n) F.CLL_CNT2_DISC_FAIL_CNT 1).cllErr n 4

/-- The group fails: all of its connections return to ABSENT with DISC_FAIL counted on each (R201). -/
def Dev.groupFail (m : Nat) (d : Dev) : Dev :=
  (d.members m).foldl (fun x k => (x.discFail k).toState .absent k) d

/-- A loss begins in UP or STANDBY (R186); in PARK a loss of signal is timed (R195). -/
def Dev.lossStart (n : Nat) (d : Dev) : Dev :=
  let x := d.conn n
  let d1 := if x.state.live then d.setConn n { x with relock := true } else d
  match d1.timer (.loss n) with
  | some _ => d1
  | none => d1.arm (.loss n) (d1.now + 1000000)

/-- The packet tag order of the camera that connection n feeds starts afresh after a loss (R245). -/
def Dev.orderRestart (n : Nat) (d : Dev) : Dev :=
  let m := (d.conn n).master
  (List.range 48).foldl (fun x c =>
    let y := x.asm.cams.get (fun _ => AsmCam.init) c
    if y.on ∧ y.conn = m then
      let t := x.asm.cams.set (fun _ => AsmCam.init) c { y with expected := none, waiting := [] }
      { x with asm := { x.asm with cams := t } }
    else x) d

/-- A loss ends within 1 ms (R186). -/
def Dev.lossEnd (n : Nat) (d : Dev) : Dev :=
  let d1 := (d.modConn n fun x => { x with relock := false }).disarm (.loss n)
  if (d.conn n).relock then d1.orderRestart n else d1

/-- LOS rises (R184, R186, R201, R202). -/
def Dev.losAssert (n : Nat) (d : Dev) : Dev :=
  let x := d.conn n
  if x.state = .off ∨ x.los then d
  else
    d.withPresent n fun d =>
      let d1 := d.setConn n { x with los := true, locked := false, aligned := false }
      match x.state with
      | .discover => d1.toState .absent n
      | .train => d1.groupFail x.master
      | .absent => d1
      | .off => d1
      | _ => ((d1.bump (R.CLL_CNT1 n) F.CLL_CNT1_LOS_CNT 1).cllErr n 0).lossStart n

/-- LOS clears (R184). -/
def Dev.losDeassert (n : Nat) (d : Dev) : Dev :=
  let x := d.conn n
  if x.state = .off then d
  else d.withPresent n fun d =>
    let d1 := d.setConn n { x with los := false }
    if x.state = .park ∧ !x.waking then d1.disarm (.loss n) else d1

/-- Loss of lock (R185): counted in UP and STANDBY, where it starts a loss. -/
def Dev.lossOfLock (n : Nat) (d : Dev) : Dev :=
  let x := d.conn n
  if x.state = .off then d
  else
    let d1 := d.setConn n { x with locked := false, aligned := false, lolAt := some d.now }
    if x.state.live then ((d1.bump (R.CLL_CNT1 n) F.CLL_CNT1_LOL_CNT 1).cllErr n 1).lossStart n else d1

/-- Three commas at one position (R183): ALIGNED; discovery goes on, a group whose used connections are all aligned enters UP,
a loss ends. -/
def Dev.alignAcquire (n : Nat) (d : Dev) : Dev :=
  let x := d.conn n
  if !x.locked ∨ x.los ∨ x.state = .off then d
  else
    let d1 := d.setConn n { x with aligned := true }
    let ready := (d1.usedMembers x.master).all (fun k => (d1.conn k).aligned)
    match x.state with
    | .discover => if x.disc.isNone ∧ x.cmd.isNone ∧ !x.joined then d1.modConn n fun y => { y with disc := some .standard } else d1
    | .train => if ready then d1.groupUp x.master else d1
    | .park => if x.waking ∧ ready then (d1.usedMembers x.master).foldl (fun y k => y.toState .up k) d1 else d1
    | .up => d1.lossEnd n
    | .standby => d1.lossEnd n
    | _ => d1

/-- Four commas at another position (R183): ALIGNED is cleared, and the realignment counts as a loss of lock for R186. -/
def Dev.commaRealign (n : Nat) (d : Dev) : Dev :=
  let x := d.conn n
  if !x.aligned then d
  else
    let d1 := ((d.setConn n { x with aligned := false }).bump (R.CLL_CNT2 n) F.CLL_CNT2_ALIGN_LOSS_CNT 1).cllErr n 2
    if x.state.live then d1.lossStart n else d1

/-- Rate detection ends (R182): a supported rate, or none, which is treated as loss of lock. -/
def Dev.rateDetect (n : Nat) (rate : Option Nat) (d : Dev) : Dev :=
  let x := d.conn n
  let detecting := x.state = .discover ∨ x.state = .train ∨ (x.state = .park ∧ x.waking)
  if ¬ detecting ∨ x.los then d
  else match rate with
    | some r => d.setConn n { x with rate := r }
    | none => d.lossOfLock n

/-- The CDR locks on the downlink (R182, R185). -/
def Dev.cdrLock (n : Nat) (d : Dev) : Dev :=
  let x := d.conn n
  if x.state = .off ∨ x.los ∨ (x.state = .park ∧ !x.waking) then d else d.setConn n { x with locked := true }

/-- A loss has lasted 1 ms (R186, R195, R205): ABSENT with LOS, DISCOVER without; every other connection of the group goes to
DISCOVER, except where a parked connection lost its signal. -/
def Dev.lossTimeout (n : Nat) (d : Dev) : Dev :=
  let x := d.conn n
  if !d.due (.loss n) then d
  else
    let d0 := d.disarm (.loss n)
    let parkLos := x.state = .park ∧ !x.waking
    if ¬ (x.state.live ∨ x.state = .park) then d0
    else
      let others := (d0.members x.master).filter (fun k => k ≠ n)
      let d1 := if x.los then d0.toState .absent n else d0.toState .discover n
      if parkLos then d1 else others.foldl (fun y k => y.toState .discover k) d1

/-- A code violation or disparity error (R187). -/
def Dev.rxCodeError (n : Nat) (disparity : Bool) (d : Dev) : Dev :=
  let x := d.conn n
  if x.state = .off ∨ x.state = .park then d
  else (d.bump (R.CLL_CNT0 n) (if disparity then F.CLL_CNT0_DISP_ERR_CNT else F.CLL_CNT0_CODE_ERR_CNT) 1).cllErr n 3

/-- A write of CLL_CFG(n): EN acts at once (R195, R221). -/
def Dev.cllCfgWrite (n : Nat) (v : Word) (d : Dev) : Dev :=
  let was := d.b (R.CLL_CFG n) F.CLL_CFG_EN
  let d1 := d.plainWrite (R.CLL_CFG n) v
  let en := d1.b (R.CLL_CFG n) F.CLL_CFG_EN
  if en && !was then
    let d2 := d1.toState .absent n
    if d2.ts % 250000000 = 0 ∧ !(d2.conn n).los then d2.toState .discover n else d2
  else if !en && was then d1.withPresent n fun y => y.toState .off n
  else d1

/-- A discovery tick (R197): every ABSENT connection whose LOS is clear enters DISCOVER. Ticks are suspended from the entry into the
watch state to the exit (R206). -/
def Dev.discoveryTick (d : Dev) : Dev :=
  if d.ts % 250000000 ≠ 0 ∨ d.pwr.state = .watch ∨ d.pwr.state = .entry then d
  else (List.range 48).foldl (fun x n =>
    if (x.conn n).state = .absent ∧ !(x.conn n).los then x.toState .discover n else x) d

/-- The rate limit of CLL_CFG(n).RATE_MAX, 7 treated as 6 (R221). -/
def Dev.rateMax (n : Nat) (d : Dev) : Nat := min 6 (d.f (R.CLL_CFG n) F.CLL_CFG_RATE_MAX)

/-- The connection count of R199: the largest of 1, 2, 4 and 8 within the camera's maximum for which the connections with
Device Connection IDs 0 to count − 1 have all joined. -/
def Dev.groupCount (m cap : Nat) (d : Dev) : Nat :=
  let ids := (d.members m).map (fun k => (d.conn k).devId)
  let ok := fun c => decide (c ≤ cap) && (List.range c).all (fun i => ids.contains i)
  if ok 8 then 8 else if ok 4 then 4 else if ok 2 then 2 else 1

/-- EXPECT as a number of connections (R221). -/
def expectCount (k : Nat) : Nat := 2 ^ k

/-- The master has waited 1 ms (R199): the count and the rate are set, CLL_GROUP is written on every joined connection, and
the Connection Config write is due. -/
def Dev.joinWaitEnd (m : Nat) (d : Dev) : Dev :=
  let x := d.conn m
  if !d.due (.joinWait m) ∨ x.state ≠ .discover ∨ !d.isMaster m then d
  else
    let c := d.groupCount m x.cap
    let cfg := d.rd (R.CLL_CFG m)
    let degraded := decide (c < x.cap) ||
      (fld cfg F.CLL_CFG_CHK == 1 && c != expectCount (fld cfg F.CLL_CFG_EXPECT))
    let ms := d.members m
    let d1 := ms.foldl (fun y k =>
      let z := y.conn k
      let y1 := (y.setConn k { z with count := c, cap := x.cap }).wr (R.CLL_GROUP k) (BitVec.ofNat 32
        (2 ^ 31 + (if degraded then 2 ^ 30 else 0) + m * 2 ^ 24 + z.devId * 2 ^ 16 + c * 2 ^ 12 + x.cap * 2 ^ 8))
      if degraded then y1.cllErr k 5 else y1) (d.disarm (.joinWait m))
    d1.modConn m fun y => { y with disc := some .cfgWrite, maxRate := min (d.rateMax m) x.maxRate }

/-- A connection that has joined no group within 1 s returns to ABSENT (R200). -/
def Dev.discoverTimeout (n : Nat) (d : Dev) : Dev :=
  let x := d.conn n
  if x.state = .discover ∧ !x.joined ∧ d.due (.discover n) then (d.discFail n).toState .absent n else d

/-- A group not aligned 100 ms after Connection Config fails (R201). -/
def Dev.trainTimeout (n : Nat) (d : Dev) : Dev :=
  let x := d.conn n
  if x.state = .train ∧ d.due (.train n) then d.groupFail x.master else d

/-! Requests of CLL_CTL (R196, R204, R205, R225). -/

/-- A request discarded or refused (R196). -/
def Dev.ctlRefused (n : Nat) (d : Dev) : Dev := d.cllErr n 10

def Dev.standbyReq (n : Nat) (d : Dev) : Dev :=
  if d.isMaster n ∧ (d.conn n).state = .up then
    (d.usedMembers n).foldl (fun x k => if (x.conn k).state = .up then x.toState .standby k else x) d
  else d.ctlRefused n

def Dev.parkReq (n : Nat) (d : Dev) : Dev :=
  if d.isMaster n ∧ (d.conn n).state.live then
    (d.usedMembers n).foldl (fun x k => if (x.conn k).state.live then x.toState .park k else x) d
  else d.ctlRefused n

/-- WAKE (R204, R205): from STANDBY to UP at once; from PARK through rate detection, with 1 ms to align. -/
def Dev.wakeReq (n : Nat) (d : Dev) : Dev :=
  if !d.isMaster n then d.ctlRefused n
  else match (d.conn n).state with
    | .standby => (d.usedMembers n).foldl (fun x k => if (x.conn k).state = .standby then x.toState .up k else x) d
    | .park =>
      (d.usedMembers n).foldl (fun x k =>
        if (x.conn k).state = .park then
          (x.modConn k fun y => { y with waking := true }).arm (.loss k) (x.now + 1000000)
        else x) d
    | _ => d.ctlRefused n

def Dev.retrainReq (n : Nat) (d : Dev) : Dev :=
  let st := (d.conn n).state
  if d.isMaster n ∧ (st.live ∨ st = .park) then (d.members n).foldl (fun x k => x.toState .discover k) d
  else d.ctlRefused n

/-- A write of CLL_CTL(n) (R225): the highest-ranked request acts, and each other is discarded; PWR_RESET acts alongside. -/
def Dev.cllCtlWrite (n : Nat) (v : Word) (d : Dev) : Dev :=
  let asked := [(4, Dev.retrainReq n), (3, Dev.wakeReq n), (2, Dev.parkReq n), (1, Dev.standbyReq n)].filter (fun r => v.toNat.testBit r.1)
  match asked with
  | [] => d
  | r :: rest => if rest.isEmpty then r.2 d else (r.2 d).ctlRefused n

/-- A packet start in STANDBY wakes the connection (R204). -/
def Dev.standbyWake (n : Nat) (d : Dev) : Dev := if (d.conn n).state = .standby then d.toState .up n else d

/-! Power over CoaXPress (R210, R211). -/

/-- CXP_PWR_EN(n) follows CLL_PWR(n).EN once Cast-on has applied the board table, unless a fault holds it low. -/
def Dev.powerUpdate (n : Nat) (d : Dev) : Dev :=
  let x := d.conn n
  let want := d.cll.pwrReady && d.b (R.CLL_PWR n) F.CLL_PWR_EN && !x.fault
  if want == x.pwrOn then d
  else d.withPresent n fun y => (y.setConn n { x with pwrOn := want, overOnce := false }).emit (.cxpPower n want)

/-- A power fault (R210): the output low, the cause recorded, the connection to ABSENT and its group to DISCOVER. -/
def Dev.powerFault (n : Nat) (oc : Bool) (d : Dev) : Dev :=
  let x := d.conn n
  let others := (d.members x.master).filter (fun k => k ≠ n && x.joined)
  let d1 := (d.setConn n { x with fault := true, oc := oc, overOnce := false }).powerUpdate n
  let d2 := ((d1.cllErr n 6).arm (.pwrClear n) (d.now + 10000000000)).arm (.pwrRetry n) (d.now + 1000000000)
  let d3 := if x.state = .off then d2 else d2.toState .absent n
  others.foldl (fun y k => y.toState .discover k) d3

/-- CXP_PWR_FLT_N(n) low for 1 us while CXP_PWR_EN(n) is high. -/
def Dev.faultPin (n : Nat) (d : Dev) : Dev :=
  if (d.conn n).pwrOn then (d.modConn n fun x => { x with fltPin := true }).powerFault n false else d

/-- A retry 1 s after a fault (R211). -/
def Dev.powerRetry (n : Nat) (d : Dev) : Dev :=
  let x := d.conn n
  let cfg := d.rd (R.CLL_PWR n)
  if x.fault ∧ d.due (.pwrRetry n) ∧ fld cfg F.CLL_PWR_AUTO_RETRY = 1 ∧ x.retries < fld cfg F.CLL_PWR_RETRY_MAX then
    ((d.setConn n { x with fault := false, fltPin := false, retries := x.retries + 1 }).disarm (.pwrRetry n)).powerUpdate n
  else d

/-- RETRIES returns to 0 after 10 s without a fault (R211). -/
def Dev.retryReset (n : Nat) (d : Dev) : Dev :=
  if d.due (.pwrClear n) ∧ !(d.conn n).fault then
    (d.modConn n fun x => { x with retries := 0 }).disarm (.pwrClear n)
  else d

/-- FAULT and RETRIES are cleared and EN is applied again (R211). -/
def Dev.powerClear (n : Nat) (d : Dev) : Dev :=
  (((d.modConn n fun x => { x with fault := false, fltPin := false, retries := 0 }).disarm (.pwrRetry n)).disarm
    (.pwrClear n)).powerUpdate n

/-- A write of CLL_PWR(n): EN drives the output; a write of 0 and then 1 clears a fault (R211). -/
def Dev.cllPwrWrite (n : Nat) (v : Word) (d : Dev) : Dev :=
  let was := d.b (R.CLL_PWR n) F.CLL_PWR_EN
  let d1 := d.plainWrite (R.CLL_PWR n) v
  if d1.b (R.CLL_PWR n) F.CLL_PWR_EN && !was then d1.powerClear n else d1.powerUpdate n

/-- A current measurement of connection n (R210, R212): two consecutive ones above OC_LIMIT are a power fault. -/
def Dev.currentMeasured (n mA : Nat) (d : Dev) : Dev :=
  let x := d.conn n
  let high := x.pwrOn && decide (d.f (R.CLL_PWR n) F.CLL_PWR_OC_LIMIT < mA)
  let d1 := d.withPresent n fun y => y.setConn n { x with current := mA, overOnce := high }
  if high && x.overOnce then d1.powerFault n true else d1

/-! Heartbeats and events (R208, R209). -/

/-- A heartbeat packet (R208). -/
def Dev.heartbeat (n : Nat) (crcOk : Bool) (time : DWord) (d : Dev) : Dev :=
  if !crcOk ∨ !(d.conn n).state.live then d
  else ((d.wr64 (R.CLL_HB_TIME n) time).wr64 (R.CLL_HB_TS n) d.tsWord).arm (.hb n) d.now

/-- No heartbeat for HB_TMO ms (R208). -/
def Dev.hbLost (n : Nat) (d : Dev) : Dev :=
  let tmo := d.f (R.CLL_CFG n) F.CLL_CFG_HB_TMO
  match d.timer (.hb n) with
  | some t0 =>
    if tmo ≠ 0 ∧ (d.conn n).state.live ∧ t0 + tmo * 1000000 ≤ d.now then (d.cllErr n 7).arm (.hb n) d.now else d
  | none => d

/-- An event packet (R209): staged in the 2 KiB buffer, counted and published; discarded where it does not fit or fails CRC. -/
def Dev.eventPacket (n : Nat) (crcOk : Bool) (data : List Byte) (d : Dev) : Dev :=
  let x := d.conn n
  if !x.state.live then d
  else if !crcOk then d.bump (R.CLL_CNT3 n) F.CLL_CNT3_EVT_CRC_CNT 1
  else if 2048 < (x.events.map (fun e => e.2.length)).sum + data.length then
    (d.bump (R.CLL_CNT3 n) F.CLL_CNT3_EVT_OVF_CNT 1).cllErr n 9
  else ((d.setConn n { x with events := x.events ++ [(d.ts, data)] }).count (R.CLL_EVT_CNT n) whole 1).publish
    (Src.cllEvent n) 0

/-! The panel chain (R213 to R216). -/

/-- Whether a flashing element is on: slow 1 Hz, fast 12.5 Hz, all in phase (R216). -/
def flash (blink ts : Nat) : Bool :=
  match blink with
  | 1 => ts / 500000000 % 2 == 0
  | 2 => ts / 40000000 % 2 == 0
  | _ => true

/-- Colour (0 off, 1 green, 2 red, 3 orange) and blink (0 solid, 1 slow, 2 fast) of an indicator (R216). -/
def Dev.indicator (n : Nat) (d : Dev) : Nat × Nat :=
  let x := d.conn n
  let ind := d.rd (R.CLL_IND n)
  let lol := match x.lolAt with
    | some t => decide (d.now ≤ t + 1000000000)
    | none => false
  let stream := match x.streamAt with
    | some t => decide (d.now ≤ t + 100000000)
    | none => false
  if fld ind F.CLL_IND_FORCE = 1 then (fld ind F.CLL_IND_COLOUR, fld ind F.CLL_IND_BLINK % 3)
  else if x.fault then (2, 0)
  else if d.b (R.CLL_ERR n) F.CLL_ERR_GROUP || d.b (R.CLL_ERR n) F.CLL_ERR_DISC_FAIL || lol then (2, 1)
  else match x.state with
    | .off => (0, 0)
    | .absent => if x.pwrOn then (3, 1) else (0, 0)
    | .discover => (3, 2)
    | .train => (3, 2)
    | .standby => (1, 1)
    | .park => (1, 1)
    | .up => if stream then (1, 2) else (1, 0)

/-- The two indicator bits of connection n: green, then red (R214). -/
def Dev.indicatorBits (n : Nat) (d : Dev) : Nat :=
  let i := d.indicator n
  if flash i.2 d.ts then (if i.1 = 1 ∨ i.1 = 3 then 1 else 0) + (if i.1 = 2 ∨ i.1 = 3 then 2 else 0) else 0

/-- The debounce of one button (R215): its state changes after BTN_DEB consecutive frames of the other level; a press is
published, and parks the group where BTN_OFF asks. -/
def Dev.buttonFrame (n : Nat) (active : Bool) (d : Dev) : Dev :=
  let off := R.CLL_PNL_BTN + 4 * (n / 32)
  let bit := bitF (n % 32)
  let deb := max 1 (d.f R.CLL_PNL_CFG F.CLL_PNL_CFG_BTN_DEB)
  let x := d.conn n
  if active == d.b off bit then d.setConn n { x with btnRun := 0 }
  else if x.btnRun + 1 < deb then d.setConn n { x with btnRun := x.btnRun + 1 }
  else
    let d1 := (d.setConn n { x with btnRun := 0 }).sb off bit active
    if !active then d1
    else
      let d2 := d1.publish (Src.cllButton n) 0
      if x.joined ∧ d2.b (R.CLL_CFG x.master) F.CLL_CFG_BTN_OFF then d2.parkReq x.master else d2

/-- One panel frame with the levels sampled on PNL_DI (R213 to R215). -/
def Dev.panelFrame (buttons : BitVec 48) (d : Dev) : Dev :=
  if !d.b R.CLL_PNL_CFG F.CLL_PNL_CFG_EN ∨ d.pwr.state = .watch then d
  else
    let pol := d.b R.CLL_PNL_CFG F.CLL_PNL_CFG_BTN_POL
    let bits := ((List.range 48).map (fun n => d.indicatorBits n * 4 ^ n)).sum
    (List.range 48).foldl (fun x n => x.buttonFrame n (buttons.getLsbD n == pol)) (d.emit (.panel bits))

/-- Entry into the watch state (R206). -/
def Dev.cllWatchEnter (d : Dev) : Dev :=
  (List.range 48).foldl (fun x n =>
    match (x.conn n).state with
    | .up => x.toState .park n
    | .standby => x.toState .park n
    | .discover => x.toState .absent n
    | .train => x.toState .absent n
    | _ => x) d

/-- CLL_STATUS(n) as it reads (R222). -/
def Dev.cllStatus (n : Nat) (d : Dev) : Word :=
  let x := d.conn n
  let bit := fun (b : Bool) (k : Nat) => if b then 2 ^ k else 0
  let stream := match x.streamAt with
    | some t => decide (d.now ≤ t + 100000000)
    | none => false
  BitVec.ofNat 32 (x.state.code * 2 ^ 29 + x.rate * 2 ^ 26 + bit x.upRate 25 + bit (d.present n) 24
    + bit (x.los && x.state != .off) 23 + bit x.locked 22 + bit x.aligned 21 + bit x.relock 20 + bit (d.isMaster n) 19
    + bit stream 15)

/-- CLL_PWR_STATUS(n) as it reads (R226). -/
def Dev.cllPwrStatus (n : Nat) (d : Dev) : Word :=
  let x := d.conn n
  let bit := fun (b : Bool) (k : Nat) => if b then 2 ^ k else 0
  BitVec.ofNat 32 (bit x.pwrOn 31 + bit x.fault 30 + bit x.fltPin 29 + bit x.oc 28 + x.retries * 2 ^ 24 + x.current % 65536)

/-! The commands. -/

/-- CLL_ENABLE (R195): a write of CLL_CFG(n) in which EN rises. -/
def execCllEnable (n : Fin 48) (v : Word) (s : State) : Host.Outcome State Fault Refusal := s.run fun d => d.cllCfgWrite n v

/-- CLL_DISABLE (R195): a write of CLL_CFG(n) in which EN falls. -/
def execCllDisable (n : Fin 48) (v : Word) (s : State) : Host.Outcome State Fault Refusal := s.run fun d => d.cllCfgWrite n v

def execDiscoveryTick (s : State) : Host.Outcome State Fault Refusal := s.run fun d => d.discoveryTick

def execRateDetectDone (n : Fin 48) (rate : Option (Fin 7)) (s : State) : Host.Outcome State Fault Refusal :=
  s.run fun d => d.rateDetect n (rate.map (·.val))

def execAlignAcquire (n : Fin 48) (s : State) : Host.Outcome State Fault Refusal := s.run fun d => d.alignAcquire n

def execCommaRealign (n : Fin 48) (s : State) : Host.Outcome State Fault Refusal := s.run fun d => d.commaRealign n

def execLosAssert (n : Fin 48) (s : State) : Host.Outcome State Fault Refusal := s.run fun d => d.losAssert n

def execLosDeassert (n : Fin 48) (s : State) : Host.Outcome State Fault Refusal := s.run fun d => d.losDeassert n

def execLossOfLock (n : Fin 48) (s : State) : Host.Outcome State Fault Refusal := s.run fun d => d.lossOfLock n

def execLossTimeout (n : Fin 48) (s : State) : Host.Outcome State Fault Refusal := s.run fun d => d.lossTimeout n

def execRxCodeError (n : Fin 48) (disparity : Bool) (s : State) : Host.Outcome State Fault Refusal :=
  s.run fun d => d.rxCodeError n disparity

def execGroupJoinWaitEnd (n : Fin 48) (s : State) : Host.Outcome State Fault Refusal := s.run fun d => d.joinWaitEnd n

def execDiscoverTimeout (n : Fin 48) (s : State) : Host.Outcome State Fault Refusal := s.run fun d => d.discoverTimeout n

def execTrainTimeout (n : Fin 48) (s : State) : Host.Outcome State Fault Refusal := s.run fun d => d.trainTimeout n

def execStandby (n : Fin 48) (s : State) : Host.Outcome State Fault Refusal := s.run fun d => d.standbyReq n

def execPark (n : Fin 48) (s : State) : Host.Outcome State Fault Refusal := s.run fun d => d.parkReq n

def execWake (n : Fin 48) (s : State) : Host.Outcome State Fault Refusal := s.run fun d => d.wakeReq n

def execRetrain (n : Fin 48) (s : State) : Host.Outcome State Fault Refusal := s.run fun d => d.retrainReq n

def execPwrReset (n : Fin 48) (s : State) : Host.Outcome State Fault Refusal := s.run fun d => d.powerClear n

def execHeartbeatReceive (n : Fin 48) (crcOk : Bool) (time : DWord) (s : State) : Host.Outcome State Fault Refusal :=
  s.run fun d => d.heartbeat n crcOk time

def execHbLost (n : Fin 48) (s : State) : Host.Outcome State Fault Refusal := s.run fun d => d.hbLost n

def execEventPacketReceive (n : Fin 48) (crcOk : Bool) (data : List Byte) (s : State) : Host.Outcome State Fault Refusal :=
  s.run fun d => d.eventPacket n crcOk data

def execPocxpFaultPin (n : Fin 48) (s : State) : Host.Outcome State Fault Refusal := s.run fun d => d.faultPin n

def execPocxpRetry (n : Fin 48) (s : State) : Host.Outcome State Fault Refusal := s.run fun d => d.powerRetry n

def execPocxpRetryReset (n : Fin 48) (s : State) : Host.Outcome State Fault Refusal := s.run fun d => d.retryReset n

def execPocxpEnWrite (n : Fin 48) (v : Word) (s : State) : Host.Outcome State Fault Refusal := s.run fun d => d.cllPwrWrite n v

def execPanelFrame (buttons : BitVec 48) (s : State) : Host.Outcome State Fault Refusal := s.run fun d => d.panelFrame buttons

def execStandbyPacketWake (n : Fin 48) (s : State) : Host.Outcome State Fault Refusal := s.run fun d => d.standbyWake n

def execCdrLock (n : Fin 48) (s : State) : Host.Outcome State Fault Refusal := s.run fun d => d.cdrLock n

end Sys2Proof.Machine
end

