-- ==== Sys2Proof/Machine/Bytes.lean ====
section
/-! DEFINITION. Byte strings: little-endian fields (R7), CRC-32C (R395, R597, R604) and padding. -/

namespace Sys2Proof.Machine

/-- The bytes of a signed number in two's complement, `n` bytes, lowest first. -/
def leInt (n : Nat) (v : Int) : List Byte := leBytes n (v % (2 : Int) ^ (8 * n)).toNat

/-- `n` zero bytes. -/
def zeros (n : Nat) : List Byte := List.replicate n 0

/-- A byte string padded with zeros to a multiple of `m` bytes. -/
def padTo (m : Nat) (bs : List Byte) : List Byte := bs ++ zeros ((m - bs.length % m) % m)

/-- A number rounded up to a multiple of `m`. -/
def roundUp (m n : Nat) : Nat := (n + m - 1) / m * m

/-- The little-endian number of `n` bytes at an offset; bytes past the end read as 0. -/
def leAt (bs : List Byte) (off n : Nat) : Nat := leNat ((bs.drop off).take n)

/-- The signed little-endian number of `n` bytes at an offset. -/
def leIntAt (bs : List Byte) (off n : Nat) : Int :=
  let v := leAt bs off n
  if v < 2 ^ (8 * n - 1) then v else (v : Int) - 2 ^ (8 * n)

/-- One byte folded into a CRC-32C register (polynomial 0x1EDC6F41, bits reflected). -/
def crcByte (crc : BitVec 32) (b : Byte) : BitVec 32 :=
  (List.range 8).foldl (fun c _ => if c.getLsbD 0 then (c >>> 1) ^^^ 0x82F63B78#32 else c >>> 1) (crc ^^^ b.setWidth 32)

/-- CRC-32C of a byte string (PRESUMED: the Castagnoli CRC with initial value and final complement of all ones). -/
def crc32c (bs : List Byte) : Nat := (~~~ bs.foldl crcByte 0xFFFFFFFF#32).toNat

/-- Whether bit `i` of a number is set. -/
def bitOf (n i : Nat) : Bool := n / 2 ^ i % 2 == 1

/-- The number of a list of bits, each given by its position. -/
def ofBits (l : List (Bool × Nat)) : Nat := (l.map (fun p => if p.1 then 2 ^ p.2 else 0)).sum

end Sys2Proof.Machine
end

