-- ==== Sys2Proof/Machine/Offer.lean ====
section
/-! DEFINITION. What blocks hand to the delivery engine and to the Steward: frame tags as bytes (R260), notices (R528), parcels
(R527), and fault-log events (R606, R607). -/

namespace Sys2Proof.Machine

/-- The 64 bytes of a frame tag (R260). -/
def FrameTag.bytes (t : FrameTag) : List Byte :=
  leBytes 2 1 ++ leBytes 1 t.cam ++ leBytes 1 t.output ++ leBytes 4 t.seq ++ leBytes 4 t.trig ++ leBytes 4 t.job
    ++ leBytes 2 t.epoch ++ leBytes 2 t.psid ++ leBytes 4 t.flags ++ leInt 8 t.wpFirst ++ leInt 8 t.wpLast ++ leInt 8 t.tsFirst
    ++ leBytes 4 t.lines ++ leBytes 4 t.width ++ leBytes 2 t.format ++ leBytes 2 t.crc ++ leBytes 4 t.fid

/-- Whether a flag of R262 is set. -/
def FrameTag.flag (t : FrameTag) (k : Nat) : Bool := bitOf t.flags k

/-- The tag with a flag of R262 set. -/
def FrameTag.setFlag (t : FrameTag) (k : Nat) : FrameTag := if t.flag k then t else { t with flags := t.flags + 2 ^ k }

/-- The axis field of the flags (R262). -/
def FrameTag.axis (t : FrameTag) : Nat := t.flags / 2048 % 4

/-! Parcels. -/

def ParcelKind.code : ParcelKind → Nat
  | .release => 0
  | .raw => 1
  | .output => 2
  | .stats => 3
  | .snag => 4
  | .crop => 5
  | .splice => 6
  | .event => 7
  | .notice => 8

def Dev.ring (r : Nat) (d : Dev) : Ring := d.host.rings.get (fun _ => Ring.init) r

def Dev.setRing (r : Nat) (x : Ring) (d : Dev) : Dev :=
  { d with host := { d.host with rings := d.host.rings.set (fun _ => Ring.init) r x } }

/-- Whether parcels for ring r are discarded instead of waiting (R534). -/
def Dev.ringDiscards (r : Nat) (d : Dev) : Bool :=
  d.b (R.HOST_RING_CFG r) F.HOST_RING_CFG_DISCARD && !d.b (R.HOST_RING_CFG r) F.HOST_RING_CFG_EN

/-- A HOST_ERR bit is set; HOST_ERR is published when an unmasked bit rises (R549). -/
def Dev.hostErr (bit : Nat) (d : Dev) : Dev :=
  let rise := d.f R.HOST_ERR (bitF bit) = 0 ∧ d.f R.HOST_ERR_MASK (bitF bit) = 0
  let d1 := d.err 12 R.HOST_ERR bit
  if rise then d1.publish Src.hostErr 0 else d1

/-- A parcel is handed over, in its place in the order of hand-over (R533). -/
def Dev.offer (p : Parcel) (d : Dev) : Dev :=
  { d with host := { d.host with offers := d.host.offers ++ [{ p with number := d.host.nextNo }], nextNo := d.host.nextNo + 1 } }

/-- A parcel of a record. -/
def recordParcel (kind : ParcelKind) (ring cam seq : Nat) (bytes : List Byte) : Parcel :=
  { kind := kind, ring := ring, cam := cam, seq := seq, bytes := bytes, number := 0, waited := false, carriage := 0, output := 0 }

/-- A notice (R528): kind, camera, frame, job, epoch, fault code and slot, wp range, ts, DA, item number, axis, deferred, PC. -/
structure Notice where
  kind     : Nat
  cam      : Nat
  frame    : Nat
  job      : Nat
  epoch    : Nat
  fault    : Nat
  slot     : Nat
  wpLo     : Int
  wpHi     : Int
  ts       : Int
  da       : Nat
  item     : Nat
  axis     : Nat
  deferred : Bool
  pc       : Nat
deriving DecidableEq, Repr

def Notice.bytes (n : Notice) : List Byte :=
  leBytes 2 1 ++ leBytes 1 n.kind ++ leBytes 1 n.cam ++ leBytes 4 n.frame ++ leBytes 4 n.job ++ leBytes 2 n.epoch
    ++ leBytes 1 n.fault ++ leBytes 1 n.slot ++ leInt 8 n.wpLo ++ leInt 8 n.wpHi ++ leInt 8 n.ts ++ leBytes 8 n.da
    ++ leBytes 4 n.item ++ leBytes 1 n.axis ++ leBytes 1 (if n.deferred then 1 else 0) ++ leBytes 2 n.pc ++ zeros 8

/-- A notice is handed to the delivery engine; with NOTICE_EN clear it is counted as discarded (R553). -/
def Dev.notice (n : Notice) (d : Dev) : Dev :=
  if !d.b R.HOST_DLV_CFG F.HOST_DLV_CFG_NOTICE_EN then d.bump R.HOST_CNT5 F.HOST_CNT5_DISCARD_CNT 1
  else
    let no := d.host.notices
    ({ d with host := { d.host with notices := (no + 1) % 2 ^ 32 } }).offer
      (recordParcel .notice (d.f R.HOST_DLV_CFG F.HOST_DLV_CFG_NOTICE_RING) n.cam no n.bytes)

/-- The notice of a frame overwritten before inspection (R47, R469). -/
def overwrittenNotice (t : FrameTag) : Notice :=
  { kind := 0, cam := t.cam, frame := t.seq, job := t.job, epoch := t.epoch, fault := 0, slot := 0, wpLo := t.wpFirst,
    wpHi := t.wpLast, ts := t.tsFirst, da := 0, item := 0xFFFFFFFF, axis := t.axis, deferred := false, pc := 0 }

/-- The camera's next raw frame delivered carries GAP_BEFORE (R46, R469, R536). -/
def Dev.rawGap (cam : Nat) (d : Dev) : Dev :=
  if d.host.gapNext.contains cam then d else { d with host := { d.host with gapNext := d.host.gapNext ++ [cam] } }

/-! The fault log. -/

/-- An entry of the fault log (R606): a pending entry of the same kind and detail within 1 s is repeated; an entry that finds
the buffer of 256 full is lost (R608). -/
def Dev.logEvent (kind block : Nat) (detail : DWord) (d : Dev) : Dev :=
  let same := fun (e : LogEntry) => e.kind == kind && e.detail == detail && d.ts ≤ e.ts + 1000000000
  if d.stw.log.any same then
    let up := fun (e : LogEntry) => if same e then { e with rep := min (e.rep + 1) 0xFFFF } else e
    { d with stw := { d.stw with log := d.stw.log.map up } }
  else if 256 ≤ d.stw.log.length then
    (d.bump R.STW_LOG_STATUS F.STW_LOG_STATUS_LOST_CNT 1).err 1 R.STW_ERR F.STW_ERR_LOG_LOST.lo
  else
    { d with stw := { d.stw with log := d.stw.log ++ [{ kind := kind, block := block, ts := d.ts, detail := detail, rep := 0 }] } }

end Sys2Proof.Machine
end

