-- ==== Sys2Proof/Machine/Skein.lean ====
section
/-! DEFINITION. Skein (spec/13): address mapping, regions and access, the inline code's outcomes, the history ring and its
index, retro-inspection, refresh, scrub and initialisation. -/

namespace Sys2Proof.Machine

def Dev.modSkein (g : SkeinSt → SkeinSt) (d : Dev) : Dev := { d with skein := g d.skein }

def Dev.modHist (g : HistSt → HistSt) (d : Dev) : Dev := d.modSkein fun x => { x with hist := g x.hist }

def Dev.skeinErr (bit : Nat) (d : Dev) : Dev := d.err 14 R.SKEIN_ERR bit

/-! Mapping (R458). -/

/-- The data block of a Skein DA, and the first DA of a block. -/
def skeinBlock (x : Nat) : Nat := x / 64

/-- The segment of a block in DA order. -/
def blockSegment (n : Nat) : Nat := n / 15

/-- The channel of a block. -/
def blockChannel (n : Nat) : Nat := blockSegment n % 16

/-- The blocks that `n` bytes from `a` touch. -/
def blocksOf (a n : Nat) : List Nat :=
  if n = 0 then [] else (List.range ((a + n - 1) / 64 - a / 64 + 1)).map (· + a / 64)

/-! Regions and access (R462, R463). -/

/-- Whether region r contains a DA. -/
def Dev.inRegion (r x : Nat) (d : Dev) : Bool :=
  let base := (d.rd64 (R.SKEIN_RGN_BASE r)).toNat / 2 ^ 20 * 2 ^ 20
  let size := d.f (R.SKEIN_RGN_SIZE r) ⟨0, 17⟩ * 2 ^ 20
  d.b (R.SKEIN_RGN_ACC r) F.SKEIN_RGN_ACC_EN && decide (base ≤ x) && decide (x < base + size)

/-- The region that governs a DA: the lowest-numbered enabled one that contains it. -/
def Dev.regionOf (x : Nat) (d : Dev) : Option Nat := (List.range 32).find? (fun r => d.inRegion r x)

/-- The class of a master in an access table: the low bit of its pair (R70). -/
def classBit (m : Nat) : Nat :=
  if m = 0 then 0 else if m = 1 then 2 else if m = 2 then 6 else if m = 3 then 14
  else if m < 0x20 then 8 else if m < 0x30 then 10 else if m < 0x40 then 12 else 4

/-- Whether an access word grants a master an access: the upper bit of the pair grants write, the lower read. -/
def pairGrants (m : Nat) (write : Bool) (v : Word) : Bool :=
  m == 2 || bitOf v.toNat (classBit m + (if write then 1 else 0))

/-- Whether region r grants a master an access (R463); a peer's own word of the fabric's tables refines FAB(n). -/
def Dev.regionGrants (r m : Nat) (write : Bool) (d : Dev) : Bool :=
  let unit :=
    if 0x10 ≤ m ∧ m < 0x20 then bitOf (d.rd (R.SKEIN_RGN_UNIT r)).toNat (m - 0x10)
    else if 0x20 ≤ m ∧ m < 0x24 then bitOf (d.rd (R.SKEIN_RGN_ACC r)).toNat (20 + (m - 0x20))
    else if 0x30 ≤ m ∧ m < 0x40 then bitOf (d.rd (R.SKEIN_RGN_UNIT r)).toNat (16 + (m - 0x30))
    else true
  pairGrants m write (d.rd (R.SKEIN_RGN_ACC r)) && unit

/-- Whether a master may access a byte of Skein. An address in no enabled region is open to STEWARD alone. -/
def Dev.mayByte (m : Nat) (write : Bool) (x : Nat) (d : Dev) : Bool :=
  m == 2 || (match d.regionOf x with
    | some r => d.regionGrants r m write
    | none => false)

/-- The points of a footprint at which the governing region can change: its ends and every region boundary inside it. -/
def Dev.checkPoints (a n : Nat) (d : Dev) : List Nat :=
  let cuts := (List.range 32).flatMap (fun r =>
    let base := (d.rd64 (R.SKEIN_RGN_BASE r)).toNat / 2 ^ 20 * 2 ^ 20
    [base, base + d.f (R.SKEIN_RGN_SIZE r) ⟨0, 17⟩ * 2 ^ 20])
  a :: cuts.filter (fun x => decide (a < x) && decide (x < a + n))

/-- Whether a master may access the whole footprint (R463). -/
def Dev.skeinMay (m : Nat) (write : Bool) (a n : Nat) (d : Dev) : Bool :=
  (d.checkPoints a n).all (fun x => d.mayByte m write x)

/-- Whether the footprint lies below SKEIN_CAP (R55). -/
def Dev.skeinExists (a n : Nat) (d : Dev) : Bool := decide (a + n ≤ d.skein.cap)

/-- Whether Skein serves accesses: not during the trip and not in the watch state (R478). -/
def Dev.skeinServes (d : Dev) : Bool := !d.pwr.trip && d.powered

/-! ECC outcomes (R477). -/

/-- The first corrected or uncorrectable block is captured while VALID is 0. -/
def Dev.eccCapture (ue : Bool) (m block : Nat) (d : Dev) : Dev :=
  if d.b R.SKEIN_ECC_INFO F.SKEIN_ECC_INFO_VALID then d
  else (d.wr R.SKEIN_ECC_INFO (BitVec.ofNat 32 (0x80000000 + (if ue then 0x40000000 else 0)
      + blockChannel block * 2 ^ 24 + m % 256))).wr64 R.SKEIN_ECC_ADDR (BitVec.ofNat 64 (block * 64))

/-- A block corrected by the inline code. -/
def Dev.skeinCe (m block : Nat) (d : Dev) : Dev :=
  ((d.bump R.SKEIN_CNT0 F.SKEIN_CNT0_CE_CNT 1).skeinErr 0).eccCapture false m block

/-- An uncorrectable block met. -/
def Dev.skeinUe (m block : Nat) (d : Dev) : Dev :=
  ((d.bump R.SKEIN_CNT0 F.SKEIN_CNT0_UE_CNT 1).skeinErr 2).eccCapture true m block

/-- A block corrected on the link. -/
def Dev.skeinLinkCe (d : Dev) : Dev := (d.bump R.SKEIN_CNT1 F.SKEIN_CNT1_LINK_CE_CNT 1).skeinErr 1

/-- The uncorrectable blocks of a footprint. -/
def Dev.badBlocks (a n : Nat) (d : Dev) : List Nat :=
  d.skein.bad.filter (fun b => decide (a / 64 ≤ b) && decide (b * 64 < a + n))

/-! The array. -/

/-- The check-block cache of a segment's channel holds the segment: the 64 most recently used (R459). -/
def Dev.cacheSegment (s : Nat) (d : Dev) : Dev :=
  let old := d.skein.cached.get (fun _ => []) (s % 16)
  d.modSkein fun x => { x with cached := x.cached.set (fun _ => []) (s % 16) ((s :: old.filter (· ≠ s)).take 64) }

/-- A write of Skein bytes (R459): a whole block is made and repaired without reading; part of an uncorrectable block is
counted and leaves the block uncorrectable. -/
def Dev.skeinWrite (m a : Nat) (bs : List Byte) (d : Dev) : Dev :=
  let n := bs.length
  let wholeBlock := fun (b : Nat) => decide (a ≤ b * 64) && decide (b * 64 + 64 ≤ a + n)
  let partBad := (d.badBlocks a n).filter (fun b => !wholeBlock b)
  let d1 := partBad.foldl (fun y b => y.skeinUe m b) d
  let d2 := d1.modSkein fun x => { x with mem := x.mem.setBytes zeroByte a bs, bad := x.bad.filter (fun b => !wholeBlock b) }
  ((blocksOf a n).map blockSegment).dedup.foldl (fun y s => y.cacheSegment s) d2

/-- The bytes of a footprint. A byte that nothing has written reads as 0 (R460). -/
def Dev.skeinBytes (a n : Nat) (d : Dev) : List Byte := d.skein.mem.bytes zeroByte a n

/-- A read: its bytes, whether a block of it is uncorrectable, and the device with each such block counted. -/
def Dev.skeinRead (m a n : Nat) (d : Dev) : List Byte × Bool × Dev :=
  let bad := d.badBlocks a n
  (d.skeinBytes a n, !bad.isEmpty, bad.foldl (fun y b => y.skeinUe m b) d)

/-! The history ring (R466 to R471). -/

/-- The index flags of a frame. -/
def HistFrame.flagBytes (h : HistFrame) : List Byte :=
  leBytes 4 (ofBits [(h.valid, 0), (h.inspect, 1), (h.deliver, 2), (h.retro, 3)])

/-- The 128 bytes of an index entry. -/
def HistFrame.bytes (h : HistFrame) : List Byte :=
  h.tag.bytes ++ leBytes 8 h.first ++ leBytes 8 h.last ++ h.flagBytes ++ leBytes 1 h.tag.axis ++ zeros 43

/-- The DA of an index entry. -/
def Dev.entryDa (slot : Nat) (d : Dev) : Nat := d.skein.hist.dataEnd + 128 * slot

/-- The index entry of a frame as the index still records it. -/
def Dev.histFrame? (cam frame : Nat) (d : Dev) : Option HistFrame :=
  d.skein.hist.frames.find? (fun h => h.tag.cam == cam && h.tag.seq == frame)

/-- An index entry changes its flags, in the record and in memory. -/
def Dev.setFrame (h : HistFrame) (d : Dev) : Dev :=
  let d1 := d.modHist fun x => { x with frames := x.frames.map (fun y => if y.slot = h.slot then h else y) }
  d1.skeinWrite 2 (d1.entryDa h.slot + 0x50) h.flagBytes

/-- Raw frames waiting for delivery without one that is gone. -/
def Dev.dropRaw (cam frame : Nat) (d : Dev) : Dev :=
  { d with host := { d.host with raw := d.host.raw.filter (fun w => !(w.cam == cam && w.frame == frame)) } }

/-- A frame loses a record or its entry (R469): VALID clears; a pending inspection or delivery is counted and reported. -/
def Dev.spoil (cam frame : Nat) (d : Dev) : Dev :=
  match d.histFrame? cam frame with
  | none => d.modHist fun x => if x.spoiled.contains (cam, frame) then x else { x with spoiled := x.spoiled ++ [(cam, frame)] }
  | some h =>
    if !h.valid then d
    else
      let d1 := d.setFrame { h with valid := false, inspect := false, deliver := false }
      let d2 := if h.inspect then
          ((d1.bump R.SKEIN_CNT2 F.SKEIN_CNT2_HIST_OVW_CNT 1).skeinErr 4).notice (overwrittenNotice h.tag)
        else d1
      if h.deliver then
        (((d2.bump R.SKEIN_CNT2 F.SKEIN_CNT2_HIST_UNDELIV_CNT 1).skeinErr 5).rawGap cam).dropRaw cam frame
      else d2

/-- Whether the assembler writes camera `c` to the ring (R34, R466). -/
def Dev.histTakes (c : Nat) (d : Dev) : Bool :=
  bitOf (d.rd64 R.SKEIN_HIST_CAM).toNat c || d.b (R.STE_CAM_CFG c) F.STE_CAM_CFG_EN

/-- Bits per pixel of a pixel format (R279): the depth for mono and Bayer, three times it for RGB; 8 where the code is none of
the Carriage's. -/
def formatBits (fmt : Nat) : Nat :=
  match fmt with
  | 0x0101 => 8 | 0x0102 => 10 | 0x0103 => 12 | 0x0104 => 14 | 0x0105 => 16
  | 0x0311 => 8 | 0x0312 => 10 | 0x0313 => 12 | 0x0321 => 8 | 0x0322 => 10 | 0x0323 => 12
  | 0x0331 => 8 | 0x0332 => 10 | 0x0333 => 12 | 0x0341 => 8 | 0x0342 => 10 | 0x0343 => 12
  | 0x0401 => 24 | 0x0402 => 30 | 0x0403 => 36
  | _ => 8

/-- The pixels of a line as consecutive bits, lowest first, in whole bytes. -/
def packPixels (bits : Nat) (px : List Nat) : List Byte :=
  let v := px.foldr (fun p acc => p % 2 ^ bits + 2 ^ bits * acc) 0
  leBytes ((px.length * bits + 7) / 8) v

/-- A line record (R467). -/
def lineRecord (l : LineRec) (cut : Bool) : List Byte :=
  let data := packPixels (formatBits l.format) l.px
  padTo 64 (leBytes 1 l.cam ++ leBytes 1 (ofBits [(l.info.filled, 0), (cut, 1)]) ++ zeros 2 ++ leBytes 4 l.frame
    ++ leBytes 4 l.row ++ leBytes 4 data.length ++ leInt 8 l.info.wp ++ leInt 8 l.info.ts ++ data)

/-- HISTORY_LINE_WRITE (R467, R469, R471): `room` says whether the write buffer takes the line. -/
def Dev.histLine (l : LineRec) (cut room : Bool) (d : Dev) : Dev :=
  let h := d.skein.hist
  if !h.on ∨ !d.histTakes l.cam ∨ !d.skeinServes then d
  else
    let d0 := if bitOf (d.rd64 R.SKEIN_HIST_CAM).toNat l.cam then d else d.skeinErr 6
    let bytes := lineRecord l cut
    if !room ∨ h.dataEnd < h.base + bytes.length then
      ((d0.bump R.SKEIN_CNT2 F.SKEIN_CNT2_HIST_DROP_CNT 1).skeinErr 7).spoil l.cam l.frame
    else
      let a := if h.dataEnd < h.next + bytes.length then h.base else h.next
      if !d.skeinExists a bytes.length then (d0.decodeError 2 true a).spoil l.cam l.frame
      else
      let hit := fun (r : HistRec) => decide (r.start < a + bytes.length) && decide (a < r.stop)
      let d1 := (h.recs.filter hit).foldl (fun y r => y.spoil r.cam r.frame) d0
      let new : HistRec :=
        { start := a, stop := a + bytes.length, cam := l.cam, frame := l.frame, row := l.row, ts := l.info.ts, info := l.info }
      (d1.skeinWrite 2 a bytes).modHist fun x =>
        { x with next := a + bytes.length, recs := x.recs.filter (fun r => !hit r) ++ [new] }

/-- The index entry of a frame is written with its tag (R468). A frame of which a line record is already gone is overwritten (R469,
R471). -/
def Dev.histEntry (t : FrameTag) (inspect deliver : Bool) (d : Dev) : Dev :=
  let h := d.skein.hist
  if !h.on ∨ !d.histTakes t.cam ∨ !d.skeinServes then d
  else
    let d1 := match h.frames.find? (fun y => y.slot == h.slot) with
      | some old => d.spoil old.tag.cam old.tag.seq
      | none => d
    let mine := d1.skein.hist.recs.filter (fun r => r.cam == t.cam && r.frame == t.seq)
    let lost := d1.skein.hist.spoiled.contains (t.cam, t.seq)
    let new : HistFrame :=
      { slot := h.slot, tag := t, first := (mine.head?.map (·.start)).getD 0, last := (mine.getLast?.map (·.stop)).getD 0,
        valid := true, inspect := inspect, deliver := deliver, retro := false }
    let d2 := d1.modHist fun x =>
      { x with slot := (h.slot + 1) % max 1 h.slots, frames := x.frames.filter (fun y => y.slot ≠ h.slot) ++ [new],
               spoiled := x.spoiled.filter (fun p => p ≠ (t.cam, t.seq)) }
    let d3 := d2.skeinWrite 2 (d2.entryDa h.slot) new.bytes
    if lost then d3.spoil t.cam t.seq else d3

/-- INSPECT_PENDING of a frame is set or cleared. -/
def Dev.setInspect (cam frame : Nat) (v : Bool) (d : Dev) : Dev :=
  match d.histFrame? cam frame with
  | some h => if h.valid && h.inspect != v then d.setFrame { h with inspect := v } else d
  | none => d

/-- DELIVER_PENDING of a frame is cleared (R527). -/
def Dev.clearDeliver (cam frame : Nat) (d : Dev) : Dev :=
  match d.histFrame? cam frame with
  | some h => if h.deliver then d.setFrame { h with deliver := false } else d
  | none => d

/-- The pixel bytes of a frame's line records, concatenated (R527), or none where the frame is no longer valid (R470). -/
def Dev.framePixels (cam frame : Nat) (d : Dev) : Option (List Byte) :=
  match d.histFrame? cam frame with
  | some h =>
    if !h.valid then none
    else
      let mine := d.skein.hist.recs.filter (fun r => r.cam == cam && r.frame == frame)
      some (mine.flatMap (fun r => d.skeinBytes (r.start + 0x20) (leNat (d.skeinBytes (r.start + 0x0C) 4))))
  | none => none

/-- The records of a frame in the history ring, `n` of them from record `k`. -/
def Dev.frameRecs (cam frame k n : Nat) (d : Dev) : List HistRec :=
  ((d.skein.hist.recs.filter (fun r => r.cam == cam && r.frame == frame)).drop k).take n

/-- A reader takes records of a frame: each uncorrectable block counts, and with one the frame is treated as overwritten (R477). -/
def Dev.readRecs (m cam frame k n : Nat) (d : Dev) : Dev :=
  let bad := (d.frameRecs cam frame k n).flatMap (fun r => d.badBlocks r.start (r.stop - r.start))
  if bad.isEmpty then d else (bad.foldl (fun y b => y.skeinUe m b) d).spoil cam frame

/-- SKEIN_HIST_SPAN (R471): the ts span between the oldest record and the newest. -/
def Dev.histSpan (d : Dev) : Nat :=
  match d.skein.hist.recs.head?, d.skein.hist.recs.getLast? with
  | some a, some b => (b.ts - a.ts).toNat
  | _, _ => 0

/-- A write of SKEIN_HIST_CFG (R465, R466): EN, REGION and INDEX are sampled when EN rises. -/
def Dev.histCfgWrite (v : Word) (d : Dev) : Dev :=
  let was := d.b R.SKEIN_HIST_CFG F.SKEIN_HIST_CFG_EN
  let d1 := d.plainWrite R.SKEIN_HIST_CFG v
  let cfg := d1.rd R.SKEIN_HIST_CFG
  let en := fld cfg F.SKEIN_HIST_CFG_EN == 1
  if en && !was then
    let r := fld cfg F.SKEIN_HIST_CFG_REGION
    let index := max 1 (fld cfg F.SKEIN_HIST_CFG_INDEX) * 2 ^ 20
    let base := (d1.rd64 (R.SKEIN_RGN_BASE r)).toNat / 2 ^ 20 * 2 ^ 20
    let size := d1.f (R.SKEIN_RGN_SIZE r) ⟨0, 17⟩ * 2 ^ 20
    if size < index + 64 * 2 ^ 20 then d1.skeinErr 6
    else d1.modHist fun _ => { HistSt.init with
      on := true, base := base, next := base, dataEnd := base + size - index, slots := index / 128 }
  else if !en && was then d1.modHist fun x => { x with on := false }
  else d1

/-! Retro-inspection (R472). -/

/-- Whether an epoch is LIVE or DRAINING. -/
def Dev.epochLoaded (e : Nat) (d : Dev) : Bool :=
  let j := d.job
  (j.slot e == .live && j.epoch == e) || (j.slot e == .draining && j.prev == e)

/-- A write of SKEIN_RETRO_CTL. -/
def Dev.retroGo (v : Word) (d : Dev) : Dev :=
  let d1 := d.plainWrite R.SKEIN_RETRO_CTL v
  if fld v F.SKEIN_RETRO_CTL_GO = 0 then d1
  else if d1.b R.SKEIN_RETRO_STATUS F.SKEIN_RETRO_STATUS_BUSY then d1.skeinErr 8
  else
    let req : Retro :=
      { cams := (d1.rd64 R.SKEIN_RETRO_CAM).toNat, lo := d1.int64 R.SKEIN_RETRO_WP_LO, hi := d1.int64 R.SKEIN_RETRO_WP_HI,
        axis := d1.f R.SKEIN_RETRO_CTL F.SKEIN_RETRO_CTL_AXIS }
    (d1.sb R.SKEIN_RETRO_STATUS F.SKEIN_RETRO_STATUS_BUSY true).modSkein fun x => { x with retro := some req }

/-- Whether the range of a frame meets the requested one. -/
def Retro.meets (q : Retro) (t : FrameTag) : Bool :=
  bitOf q.cams t.cam && t.axis == q.axis && decide (min t.wpFirst t.wpLast ≤ q.hi) && decide (q.lo ≤ max t.wpFirst t.wpLast)

/-- The frames no longer valid that R472 counts as MISSING for camera c. -/
def Retro.missing (q : Retro) (frames : List HistFrame) (c : Nat) : Nat :=
  let mine := frames.filter (fun h => h.tag.cam == c && h.tag.axis == q.axis)
  let sel := mine.filter (fun h => h.valid && q.meets h.tag)
  let gone := mine.filter (fun h => !h.valid)
  match (sel.map (·.tag.seq)).min?, (sel.map (·.tag.seq)).max? with
  | some lo, some hi =>
    (gone.filter (fun h => (decide (lo ≤ h.tag.seq) && decide (h.tag.seq ≤ hi)) ||
      (decide (h.tag.seq < lo) && decide (q.lo ≤ h.tag.wpLast)))).length
  | _, _ => (gone.filter (fun h => q.meets h.tag)).length

/-- The scan ends: valid frames of an epoch LIVE or DRAINING are queued, others are stale, invalid ones missing. -/
def Dev.retroDone (d : Dev) : Dev :=
  match d.skein.retro with
  | none => d
  | some q =>
    let fs := d.skein.hist.frames
    let sel := fs.filter (fun h => h.valid && q.meets h.tag)
    let live := sel.filter (fun h => d.epochLoaded h.tag.epoch)
    let missing := ((List.range 48).map (fun c => if bitOf q.cams c then q.missing fs c else 0)).sum
    let d1 := live.foldl (fun y h => y.setFrame { h with inspect := true, retro := true }) d
    let stale := sel.length - live.length
    (d1.wr R.SKEIN_RETRO_STATUS (BitVec.ofNat 32 (0x40000000 + min live.length 1023 * 2 ^ 20 + min missing 1023 * 2 ^ 10
      + min stale 1023))).modSkein fun x => { x with retro := none }

/-! Refresh, scrub, initialisation, pressure. -/

/-- What a read of a block meets (R477). -/
def Dev.eccOutcome (o : EccOutcome) (m block : Nat) (d : Dev) : Dev :=
  match o with
  | .clean => d
  | .linkCorrected => d.skeinLinkCe
  | .corrected => d.skeinCe m block
  | .uncorrectable =>
    (d.skeinUe m block).modSkein fun x => { x with bad := if x.bad.contains block then x.bad else x.bad ++ [block] }
  | .checkUncorrectable =>
    let s := blockSegment block
    (List.range 15).foldl (fun y k => (y.skeinUe m (15 * s + k)).modSkein fun x =>
      { x with bad := if x.bad.contains (15 * s + k) then x.bad else x.bad ++ [15 * s + k] }) d

/-- The next scrub read (R475): in DA order; a correctable block is written back; an uncorrectable one is left and logged. -/
def Dev.scrubRead (o : EccOutcome) (d : Dev) : Dev :=
  if !d.b R.SKEIN_SCRUB_CFG F.SKEIN_SCRUB_CFG_EN ∨ !d.skeinServes ∨ d.skein.cap = 0 then d
  else
    let blk := d.skein.scrub
    let total := d.skein.cap / 64
    let seen : EccOutcome := if d.skein.bad.contains blk ∧ o ≠ .checkUncorrectable then .uncorrectable else o
    let d1 := d.eccOutcome seen 2 blk
    let d2 := match seen with
      | .uncorrectable => d1.logEvent 4 14 (BitVec.ofNat 64 (blk * 64))
      | .checkUncorrectable => d1.logEvent 4 14 (BitVec.ofNat 64 (blk * 64))
      | _ => d1
    let next := (blk + 1) % total
    let d3 := d2.modSkein fun x => { x with scrub := next }
    let d4 := if next = 0 then d3.count R.SKEIN_SCRUB_STATUS F.SKEIN_SCRUB_STATUS_PASSES 1 else d3
    d4.sf R.SKEIN_SCRUB_STATUS ⟨0, 10⟩ (next * 1000 / total)

/-- Refusals of ranks 3 to 6 in this 10 us window are counted once and kept for the pressure signal (R42, R474). -/
def Dev.skeinRefusal (d : Dev) : Dev :=
  let w := d.now / 10000
  if d.skein.refused.contains w then d
  else (d.bump R.SKEIN_CNT1 F.SKEIN_CNT1_REFUSE_CNT 1).modSkein fun x => { x with refused := x.refused ++ [w] }

/-! The commands. -/

/-- SKEIN_INIT_DONE (R460): every channel has finished zeroing. -/
def execSkeinInitDone (s : State) : Host.Outcome State Fault Refusal :=
  s.run fun d => if d.skein.cap = 0 ∨ !d.skeinServes then d else d.modSkein fun x => { x with inited := true }

/-- SKEIN_READ_COMPLETE (R477): a read by a master of one block ends with an ECC outcome; `refused` says that its request was
refused at a full rank queue first (R474). -/
def execSkeinReadComplete (m block : Nat) (o : EccOutcome) (refused : Bool) (s : State) : Host.Outcome State Fault Refusal :=
  s.run fun d =>
    if !d.skeinServes ∨ !d.skeinExists (block * 64) 64 then d
    else
      let d1 := if refused then d.skeinRefusal else d
      let seen : EccOutcome := if d1.skein.bad.contains block ∧ o ≠ .checkUncorrectable then .uncorrectable else o
      d1.eccOutcome seen m block

/-- SKEIN_REFRESH (R456, R474): refresh and the retraining inside it change nothing that a master sees. -/
def execSkeinRefresh (ch : Fin 16) (s : State) : Host.Outcome State Fault Refusal :=
  s.run fun d => d.modSkein fun x => { x with refreshed := x.refreshed.set (fun _ => 0) ch d.now }

/-- SKEIN_FLUSH (R459): every cached check block is written back. -/
def execSkeinFlush (s : State) : Host.Outcome State Fault Refusal :=
  s.run fun d => d.modSkein fun x => { x with cached := [] }

def execScrubRead (o : EccOutcome) (s : State) : Host.Outcome State Fault Refusal := s.run fun d => d.scrubRead o

/-- HIST_ENABLE (R466): a write of SKEIN_HIST_CFG. -/
def execHistEnable (v : Word) (s : State) : Host.Outcome State Fault Refusal := s.run fun d => d.histCfgWrite v

def execRetroGo (v : Word) (s : State) : Host.Outcome State Fault Refusal := s.run fun d => d.retroGo v

def execRetroScanDone (s : State) : Host.Outcome State Fault Refusal := s.run fun d => d.retroDone

end Sys2Proof.Machine
end

