-- ==== Sys2Proof/Machine/Host.lean ====
section
/-! DEFINITION. Delivery (spec/15): outbound requests, tags and their timeouts, address translation, the delivery rings, parcels,
pieces and completions, staging, and the rings' interrupts. -/

namespace Sys2Proof.Machine

def Dev.modHost (g : HostSt → HostSt) (d : Dev) : Dev := { d with host := g d.host }

def Dev.modRing (r : Nat) (g : Ring → Ring) (d : Dev) : Dev := d.setRing r (g (d.ring r))

/-- Whether outbound requests can be made (R520); none is made in the watch state. -/
def Dev.canRequest (d : Dev) : Bool := d.host.l0 && d.host.d0 && d.host.bme && d.powered

/-- Whether delivery proceeds: requests can be made and no Bind-off holds it (R63, R542, R548). -/
def Dev.delivers (d : Dev) : Bool := d.canRequest && d.pwr.state == .active && d.glb.bindoff == .none

/-- HOST_DLV_STATUS.HOLD (R542): the link not in L0 or the function not in D0; the watch state holds too (R548). -/
def Dev.deliveryHolds (d : Dev) : Bool := !(d.host.l0 && d.host.d0) || d.pwr.state != .active || d.glb.bindoff != .none

/-! Outbound requests (R520 to R524). -/

/-- The tags in use or quarantined. -/
def Dev.tagBusy (d : Dev) (t : Nat) : Bool := d.host.reqs.any (fun q => q.tag == t) || d.host.quar.any (fun q => q.1 == t)

/-- The tag the next request takes: the lowest free one (DESIGN CHOICE: the spec does not order tags). -/
def Dev.freeTag (d : Dev) : Option Nat := (List.range (if d.host.cfg.tag10 then 768 else 256)).find? (fun t => !d.tagBusy t)

/-- A read request is sent with a free tag, if there is one. -/
def Dev.requestRead (kind : ReqKind) (iova target len : Nat) (d : Dev) : Dev :=
  match d.freeTag with
  | none => d
  | some t =>
    (d.modHost fun x => { x with reqs := x.reqs ++ [{ tag := t, kind := kind, addr := iova, len := len, sent := d.now }] }).emit
      (.hostRead t target len)

/-- The completion timeout T in nanoseconds (R521), by the sub-range code of Device Control 2 (PRESUMED: the codes of PCI
Express). -/
def ctoNs (code : Nat) : Nat :=
  match code with
  | 1 => 100000
  | 2 => 10000000
  | 5 => 55000000
  | 6 => 210000000
  | 9 => 900000000
  | 10 => 3500000000
  | 13 => 13000000000
  | 14 => 64000000000
  | _ => 50000000

/-- An error message of a severity, where Device Control allows it (R541). -/
def Dev.errorMessage (severity : Nat) (d : Dev) : Dev :=
  let c := d.host.cfg
  let on := if severity = 0 then c.errCor else if severity = 1 then c.errNon else c.errFat
  if on && d.host.dlUp then d.emit (.errMessage severity) else d

/-! Address translation (R525, R526). -/

/-- The cache entry that serves an access. -/
def Dev.atsFind (iova : Nat) (write : Bool) (d : Dev) : Option AtsEntry :=
  d.host.ats.find? (fun e => decide (e.base ≤ iova) && decide (iova < e.base + e.size) && (if write then e.write else e.read))

/-- The address an access goes to: the IOVA itself while ATS is disabled, the cache's translation otherwise. -/
def Dev.xlate (iova : Nat) (write : Bool) (d : Dev) : Option Nat :=
  if !d.host.cfg.atsEn then some iova
  else (d.atsFind iova write).map (fun e => e.target + (iova - e.base))

/-- The pieces of a write: none longer than the Max Payload Size, none across a 4 KiB boundary (R520). -/
def tlpChunks (mps : Nat) : Nat → Nat → List Byte → List (Nat × List Byte)
  | 0, _, _ => []
  | fuel + 1, a, bs =>
    if bs.isEmpty then []
    else
      let n := max 1 (min mps (4096 - a % 4096))
      (a, bs.take n) :: tlpChunks mps fuel (a + n) (bs.drop n)

/-- A write to host memory in TLPs, each translated as it is formed; none where some translation is missing. -/
def Dev.hostWrite (iova : Nat) (relaxed : Bool) (bs : List Byte) (d : Dev) : Option Dev :=
  let cs := tlpChunks d.host.cfg.mps bs.length iova bs
  let ts := cs.map (fun c => (d.xlate c.1 true).map (fun a => (a, c.2)))
  if ts.all Option.isSome then
    some (ts.foldl (fun y t => match t with
      | some (a, b) => y.emit (.hostWrite a (relaxed && y.host.cfg.relax) b)
      | none => y) d)
  else none

/-- The first IOVA of a footprint whose translation is missing. -/
def Dev.xlateMissing (iova n : Nat) (write : Bool) (d : Dev) : Option Nat :=
  ((List.range (n / 4096 + 2)).map (fun k => if k = 0 then iova else (iova / 4096 + k) * 4096)).find? (fun a =>
    decide (a < iova + max n 1) && (d.xlate a write).isNone)

/-- A Translation Request for the Smallest Translation Unit that covers an access (R525). -/
def Dev.xlateRequest (iova : Nat) (write : Bool) (user : AtsUser) (d : Dev) : Dev :=
  let unit := 2 ^ (12 + d.host.cfg.stu)
  let waits := d.host.reqs.any (fun q => match q.kind with
    | .xlate a _ _ => a / unit == iova / unit
    | _ => false)
  if !d.host.cfg.atsEn ∨ !d.canRequest ∨ (d.xlate iova write).isSome ∨ waits then d
  else match d.freeTag with
    | none => d
    | some t =>
      let q : OutReq := { tag := t, kind := .xlate iova write user, addr := iova, len := 0, sent := d.now }
      (d.modHost fun x => { x with reqs := x.reqs ++ [q] }).emit (.xlateRequest t (iova / unit * unit))

/-- A translation enters the cache of 2,048, least recently used last (the set index is not stated: DESIGN CHOICE, one set). -/
def Dev.atsInsert (e : AtsEntry) (d : Dev) : Dev :=
  d.modHost fun x => { x with ats := (e :: x.ats.filter (fun y => y.base ≠ e.base)).take 2048 }

/-- An Invalidate Request (R526): matching entries become invalid; up to 32 invalidations are held. -/
def Dev.invalidate (itag base size : Nat) (d : Dev) : Dev :=
  if 32 ≤ d.host.invals.length then d
  else
    let hit := fun (a n : Nat) => decide (a < base + size) && decide (base < a + n)
    let users := (d.host.reqs.filter (fun q => (match q.kind with
      | .xlate .. => false
      | _ => true) && hit q.addr (max q.len 1))).map (·.tag)
    (d.bump R.HOST_CNT4 F.HOST_CNT4_INVAL_CNT 1).modHost fun x =>
      { x with ats := x.ats.filter (fun e => !hit e.base e.size), invals := x.invals ++ [(itag, users)] }

/-- The Invalidate Completion is sent when every request that used a matching entry is done. -/
def Dev.invalidateDone (itag : Nat) (d : Dev) : Dev :=
  match d.host.invals.find? (fun p => p.1 == itag) with
  | none => d
  | some p =>
    if p.2.any (fun t => d.host.reqs.any (fun q => q.tag == t)) then d
    else (d.modHost fun x => { x with invals := x.invals.filter (fun q => q.1 ≠ itag) }).emit (.invalidateDone itag)

/-! Completions and interrupts of a ring (R532, R538). -/

/-- The ring's vector is sent, and every completion written so far is signalled. -/
def Dev.ringSignal (r : Nat) (d : Dev) : Dev :=
  (d.modRing r fun x => { x with unsig := 0, oldest := none }).message (1 + r)

/-- RING_IRQ_SIGNAL (R538): the number of unsignalled completions reaches COUNT. -/
def Dev.ringCounted (r : Nat) (d : Dev) : Dev :=
  let irq := d.rd (R.HOST_RING_IRQ r)
  if fld irq F.HOST_RING_IRQ_EN = 1 ∧ max 1 (fld irq F.HOST_RING_IRQ_COUNT) ≤ (d.ring r).unsig then d.ringSignal r else d

/-- The free completion slots of ring r (R532). -/
def Dev.cqFree (r : Nat) (d : Dev) : Nat :=
  2 ^ (d.ring r).clog - (d.rd (R.HOST_RING_CSEQ r) - d.rd (R.HOST_RING_CHEAD r)).toNat

def Cqe.bytes (c : Cqe) (cseq : Nat) : List Byte :=
  leBytes 8 c.cookie ++ leBytes 4 c.offset ++ leBytes 4 c.len ++ leBytes 1 c.kind ++ leBytes 1 c.cam ++ leBytes 1 c.status
    ++ leBytes 1 (ofBits [(c.done, 0), (c.first, 1), (c.last, 2)]) ++ leBytes 4 c.seq ++ leBytes 4 cseq ++ leBytes 2 c.idx
    ++ leBytes 2 c.no

/-- A completion is written at slot CSEQ mod 2^CLOG in one TLP; none where its translation is missing. -/
def Dev.complete (r : Nat) (c : Cqe) (d : Dev) : Option Dev :=
  let x := d.ring r
  let cseq := (d.rd (R.HOST_RING_CSEQ r)).toNat
  (d.hostWrite (x.cbase + 32 * (cseq % 2 ^ x.clog)) false (c.bytes cseq)).map (fun d1 =>
    ((d1.count (R.HOST_RING_CSEQ r) whole 1).modRing r fun y =>
      { y with unsig := y.unsig + 1, oldest := some (y.oldest.getD d.now) }).ringCounted r)

/-- The completion of a buffer returned unused or given back (R530, R531, R536). -/
def returnCqe (q : Desc) (status : Nat) : Cqe :=
  { cookie := q.cookie, offset := 0, len := 0, kind := 0, cam := 0xFF, status := status, done := true, first := false,
    last := false, seq := 0, idx := q.idx, no := 0 }

/-- Completions that wait are written, in order, while completion slots are free. -/
def Dev.flushReturns (r : Nat) (d : Dev) : Dev :=
  (d.ring r).returns.foldl (fun y p =>
    if y.cqFree r = 0 ∨ !y.canRequest then y
    else match y.complete r p with
      | some z => z.modRing r fun x => { x with returns := x.returns.drop 1 }
      | none => y) d

/-- A revoke in progress ends when every posted descriptor has been returned (R536, R537). -/
def Dev.revokeEnd (r : Nat) (d : Dev) : Dev :=
  let x := d.ring r
  if x.state = .revoking ∧ x.returns.isEmpty ∧ x.fetched = (d.rd (R.HOST_RING_DTAIL r)).toNat ∧ x.fetching = 0 then
    d.setRing r { x with state := if d.b (R.HOST_RING_CFG r) F.HOST_RING_CFG_EN then .run else .off }
  else d

/-- A ring enters ERROR (R537): cause 1 a descriptor fetch, 2 a parcel write, 3 a completion write. -/
def Dev.ringError (r cause : Nat) (d : Dev) : Dev :=
  let x := d.ring r
  if x.state = .off then d else (d.setRing r { x with state := .error, errCode := cause }).hostErr 5

/-! Descriptors (R529, R530). -/

/-- DESC_FETCH: up to 8 descriptors in one read, not across the ring's end. -/
def Dev.descFetch (r : Nat) (d : Dev) : Dev :=
  let x := d.ring r
  let posted := (BitVec.ofNat 32 (d.rd (R.HOST_RING_DTAIL r)).toNat - BitVec.ofNat 32 x.fetched).toNat
  let wants := (x.state = .run ∧ x.unbegun.length < 2) ∨ x.state = .revoking
  if ¬ wants ∨ !d.delivers ∨ x.fetching ≠ 0 ∨ posted = 0 then d
  else
    let i := x.fetched % 2 ^ x.dlog
    let n := min (min 8 posted) (2 ^ x.dlog - i)
    let a := x.dbase + 32 * i
    match d.xlate a false, d.freeTag with
    | some t, some _ => (d.setRing r { x with fetching := n }).requestRead (.desc r n) a t (32 * n)
    | _, _ => d

/-- The descriptor at an offset of fetched data. -/
def descAt (bs : List Byte) (k idx : Nat) : Desc :=
  { addr := leAt bs (32 * k) 8, len := leAt bs (32 * k + 8) 4, cookie := leAt bs (32 * k + 16) 8, idx := idx }

/-- Whether a descriptor can be used (R530). -/
def Desc.good (q : Desc) : Bool :=
  q.addr % 64 == 0 && decide (q.addr < 2 ^ 63) && q.len != 0 && q.len % 64 == 0

/-- A fetched descriptor is kept, or returned with BAD_DESC, or revoked. -/
def Dev.takeDesc (r : Nat) (q : Desc) (d : Dev) : Dev :=
  let x := d.ring r
  if !q.good then
    (((d.setRing r { x with returns := x.returns ++ [returnCqe q 3] }).count (R.HOST_RING_DHEAD r) whole 1).bump R.HOST_CNT5
      F.HOST_CNT5_BAD_DESC_CNT 1).hostErr 6
  else if x.state = .revoking then
    (d.setRing r { x with returns := x.returns ++ [returnCqe q 1] }).count (R.HOST_RING_DHEAD r) whole 1
  else d.setRing r { x with unbegun := x.unbegun ++ [q] }

/-- The data of `n` fetched descriptors arrives (R530). -/
def Dev.descData (r n : Nat) (bs : List Byte) (d : Dev) : Dev :=
  let x := d.ring r
  let d1 := d.setRing r { x with fetching := 0, fetched := (x.fetched + n) % 2 ^ 32 }
  if x.state = .off ∨ x.state = .error then d1
  else ((((List.range n).foldl (fun y k => y.takeDesc r (descAt bs k ((x.fetched + k) % 2 ^ 32))) d1).flushReturns r).revokeEnd r)

/-! Parcels (R531 to R536). -/

/-- The bytes of staged, undelivered data in the SRAM: staged parcels and those being written (R535). -/
def Dev.stagedBytes (d : Dev) : Nat :=
  (d.host.staged.map (·.bytes.length)).sum + ((List.range 64).map (fun r =>
    let x := d.ring r
    (match x.piece with
      | some p => if p.parcel.kind = .raw then 0 else p.parcel.bytes.length
      | none => 0) +
    (match x.rest with
      | some (p, _, _) => if p.kind = .raw then 0 else p.bytes.length
      | none => 0))).sum

/-- Staged, undelivered data for the delivery-backlog signal (R535). -/
def Dev.backlogBytes (d : Dev) : Nat := d.stagedBytes + (d.host.raw.map (·.size)).sum

/-- The staging capacity of R535, in bytes. -/
def Dev.backlogCap (d : Dev) : Nat := 4 * 2 ^ 20 + d.f R.HOST_DLV_CFG F.HOST_DLV_CFG_RAW_LAG * 2 ^ 20

/-- Whether a parcel is one that the 256 KiB reserve is kept for (R535). -/
def ParcelKind.isRecord : ParcelKind → Bool
  | .snag => true
  | .crop => true
  | .splice => true
  | .notice => true
  | .event => true
  | _ => false

/-- Whether the staging SRAM has room for a parcel. -/
def Dev.stageRoom (p : Parcel) (d : Dev) : Bool :=
  decide (d.stagedBytes + p.bytes.length ≤ (if p.kind.isRecord then 4 * 2 ^ 20 else 4 * 2 ^ 20 - 256 * 2 ^ 10))

/-- A frame parcel is abandoned (R536): a raw frame is counted and the camera's next one carries GAP_BEFORE; an output takes
R292 on its Carriage. -/
def Dev.abandonFrame (p : Parcel) (d : Dev) : Dev :=
  let d1 := d.bump (R.HOST_RING_CNT p.ring) F.HOST_RING_CNT_ABANDON_CNT 1
  if p.kind = .raw then
    (((d1.bump R.HOST_CNT3 F.HOST_CNT3_RAW_ABANDON_CNT 1).hostErr 9).rawGap p.cam).clearDeliver p.cam p.seq
  else if p.kind = .output then
    let d2 := (d1.bump (R.CAR_CNT1 p.carriage) F.CAR_CNT1_OUT_DROP_CNT 1).err 8 (R.CAR_ERR p.carriage) 6
    { d2 with car := { d2.car with gaps := if d2.car.gaps.contains (p.cam, p.output) then d2.car.gaps
                                           else d2.car.gaps ++ [(p.cam, p.output)] } }
  else d1

/-- The first parcel that a ring has not begun, in the order of hand-over (R533). -/
def Dev.headStaged (r : Nat) (d : Dev) : Option Parcel := d.host.staged.find? (fun p => p.ring == r)

def Dev.headRaw (r : Nat) (d : Dev) : Option RawWait := d.host.raw.find? (fun w => w.ring == r)

/-- Whether a snag record must still wait for its crop (R533). -/
def Dev.cropBefore (p : Parcel) (d : Dev) : Bool :=
  let crop := fun (q : Parcel) => q.kind == .crop && q.cam == p.cam && q.seq == p.seq && decide (q.number < p.number)
  p.kind == .snag && (d.host.staged.any crop || d.host.offers.any crop || (List.range 64).any (fun r =>
    (match (d.ring r).piece with
      | some q => crop q.parcel
      | none => false) || (match (d.ring r).rest with
      | some (q, _, _) => crop q
      | none => false) || (d.ring r).returns.any (fun c => c.kind == 5 && c.last && c.cam == p.cam && c.seq == p.seq)))

/-- A parcel's wait is counted once (R534). -/
def Dev.countWait (r : Nat) (waited : Bool) (d : Dev) : Dev :=
  if waited then d else d.bump (R.HOST_RING_CNT r) F.HOST_RING_CNT_WAIT_CNT 1

/-- The head parcel of ring r is marked as waiting. -/
def Dev.headWaits (r : Nat) (d : Dev) : Dev :=
  match d.headStaged r, d.headRaw r with
  | some p, some w =>
    if p.number < w.number then
      (d.countWait r p.waited).modHost fun x =>
        { x with staged := x.staged.map (fun q => if q.number = p.number then { q with waited := true } else q) }
    else (d.countWait r w.waited).modHost fun x =>
        { x with raw := x.raw.map (fun q => if q.number = w.number then { q with waited := true } else q) }
  | some p, none => (d.countWait r p.waited).modHost fun x =>
      { x with staged := x.staged.map (fun q => if q.number = p.number then { q with waited := true } else q) }
  | none, some w => (d.countWait r w.waited).modHost fun x =>
      { x with raw := x.raw.map (fun q => if q.number = w.number then { q with waited := true } else q) }
  | none, none => d

/-- A raw frame is withheld at step 4 (R46, R548), or given up where DELIVERY may not read it: it leaves the wait, its DELIVER_PENDING clears, the next one carries
GAP_BEFORE. -/
def Dev.withhold (w : RawWait) (d : Dev) : Dev := ((d.dropRaw w.cam w.frame).clearDeliver w.cam w.frame).rawGap w.cam

/-- The contents of a raw parcel: the tag, with GAP_BEFORE where it is due, and the pixel data, padded (R527). -/
def Dev.rawParcel (w : RawWait) (d : Dev) : Option Parcel :=
  match d.histFrame? w.cam w.frame, d.framePixels w.cam w.frame with
  | some h, some px =>
    let t := if d.host.gapNext.contains w.cam then h.tag.setFlag 9 else h.tag
    some { recordParcel .raw w.ring w.cam w.frame (padTo 64 (t.bytes ++ px)) with number := w.number, waited := w.waited }
  | _, _ => none

/-- What stops DELIVERY from reading a raw frame's records (R463, R464): none, or the device with the denial recorded. -/
def Dev.rawBarred (w : RawWait) (d : Dev) : Option Dev :=
  ((d.frameRecs w.cam w.frame 0 d.skein.hist.recs.length).find? (fun r => !d.skeinMay 3 false r.start (r.stop - r.start))).map
    (fun r => d.deny 3 false r.start)

/-- A parcel, or the rest of one, is placed in a buffer and begun: in the rest of the current buffer where R531 allows, else
in the next buffer, the current one being returned. The answer says whether it could be placed. -/
def Dev.place (r : Nat) (p : Parcel) (pos no : Nat) (d : Dev) : Bool × Dev :=
  let x := d.ring r
  let left := p.bytes.length - pos
  let fits := match x.buf with
    | some (b, used) => no == 0 && decide (left ≤ b.len - used)
    | none => false
  if fits then
    match x.buf with
    | some (b, used) =>
      if d.cqFree r = 0 then (false, d)
      else (true, d.setRing r { x with rest := none, piece := some { parcel := p, pos := pos, len := left, offset := used, no := no },
                                       buf := some (b, used) })
    | none => (false, d)
  else match x.unbegun with
    | [] => (false, d)
    | q :: rest =>
      let need := if x.buf.isSome then 2 else 1
      if d.cqFree r < need then (false, d)
      else
        let d1 := match x.buf with
          | some (b, _) => (d.modRing r fun y => { y with returns := y.returns ++ [returnCqe b 0] }).flushReturns r
          | none => d
        (true, (d1.modRing r fun y =>
          { y with unbegun := rest, buf := some (q, 0), rest := none,
                   piece := some { parcel := p, pos := pos, len := min left q.len, offset := 0, no := no } }).count
          (R.HOST_RING_DHEAD r) whole 1)

/-- Whether ring r has no place for a parcel (R534): it is not RUN, it has no posted buffer that is not begun, or completion slots lack. -/
def Dev.cannotPlace (r : Nat) (d : Dev) : Bool :=
  let x := d.ring r
  x.state != .run || (x.unbegun.isEmpty && x.fetching == 0 && x.fetched == (d.rd (R.HOST_RING_DTAIL r)).toNat)
    || decide (d.cqFree r < if x.buf.isSome then 2 else 1)

/-- The head parcel of ring r cannot be placed now (R534): an output is refused and abandoned, any other waits. -/
def Dev.headKept (r : Nat) (d : Dev) : Dev :=
  match d.headStaged r with
  | some p =>
    let first := match d.headRaw r with
      | some w => decide (p.number < w.number)
      | none => true
    if p.kind = .output ∧ first = true ∧ d.cannotPlace r then
      (d.modHost fun y => { y with staged := y.staged.filter (fun q => q.number ≠ p.number) }).abandonFrame p
    else d.headWaits r
  | none => d.headWaits r

/-- PARCEL_START (R531, R534): the ring's next parcel, or the rest of one, begins once it can be placed. -/
def Dev.parcelStart (r : Nat) (d : Dev) : Dev :=
  let x := d.ring r
  if x.piece.isSome ∨ !d.delivers then d
  else if x.state ≠ .run then d.headKept r
  else match x.rest with
    | some (p, pos, no) =>
      if (d.place r p pos no).1 then (d.place r p pos no).2
      else if p.kind = .output ∧ d.cannotPlace r then (d.setRing r { x with rest := none }).abandonFrame p
      else d
    | none =>
      let rawFirst := match d.headStaged r, d.headRaw r with
        | some p, some w => decide (w.number < p.number)
        | none, some _ => true
        | _, _ => false
      if rawFirst then
        match d.headRaw r with
        | none => d
        | some w =>
          if d.pwr.trip then d
          else if d.glb.shed = 4 then d.withhold w
          else match d.rawBarred w with
            | some y => y.withhold w
            | none =>
              let d1 := d.readRecs 3 w.cam w.frame 0 d.skein.hist.recs.length
              match d1.rawParcel w with
              | none => (d1.dropRaw w.cam w.frame).rawGap w.cam
              | some p =>
                let t := d1.place r p 0 0
                if t.1 then
                  t.2.modHost fun y => { y with raw := y.raw.filter (fun q => q.number ≠ w.number),
                                                gapNext := y.gapNext.filter (· ≠ w.cam) }
                else d1.headKept r
      else match d.headStaged r with
        | none => d
        | some p =>
          if d.cropBefore p then d
          else
            let t := d.place r p 0 0
            if t.1 then t.2.modHost fun y => { y with staged := y.staged.filter (fun q => q.number ≠ p.number) }
            else d.headKept r

/-- The completion of a piece. -/
def pieceCqe (q : Desc) (p : Piece) (len status : Nat) (done last : Bool) : Cqe :=
  { cookie := q.cookie, offset := p.offset, len := len, kind := p.parcel.kind.code, cam := p.parcel.cam, status := status,
    done := done, first := p.no == 0, last := last, seq := p.parcel.seq, idx := q.idx, no := p.no }

/-- The crop-ring space of a delivered or discarded crop returns (R379). -/
def Dev.freeCrop (cam seq : Nat) (d : Dev) : Dev :=
  { d with ste := { d.ste with crops := d.ste.crops.filter (fun c => !(c.cam == cam && c.snag == some seq)) } }

/-- A piece is over: its buffer goes on or is done, and what is left of its parcel waits. -/
def Dev.pieceOver (r : Nat) (p : Piece) (b : Desc) (done last : Bool) (d : Dev) : Dev :=
  let d1 := d.modRing r fun y =>
    { y with piece := none, buf := if done then none else some (b, p.offset + p.len),
             rest := if last then none else some (p.parcel, p.pos + p.len, p.no + 1) }
  if last ∧ p.parcel.kind = .raw then d1.clearDeliver p.parcel.cam p.parcel.seq
  else if last ∧ p.parcel.kind = .crop then d1.freeCrop p.parcel.cam p.parcel.seq else d1

/-- PIECE_COMPLETE (R531, R532): the piece's data is written, its completion follows, and the buffer ends where it takes no
further parcel. -/
def Dev.pieceComplete (r : Nat) (d : Dev) : Dev :=
  let x := d.ring r
  match x.piece, x.buf with
  | some p, some (b, _) =>
    if !d.canRequest ∨ x.state = .error ∨ d.cqFree r = 0 then d
    else
      let last := decide (p.pos + p.len = p.parcel.bytes.length)
      let pack := d.b (R.HOST_RING_CFG r) F.HOST_RING_CFG_PACK
      let done := !pack || !last || decide (p.offset + p.len = b.len)
      let data := (p.parcel.bytes.drop p.pos).take p.len
      match d.hostWrite (b.addr + p.offset) (d.b (R.HOST_RING_CFG r) F.HOST_RING_CFG_RO) data with
      | none => d
      | some d1 =>
        match d1.complete r (pieceCqe b p p.len 0 done last) with
        | none => d
        | some d2 =>
          d2.pieceOver r p b done last
  | _, _ => d

/-- Where a revoke or the loss of its ring leaves a parcel cut in two: frames are abandoned, records are delivered again. -/
def Dev.cutParcel (p : Parcel) (d : Dev) : Dev :=
  if p.kind = .raw ∨ p.kind = .output then d.abandonFrame p
  else d.modHost fun x => { x with staged := p :: x.staged }

/-- Step 2 of R536: the current buffer, the buffers held and every posted descriptor are returned. -/
def Dev.returnAll (r : Nat) (d : Dev) : Dev :=
  let x := d.ring r
  let cur := match x.buf with
    | some (b, _) => [returnCqe b 1]
    | none => []
  let d1 := (d.setRing r { x with buf := none, unbegun := [], returns := x.returns ++ cur ++ x.unbegun.map (fun q => returnCqe q 1),
                                  state := .revoking }).count (R.HOST_RING_DHEAD r) whole x.unbegun.length
  (d1.flushReturns r).revokeEnd r

/-- REVOKE (R536): `issued` bytes of the piece in progress have had their TLPs issued; its burst is finished. -/
def Dev.revoke (r issued : Nat) (d : Dev) : Dev :=
  let x := d.ring r
  match x.state with
  | .off => d
  | .revoking => d
  | .error =>
    let d1 := match x.piece with
      | some p => d.cutParcel p.parcel
      | none => d
    let d2 := match x.rest with
      | some (p, _, _) => d1.cutParcel p
      | none => d1
    (d2.modRing r fun y => { y with piece := none, rest := none, buf := none, unbegun := [], returns := [],
                                    fetched := (d.rd (R.HOST_RING_DTAIL r)).toNat }).wr (R.HOST_RING_DHEAD r)
      (d.rd (R.HOST_RING_DTAIL r))
  | .run =>
    let d1 := match x.piece, x.buf with
      | some p, some (b, _) =>
        let a := b.addr + p.offset
        let n := if issued = 0 ∨ !d.canRequest then min p.len issued else min p.len (roundUp 4096 (a + issued) - a)
        let d2 := (d.hostWrite a (d.b (R.HOST_RING_CFG r) F.HOST_RING_CFG_RO) ((p.parcel.bytes.drop p.pos).take n)).getD d
        if p.len ≤ issued then
          let last := decide (p.pos + p.len = p.parcel.bytes.length)
          let done := !d.b (R.HOST_RING_CFG r) F.HOST_RING_CFG_PACK || !last || decide (p.offset + p.len = b.len)
          (d2.modRing r fun y => { y with returns := y.returns ++ [pieceCqe b p p.len 0 done last] }).pieceOver r p b done last
        else
          (d2.modRing r fun y => { y with piece := none, buf := none, rest := none,
                                          returns := y.returns ++ [pieceCqe b p n 1 true false] }).cutParcel p.parcel
      | _, _ => d
    let d4 := match (d1.ring r).rest with
      | some (p, _, _) => (d1.modRing r fun y => { y with rest := none }).cutParcel p
      | none => d1
    d4.returnAll r

/-! Ring configuration (R529, R537, R554). -/

/-- A write of HOST_RING_CFG(r): a rise of EN samples the configuration and zeroes the counters; a fall revokes. -/
def Dev.ringCfgWrite (r : Nat) (v : Word) (issued : Nat) (d : Dev) : Dev :=
  let was := d.b (R.HOST_RING_CFG r) F.HOST_RING_CFG_EN
  let d1 := d.plainWrite (R.HOST_RING_CFG r) v
  let cfg := d1.rd (R.HOST_RING_CFG r)
  let en := fld cfg F.HOST_RING_CFG_EN == 1
  if en && !was then
    ((((d1.wr (R.HOST_RING_DHEAD r) 0).wr (R.HOST_RING_DTAIL r) 0).wr (R.HOST_RING_CHEAD r) 0).wr (R.HOST_RING_CSEQ r) 0).setRing r
      { Ring.init with
        state := .run, dlog := max 4 (min 16 (fld cfg F.HOST_RING_CFG_DLOG)),
        clog := max 4 (min 20 (fld cfg F.HOST_RING_CFG_CLOG)),
        dbase := (d1.rd64 (R.HOST_RING_DBASE r)).toNat / 4096 * 4096, cbase := (d1.rd64 (R.HOST_RING_CBASE r)).toNat / 4096 * 4096 }
  else if !en && was then
    if (d1.ring r).state = .error then (d1.revoke r issued).setRing r Ring.init else d1.revoke r issued
  else d1

/-- A write of HOST_RING_DTAIL(r): DTAIL − DHEAD may not exceed the ring (R529). -/
def Dev.dtailWrite (r : Nat) (v : Word) (d : Dev) : Dev :=
  if 2 ^ (d.ring r).dlog < (v - d.rd (R.HOST_RING_DHEAD r)).toNat then d.hostErr 7 else d.plainWrite (R.HOST_RING_DTAIL r) v

/-- A write of HOST_RING_CHEAD(r): CSEQ − CHEAD may not fall below 0 (R529). -/
def Dev.cheadWrite (r : Nat) (v : Word) (d : Dev) : Dev :=
  if (d.rd (R.HOST_RING_CSEQ r) - v).toInt < 0 then d.hostErr 7
  else ((d.plainWrite (R.HOST_RING_CHEAD r) v).flushReturns r).revokeEnd r

/-! Staging (R533 to R535). -/

/-- A parcel that has been offered is gone from the offers. -/
def Dev.takeOffer (p : Parcel) (d : Dev) : Dev :=
  d.modHost fun x => { x with offers := x.offers.filter (fun q => q.number ≠ p.number) }

/-- A parcel named for a discarding ring (R534). -/
def Dev.discardParcel (p : Parcel) (d : Dev) : Dev :=
  let d1 := d.bump R.HOST_CNT5 F.HOST_CNT5_DISCARD_CNT 1
  if p.kind = .raw ∨ p.kind = .output then d1.abandonFrame p
  else if p.kind = .crop then d1.freeCrop p.cam p.seq else d1

/-- The event parcel of connection n's oldest event (R209, R527). -/
def Dev.eventParcel (n : Nat) (d : Dev) : Option Parcel :=
  match (d.conn n).events with
  | [] => none
  | (ts, data) :: _ =>
    some (recordParcel .event (d.f R.HOST_DLV_CFG F.HOST_DLV_CFG_EVT_RING) n (d.rd (R.CLL_EVT_CNT n)).toNat
      (padTo 64 (leBytes 1 n ++ zeros 3 ++ leBytes 4 data.length ++ leBytes 8 ts ++ zeros 16 ++ data)))

/-- PARCEL_STAGE (R534, R535) of the first parcel handed over that no earlier one of its ring holds back. -/
def Dev.stageOffer (d : Dev) : Dev :=
  let ready := fun (p : Parcel) => !d.host.offers.any (fun q => q.ring == p.ring && decide (q.number < p.number))
  let act := fun (p : Parcel) => d.ringDiscards p.ring || d.stageRoom p || !p.kind.isRecord || !p.waited
  match d.host.offers.find? (fun p => ready p && act p) with
  | none => d
  | some p =>
    if d.ringDiscards p.ring then (d.takeOffer p).discardParcel p
    else if d.stageRoom p then
      if p.kind = .output ∧ (d.ring p.ring).state ≠ .run then (d.takeOffer p).abandonFrame p
      else (d.takeOffer p).modHost fun x => { x with staged := x.staged ++ [p] }
    else match p.kind with
      | .stats => ((d.takeOffer p).bump R.HOST_CNT3 F.HOST_CNT3_STATS_DROP_CNT 1).hostErr 8
      | .output => (d.takeOffer p).abandonFrame p
      | _ => (d.countWait p.ring p.waited).modHost fun x =>
          { x with offers := x.offers.map (fun q => if q.number = p.number then { q with waited := true } else q) }

/-- PARCEL_STAGE of a camera event: it leaves its connection's buffer once staging has room. -/
def Dev.stageEvent (n : Nat) (d : Dev) : Dev :=
  match d.eventParcel n with
  | none => d
  | some p =>
    if !d.b R.HOST_DLV_CFG F.HOST_DLV_CFG_EVT_EN then d
    else
      let d1 := d.modConn n fun x => { x with events := x.events.drop 1 }
      if d.ringDiscards p.ring then d1.discardParcel p
      else if d.stageRoom p then
        d1.modHost fun x => { x with staged := x.staged ++ [{ p with number := x.nextNo }], nextNo := x.nextNo + 1 }
      else d

/-- A raw frame whose tag is written is handed over (R46, R527, R534): withheld at level 4 and during the trip, discarded or
waiting in the history ring. The answer says whether its delivery is pending. -/
def Dev.rawHandOver (t : FrameTag) (size : Nat) (d : Dev) : Bool × Dev :=
  let cfg := d.rd (R.HOST_CAM_DLV t.cam)
  let ring := fld cfg F.HOST_CAM_DLV_RAW_RING
  if fld cfg F.HOST_CAM_DLV_RAW_EN = 0 then (false, d)
  else if d.glb.shed = 4 ∨ d.pwr.trip then (false, d.rawGap t.cam)
  else if d.ringDiscards ring then (false, d.discardParcel (recordParcel .raw ring t.cam t.seq []))
  else
    let w : RawWait := { cam := t.cam, frame := t.seq, ring := ring, size := size, number := d.host.nextNo, waited := false }
    (true, d.modHost fun x => { x with raw := x.raw ++ [w], nextNo := x.nextNo + 1 })

/-- RING_IRQ_TIME_EXPIRE (R538). -/
def Dev.ringTime (r : Nat) (d : Dev) : Dev :=
  let irq := d.rd (R.HOST_RING_IRQ r)
  match (d.ring r).oldest with
  | none => d
  | some t =>
    let us := fld irq F.HOST_RING_IRQ_TIME
    if fld irq F.HOST_RING_IRQ_EN = 1 ∧ us ≠ 0 ∧ t + us * 1000 ≤ d.now then d.ringSignal r else d

/-! Live registers (R550, R553, R554). -/

def RingState.code : RingState → Nat
  | .off => 0
  | .run => 1
  | .error => 2
  | .revoking => 3

/-- HOST_RING_STATUS(r) as it reads. -/
def Dev.ringStatus (r : Nat) (d : Dev) : Word :=
  let x := d.ring r
  let waits := x.piece.isNone && (x.rest.isSome || (d.headStaged r).isSome || (d.headRaw r).isSome)
  BitVec.ofNat 32 (x.state.code * 2 ^ 30 + x.errCode * 2 ^ 28
    + ofBits [(waits && x.unbegun.isEmpty && x.buf.isNone, 27), (waits && d.cqFree r == 0, 26)])

/-- HOST_DLV_STATUS as it reads. -/
def Dev.dlvStatus (d : Dev) : Word :=
  BitVec.ofNat 32 (ofBits [(d.deliveryHolds, 31), (d.glb.pressure.contains .delivery, 30)]
    + min 1023 (d.backlogBytes * 1000 / d.backlogCap))

/-! The commands. -/

def execTagQuarantineEnd (tag : Nat) (s : State) : Host.Outcome State Fault Refusal :=
  s.run fun d => d.modHost fun x => { x with quar := x.quar.filter (fun q => !(q.1 == tag && decide (q.2 ≤ d.now))) }

/-- ATS_TRANSLATION_MISS (R525): the access that a ring or a Hook channel waits for. -/
def execAtsTranslationMiss (user : AtsUser) (iova : Nat) (write : Bool) (s : State) : Host.Outcome State Fault Refusal :=
  s.run fun d => d.xlateRequest iova write user

def execAtsInvalidateRequest (itag base size : Nat) (s : State) : Host.Outcome State Fault Refusal :=
  s.run fun d => d.invalidate itag base size

def execAtsInvalidateDone (itag : Nat) (s : State) : Host.Outcome State Fault Refusal := s.run fun d => d.invalidateDone itag

/-- RING_ENABLE (R529): a write of HOST_RING_CFG(r). -/
def execRingEnable (r : Fin 64) (v : Word) (s : State) : Host.Outcome State Fault Refusal :=
  s.run fun d => d.ringCfgWrite r v 0

/-- RING_DISABLE (R537): a write of HOST_RING_CFG(r), with the bytes of the piece in progress that have been issued. -/
def execRingDisable (r : Fin 64) (v : Word) (issued : Nat) (s : State) : Host.Outcome State Fault Refusal :=
  s.run fun d => d.ringCfgWrite r v issued

def execRingDtailWrite (r : Fin 64) (v : Word) (s : State) : Host.Outcome State Fault Refusal := s.run fun d => d.dtailWrite r v

def execRingCheadWrite (r : Fin 64) (v : Word) (s : State) : Host.Outcome State Fault Refusal := s.run fun d => d.cheadWrite r v

def execRevoke (r : Fin 64) (issued : Nat) (s : State) : Host.Outcome State Fault Refusal := s.run fun d => d.revoke r issued

def execDescFetch (r : Fin 64) (s : State) : Host.Outcome State Fault Refusal := s.run fun d => d.descFetch r

/-- DESC_FETCH_DONE (R530): the data of the ring's outstanding descriptor read arrives. -/
def execDescFetchDone (r : Fin 64) (bytes : List Byte) (s : State) : Host.Outcome State Fault Refusal :=
  s.run fun d =>
    match d.host.reqs.find? (fun q => match q.kind with
      | .desc r2 _ => r2 == r.val
      | _ => false) with
    | some q =>
      let d1 := d.modHost fun x => { x with reqs := x.reqs.filter (fun y => y.tag ≠ q.tag) }
      match q.kind with
      | .desc _ n => d1.descData r n bytes
      | _ => d1
    | none => d

def execParcelStart (r : Fin 64) (s : State) : Host.Outcome State Fault Refusal := s.run fun d => d.parcelStart r

def execPieceComplete (r : Fin 64) (s : State) : Host.Outcome State Fault Refusal := s.run fun d => d.pieceComplete r

def execParcelStage (src : StageSource) (s : State) : Host.Outcome State Fault Refusal :=
  s.run fun d => match src with
    | .offered => d.stageOffer
    | .event n => d.stageEvent n

def execRingIrqTimeExpire (r : Fin 64) (s : State) : Host.Outcome State Fault Refusal := s.run fun d => d.ringTime r

end Sys2Proof.Machine
end

