-- ==== Sys2Proof/Machine/CarPix.lean ====
section
/-! DEFINITION. What a Carriage computes (R278 to R285, R288 to R295): the Carriage parameter block, the pixel stages, the outputs
and the statistics record, as functions of a frame's lines. -/

namespace Sys2Proof.Machine

/-- A frame between stages: rows of pixels of components. -/
abbrev Img := List (List (List Nat))

/-- A component of a pixel; 0 outside the frame. -/
def Img.at (im : Img) (r c ch : Nat) : Nat := ((im.getD r []).getD c []).getD ch 0

/-- The families of source formats (R279). -/
inductive Family where
  | mono | bayer | rgb
deriving DecidableEq, Repr

/-- Family and DEPTH of an accepted source format (R279). -/
def sourceFormat (fmt : Nat) : Option (Family × Nat) :=
  match fmt with
  | 0x0101 => some (.mono, 8) | 0x0102 => some (.mono, 10) | 0x0103 => some (.mono, 12) | 0x0104 => some (.mono, 14)
  | 0x0105 => some (.mono, 16)
  | 0x0311 => some (.bayer, 8) | 0x0312 => some (.bayer, 10) | 0x0313 => some (.bayer, 12)
  | 0x0321 => some (.bayer, 8) | 0x0322 => some (.bayer, 10) | 0x0323 => some (.bayer, 12)
  | 0x0331 => some (.bayer, 8) | 0x0332 => some (.bayer, 10) | 0x0333 => some (.bayer, 12)
  | 0x0341 => some (.bayer, 8) | 0x0342 => some (.bayer, 10) | 0x0343 => some (.bayer, 12)
  | 0x0401 => some (.rgb, 8) | 0x0402 => some (.rgb, 10) | 0x0403 => some (.rgb, 12)
  | _ => none

/-- The colour (0 R, 1 G, 2 B) of a Bayer pixel: the pattern names the first two pixels of the first row, 1 GR, 2 RG, 3 GB,
4 BG. -/
def bayerColour (pattern r c : Nat) : Nat :=
  match pattern, r % 2, c % 2 with
  | 1, 0, 0 => 1 | 1, 0, _ => 0 | 1, _, 0 => 2 | 1, _, _ => 1
  | 2, 0, 0 => 0 | 2, 0, _ => 1 | 2, _, 0 => 1 | 2, _, _ => 2
  | 3, 0, 0 => 1 | 3, 0, _ => 2 | 3, _, 0 => 0 | 3, _, _ => 1
  | _, 0, 0 => 2 | _, 0, _ => 1 | _, _, 0 => 1 | _, _, _ => 0

/-! The Carriage parameter block (R284, R285). -/

/-- An output descriptor. -/
structure OutDesc where
  en       : Bool
  preview  : Bool
  inspect  : Bool
  bilinear : Bool
  format   : Nat
  ring     : Nat
  x        : Nat
  y        : Nat
  w        : Nat
  h        : Nat
  sx       : Nat
  sy       : Nat
  decim    : Nat
deriving DecidableEq, Repr

def outDesc (bs : List Byte) (k : Nat) : OutDesc :=
  let o := 0x60 + 32 * k
  let fl := leAt bs o 1
  let clampScale := fun (v : Nat) => max 256 (min 4096 v)
  { en := bitOf fl 0, preview := bitOf fl 1, inspect := bitOf fl 2, bilinear := bitOf fl 3, format := leAt bs (o + 1) 1,
    ring := leAt bs (o + 2) 1 % 64, x := leAt bs (o + 4) 2, y := leAt bs (o + 6) 2, w := leAt bs (o + 8) 2,
    h := leAt bs (o + 10) 2, sx := clampScale (leAt bs (o + 12) 2), sy := clampScale (leAt bs (o + 14) 2),
    decim := leAt bs (o + 16) 2 }

/-- A flag of the CPB. -/
def cpbFlag (bs : List Byte) (k : Nat) : Bool := bitOf (leAt bs 2 2) k

/-- Whether the Carriage refuses a CPB (R284). -/
def cpbRefused (bs : List Byte) : Bool := leAt bs 0 2 != 1 || decide (4096 < leAt bs 0x0C 2) || decide (32768 < leAt bs 0x2C 4)

/-- The size of a full CPB. -/
def cpbSize : Nat := 172288

/-! The stages (R278). -/

/-- Stage 1: one component per channel. -/
def unpack (fam : Family) (depth : Nat) (px : Nat) : List Nat :=
  match fam with
  | .rgb => [px % 2 ^ depth, px / 2 ^ depth % 2 ^ depth, px / 2 ^ (2 * depth) % 2 ^ depth]
  | _ => [px % 2 ^ depth]

/-- A function applied to every component, with its row, column and channel. -/
def Img.mapAt (im : Img) (g : Nat → Nat → Nat → Nat → Nat) : Img :=
  im.zipIdx.map (fun p => p.1.zipIdx.map (fun q => q.1.zipIdx.map (fun v => g p.2 q.2 v.2 v.1)))

/-- Stage 2: black level of the Bayer phase or colour channel. -/
def stageBlack (cpb : List Byte) (fam : Family) (im : Img) : Img :=
  im.mapAt fun r c ch v =>
    let k := match fam with
      | .bayer => r % 2 * 2 + c % 2
      | _ => ch
    v - leAt cpb (4 + 2 * k) 2

/-- An index reflected into a row or column of `n` pixels (R280). -/
def mirror (i : Int) (n : Nat) : Nat :=
  let a := i.natAbs
  min (n - 1) (if a < n then a else 2 * (n - 1) - a)

/-- The defect list with the entries that do not ascend left out, and their number (R280). -/
def dpcList (cpb : List Byte) : List (Nat × Nat × Nat) × Nat :=
  (List.range (leAt cpb 0x0C 2)).foldl (fun acc k =>
    let e := leAt cpb (0x6100 + 4 * k) 4
    let row := e / 2 ^ 15 % 2 ^ 15
    let col := e % 2 ^ 15
    let ok := match acc.1.getLast? with
      | some (_, r, c) => decide (r < row) || (r == row && decide (c < col))
      | none => true
    if ok then (acc.1 ++ [(e / 2 ^ 30, row, col)], acc.2) else (acc.1, acc.2 + 1)) ([], 0)

/-- The middle two of eight values, summed. -/
def midPair (l : List Nat) : Nat :=
  let s := l.mergeSort (fun a b => decide (a ≤ b))
  s.getD 3 0 + s.getD 4 0

/-- A listed pixel's replacement (R280). -/
def dpcValue (fam : Family) (twoD : Bool) (method : Nat) (im : Img) (r c ch : Nat) : Nat :=
  let st : Int := if fam = .bayer then 2 else 1
  let w := (im.getD r []).length
  let n := fun (dr dc : Int) => im.at (mirror (r + dr * st) im.length) (mirror (c + dc * st) w) ch
  let m := if twoD then method else min method 1
  match m with
  | 0 => n 0 (-1)
  | 1 => Config.mean (n 0 (-1) + n 0 1) 2
  | 2 => Config.mean (n 0 (-1) + n 0 1 + n (-1) 0 + n 1 0) 4
  | _ => Config.mean (midPair [n (-1) (-1), n (-1) 0, n (-1) 1, n 0 (-1), n 0 1, n 1 (-1), n 1 0, n 1 1]) 2

/-- Stage 3: defect-pixel replacement; a line-scan frame ignores ROW. -/
def stageDpc (cpb : List Byte) (fam : Family) (scan : Bool) (im : Img) : Img :=
  if !cpbFlag cpb 0 then im
  else
    let l := (dpcList cpb).1
    im.mapAt fun r c ch v =>
      match l.find? (fun e => (scan || e.2.1 == r) && e.2.2 == c) with
      | some e => dpcValue fam (cpbFlag cpb 1) e.1 im r c ch
      | none => v

/-- Stage 4: dark subtraction and gain (R281); `perPixel` reads a word of the table at ff_pixel_da. -/
def stageFlat (cpb : List Byte) (depth width : Nat) (perPixel : Nat → Nat) (im : Img) : Img :=
  if !cpbFlag cpb 2 then im
  else im.mapAt fun r c _ v =>
    let e := if cpbFlag cpb 3 then perPixel (r * width + c)
             else if c < leAt cpb 0x2C 4 then leAt cpb (0xA100 + 4 * c) 4 else 0x40000000
    min (2 ^ depth - 1) (((v - e % 65536) * (e / 65536 % 65536) + 0x2000) / 2 ^ 14)

/-- Stage 5: Bayer to RGB. -/
def stageDemosaic (cpb : List Byte) (fam : Family) (fmt depth : Nat) (im : Img) : Img :=
  if fam = .bayer ∧ cpbFlag cpb 4 then
    let rows := im.map (fun r => r.map (fun p => p.getD 0 0))
    im.zipIdx.map (fun p => p.1.zipIdx.map (fun q => (List.range 3).map (fun ch =>
      min (2 ^ depth - 1) (Config.demosaic (cpbFlag cpb 5) (fmt / 16 % 16) rows p.2 q.2 ch))))
  else im

/-- Stage 6: the colour matrix on RGB data (R282). -/
def stageCcm (cpb : List Byte) (depth : Nat) (px : List Nat) : List Nat :=
  if cpbFlag cpb 6 ∧ px.length = 3 then
    (List.range 3).map (fun i =>
      let s := ((List.range 3).map (fun j => leIntAt cpb (0x10 + 2 * (3 * i + j)) 2 * (px.getD j 0 : Int))).sum
      let v := (s + 0x800) / 4096 + leIntAt cpb (0x24 + 2 * i) 2
      (max 0 (min (2 ^ depth - 1 : Int) v)).toNat)
  else px

/-- Stage 7: one LUT value (R283): entry plus fraction times difference, rounded to nearest; which way a tie goes is open. -/
def lutValue (cpb : List Byte) (table depth v : Nat) : Nat :=
  let x := v * 65536 / 2 ^ depth
  let i := x / 16
  let e0 := leAt cpb (0x100 + 8192 * table + 2 * i) 2
  if i = 4095 then e0
  else
    let e1 := leAt cpb (0x100 + 8192 * table + 2 * (i + 1)) 2
    let p : Int := (x % 16 : Nat) * ((e1 : Int) - e0)
    let up := if p % 16 = 8 then Config.lutTie e0 e1 (x % 16) else decide (8 < p % 16)
    ((e0 : Int) + p / 16 + (if up then 1 else 0)).toNat

def stageLut (cpb : List Byte) (depth : Nat) (px : List Nat) : List Nat :=
  if cpbFlag cpb 7 then px.zipIdx.map (fun p => lutValue cpb (if px.length = 3 then p.2 else 0) depth p.1) else px

/-- A frame after flat field, and after the LUT. -/
structure Processed where
  fam   : Family
  depth : Nat
  flat  : Img
  lut   : Img
deriving DecidableEq, Repr

/-- All stages over a frame's lines (R278). -/
def process (cpb : List Byte) (fmt : Nat) (scan : Bool) (perPixel : Nat → Nat) (rows : List (List Nat)) : Option Processed :=
  (sourceFormat fmt).map fun p =>
    let im : Img := rows.map (fun r => r.map (unpack p.1 p.2))
    let width := (rows.map List.length).foldl max 0
    let flat := stageFlat cpb p.2 width perPixel (stageDpc cpb p.1 scan (stageBlack cpb p.1 im))
    let rgb := stageDemosaic cpb p.1 fmt p.2 flat
    { fam := p.1, depth := p.2, flat := flat, lut := rgb.map (fun r => r.map (fun px => stageLut cpb p.2 (stageCcm cpb p.2 px))) }

/-! Outputs (R288, R289). -/

/-- Y of an RGB pixel (R289). -/
def luma (px : List Nat) : Nat := (77 * px.getD 0 0 + 150 * px.getD 1 0 + 29 * px.getD 2 0 + 128) / 256

/-- Bytes per pixel of an output format (R289). -/
def outBytes (fmt : Nat) : Nat :=
  match fmt with
  | 0 => 1 | 1 => 2 | 2 => 3 | 3 => 4 | _ => 6

/-- A pixel in an output format: 8-bit formats take the upper 8 bits; what a mono value gives the channels of a colour
format is open. -/
def outPixel (fmt : Nat) (px : List Nat) : List Nat :=
  let mono := if px.length = 3 then luma px else px.getD 0 0
  let ch := fun (k : Nat) => if px.length = 3 then px.getD k 0 else Config.monoColour (px.getD 0 0) k % 65536
  match fmt with
  | 0 => [mono / 256 % 256]
  | 1 => [mono % 256, mono / 256 % 256]
  | 2 => [ch 0 / 256 % 256, ch 1 / 256 % 256, ch 2 / 256 % 256]
  | 3 => [ch 2 / 256 % 256, ch 1 / 256 % 256, ch 0 / 256 % 256, 255]
  | _ => [ch 0 % 256, ch 0 / 256 % 256, ch 1 % 256, ch 1 / 256 % 256, ch 2 % 256, ch 2 / 256 % 256]

/-- The crop rectangle clipped to the frame: x, y, width, height (R288). -/
def cropOf (o : OutDesc) (w h : Nat) : Nat × Nat × Nat × Nat :=
  (o.x, o.y, if o.w = 0 then w - o.x else min o.w (w - o.x), if o.h = 0 then h - o.y else min o.h (h - o.y))

/-- A channel of an output pixel under the box filter: the mean of the input pixels it covers, where it covers whole pixels (R288). -/
def boxValue (crop : Img) (nx ny r c k : Nat) : Nat :=
  let cover := ((crop.drop (r * ny)).take ny).flatMap (fun l => (l.drop (c * nx)).take nx)
  Config.mean (cover.map (fun p => p.getD k 0)).sum cover.length

/-- An output image: rows of pixels, each a list of bytes. -/
def outImage (o : OutDesc) (im : Img) : List (List (List Nat)) :=
  let w := (im.map List.length).foldl max 0
  let (x, y, cw, ch) := cropOf o w im.length
  let crop : Img := ((im.drop y).take ch).map (fun r => (r.drop x).take cw)
  let chans := (crop.flatMap id).foldl (fun m p => max m p.length) 1
  (List.range (ch * 256 / o.sy)).map (fun r => (List.range (cw * 256 / o.sx)).map (fun c =>
    outPixel o.format (if o.sx = 256 ∧ o.sy = 256 then (crop.getD r []).getD c []
      else if !o.bilinear && o.sx % 256 == 0 && o.sy % 256 == 0 then
        (List.range chans).map (fun k => boxValue crop (o.sx / 256) (o.sy / 256) r c k % 65536)
      else (List.range chans).map (fun k =>
        Config.resample o.bilinear (crop.map (fun l => l.map (fun p => p.getD k 0))) o.sx o.sy r c % 65536))))

/-! Statistics (R293 to R295). -/

/-- The pixel of a tap as its channels: R, G, B or mono, and Y where the record has it. A Bayer pixel fills its own colour. -/
def statChannels (p : Processed) (tapLut : Bool) (pattern r c : Nat) (px : List Nat) : List (Nat × Nat) :=
  if px.length = 3 then
    (List.range 3).map (fun k => (k, px.getD k 0)) ++ (if tapLut then [(3, luma px)] else [])
  else if p.fam = .bayer ∧ !tapLut then [(bayerColour pattern r c, px.getD 0 0)]
  else [(0, px.getD 0 0)]

/-- The number of channels of a record (R295). -/
def statCount (p : Processed) (tapLut : Bool) : Nat :=
  match p.fam, tapLut with
  | .mono, _ => 1
  | _, true => 4
  | _, false => 3

/-- The samples of the region: row, column, pixel. -/
def statSamples (cpb : List Byte) (im : Img) : List (Nat × Nat × List Nat) × Nat × Nat :=
  let w := (im.map List.length).foldl max 0
  let (x, y) := (leAt cpb 0x3C 2, leAt cpb 0x3E 2)
  let rw := if leAt cpb 0x40 2 = 0 then w - x else min (leAt cpb 0x40 2) (w - x)
  let rh := if leAt cpb 0x42 2 = 0 then im.length - y else min (leAt cpb 0x42 2) (im.length - y)
  (((im.drop y).take rh).zipIdx.flatMap (fun p => ((p.1.drop x).take rw).zipIdx.map (fun q => (y + p.2, x + q.2, q.1))), rw, rh)

/-- The statistics record of a frame (R295). -/
def statsRecord (cpb : List Byte) (k : Nat) (t : FrameTag) (p : Processed) (fmt : Nat) : List Byte :=
  let tapLut := bitOf (leAt cpb 0x3B 1) 1
  let im := if tapLut then p.lut else p.flat
  let (px, rw, rh) := statSamples cpb im
  let top := if tapLut then 65535 else 2 ^ p.depth - 1
  let bin := fun (v : Nat) => if tapLut then v / 256 else v / 2 ^ (p.depth - 8)
  let vals := px.flatMap (fun s => statChannels p tapLut (fmt / 16 % 16) s.1 s.2.1 s.2.2)
  let sat := fun (s : Nat × Nat × List Nat) => s.2.2.any (fun v => decide (top ≤ v))
  let hist := fun (ch b : Nat) => vals.countP (fun v => v.1 == ch && bin v.2 == b)
  let zx := max 1 (min 16 (leAt cpb 0x38 1))
  let zy := max 1 (min 16 (leAt cpb 0x39 1))
  let x0 := leAt cpb 0x3C 2
  let y0 := leAt cpb 0x3E 2
  let zone := fun (i j : Nat) => px.filter (fun s =>
    (if rh / zy = 0 then zy - 1 else min (zy - 1) ((s.1 - y0) / (rh / zy))) == i &&
      (if rw / zx = 0 then zx - 1 else min (zx - 1) ((s.2.1 - x0) / (rw / zx))) == j)
  let zoneBytes := fun (i j : Nat) =>
    let z := zone i j
    let vs := z.flatMap (fun s => statChannels p tapLut (fmt / 16 % 16) s.1 s.2.1 s.2.2)
    let mean := fun (ch : Nat) =>
      let c := vs.filter (fun v => v.1 == ch)
      if c.isEmpty then 0 else ((c.map (·.2)).sum + c.length / 2) / c.length
    leBytes 2 (mean 0) ++ leBytes 2 (mean 1) ++ leBytes 2 (mean 2)
      ++ leBytes 2 (if z.isEmpty then 0 else Config.fraction (z.countP sat) z.length)
  leBytes 2 1 ++ leBytes 1 t.cam ++ leBytes 1 k ++ leBytes 4 t.seq ++ leBytes 4 t.job ++ leBytes 2 t.epoch ++ leBytes 2 t.psid
    ++ leBytes 4 t.flags ++ leBytes 1 t.axis ++ leBytes 1 (statCount p tapLut) ++ leBytes 1 zx ++ leBytes 1 zy
    ++ leInt 8 t.wpFirst ++ leInt 8 t.wpLast ++ leInt 8 t.tsFirst ++ leBytes 4 px.length ++ leBytes 4 (px.countP sat)
    ++ leBytes 2 (if tapLut then 1 else 0) ++ zeros 2 ++ leBytes 4 t.trig
    ++ (List.range 4).flatMap (fun ch => (List.range 256).flatMap (fun b => leBytes 4 (hist ch b)))
    ++ padTo 2048 ((List.range zy).flatMap (fun i => (List.range zx).flatMap (fun j => zoneBytes i j)))

end Sys2Proof.Machine
end

