-- ==== Sys2Proof/Machine/Stash.lean ====
section
/-! DEFINITION. The Stash (spec/12): bank ownership and handover, accesses to banks and engine scratch, the aliases,
arbitration with merged writes and collisions, and the background test. -/

namespace Sys2Proof.Machine

def Dev.modStash (g : StashSt → StashSt) (d : Dev) : Dev := { d with stash := g d.stash }

def Dev.stashErr (bit : Nat) (d : Dev) : Dev := d.err 15 R.STASH_ERR bit

/-- The bytes of one cluster's Stash, and of one engine's scratch. -/
def stashSize : Nat := 2 * 2 ^ 20

def scratchSize : Nat := 32 * 2 ^ 10

/-! Ownership (R434 to R437). -/

/-- The stored owner of a bank, bank number 16c + b. -/
def Dev.bankOwner (k : Nat) (d : Dev) : Nat := d.f (R.STASH_BANK_OWN (k / 16) (k % 16)) F.STASH_BANK_OWN_OWNER

/-- Whether an OWNER value makes a master the owner. -/
def ownerIs (own m : Nat) : Bool :=
  if 0x30 ≤ own ∧ own ≤ 0x3F then decide (0x30 ≤ m) && decide (m ≤ 0x3F)
  else if 0x10 ≤ own ∧ own ≤ 0x1F then decide (0x10 ≤ m) && decide (m ≤ 0x1F)
  else if own = 0xFE then false
  else own == m

/-- Whether a bank grants a master: not BAD, and to STEWARD, or to the owner while no handover is in progress. In the watch
state banks serve no access (R451). -/
def Dev.bankGrants (k m : Nat) (d : Dev) : Bool :=
  d.powered && !d.stash.bad.contains k &&
    (m == 2 || (!d.stash.hand.any (fun p => p.1 == k) && ownerIs (d.bankOwner k) m))

/-- The banks that `n` bytes from offset `off` of cluster c touch. -/
def banksOf (c off n : Nat) : List Nat :=
  (List.range ((off % 2 ^ 17 + max n 1 - 1) / 2 ^ 17 + 1)).map (fun k => 16 * c + off / 2 ^ 17 + k)

/-- Whether a master may access a footprint of cluster c's Stash. -/
def Dev.stashMay (m c off n : Nat) (d : Dev) : Bool := (banksOf c off n).all (fun k => d.bankGrants k m)

/-- Whether a master other than the engine itself reaches the scratch of engine e (R437). -/
def Dev.scratchMay (m e : Nat) (d : Dev) : Bool :=
  d.powered && (m == 2 || d.f (R.STASH_SCR_OWN (e / 16)) ⟨0, 8⟩ == m)

/-! Bytes. -/

def Dev.stashBytes (c off n : Nat) (d : Dev) : List Byte := d.stash.mem.bytes zeroByte (c * stashSize + off) n

def Dev.stashPut (c off : Nat) (bs : List Byte) (d : Dev) : Dev :=
  d.modStash fun x => { x with mem := x.mem.setBytes zeroByte (c * stashSize + off) bs }

def Dev.scratchBytes (e off n : Nat) (d : Dev) : List Byte := d.stash.scr.bytes zeroByte (e * scratchSize + off) n

def Dev.scratchPut (e off : Nat) (bs : List Byte) (d : Dev) : Dev :=
  d.modStash fun x => { x with scr := x.scr.setBytes zeroByte (e * scratchSize + off) bs }

/-- What a write makes of bytes: a plain write replaces them, the aliases set or clear bits (R438). -/
def aliasBytes (op : BankOp) (old new : List Byte) : List Byte :=
  match op with
  | .set => List.zipWith (fun o v => o ||| v) old new
  | .clear => List.zipWith (fun o v => o &&& ~~~ v) old new
  | _ => new

/-- A write to the Stash of cluster c, plain or through an alias. -/
def Dev.stashStore (op : BankOp) (c off : Nat) (bs : List Byte) (d : Dev) : Dev :=
  d.stashPut c off (aliasBytes op (d.stashBytes c off bs.length) bs)

/-- A write to the scratch of engine e, plain or through an alias. -/
def Dev.scratchStore (op : BankOp) (e off : Nat) (bs : List Byte) (d : Dev) : Dev :=
  d.scratchPut e off (aliasBytes op (d.scratchBytes e off bs.length) bs)

/-! Handover (R436). -/

/-- The owner against which EXPECT is judged: writes are served in order, so the last handover accepted counts. -/
def Dev.lastOwner (k : Nat) (d : Dev) : Nat :=
  match (d.stash.hand.filter (fun p => p.1 == k)).getLast? with
  | some p => p.2
  | none => d.bankOwner k

/-- The master of a request. -/
def portMaster (c : Nat) : BankPort → Nat
  | .tile => 0x30 + c
  | .xfer => 0x30 + c
  | .eng _ => 0x30 + c
  | .remote e => 0x30 + e / 16
  | .hook ch => 0x10 + ch
  | .sys m => m

/-- The DA-style address of a line of a bank for the denial log: the BAR0 offset of R51. -/
def lineOffset (k line : Nat) : Nat := 0x5000000 + k / 16 * stashSize + k % 16 * 2 ^ 17 + line % 4096 * 32

/-- A request denied at its bank. -/
def Dev.denyReq (k : Nat) (q : BankReq) (d : Dev) : Dev :=
  let m := portMaster (k / 16) q.port
  d.deny m (q.op != .read) (denyAddr m (lineOffset k q.line))

/-- A write of STASH_BANK_OWN(c,b). -/
def Dev.bankHandover (k : Nat) (v : Word) (d : Dev) : Dev :=
  let own := fld v F.STASH_BANK_OWN_OWNER
  let exp := fld v F.STASH_BANK_OWN_EXPECT
  if d.stash.bad.contains k ∨ own = 0xFF ∨ ¬ (exp = 0xFF ∨ exp = d.lastOwner k) then
    (d.bump R.STASH_CNT0 F.STASH_CNT0_HANDOVER_REF_CNT 1).stashErr 1
  else
    let mine := d.stash.waits.get (fun _ => []) k
    let gone := mine.filter (fun w => portMaster (k / 16) w.req.port != 2)
    let d1 := gone.foldl (fun y w => y.denyReq k w.req) d
    d1.modStash fun x =>
      { x with hand := x.hand ++ [(k, own)],
               waits := x.waits.set (fun _ => []) k (mine.filter (fun w => portMaster (k / 16) w.req.port == 2)) }

/-- The first handover of a bank takes effect. -/
def Dev.handoverDone (k : Nat) (d : Dev) : Dev :=
  match d.stash.hand.find? (fun p => p.1 == k) with
  | none => d
  | some p =>
    (d.modStash fun x => { x with hand := x.hand.erase p }).sf (R.STASH_BANK_OWN (k / 16) (k % 16)) F.STASH_BANK_OWN_OWNER p.2

/-- STASH_BANK_OWN(c,b) as it reads (R453). -/
def Dev.bankOwnRead (k : Nat) (d : Dev) : Word :=
  let bad := d.stash.bad.contains k
  BitVec.ofNat 32 (ofBits [(bad, 31), (d.stash.hand.any (fun p => p.1 == k), 30)] + (if bad then 0xFE else d.bankOwner k))

/-! Arbitration (R439 to R444). -/

/-- The rank of a port. -/
def portRank : BankPort → Nat
  | .tile => 1
  | .xfer => 3
  | .eng _ => 4
  | .remote _ => 5
  | .hook _ => 6
  | .sys _ => 7

/-- The port that a request came by: each of the cluster's engines has one, and REMOTE, HOOK and SYS are one port each (R439, R441). -/
def portId (p : BankPort) : Nat :=
  match p with
  | .eng i => 16 + i.val
  | q => portRank q

/-- The order of requests that wait: rank, with URGENT at 2 ordered by arrival and then by rank, engines by index. -/
def BankWait.order (w : BankWait) : Nat × Nat × Nat × Nat :=
  let idx := match w.req.port with
    | .eng i => i.val
    | _ => 0
  if w.urgent then (2, w.at_, portRank w.req.port, idx) else (portRank w.req.port, idx, w.at_, 0)

def lexLt (a b : Nat × Nat × Nat × Nat) : Bool :=
  decide (a.1 < b.1) || (a.1 == b.1 && (decide (a.2.1 < b.2.1) || (a.2.1 == b.2.1 &&
    (decide (a.2.2.1 < b.2.2.1) || (a.2.2.1 == b.2.2.1 && decide (a.2.2.2 < b.2.2.2))))))

/-- The first of a list of requests in order. -/
def firstWait : List BankWait → Option BankWait
  | [] => none
  | w :: rest => match firstWait rest with
    | none => some w
    | some v => if lexLt v.order w.order then some v else some w

/-- The rank by which collisions are judged: rank of the port, engines by index (R444). -/
def collideOrder (w : BankWait) : Nat × Nat :=
  (portRank w.req.port, match w.req.port with
    | .eng i => i.val
    | .remote e => e.val
    | _ => 0)

/-- A byte of a request's data. -/
def reqByte (q : BankReq) (k : Nat) : Option Byte := (q.data.find? (fun p => p.1 == k)).map (·.2)

/-- Whether a request writes some byte of word `j` of its line. -/
def reqTouches (q : BankReq) (j : Nat) : Bool := q.op != .read && q.data.any (fun p => p.1 / 4 == j && decide (p.1 < 32))

/-- The write that wins word `j` of a merged grant where a plain write takes part: the plain write of highest rank. -/
def wordWinner (ws : List BankWait) (j : Nat) : Option BankWait :=
  (ws.filter (fun w => w.req.op == .plain && reqTouches w.req j)).foldl (fun acc w => match acc with
    | none => some w
    | some v =>
      let a := collideOrder w
      let b := collideOrder v
      if a.1 < b.1 ∨ (a.1 = b.1 ∧ a.2 < b.2) then some w else some v) none

/-- Byte `k` of a line after a merged grant (R444). -/
def mergedByte (ws : List BankWait) (old : Byte) (k : Nat) : Byte :=
  match wordWinner ws (k / 4) with
  | some w => (reqByte w.req k).getD old
  | none =>
    let sets := ws.filter (fun w => w.req.op == .set)
    let clears := ws.filter (fun w => w.req.op == .clear)
    let a := sets.foldl (fun b w => b ||| (reqByte w.req k).getD 0) old
    clears.foldl (fun b w => b &&& ~~~ ((reqByte w.req k).getD 0)) a

/-- The first word of the line that a write of a merged grant loses. -/
def lostWord (ws : List BankWait) (w : BankWait) : Option Nat :=
  (List.range 8).find? (fun j => reqTouches w.req j && (match wordWinner ws j with
    | some v => decide (v ≠ w)
    | none => false))

/-- STASH_COLLISION (R444): the losing write is counted and may be captured; a Hook channel takes
a collision status (R498). -/
def Dev.collision (k : Nat) (w : BankWait) (j : Nat) (d : Dev) : Dev :=
  let d1 := (d.bump R.STASH_CNT0 F.STASH_CNT0_COLLIDE_CNT 1).stashErr 0
  let eng := match w.req.port with
    | .eng i => some (k / 16 * 16 + i.val)
    | .remote e => some e.val
    | _ => none
  let d2 := match w.req.port with
    | .hook ch => ((d1.sb (R.HOOK_CH_STATUS ch) F.HOOK_CH_STATUS_COLLIDE true).bump R.HOOK_CNT0 F.HOOK_CNT0_COLLIDE_CNT 1).err 11
        R.HOOK_ERR 7
    | _ => d1
  if d2.b R.STASH_COLL_INFO F.STASH_COLL_INFO_VALID then d2
  else (d2.wr R.STASH_COLL_INFO (BitVec.ofNat 32 (0x80000000 + (if eng.isSome then 0x40000000 else 0) + k / 16 * 2 ^ 26
      + k % 16 * 2 ^ 22 + eng.getD 0 * 2 ^ 8 + portMaster (k / 16) w.req.port % 256))).wr R.STASH_COLL_ADDR
    (BitVec.ofNat 32 (k % 16 * 2 ^ 17 + w.req.line % 4096 * 32 + 4 * j))

/-- The bytes of a line of a bank. -/
def Dev.bankLine (k line : Nat) (d : Dev) : List Byte := d.stashBytes (k / 16) (k % 16 * 2 ^ 17 + line % 4096 * 32) 32

/-- The core cycles a bank has seen. -/
def Dev.bankCycle (k : Nat) (d : Dev) : Nat := d.stash.cycle.get (fun _ => 0) k

/-- Whether a request has waited 8 core cycles and is not URGENT yet; the tile writer's never is (R439). -/
def BankWait.aged (cyc : Nat) (w : BankWait) : Bool := !w.urgent && w.req.port != .tile && decide (w.at_ + 8 ≤ cyc)

/-- A request that has waited 8 core cycles becomes URGENT (R441). -/
def Dev.urgentPromote (k : Nat) (d : Dev) : Dev :=
  let ws := d.stash.waits.get (fun _ => []) k
  let old := BankWait.aged (d.bankCycle k)
  (d.bump R.STASH_CNT1 F.STASH_CNT1_URGENT_CNT (ws.countP old)).modStash fun x =>
    { x with waits := x.waits.set (fun _ => []) k (ws.map (fun w => if old w then { w with urgent := true } else w)) }

/-- A grant (R439, R440, R443, R444): the first request in order, with every write of another port to its line. -/
def Dev.bankGrant (k : Nat) (new : List BankReq) (d1 : Dev) : Dev :=
  let d := if (d1.stash.waits.get (fun _ => []) k).any (BankWait.aged (d1.bankCycle k)) then d1.urgentPromote k else d1
  let ok := new.filter (fun q => d.bankGrants k (portMaster (k / 16) q.port))
  let d0 := (new.filter (fun q => !d.bankGrants k (portMaster (k / 16) q.port))).foldl (fun y q => y.denyReq k q) d
  let cyc := d0.bankCycle k
  let all := d0.stash.waits.get (fun _ => []) k ++ ok.map (fun q => { req := q, at_ := cyc, urgent := false : BankWait })
  let run := d0.stash.tileRun.get (fun _ => 0) k
  let isTile := fun (w : BankWait) => w.req.port == .tile
  let others := all.filter (fun w => !isTile w)
  let pool := if 3 ≤ run ∧ !others.isEmpty then others else all
  match firstWait pool with
  | none => d0.modStash fun x => { x with cycle := x.cycle.set (fun _ => 0) k (cyc + 1), waits := x.waits.set (fun _ => []) k all }
  | some w =>
    let merged := if w.req.op = .read then [w] else
      w :: (all.filter (fun v => portId v.req.port != portId w.req.port && v.req.op != .read && v.req.line == w.req.line)).foldl
        (fun acc v => if acc.any (fun u => portId u.req.port == portId v.req.port) then acc else acc ++ [v]) []
    let rest := all.filter (fun v => !merged.contains v)
    let run1 := if isTile w ∧ !others.isEmpty then run + 1 else 0
    let d1 := d0.modStash fun x =>
      { x with cycle := x.cycle.set (fun _ => 0) k (cyc + 1), waits := x.waits.set (fun _ => []) k rest, tileRun := x.tileRun.set (fun _ => 0) k run1 }
    let old := d1.bankLine k w.req.line
    if w.req.op = .read then d1.emit (.bankData k old)
    else
      let bytes := old.zipIdx.map (fun p => mergedByte merged p.1 p.2)
      let d2 := d1.stashPut (k / 16) (k % 16 * 2 ^ 17 + w.req.line % 4096 * 32) bytes
      merged.foldl (fun y v => match lostWord merged v with
        | some j => y.collision k v j
        | none => y) d2

/-! The background test (R445 to R448). -/

/-- The lines of one cluster: its banks' lines first, then its engines' scratch. -/
def testLines : Nat := 81920

/-- The bytes of a line under test. -/
def Dev.testLine (c line : Nat) (d : Dev) : List Byte :=
  if line < 65536 then d.stashBytes c (line * 32) 32
  else d.scratchBytes (16 * c + (line - 65536) / 1024) ((line - 65536) % 1024 * 32) 32

/-- STASH_TEST_INFO of a failing line (R454). -/
def testInfo (c line : Nat) : Nat :=
  if line < 65536 then 0x80000000 + c * 2 ^ 26 + line / 4096 * 2 ^ 22 + line % 4096 * 2 ^ 10
  else 0xC0000000 + c * 2 ^ 26 + (line - 65536) / 1024 * 2 ^ 22 + (line - 65536) % 1024 * 2 ^ 10

/-- A compare that fails (R448). -/
def Dev.testFail (c line : Nat) (d : Dev) : Dev :=
  let d1 := (d.bump R.STASH_CNT1 F.STASH_CNT1_TEST_FAIL_CNT 1).stashErr 2
  let d2 := if d1.b R.STASH_TEST_INFO F.STASH_TEST_INFO_VALID then d1
            else d1.wr R.STASH_TEST_INFO (BitVec.ofNat 32 (testInfo c line))
  d2.logEvent 3 15 (BitVec.ofNat 64 (testInfo c line))

/-- One step of the test of cluster c (R445 to R447). The array's patterns are seen by no port (R446), so the memory of the
model keeps what the ports see; `fails` says that a compare finds a difference. -/
def Dev.testStep (c : Nat) (fails : Bool) (d : Dev) : Dev :=
  let x := d.stash.tests.get (fun _ => TestSt.init) c
  let en := d.b R.STASH_TEST_CFG F.STASH_TEST_CFG_EN
  if d.pwr.state ≠ .active ∨ testLines ≤ x.line ∨ (!en ∧ x.step = 0) then d
  else
    let put := fun (y : TestSt) (e : Dev) => e.modStash fun z => { z with tests := z.tests.set (fun _ => TestSt.init) c y }
    match x.step with
    | 0 => put { x with step := 1, save := d.testLine c x.line } d
    | 2 => put { x with step := 3 } (if fails then d.testFail c x.line else d)
    | 4 => put { x with step := 5 } (if fails then d.testFail c x.line else d)
    | 5 =>
      let d1 := put { line := x.line + 1, step := 0, save := [] } d
      if (List.range 16).all (fun k => testLines ≤ (d1.stash.tests.get (fun _ => TestSt.init) k).line) then
        (d1.modStash fun z => { z with tests := [] }).count R.STASH_TEST_STATUS F.STASH_TEST_STATUS_PASSES 1
      else d1
    | _ => put { x with step := x.step + 1 } d

/-- A write of STASH_TEST_CFG (R447): a rise of EN starts a new pass from the first lines. -/
def Dev.testCfgWrite (v : Word) (d : Dev) : Dev :=
  let was := d.b R.STASH_TEST_CFG F.STASH_TEST_CFG_EN
  let d1 := d.plainWrite R.STASH_TEST_CFG v
  if d1.b R.STASH_TEST_CFG F.STASH_TEST_CFG_EN && !was then d1.modStash fun x => { x with tests := [] } else d1

/-! The commands. -/

def execBankHandover (c b : Fin 16) (v : Word) (s : State) : Host.Outcome State Fault Refusal :=
  s.run fun d => d.bankHandover (16 * c + b) v

def execHandoverDone (c b : Fin 16) (s : State) : Host.Outcome State Fault Refusal := s.run fun d => d.handoverDone (16 * c + b)

/-- STASH_BANK_GRANT (R439): one core cycle of a bank, with the requests that reach it in that cycle. -/
def execStashBankGrant (c b : Fin 16) (new : List BankReq) (s : State) : Host.Outcome State Fault Refusal :=
  s.run fun d => d.bankGrant (16 * c + b) new

def execUrgentPromote (c b : Fin 16) (s : State) : Host.Outcome State Fault Refusal := s.run fun d => d.urgentPromote (16 * c + b)

def execStashTestStep (c : Fin 16) (fails : Bool) (s : State) : Host.Outcome State Fault Refusal := s.run fun d => d.testStep c fails

def execStashTestEnable (v : Word) (s : State) : Host.Outcome State Fault Refusal := s.run fun d => d.testCfgWrite v

end Sys2Proof.Machine
end

