-- ==== Sys2Proof/Machine/Addr.lean ====
section
/-! DEFINITION. Address decoding (spec/02): BAR0 (R51, R52) and the device address space (R54, R55). -/

namespace Sys2Proof.Machine

/-- The register blocks: index, base and end (R52). -/
def blockTable : List (Nat × Nat × Nat) :=
  [(0, 0x000000, 0x010000), (1, 0x010000, 0x020000), (2, 0x020000, 0x030000), (3, 0x040000, 0x050000),
   (4, 0x050000, 0x060000), (5, 0x060000, 0x070000), (6, 0x100000, 0x130000), (7, 0x140000, 0x158000),
   (8, 0x180000, 0x1C0000), (9, 0x200000, 0x300000), (10, 0x300000, 0x310000), (11, 0x340000, 0x350000),
   (12, 0x380000, 0x390000), (13, 0x3C0000, 0x3D0000), (14, 0x400000, 0x410000), (15, 0x440000, 0x450000)]

/-- The block that decodes a register offset. -/
def blockOf (off : Nat) : Option Nat := (blockTable.find? (fun b => decide (b.2.1 ≤ off) && decide (off < b.2.2))).map (·.1)

/-- What an offset of BAR0 selects: a register of a block, engine scratch or Stash, plain or through an alias, or nothing. -/
inductive BarTarget where
  | reg (blk off : Nat)
  | scratch (op : BankOp) (e off : Nat)
  | stash (op : BankOp) (c off : Nat)
  | hole
deriving DecidableEq, Repr

/-- What an offset in the plain range of R51 selects. -/
def plainDecode (op : BankOp) (x : Nat) : BarTarget :=
  if 0x4000000 ≤ x ∧ x < 0x4800000 then .scratch op ((x - 0x4000000) / scratchSize) ((x - 0x4000000) % scratchSize)
  else if 0x5000000 ≤ x ∧ x < 0x7000000 then .stash op ((x - 0x5000000) / stashSize) ((x - 0x5000000) % stashSize)
  else .hole

/-- The decoding of BAR0 (R51). -/
def barDecode (x : Nat) : BarTarget :=
  if x < 0x1000000 then
    match blockOf x with
    | some b => .reg b x
    | none => .hole
  else if x < 0x4000000 then .hole
  else if x < 0x8000000 then plainDecode .plain x
  else if x < 0xC000000 then plainDecode .set (x - 0x4000000)
  else if x < 0x10000000 then plainDecode .clear (x - 0x8000000)
  else .hole

/-- An alias address folded onto its plain address (R487). -/
def foldAlias (x : Nat) : Nat := if x < 0x8000000 then x else if x < 0xC000000 then x - 0x4000000 else x - 0x8000000

/-- What a device address selects (R54). -/
inductive DaTarget where
  | host (iova : Nat)
  | peer (n da : Nat)
  | skein (a : Nat)
  | bar (x : Nat)
  | none
deriving DecidableEq, Repr

def daDecode (da : Nat) : DaTarget :=
  if 2 ^ 63 ≤ da then .host (da - 2 ^ 63)
  else if 2 ^ 62 ≤ da then .peer (da / 2 ^ 56 % 64) (da % 2 ^ 56)
  else if da < 0x10_0000_0000 then .skein da
  else if da < 0x10_1000_0000 then .bar (da - 0x10_0000_0000)
  else .none

/-- The contiguous decoded ranges of BAR0: first offset and end. -/
def barRanges : List (Nat × Nat) :=
  [(0x000000, 0x030000), (0x040000, 0x070000), (0x100000, 0x130000), (0x140000, 0x158000), (0x180000, 0x1C0000),
   (0x200000, 0x310000), (0x340000, 0x350000), (0x380000, 0x390000), (0x3C0000, 0x3D0000), (0x400000, 0x410000),
   (0x440000, 0x450000), (0x4000000, 0x4800000), (0x5000000, 0x7000000), (0x8000000, 0x8800000), (0x9000000, 0xB000000),
   (0xC000000, 0xC800000), (0xD000000, 0xF000000)]

/-- Whether a range of device addresses lies within one row of R54 and meets no decode error of R53 or R55. -/
def Dev.rangeDecodes (lo hi : Int) (d : Dev) : Bool :=
  if lo < 0 ∨ hi < lo ∨ (2 : Int) ^ 64 ≤ hi then false
  else match daDecode lo.toNat, daDecode hi.toNat with
    | .host _, .host _ => true
    | .peer _ _, .peer _ _ => true
    | .skein _, .skein b => decide (b < d.skein.cap)
    | .bar a, .bar b => barRanges.any (fun r => decide (r.1 ≤ a) && decide (b < r.2))
    | _, _ => false

/-- The space of a decoded range and its first and last address there, aliases folded (R487). -/
def spaceOf (lo hi : Nat) : Nat × Nat × Nat :=
  match daDecode lo with
  | .host a => (0, a, a + (hi - lo))
  | .skein a => (1, a, a + (hi - lo))
  | .bar x => (2, foldAlias x, foldAlias x + (hi - lo))
  | .peer n a => (3 + n, a, a + (hi - lo))
  | .none => (0xFFFF, lo, hi)

end Sys2Proof.Machine
end

