-- ==== Sys2Proof/Machine/HookCore.lean ====
section
/-! DEFINITION. Hook's channels up to the movement of data (spec/14): GO, the descriptor checks, buffer slots, ABORT, the end
report and resets. -/

namespace Sys2Proof.Machine

def Dev.hookCh (ch : Nat) (d : Dev) : HookCh := d.hook.chs.get (fun _ => HookCh.init) ch

def Dev.setHook (ch : Nat) (x : HookCh) (d : Dev) : Dev :=
  { d with hook := { d.hook with chs := d.hook.chs.set (fun _ => HookCh.init) ch x } }

def Dev.modHook (ch : Nat) (g : HookCh → HookCh) (d : Dev) : Dev := d.setHook ch (g (d.hookCh ch))

/-! The descriptor (R484, R485). -/

/-- The element size in bytes. -/
def HookDesc.size (q : HookDesc) : Nat := 4 * 2 ^ q.esize

/-- The number of elements. -/
def HookDesc.total (q : HookDesc) : Nat := q.count.getD 0 0 * q.count.getD 1 0 * q.count.getD 2 0

/-- The indices of element `n`. -/
def HookDesc.index (q : HookDesc) (n : Nat) : Nat × Nat × Nat :=
  let c0 := q.count.getD 0 1
  let c1 := q.count.getD 1 1
  (n % c0, n / c0 % c1, n / (c0 * c1))

/-- The address of an element on one side. -/
def sideAddr (base : Nat) (steps : List Int) (i : Nat × Nat × Nat) : Int :=
  base + i.1 * steps.getD 0 0 + i.2.1 * steps.getD 1 0 + i.2.2 * steps.getD 2 0

def HookDesc.srcOf (q : HookDesc) (n : Nat) : Nat := (sideAddr q.src q.sstep (q.index n)).toNat

def HookDesc.dstOf (q : HookDesc) (n : Nat) : Nat := (sideAddr q.dst q.dstep (q.index n)).toNat

/-- The footprint of a side: its first and its last byte. -/
def HookDesc.footprint (q : HookDesc) (base : Nat) (steps : List Int) : Int × Int :=
  let reach := fun (k : Nat) => ((q.count.getD k 0 : Int) - 1) * steps.getD k 0
  let rs := [reach 0, reach 1, reach 2]
  ((base : Int) + (rs.map (fun r => min r 0)).sum, (base : Int) + (rs.map (fun r => max r 0)).sum + q.size - 1)

/-- Whether some element of a side lies in the register range. -/
def HookDesc.inRegs (q : HookDesc) (base : Nat) (steps : List Int) : Bool :=
  let f := q.footprint base steps
  if f.2 < 0x10_0000_0000 ∨ 0x10_00FF_FFFF < f.1 then false
  else (List.range (q.count.getD 2 0)).any fun i2 => (List.range (q.count.getD 1 0)).any fun i1 =>
    (List.range (q.count.getD 0 0)).any fun i0 =>
      let a := sideAddr base steps (i0, i1, i2)
      decide (0x10_0000_0000 ≤ a) && decide (a ≤ 0x10_00FF_FFFF)

/-- The descriptor registers of a channel. -/
def Dev.hookDesc (ch : Nat) (d : Dev) : HookDesc :=
  let cfg := d.rd (R.HOOK_CFG ch)
  { src := (d.rd64 (R.HOOK_SRC ch)).toNat, dst := (d.rd64 (R.HOOK_DST ch)).toNat,
    count := (List.range 3).map (fun k => d.f (R.HOOK_COUNT ch k) ⟨0, 16⟩),
    sstep := (List.range 3).map (fun k => (d.rd (R.HOOK_SSTEP ch k)).toInt),
    dstep := (List.range 3).map (fun k => (d.rd (R.HOOK_DSTEP ch k)).toInt),
    esize := fld cfg F.HOOK_CFG_ESIZE, barrier := fld cfg F.HOOK_CFG_BARRIER = 1, overlap := fld cfg F.HOOK_CFG_OVERLAP_OK = 1,
    prio := fld cfg F.HOOK_CFG_PRIO, slots := max 1 (fld cfg F.HOOK_CFG_SLOTS),
    resv := (R.HOOK_CFG ch :: (List.range 3).map (R.HOOK_COUNT ch)).any (fun o => d.hook.resv.get (fun _ => 0) o != 0) }

/-! The checks (R486, R487). -/

/-- Whether the footprints overlap. -/
def HookDesc.overlaps (q : HookDesc) : Bool :=
  let s := q.footprint q.src q.sstep
  let t := q.footprint q.dst q.dstep
  let a := spaceOf s.1.toNat s.2.toNat
  let b := spaceOf t.1.toNat t.2.toNat
  a.1 == b.1 && decide (a.2.1 ≤ b.2.2) && decide (b.2.1 ≤ a.2.2)

/-- The bytes of the source footprint. -/
def HookDesc.srcSpan (q : HookDesc) : Nat :=
  let s := q.footprint q.src q.sstep
  (s.2 - s.1 + 1).toNat

/-- The first failing check of a descriptor (R486), 0 when all pass. -/
def Dev.hookCheck (q : HookDesc) (d : Dev) : Nat :=
  let e : Int := q.size
  let s := q.footprint q.src q.sstep
  let t := q.footprint q.dst q.dstep
  if 4 < q.esize ∨ q.count.any (· == 0) ∨ q.resv then 2
  else if (q.src : Int) % e ≠ 0 ∨ (q.dst : Int) % e ≠ 0 ∨ (q.sstep ++ q.dstep).any (fun v => v % e != 0)
      ∨ (q.size ≠ 4 ∧ (q.inRegs q.src q.sstep ∨ q.inRegs q.dst q.dstep)) then 3
  else if !d.rangeDecodes s.1 s.2 ∨ !d.rangeDecodes t.1 t.2 then 4
  else if q.overlaps ∧ (!q.overlap ∨ 65536 < q.srcSpan) then 5
  else 0

/-! The end report (R493, R494). -/

/-- Bit of HOOK_ERR that reports a RESULT. -/
def hookErrBit (result : Nat) : Nat := result - 2

/-- Sets bit ch of HOOK_IRQ_STATUS; the vector is sent when its enabled bit changes from 0 to 1. -/
def Dev.hookIrq (ch : Nat) (d : Dev) : Dev :=
  let d1 := d.sf R.HOOK_IRQ_STATUS (bitF ch) 1
  if d.f R.HOOK_IRQ_STATUS (bitF ch) = 0 ∧ d1.f R.HOOK_IRQ_EN (bitF ch) = 1 then d1.message (65 + ch) else d1

/-- Requests of a channel that are still outstanding when its transfer ends belong to no transfer: their data and errors are
discarded. -/
def Dev.orphanHook (ch : Nat) (d : Dev) : Dev :=
  let host := fun (q : OutReq) => match q.kind with
    | .hook c n => if c = ch then { q with kind := .hook 16 n } else q
    | .desc _ _ => q
    | .xlate _ _ _ => q
  let peer := fun (q : FabReq) => match q.use with
    | .read c n p => if c = ch then { q with use := .read 16 n p } else q
    | .write c n b => if c = ch then { q with use := .write 16 n b } else q
  { d with host := { d.host with reqs := d.host.reqs.map host }, fab := { d.fab with reqs := d.fab.reqs.map peer } }

/-- The one end report of a transfer: its RESULT and the first element not written. -/
def Dev.hookEnd (ch result first da : Nat) (d : Dev) : Dev :=
  let x := d.hookCh ch
  let n := x.desc.total
  let i := if result = 0 ∨ first = 0 ∨ n ≤ first then (0, 0, 0) else x.desc.index first
  let remain := if result = 0 then 0 else n - first
  let d1 := ((((d.orphanHook ch).setHook ch { HookCh.init with desc := x.desc, staged := x.staged }).sf (R.HOOK_CH_STATUS ch)
      F.HOOK_CH_STATUS_RESULT result).wr64 (R.HOOK_REMAIN ch) (BitVec.ofNat 64 remain)).wr64 (R.HOOK_RESIDUE ch)
      (BitVec.ofNat 64 (i.1 + i.2.1 * 2 ^ 16 + i.2.2 * 2 ^ 32))
  let d2 := (d1.sb (R.HOOK_CH_STATUS ch) F.HOOK_CH_STATUS_DONE true).bump (R.HOOK_CH_CNT ch) F.HOOK_CH_CNT_END_CNT 1
  let d3 := if 2 ≤ result then (d2.bump (R.HOOK_CH_CNT ch) F.HOOK_CH_CNT_ERR_CNT 1).err 11 R.HOOK_ERR (hookErrBit result) else d2
  let d4 := if 6 ≤ result then d3.wr64 (R.HOOK_FAIL_DA ch) (BitVec.ofNat 64 da) else d3
  (d4.hookIrq ch).publish (Src.hookDone ch) 0

/-! Buffer slots (R488, R489). -/

/-- The slots a channel holds. -/
def HookCh.held (x : HookCh) : Nat := if x.staged then x.slots else x.bursts.length

def Dev.freeSlots (d : Dev) : Nat := 64 - ((List.range 16).map (fun ch => (d.hookCh ch).held)).sum

/-- The staged channel that has waited longest for slots. -/
def Dev.oldestWaiting (d : Dev) : Option Nat :=
  (List.range 16).foldl (fun acc ch =>
    let x := d.hookCh ch
    if x.state ≠ .waitBuf ∨ 16 ≤ x.slots then acc
    else match acc with
      | none => some ch
      | some k => if x.waitAt < (d.hookCh k).waitAt then some ch else some k) none

/-- Free slots go to the oldest waiting staged channel until it holds 16. -/
def Dev.feedWaiting : Nat → Dev → Dev
  | 0, d => d
  | fuel + 1, d =>
    match d.oldestWaiting with
    | none => d
    | some ch =>
      let k := min d.freeSlots (16 - (d.hookCh ch).slots)
      if k = 0 then d else (d.modHook ch fun x => { x with slots := x.slots + k }).feedWaiting fuel

/-! The completion point and the end of a transfer that runs (R492, R495 to R497). -/

/-- Whether every write of the transfer has reached its completion point. -/
def HookCh.settled (x : HookCh) : Bool := !x.desc.barrier || (x.acks == 0 && x.remote == 0)

/-- What follows once no burst of the transfer is left: the report in DRAIN, FLUSH or the report in RUN. -/
def Dev.hookAdvance (ch : Nat) (d : Dev) : Dev :=
  let x := d.hookCh ch
  match x.state with
  | .drain =>
    if x.bursts.isEmpty && x.settled then
      match x.fail with
      | some f => (d.hookEnd ch f.1 f.2.1 f.2.2).feedWaiting 16
      | none => d
    else d
  | .run =>
    if x.wrote = x.desc.total ∧ x.bursts = [] then
      if x.settled then (d.hookEnd ch 0 0 0).feedWaiting 16 else d.modHook ch fun y => { y with state := .flush }
    else d
  | .flush => if x.settled then (d.hookEnd ch 0 0 0).feedWaiting 16 else d
  | _ => d

/-- An error of a transfer at element `first` (R497): bursts from it on are dropped, those before it complete. -/
def Dev.hookFail (ch result first da : Nat) (d : Dev) : Dev :=
  let x := d.hookCh ch
  let worse := match x.fail with
    | some f => f.1 == 1 || decide (first < f.2.1)
    | none => true
  if (x.state = .run ∨ x.state = .drain ∨ x.state = .flush) ∧ worse = true then
    ((d.setHook ch
      { x with state := .drain, fail := some (result, first, da),
               bursts := if x.staged then [] else x.bursts.filter (fun b => decide (b.first < first)),
               slots := 0 }).feedWaiting 16).hookAdvance ch
  else d

/-- The number that stands for the read of R492 in place of a burst's first element. -/
def barrierMark : Nat := 2 ^ 60

/-- The DA that a burst of a channel reads. -/
def HookCh.readDa (x : HookCh) (first : Nat) : Nat :=
  if x.staged then (x.desc.footprint x.desc.src x.desc.sstep).1.toNat + first else x.desc.srcOf first

/-- An error of a read: a staged transfer has written nothing. -/
def Dev.hookReadFail (ch result first da : Nat) (d : Dev) : Dev :=
  d.hookFail ch result (if (d.hookCh ch).staged ∧ first ≠ barrierMark then 0 else first) da

/-- Whether no burst of a channel is left to issue. -/
def HookCh.issuedAll (x : HookCh) : Bool := if x.staged then x.desc.srcSpan ≤ x.next else x.desc.total ≤ x.next

/-- A GO or ABORT that is discarded (R483). -/
def Dev.hookRefused (d : Dev) : Dev := (d.bump R.HOOK_CNT0 F.HOOK_CNT0_CTL_REFUSED_CNT 1).err 11 R.HOOK_ERR 8

/-- An ABORT of a channel (R495, R496). -/
def Dev.hookAbort (ch : Nat) (d : Dev) : Dev :=
  let x := d.hookCh ch
  let late := d.sb (R.HOOK_CH_STATUS ch) F.HOOK_CH_STATUS_ABORT_LATE true
  match x.state with
  | .idle => if d.b (R.HOOK_CH_STATUS ch) F.HOOK_CH_STATUS_DONE then late else d.hookRefused
  | .check => d.hookEnd ch 1 0 0
  | .waitBuf => (d.hookEnd ch 1 0 0).feedWaiting 16
  | .run =>
    if x.issuedAll then late
    else if x.staged then
      ((d.setHook ch { x with state := .drain, fail := some (1, 0, 0), bursts := [], slots := 0 }).feedWaiting 16).hookAdvance ch
    else (d.setHook ch { x with state := .drain, fail := some (1, x.next, 0) }).hookAdvance ch
  | .drain => d
  | .flush => late

/-- A GO of a channel (R483, R503). -/
def Dev.hookGo (ch : Nat) (d : Dev) : Dev :=
  if (d.hookCh ch).state ≠ .idle ∨ d.glb.bindoff = .inProgress ∨ d.pwr.state ≠ .active then d.hookRefused
  else
    (([F.HOOK_CH_STATUS_DONE, F.HOOK_CH_STATUS_ABORT_LATE, F.HOOK_CH_STATUS_STAGED, F.HOOK_CH_STATUS_COLLIDE].foldl
      (fun y f => y.sb (R.HOOK_CH_STATUS ch) f false) d)).setHook ch { HookCh.init with state := .check, desc := d.hookDesc ch }

/-- A write of HOOK_CH_CTL(ch) by a master (R483). -/
def Dev.hookCtlWrite (master ch : Nat) (v : Word) (d : Dev) : Dev :=
  let go := fld v F.HOOK_CH_CTL_GO = 1
  let abort := fld v F.HOOK_CH_CTL_ABORT = 1
  if 0x10 ≤ master ∧ master ≤ 0x1F then d.deny master true (denyAddr master (R.HOOK_CH_CTL ch))
  else if go ∧ abort then d.hookRefused
  else if go then d.hookGo ch
  else if abort then d.hookAbort ch
  else d

/-- The checks of a channel end (R486, R487). -/
def Dev.hookChecked (ch : Nat) (d : Dev) : Dev :=
  let x := d.hookCh ch
  if x.state ≠ .check then d
  else
    let r := d.hookCheck x.desc
    if r ≠ 0 then d.hookEnd ch r 0 0
    else if x.desc.overlaps then
      ((d.sb (R.HOOK_CH_STATUS ch) F.HOOK_CH_STATUS_STAGED true).setHook ch
        { x with state := .waitBuf, staged := true, waitAt := d.now }).feedWaiting 16
    else d.setHook ch { x with state := .run }

/-- A staged channel holds its 16 slots. -/
def Dev.hookSlots (ch : Nat) (d : Dev) : Dev :=
  let x := d.hookCh ch
  if x.state = .waitBuf ∧ 16 ≤ x.slots then d.setHook ch { x with state := .run } else d

/-- `n` free bytes. -/
def Dev.freshBytes (n : Nat) (d : Dev) : List Byte × Dev :=
  ((List.range n).map (fun i => Config.freeBits 8 (d.free + i)), { d with free := d.free + n })

/-- The bytes of a device range become free values, where the Talom holds them. -/
def Dev.spoilRange (da n : Nat) (d : Dev) : Dev :=
  let r := d.freshBytes n
  match daDecode da with
  | .skein a => r.2.modSkein fun x => { x with mem := x.mem.setBytes zeroByte a r.1 }
  | .bar y => match barDecode (foldAlias y) with
    | .scratch _ e off => r.2.scratchPut e off r.1
    | .stash _ c off => r.2.stashPut c off r.1
    | _ => d
  | _ => d

/-- HOOK_CTL.RESET and a function-level reset (R502): the bytes of a running transfer's destination footprint are undefined. -/
def Dev.hookReset (d : Dev) : Dev :=
  (List.range 16).foldl (fun w ch =>
    let x := w.hookCh ch
    if x.state = .idle then w
    else
      let t := x.desc.footprint x.desc.dst x.desc.dstep
      let y := if x.state = .run ∨ x.state = .drain ∨ x.state = .flush then w.spoilRange t.1.toNat (t.2 - t.1 + 1).toNat else w
      (((y.sf (R.HOOK_CH_STATUS ch) F.HOOK_CH_STATUS_RESULT 9).sb (R.HOOK_CH_STATUS ch) F.HOOK_CH_STATUS_DONE false).orphanHook ch).setHook ch
      { HookCh.init with desc := x.desc }) d

/-- A software write to HOOK_IRQ_STATUS or HOOK_IRQ_EN (R494). -/
def Dev.hookIrqWrite (en : Bool) (v : Word) (d : Dev) : Dev :=
  let d1 := d.plainWrite (if en then R.HOOK_IRQ_EN else R.HOOK_IRQ_STATUS) v
  (List.range 16).foldl (fun y ch =>
    if y.f R.HOOK_IRQ_STATUS (bitF ch) = 1 ∧ y.f R.HOOK_IRQ_EN (bitF ch) = 1 then y.message (65 + ch) else y) d1

/-! Live registers (R506, R508). -/

def HookState.code : HookState → Nat
  | .idle => 0
  | .check => 1
  | .waitBuf => 2
  | .run => 3
  | .drain => 4
  | .flush => 5

/-- HOOK_CH_STATUS(ch) as it reads. -/
def Dev.hookChStatus (ch : Nat) (d : Dev) : Word :=
  let x := d.hookCh ch
  setFld (setFld (d.rd (R.HOOK_CH_STATUS ch)) F.HOOK_CH_STATUS_STATE x.state.code) F.HOOK_CH_STATUS_BUSY
    (if x.state = .idle then 0 else 1)

/-- HOOK_STATUS as it reads. -/
def Dev.hookStatus (d : Dev) : Word :=
  BitVec.ofNat 32 (d.freeSlots * 2 ^ 16 + ofBits ((List.range 16).map (fun ch => ((d.hookCh ch).state != .idle, ch))))

/-! The commands. -/

def execHookGo (master : Nat) (ch : Fin 16) (abort : Bool) (s : State) : Host.Outcome State Fault Refusal :=
  s.run fun d => d.hookCtlWrite master ch (if abort then 3 else 1)

def execHookAbort (master : Nat) (ch : Fin 16) (s : State) : Host.Outcome State Fault Refusal :=
  s.run fun d => d.hookCtlWrite master ch 2

def execHookCheckDone (ch : Fin 16) (s : State) : Host.Outcome State Fault Refusal := s.run fun d => d.hookChecked ch

def execHookSlotsGranted (ch : Fin 16) (s : State) : Host.Outcome State Fault Refusal := s.run fun d => d.hookSlots ch

def execHookReset (v : Word) (s : State) : Host.Outcome State Fault Refusal :=
  s.run fun d => if fld v F.HOOK_CTL_RESET = 1 then d.hookReset else d

def execHookIrqWrite (en : Bool) (v : Word) (s : State) : Host.Outcome State Fault Refusal := s.run fun d => d.hookIrqWrite en v

end Sys2Proof.Machine
end

