-- ==== Sys2Proof/Machine/CarModel.lean ====
section
/-! DEFINITION. The sensor-delay model and its parameter sets (R297 to R305): submission, issue, effect and failure, and the
PSID of a frame. -/

namespace Sys2Proof.Machine

/-! Submission (R298 to R300). -/

/-- The control commands of a set (R300): writes to consecutive addresses go in one command. -/
def setCommands (ws : List (Nat × Nat)) : List (Nat × List Nat) :=
  ws.foldl (fun acc w => match acc.getLast? with
    | some q => if w.1 = q.1 + 4 * q.2.length then acc.dropLast ++ [(q.1, q.2 ++ [w.2])] else acc ++ [(w.1, [w.2])]
    | none => [(w.1, [w.2])]) []

/-- The predicted duration P in nanoseconds (R193, R300): characters of 480 or 240 ns, and ACK_LAT for each command. -/
def setDuration (fast : Bool) (ackLat : Nat) (cmds : List (Nat × List Nat)) : Nat :=
  (cmds.map (fun q => (32 + 4 * (q.2.length - 1) + 1) * (if fast then 240 else 480) + ackLat * 1000)).sum

/-- Submission of a set: whether it is accepted, and the device. -/
def Dev.submitSet (cam : Nat) (job : Bool) (cpb : Nat) (ws : List (Nat × Nat)) (kind axis : Nat) (tgt : Int) (d : Dev) : Bool × Dev :=
  let x := d.carCam cam
  let cfg := d.rd (R.CAR_MDL_CFG cam)
  let win := d.rd (R.CAR_MDL_WIN cam)
  let m := d.conn (d.masterConn cam)
  let jobPending := match x.pending with
    | some q => q.job
    | none => false
  let lines := fld cfg F.CAR_MDL_CFG_UNIT = 1
  let lo := if lines then 0 else fld win F.CAR_MDL_WIN_WIN_START
  let hi := fld win F.CAR_MDL_WIN_WIN_END
  let cmds := setCommands ws
  let p := setDuration m.upRate (fld cfg F.CAR_MDL_CFG_ACK_LAT) cmds
  if fld cfg F.CAR_MDL_CFG_EN = 0 ∨ 16 < ws.length ∨ !m.state.live ∨ jobPending = true then (false, d.setResult cam 3)
  else if ¬ lines ∧ (hi : Int) * 1000 - lo * 1000 < p then (false, d.setResult cam 1)
  else
    let psid := (x.psid + 1) % 65536
    let rec_ : SetRec :=
      { psid := psid, job := job, cpb := cpb, cmds := cmds, kind := kind, axis := axis, tgt := tgt,
        delay := fld cfg F.CAR_MDL_CFG_DELAY, lines := lines, winLo := lo * 1000, winHi := hi * 1000, dur := p, at_ := d.ts }
    let d1 := if x.pending.isSome then d.bump (R.CAR_MDL_CNT cam) F.CAR_MDL_CNT_SUPERSEDED_CNT 1 else d
    (true, (((d1.setCarCam cam { x with psid := psid, pending := some rec_ }).sf (R.CAR_MDL_STATUS cam) ⟨0, 16⟩ psid).sf
      (R.CAR_SET_STATUS cam) F.CAR_SET_STATUS_PSID psid).sb (R.CAR_SET_STATUS cam) F.CAR_SET_STATUS_PENDING true)

/-- A write of CAR_SET_CTL(cam) (R298, R317). -/
def Dev.carSetCtlWrite (cam : Nat) (v : Word) (d : Dev) : Dev :=
  let d1 := d.plainWrite (R.CAR_SET_CTL cam) v
  if fld v F.CAR_SET_CTL_GO = 0 then d1
  else
    let n := fld v F.CAR_SET_CTL_COUNT
    let ws := (List.range n).map (fun j =>
      let w := d1.rd64 (R.CAR_SET_W cam (j % 16))
      ((DWord.lo w).toNat, (DWord.hi w).toNat))
    let k := fld v F.CAR_SET_CTL_TGT_KIND
    (d1.submitSet cam false (d1.rd64 (R.CAR_SET_CPB cam)).toNat ws (if k = 3 then 0 else k) (fld v F.CAR_SET_CTL_AXIS)
      (d1.int64 (R.CAR_SET_TGT cam))).2

/-! Issue (R301). -/

/-- The trigger in whose window a set may start now: the newest one, when the start and the start plus P lie in its window. -/
def Dev.openWindow (cam : Nat) (q : SetRec) (d : Dev) : Option (Nat × Int × Int × Nat) :=
  match d.triggers cam with
  | f :: _ =>
    if f.2.1 + q.winLo ≤ d.ts ∧ (q.lines ∨ (d.ts : Int) + q.dur ≤ f.2.1 + q.winHi) then some f else none
  | [] => none

/-- Whether the trigger `f` is at or after the one in whose window the set should issue, and whether it is later. -/
def Dev.setTarget (cam : Nat) (q : SetRec) (f : Nat × Int × Int × Nat) (d : Dev) : Bool × Bool :=
  match q.kind with
  | 1 =>
    let t := (q.tgt % (2 : Int) ^ 32).toNat
    let g := (f.1 + q.delay) % 2 ^ 32
    (seqLe t g, g != t && !q.lines)
  | 2 =>
    let from_ := q.tgt - q.delay * d.int64 (R.CAR_MDL_PITCH cam)
    let meets := fun (g : Nat × Int × Int × Nat) => g.2.2.2 == q.axis && decide (from_ ≤ g.2.2.1)
    (meets f, (match (d.triggers cam).reverse.find? meets with
      | some g => decide (g ≠ f)
      | none => false))
  | _ => (true, false)

/-- The first write of the pending set starts (R301): its commands go to the uplink of the master connection. `late` says
for UNIT lines, where the frame's first line is not yet known, that the trigger is later than the target's. -/
def Dev.setIssue (cam : Nat) (late : Bool) (d : Dev) : Dev :=
  let x := d.carCam cam
  match x.pending with
  | none => d
  | some q =>
    if x.issuing.isSome ∨ d.pwr.state ≠ .active then d
    else match d.openWindow cam q with
      | none => d
      | some f =>
        let t := d.setTarget cam q f
        if !t.1 then d
        else
          let d1 := if t.2 || (q.lines && late) then d.setLate cam q.job else d
          let m := d1.masterConn cam
          let y := d1.conn m
          let d2 := (((d1.setCarCam cam { d1.carCam cam with pending := none, issuing := some q, done := 0, first := none }).setConn m
            { y with setQ := y.setQ ++ q.cmds.map (fun c => (cam, c.1, c.2)) }).sb (R.CAR_SET_STATUS cam)
            F.CAR_SET_STATUS_PENDING false).sb (R.CAR_SET_STATUS cam) F.CAR_SET_STATUS_ISSUING true
          if q.cmds = [] then d2.setEnd cam 0 else d2

/-- A pending splice set is withdrawn (R416). -/
def Dev.withdrawSet (cam : Nat) (d : Dev) : Dev :=
  (d.modCarCam cam fun x => { x with pending := none }).sb (R.CAR_SET_STATUS cam) F.CAR_SET_STATUS_PENDING false

/-! The PSID of a frame (R303). -/

/-- Whether a set's effects make a frame from `first` to `last` carry PSID_MISMATCH: its first write was in effect before its
last, or an effect lies within the frame. -/
def SetEffect.splits (e : SetEffect) (first last : Nat) : Bool :=
  (seqLe e.first first && !seqLe e.eff first) || (!seqLe e.first first && seqLe e.first last) ||
    (!seqLe e.eff first && seqLe e.eff last)

/-- The psid of a frame whose trigger_seq, or that of its first and last lines, is given, and whether it carries
PSID_MISMATCH. -/
def Dev.framePsid (cam first last : Nat) (d : Dev) : Nat × Bool :=
  if !d.b (R.CAR_MDL_CFG cam) F.CAR_MDL_CFG_EN then (0, false)
  else
    let es := (d.carCam cam).effects
    match es.find? (fun e => seqLe e.eff first) with
    | some e => (e.psid, e.failed || es.any (fun y => y.splits first last))
    | none => (0, es.any (fun y => y.splits first last))

/-- The value that the sets in effect for a frame last wrote to a camera register, if any did (R305). -/
def Dev.shadowOf (cam first addr : Nat) (d : Dev) : Option Nat :=
  (((d.carCam cam).effects.filter (fun e => seqLe e.eff first)).findSome? (fun e =>
    (e.writes.reverse.find? (fun w => w.1 == addr)).map (·.2)))

/-! The commands. -/

/-- CAR_SET_GO: a write of CAR_SET_CTL(cam) with GO. -/
def execCarSetGo (cam : Fin 48) (v : Word) (s : State) : Host.Outcome State Fault Refusal :=
  s.run fun d => d.carSetCtlWrite cam (v ||| 0x80000000)

def execSetIssueStart (cam : Fin 48) (late : Bool) (s : State) : Host.Outcome State Fault Refusal :=
  s.run fun d => d.setIssue cam late

end Sys2Proof.Machine
end

