-- ==== Sys2Proof/Machine/Ply.lean ====
section
/-! DEFINITION. Ply queues (R229 to R243): pointers, commit and frogging, marks and forfeits. Queue resets, which close frames, are
in Machine/Asm.lean. -/

namespace Sys2Proof.Machine

def Dev.ply (q : Nat) (d : Dev) : Ply := d.asm.plys.get (fun _ => Ply.init) q

def Dev.setPly (q : Nat) (x : Ply) (d : Dev) : Dev :=
  { d with asm := { d.asm with plys := d.asm.plys.set (fun _ => Ply.init) q x } }

def Dev.modPly (q : Nat) (g : Ply → Ply) (d : Dev) : Dev := d.setPly q (g (d.ply q))

def Dev.setAsmCam (c : Nat) (x : AsmCam) (d : Dev) : Dev :=
  { d with asm := { d.asm with cams := d.asm.cams.set (fun _ => AsmCam.init) c x } }

def Dev.modAsmCam (c : Nat) (g : AsmCam → AsmCam) (d : Dev) : Dev := d.setAsmCam c (g (d.asmCam c))

/-- An ASM_ERR(i) bit is set; ASM_ERR is published when an unmasked bit rises (R264). -/
def Dev.asmErr (i bit : Nat) (d : Dev) : Dev :=
  let rise := d.f (R.ASM_ERR i) (bitF bit) = 0 ∧ d.f (R.ASM_ERR_MASK i) (bitF bit) = 0
  let d1 := d.err 7 (R.ASM_ERR i) bit
  if rise then d1.publish Src.asmErr 0 else d1

/-- The entries of a queue. -/
def plyDepth : Nat := 8192

/-- The marks that hold space. -/
def Ply.live (p : Ply) : List Mark := p.marks.filter (fun m => !m.lost)

/-- The release pointer: the oldest of the read pointer and the marks held (R230). -/
def Ply.release (p : Ply) : Nat := p.live.foldl (fun a m => min a m.entry) p.read

/-- The entries the writer may use (R235). -/
def Ply.free (p : Ply) : Nat := plyDepth - (p.commit - p.release)

/-- Packets wholly behind the release pointer are gone. -/
def Ply.trim (p : Ply) : Ply := { p with packets := p.packets.filter (fun k => decide (p.release < k.start + k.len)) }

/-! Marks (R239 to R241). -/

/-- A mark request: the mark's number and place, or none when four are held. -/
def Dev.markRequest (q entry : Nat) (holder : MarkHolder) (epoch cam frame : Nat) (d : Dev) : Option (Nat × Nat) × Dev :=
  let p := d.ply q
  if 4 ≤ p.live.length then (none, d)
  else
    let slot := ((List.range 4).find? (fun k => !p.live.any (fun m => m.slot == k))).getD 0
    let m : Mark :=
      { id := p.nextMark, slot := slot, entry := max p.release (min entry p.read), holder := holder, epoch := epoch, lost := false,
        cam := cam, frame := frame }
    (some (p.nextMark, slot), d.setPly q { p with marks := p.marks ++ [m], nextMark := p.nextMark + 1 })

/-- A mark is gone: released by its holder, or known as lost. -/
def Dev.markDrop (q id : Nat) (d : Dev) : Dev :=
  d.modPly q fun p => Ply.trim { p with marks := p.marks.filter (fun m => m.id ≠ id) }

/-- MARK_LOST reaches the tag of the frame that holds the marked line, or the next tag of that camera. -/
def Dev.tagMarkLost (cam frame : Nat) (d : Dev) : Dev :=
  let x := d.asmCam cam
  match x.openF with
  | some f =>
    if f.seq = frame then
      d.setAsmCam cam { x with openF := some { f with flags := if bitOf f.flags 5 then f.flags else f.flags + 32 } }
    else d.setAsmCam cam { x with markLost := true }
  | none => d.setAsmCam cam { x with markLost := true }

/-- One mark is forfeited (R241). -/
def Dev.forfeit (q : Nat) (m : Mark) (d : Dev) : Dev :=
  let p := d.ply q
  let d1 := d.setPly q (Ply.trim { p with marks := p.marks.map (fun k => if k.id = m.id then { k with lost := true } else k) })
  ((d1.bump (R.ASM_CNT1 q) F.ASM_CNT1_MARK_LOST_CNT 1).asmErr q 2).tagMarkLost m.cam m.frame

/-- The oldest mark held. -/
def Ply.oldestMark (p : Ply) : Option Mark :=
  p.live.foldl (fun acc m => match acc with
    | none => some m
    | some k => if m.entry < k.entry then some m else some k) none

/-- FORFEIT in entries; below 4 KiB it is treated as 4 KiB (R270). -/
def Dev.forfeitEntries (q : Nat) (d : Dev) : Nat := max 4 (d.f (R.ASM_Q_CFG q) F.ASM_Q_CFG_FORFEIT) * 32

/-- The oldest marks are forfeited until the free space less `need` entries reaches FORFEIT or no mark remains. -/
def Dev.forfeitFor (q need : Nat) : Nat → Dev → Dev
  | 0, d => d
  | fuel + 1, d =>
    let p := d.ply q
    if d.forfeitEntries q + need ≤ p.free then d
    else match p.oldestMark with
      | none => d
      | some m => (d.forfeit q m).forfeitFor q need fuel

/-! Commit (R232 to R235). -/

/-- The entries of a packet. -/
def packetEntries (k : StreamPacket) : Nat := max 1 ((k.bytes + 31) / 32)

/-- A packet is frogged for want of space. -/
def Dev.plyOverflow (q : Nat) (d : Dev) : Dev := (d.bump (R.ASM_CNT0 q) F.ASM_CNT0_QOVF_CNT 1).asmErr q 0

/-- The highest fill since the last read (R267). -/
def Dev.plyHwm (q : Nat) (d : Dev) : Dev :=
  let p := d.ply q
  d.sf (R.ASM_Q_HWM q) ⟨0, 14⟩ (max (d.f (R.ASM_Q_HWM q) ⟨0, 14⟩) (p.commit - p.release))

/-- The end of a packet at a Ply queue: committed, or frogged. Its first character arrived `span` ns ago. -/
def Dev.plyCommit (q : Nat) (k : StreamPacket) (crcOk cut : Bool) (span : Nat) (d : Dev) : Dev :=
  let x := d.conn q
  if !x.state.live then d
  else
    let d0 := (d.standbyWake q).modConn q fun y => { y with streamAt := some d.now }
    let n := packetEntries k
    if (d0.ply q).resetting then d0.plyOverflow q
    else
      let d1 := d0.forfeitFor q n 4
      if (d1.ply q).free < n then d1.plyOverflow q
      else if !crcOk ∨ cut ∨ 16384 < k.bytes then (d1.bump (R.ASM_CNT0 q) F.ASM_CNT0_FROG_CNT 1).asmErr q 10
      else
        let p := d1.ply q
        (d1.setPly q { p with commit := p.commit + n,
                              packets := p.packets ++
                                [{ start := p.commit, len := n, ts := (d.ts : Int) - span, frame := 0, taken := false, pkt := k }] }).plyHwm q

/-- The bytes of `n` entries of a queue from an entry. -/
def Ply.entryBytes (p : Ply) (entry n : Nat) : List Byte :=
  (List.range n).flatMap (fun i => match p.packets.find? (fun k => decide (k.start ≤ entry + i) && decide (entry + i < k.start + k.len)) with
    | some k => (List.range 32).map (fun b => Config.streamByte k.pkt (32 * (entry + i - k.start) + b))
    | none => zeros 32)

/-! Live registers (R267 to R270). -/

/-- ASM_Q_STATUS(i) as it reads. -/
def Dev.plyStatus (q : Nat) (d : Dev) : Word :=
  let p := d.ply q
  BitVec.ofNat 32 (p.live.length % 8 * 2 ^ 29 + (if p.resetting then 2 ^ 28 else 0) + (p.commit - p.release) % 2 ^ 14)

/-! The commands. -/

def execPlyPacketCommit (q : Fin 48) (k : StreamPacket) (crcOk cut : Bool) (span : Nat) (s : State) : Host.Outcome State Fault Refusal :=
  s.run fun d => d.plyCommit q k crcOk cut span

end Sys2Proof.Machine
end

