-- ==== Sys2Proof/Machine/Swatch.lean ====
section
/-! DEFINITION. The rows of a frame as the array takes them (R322, R324), kernel parameters (R385), and the swatch of a camera: its
repeats, its base, its accumulator and its reference (R418 to R420). -/

namespace Sys2Proof.Machine

/-! Pixels of the array. -/

/-- Bytes per pixel of the array's input (R324): 1 at depth 8, 2 at 10 to 16, 3 for RGB8. -/
def arrayBpp (fmt : Nat) : Nat :=
  if fmt = 0xC000 then 1 else if fmt = 0xC001 then 2 else if fmt = 0xC002 then 3
  else match sourceFormat fmt with
    | some (.rgb, 8) => 3
    | some (_, 8) => 1
    | some _ => 2
    | none => 1

/-- A raw pixel as the bytes the array holds. -/
def rawPixel (fmt px : Nat) : List Nat :=
  let n := arrayBpp fmt
  (List.range n).map (fun k => px / 256 ^ k % 256)

/-- The pixels in a line record: `n` of `bits` bits, lowest first. -/
def unpackPixels (bits n : Nat) (bs : List Byte) : List Nat :=
  let v := leNat bs
  (List.range n).map (fun i => v / 2 ^ (bits * i) % 2 ^ bits)

/-- The lines of a frame in the history ring: pixels and stamp, in order. -/
def Dev.histLines (h : HistFrame) (d : Dev) : List (List Nat × RowInfo) :=
  let bits := formatBits h.tag.format
  (d.skein.hist.recs.filter (fun r => r.cam == h.tag.cam && r.frame == h.tag.seq)).map (fun r =>
    let n := leNat (d.skeinBytes (r.start + 0x0C) 4)
    (unpackPixels bits (n * 8 / bits) (d.skeinBytes (r.start + 0x20) n), r.info))

/-- The DA of the CPB recorded for a PSID of a camera, and whether the PSID is older than those kept (R287). -/
def Dev.cpbOf (cam psid : Nat) (d : Dev) : Nat × Bool :=
  let cs := (d.carCam cam).cpbs
  match cs.find? (fun p => p.1 == psid) with
  | some p => (p.2, false)
  | none => ((cs.head?.map (·.2)).getD 0, true)

/-- The INSPECT output of a CPB (R290): the lowest enabled output that carries the flag. -/
def inspectOut (cpb : List Byte) : Option Nat :=
  (List.range 4).find? (fun k => (outDesc cpb k).en && (outDesc cpb k).inspect)

/-- The pixel format of the array's input under a CPB (R322): that of its INSPECT output, else the raw one. -/
def inspectFormat (cpb : List Byte) (raw : Nat) : Nat :=
  match inspectOut cpb with
  | some k => 0xC000 + (outDesc cpb k).format
  | none => raw

/-- The source row that an output row of an INSPECT output stands for. -/
def sourceRow (o : OutDesc) (r : Nat) : Nat := o.y + r * o.sy / 256

/-- The rows of a frame of the history ring as the array's input: raw lines on the tile path, otherwise the INSPECT output of the CPB
of the frame's PSID, reprocessed (R307, R322). -/
def Dev.inspectRows (h : HistFrame) (d : Dev) : List TileRow :=
  let ls := d.histLines h
  let unc := h.tag.flag 3
  if (d.carCam h.tag.cam).path = 0 then
    ls.map (fun l => { px := l.1.map (rawPixel h.tag.format), info := l.2, fill := [], unc := unc, src := [] })
  else
    let da := (d.cpbOf h.tag.cam h.tag.psid).1
    let cpb := d.skeinBytes da cpbSize
    let ffDa := leAt cpb 0x30 8
    match if cpbRefused cpb then none else inspectOut cpb, process cpb h.tag.format (d.asmCam h.tag.cam).cfg.scan
        (fun k => leNat (d.skeinBytes (ffDa + 4 * k) 4)) (ls.map (·.1)) with
    | some k, some p =>
      let o := outDesc cpb k
      (outImage o p.lut).zipIdx.map (fun r =>
        { px := r.1, info := ((ls.map (·.2)).getD (sourceRow o r.2) { wp := 0, ts := 0, seq := 0, filled := false }), fill := [],
          unc := unc, src := [] })
    | _, _ => []

/-! Kernel parameters (R385, R388). -/

/-- The home clusters of a camera as its register names them. -/
def Dev.homes (cam : Nat) (d : Dev) : List Nat :=
  (List.range 16).filter (fun c => bitOf (d.f (R.STE_CAM_CFG cam) F.STE_CAM_CFG_CLUSTERS) c)

/-- The offset of a camera's kernel parameters in each home cluster's Stash. -/
def Dev.paramOfs (cam : Nat) (d : Dev) : Nat := (d.rd (R.STE_CAM_PARAM cam)).toNat % 2 ^ 21

/-- The first bytes of a camera's kernel parameters in its first home cluster. -/
def Dev.camParam (cam : Nat) (d : Dev) : List Byte := d.stashBytes ((d.homes cam).headD 0) (d.paramOfs cam) 0x60

/-- The parameters the registration reads (R385, R386, R388). -/
structure RefParam where
  da      : Nat
  pitch   : Nat
  rows    : Nat
  wp0     : Int
  rep     : Nat
  line    : Nat
  accPitch : Nat
  accDa   : Nat
  sy      : Nat
deriving DecidableEq, Repr

def refParam (bs : List Byte) : RefParam :=
  { da := leAt bs 0x08 8, pitch := leAt bs 0x10 4, rows := leAt bs 0x14 4, wp0 := leIntAt bs 0x18 8, rep := leAt bs 0x20 8,
    line := leAt bs 0x28 4, accPitch := leAt bs 0x44 4, accDa := leAt bs 0x48 8, sy := leAt bs 0x41 1 }

/-- The reference row of a wp (R386). -/
def RefParam.rowOf (p : RefParam) (wp : Int) : Nat :=
  let q := if p.rep = 0 then 0 else ((wp - p.wp0) % p.rep).toNat
  if p.line = 0 then 0 else q / p.line % max 1 p.rows

/-- Writes bytes into a camera's kernel parameters in every home cluster, as STE(c) (R409, R419). -/
def Dev.paramWrite (cam off : Nat) (bs : List Byte) (d : Dev) : Dev :=
  (d.homes cam).foldl (fun y c =>
    let a := (y.paramOfs cam + off) % stashSize
    if y.stashMay (0x30 + c) c a bs.length then y.stashPut c a bs
    else y.deny (0x30 + c) true (denyAddr (0x30 + c) (0x5000000 + c * stashSize + a))) d

/-! Swatch (R418 to R420). -/

def Dev.swatchOf (cam : Nat) (d : Dev) : Swatch := d.job.swatch.get (fun _ => Swatch.init) cam

def Dev.setSwatch (cam : Nat) (x : Swatch) (d : Dev) : Dev :=
  d.modJob fun j => { j with swatch := j.swatch.set (fun _ => Swatch.init) cam x }

/-- Whether a camera is in swatch. -/
def Dev.swatching (cam : Nat) (d : Dev) : Bool := d.job.swatching.contains cam

/-- The repeat of a wp, counted from 1; 0 before the mark. -/
def Swatch.repOf (x : Swatch) (wp : Int) : Nat :=
  if x.len = 0 then 1 else ((wp - x.mark) / (x.len : Int) + 1).toNat

/-- A repeat of a swatching camera is found unusable. -/
def Dev.swatchBad (cam r : Nat) (d : Dev) : Dev :=
  let x := d.swatchOf cam
  if !d.swatching cam || x.bad.contains r then d else d.setSwatch cam { x with bad := x.bad ++ [r] }

/-- A closed frame that is not usable makes every repeat it meets unusable (R419): SHORT, CRC, POS_UNCERTAIN, MARK_LOST, SHED. -/
def Dev.swatchFrame (t : FrameTag) (d : Dev) : Dev :=
  if !d.swatching t.cam || !([0, 2, 3, 5, 7].any (fun k => t.flag k)) then d
  else
    let x := d.swatchOf t.cam
    let a := x.repOf t.wpFirst
    let b := x.repOf t.wpLast
    (List.range (max a b - min a b + 1)).foldl (fun y k => y.swatchBad t.cam (min a b + k)) d

/-- Whether a frame carries SWATCH (R420): it belongs to the repeats up to the last one accumulated. -/
def Dev.swatchFlag (cam epoch : Nat) (wpFirst : Int) (d : Dev) : Bool :=
  let x := d.swatchOf cam
  if epoch ≠ d.job.epoch then false
  else match x.lastRep with
    | some r => x.phase == .done && decide (x.repOf wpFirst ≤ r)
    | none => d.swatching cam

/-- K for a camera's input depth (R418). -/
def swatchLimit (k fmt : Nat) : Nat :=
  let depth := if fmt = 0xC001 then 16 else match sourceFormat fmt with
    | some p => p.2
    | none => 8
  min k (65535 / (2 ^ depth - 1))

/-- Components of a reference row, and bytes per component. -/
def refComponents (p : RefParam) (bpp : Nat) : Nat × Nat :=
  let cb := if bpp = 2 then 2 else 1
  (min (p.pitch / cb) (p.accPitch / 2), cb)

/-- A write of the JOB block to a reference or an accumulator, as STEWARD. -/
def Dev.refPut (a : Nat) (bs : List Byte) (d : Dev) : Dev :=
  if d.skeinExists a bs.length then d.skeinWrite 2 a bs else d.decodeError 2 true a

/-- The reference row `r` becomes floor((base + acc + floor(K / 2)) / K) (R419); free values where a block read is uncorrectable. -/
def Dev.refFinal (cam k bpp r : Nat) (d : Dev) : Dev :=
  let p := refParam (d.camParam cam)
  let n := refComponents p bpp
  let base := d.skeinRead 2 (p.da + r * p.pitch) (n.1 * n.2)
  let acc := base.2.2.skeinRead 2 (p.accDa + r * p.accPitch) (n.1 * 2)
  let out := (List.range n.1).flatMap (fun i =>
    leBytes n.2 ((leAt base.1 (i * n.2) n.2 + leAt acc.1 (2 * i) 2 + k / 2) / max 1 k))
  let free := acc.2.2.freshBytes (n.1 * n.2)
  if base.2.1 || acc.2.1 then free.2.refPut (p.da + r * p.pitch) free.1 else d.refPut (p.da + r * p.pitch) out

/-- Reference rows become final, each once. -/
def Dev.swatchRows (cam bpp : Nat) (rows : List Nat) (d : Dev) : Dev :=
  rows.foldl (fun y r =>
    let x := y.swatchOf cam
    if x.final.contains r then y else (y.refFinal cam x.k bpp r).setSwatch cam { x with final := x.final ++ [r] }) d

/-- A band of a swatching camera has its last accumulating item ended (R419): in repeat K its reference rows are finalised. -/
def Dev.swatchBandDone (cam bpp : Nat) (wps : List Int) (d : Dev) : Dev :=
  let x := d.swatchOf cam
  match wps with
  | [] => d
  | w :: _ =>
    if !d.swatching cam ∨ x.phase ≠ .accumulate ∨ x.repOf w + 1 ≠ x.base + x.k then d
    else
      let p := refParam (d.camParam cam)
      d.swatchRows cam bpp ((wps.map p.rowOf).foldl (fun acc r => if acc.contains r then acc else acc ++ [r]) [])

/-- The base repeat's lines become the reference (R419): row ref(r) for each line, with ref_wp0 the base's first wp; the accumulator
is zeroed. -/
def Dev.swatchBase (cam rep : Nat) (d : Dev) : Dev :=
  let x := d.swatchOf cam
  let inRep := fun (w : Int) => x.repOf w == rep
  let fs := d.skein.hist.frames.filter (fun h => h.valid && h.tag.cam == cam && h.tag.epoch == d.job.epoch)
  let lines := fs.flatMap (fun h => (d.inspectRows h).filter (fun r => inRep r.info.wp))
  let wp0 := (lines.map (fun r => r.info.wp)).foldl min ((lines.head?.map (fun r => r.info.wp)).getD x.mark)
  let d1 := d.paramWrite cam 0x18 (leInt 8 wp0)
  let p := { refParam (d1.camParam cam) with wp0 := wp0 }
  let d2 := lines.foldl (fun y l =>
    y.refPut (p.da + p.rowOf l.info.wp * p.pitch) ((l.px.flatMap (fun q => q.map (BitVec.ofNat 8))).take p.pitch)) d1
  let d3 := d2.refPut p.accDa (zeros (p.rows * p.accPitch))
  d3.setSwatch cam { x with phase := .accumulate, base := rep, baseWp := wp0, good := 1, final := [] }

/-- The frames of a repeat are read from the history ring: whether all of them are still valid (R470, R477). -/
def Dev.swatchRead (cam rep : Nat) (d : Dev) : Bool × Dev :=
  let x := d.swatchOf cam
  let meets := fun (h : HistFrame) => h.tag.cam == cam && h.tag.epoch == d.job.epoch &&
    decide (min (x.repOf h.tag.wpFirst) (x.repOf h.tag.wpLast) ≤ rep) && decide (rep ≤ max (x.repOf h.tag.wpFirst) (x.repOf h.tag.wpLast))
  let d1 := (d.skein.hist.frames.filter (fun h => h.valid && meets h)).foldl (fun y h =>
    y.readRecs 2 cam h.tag.seq 0 y.skein.hist.recs.length) d
  (d1.skein.hist.frames.all (fun h => h.valid || !meets h), d1)

/-! Splice records (R423). -/

/-- The speed of an axis in nm/us. -/
def Dev.axisSpeed (a : Nat) (d : Dev) : Int :=
  match (d.axis a).smps with
  | s :: _ => s.speed / 65536
  | [] => 0

/-- A splice record is handed to the delivery engine. -/
def Dev.spliceRecord (kind : Nat) (flags : Nat) (wp ts : Int) (cams : List Nat) (d : Dev) : Dev :=
  let j := d.job
  let live := j.epoch % 2
  let id := fun (h : Nat) => (d.rd (if h = 0 then R.JOB_ID0 else R.JOB_ID1)).toNat
  let bytes := leBytes 2 1 ++ leBytes 1 kind ++ leBytes 1 j.axis ++ leBytes 4 (if j.epoch = 0 then 0 else id live)
    ++ leBytes 4 (id (1 - live)) ++ leBytes 2 j.epoch ++ leBytes 2 flags ++ leInt 8 j.mark ++ leInt 8 wp ++ leInt 8 ts
    ++ leBytes 8 (ofBits (cams.map (fun c => (true, c)))) ++ leInt 4 (d.axisSpeed j.axis) ++ zeros 12
  d.offer (recordParcel .splice (d.f R.JOB_SPLICE_CFG F.JOB_SPLICE_CFG_RING) 0xFF j.epoch bytes)

/-! The end of a swatch (R420). -/

/-- A camera leaves swatch: its bit in JOB_SWATCH_CAMS clears. -/
def Dev.swatchLeave (cam : Nat) (d : Dev) : Dev :=
  let v := d.rd64 R.JOB_SWATCH_CAMS
  (d.wr64 R.JOB_SWATCH_CAMS (v &&& ~~~ (1#64 <<< cam))).modJob fun j => { j with swatching := j.swatching.filter (· ≠ cam) }

/-- Once no camera is in swatch, the cameras that finished are reported with the end of the last repeat accumulated. -/
def Dev.swatchOver (d : Dev) : Dev :=
  let cams := (List.range 48).filter (fun c => (d.swatchOf c).phase == .done && (d.swatchOf c).lastRep.isSome)
  match cams with
  | [] => d
  | c :: rest =>
    if d.rd64 R.JOB_SWATCH_CAMS = 0 then
      let x := rest.foldl (fun (a : Swatch) k => if a.endTs ≤ (d.swatchOf k).endTs then d.swatchOf k else a) (d.swatchOf c)
      (d.publish Src.jobSwatchDone 0).spliceRecord 2 0 x.endWp x.endTs cams
    else d

/-- A camera fails its swatch. -/
def Dev.swatchFail (cam : Nat) (d : Dev) : Dev :=
  let x := d.swatchOf cam
  let v := d.rd64 R.JOB_SWATCH_FAIL
  let d1 := ((d.setSwatch cam { x with phase := .failed }).swatchLeave cam).wr64 R.JOB_SWATCH_FAIL (v ||| (1#64 <<< cam))
  ((d1.jobErr 7).spliceRecord 3 0 x.endWp x.endTs [cam]).swatchOver

/-- A camera's last reference row is final. -/
def Dev.swatchDone (cam : Nat) (d : Dev) : Dev :=
  let x := d.swatchOf cam
  ((d.setSwatch cam { x with phase := .done, lastRep := some (x.base + x.k - 1) }).swatchLeave cam).swatchOver

/-- SWATCH_REPEAT_END: the repeat in progress of a camera ends and is judged (R419, R420). Its items have
ended. A failed camera's repeats go on being numbered. -/
def Dev.swatchRepeatEnd (cam : Nat) (d : Dev) : Dev :=
  let x := d.swatchOf cam
  let mine := fun (o : OrderItem) => o.item.cam == cam && o.item.kind == 2 && x.repOf o.item.wp == x.rep && !o.ended
  if !d.swatching cam then (if x.phase = .failed ∧ x.len ≠ 0 then d.setSwatch cam { x with rep := x.rep + 1 } else d)
  else if d.ste.order.any mine then d
  else
    let usable := !x.bad.contains x.rep && !d.pwr.trip
    let endWp := x.mark + x.rep * x.len
    let used := x.rep + 1 - x.from_
    let ts := ((d.skein.hist.recs.filter (fun r => r.cam == cam && decide (r.info.wp < endWp))).getLast?.map (fun r => r.info.ts)).getD x.endTs
    let d0 := d.setSwatch cam { x with
      rep := x.rep + 1, endWp := endWp, endTs := ts, bad := if d.pwr.trip then x.bad ++ [x.rep + 1] else x.bad }
    let bpp := ((d.ste.cams.get (fun _ => CamTiles.init) cam).frame.map (·.bpp)).getD 1
    let d1 : Dev := match x.phase, usable with
      | .seekBase, true =>
        let r := d0.swatchRead cam x.rep
        let y := r.2.swatchBase cam x.rep
        if !r.1 then r.2
        else if x.k ≤ 1 then (y.swatchRows cam bpp (List.range (refParam (y.camParam cam)).rows)).swatchDone cam else y
      | .accumulate, true =>
        if x.k ≤ x.good + 1 then
          ((d0.setSwatch cam { d0.swatchOf cam with good := x.good + 1 }).swatchRows cam bpp
            (List.range (refParam (d0.camParam cam)).rows)).swatchDone cam
        else d0.setSwatch cam { d0.swatchOf cam with good := x.good + 1 }
      | .accumulate, false => d0.setSwatch cam { d0.swatchOf cam with phase := .seekBase, good := 0, final := [] }
      | _, _ => d0
    if d1.swatching cam ∧ x.k + x.extra ≤ used then d1.swatchFail cam else d1

/-- SWATCH_RESTART (R420): every failed camera starts afresh from its next repeat. -/
def Dev.swatchRestart (d : Dev) : Dev :=
  (List.range 48).foldl (fun y c =>
    let x := y.swatchOf c
    if x.phase = .failed ∧ x.len ≠ 0 ∧ !y.swatching c then
      ((y.setSwatch c { x with phase := .seekBase, from_ := x.rep + 1, good := 0, final := [], bad := [x.rep] }).modJob fun j =>
        { j with swatching := j.swatching ++ [c] }).wr64 R.JOB_SWATCH_CAMS (y.rd64 R.JOB_SWATCH_CAMS ||| (1#64 <<< c))
    else y) d

/-! The commands. -/

def execSwatchRepeatEnd (cam : Fin 48) (s : State) : Host.Outcome State Fault Refusal := s.run fun d => d.swatchRepeatEnd cam

end Sys2Proof.Machine
end

