-- ==== Sys2Proof/Machine/Order.lean ====
section
/-! DEFINITION. The engine array (spec/09): dispatch, deques and stealing, ownership epochs and fencing, the watchdog, and the order
stage. -/

namespace Sys2Proof.Machine

def Dev.modSte (g : SteSt → SteSt) (d : Dev) : Dev := { d with ste := g d.ste }

def Dev.eng (e : Nat) (d : Dev) : Engine := d.ste.engines.get (fun _ => Engine.init) e

def Dev.setEng (e : Nat) (x : Engine) (d : Dev) : Dev :=
  d.modSte fun y => { y with engines := y.engines.set (fun _ => Engine.init) e x }

def Dev.modEng (e : Nat) (g : Engine → Engine) (d : Dev) : Dev := d.setEng e (g (d.eng e))

def Dev.cluster (c : Nat) (d : Dev) : Cluster := d.ste.clusters.get (fun _ => Cluster.init) c

def Dev.setCluster (c : Nat) (x : Cluster) (d : Dev) : Dev :=
  d.modSte fun y => { y with clusters := y.clusters.set (fun _ => Cluster.init) c x }

def Dev.modCluster (c : Nat) (g : Cluster → Cluster) (d : Dev) : Dev := d.setCluster c (g (d.cluster c))

def Dev.tiles (cam : Nat) (d : Dev) : CamTiles := d.ste.cams.get (fun _ => CamTiles.init) cam

def Dev.setTiles (cam : Nat) (x : CamTiles) (d : Dev) : Dev :=
  d.modSte fun y => { y with cams := y.cams.set (fun _ => CamTiles.init) cam x }

def Dev.modTiles (cam : Nat) (g : CamTiles → CamTiles) (d : Dev) : Dev := d.setTiles cam (g (d.tiles cam))

/-- A STE_ERR(c) bit without its publication. -/
def Dev.steBit (c bit : Nat) (d : Dev) : Dev := d.err 9 (R.STE_ERR c) bit

/-- A STE_ERR(c) bit; STE_ERR(c) is published when an unmasked bit rises (R353). -/
def Dev.steErr (c bit : Nat) (d : Dev) : Dev :=
  let rise := d.f (R.STE_ERR c) (bitF bit) = 0 ∧ d.f (R.STE_ERR_MASK c) (bitF bit) = 0
  let d1 := d.steBit c bit
  if rise then d1.publish (Src.steErr c) 0 else d1

/-- The shedding level in force (R45). -/
def Dev.level (d : Dev) : Nat := if d.glb.floor then max 3 d.glb.shed else d.glb.shed

/-- The clock of a cluster in MHz (R319, R320). -/
def Dev.clusterMHz (c : Nat) (d : Dev) : Nat :=
  let cap := max 4 (min 24 (d.f (R.STE_FCAP c) F.STE_FCAP_CAP)) * 125
  let m := min 3000 (min cap d.pwr.cap)
  if (d.cluster c).halved then m / 2 else m

/-- Whether the clock of a cluster runs (R321, R350, R351). -/
def Dev.clusterOn (c : Nat) (d : Dev) : Bool := d.b (R.STE_CFG c) F.STE_CFG_EN && !d.pwr.trip && d.pwr.state == .active

/-- Whether an engine is enabled; one whose scratch cannot be repaired stays OFF (R449). -/
def Dev.engEnabled (e : Nat) (d : Dev) : Bool :=
  !d.stash.scrOff.contains e && d.b (R.STE_CFG (e / 16)) F.STE_CFG_EN && bitOf (d.f (R.STE_CFG (e / 16)) F.STE_CFG_ENG_EN) (e % 16)

/-! Work items (R329). -/

/-- The 64 bytes of a work item. -/
def Item.bytes (i : Item) : List Byte :=
  leBytes 2 1 ++ leBytes 1 i.cam ++ leBytes 1 i.kind ++ leBytes 4 i.seq ++ leBytes 4 i.frame ++ leBytes 4 i.job
    ++ leBytes 2 i.epoch ++ leBytes 2 i.psid ++ leBytes 2 i.tflags ++ leBytes 1 i.kernel ++ leBytes 1 i.reissue
    ++ leBytes 2 i.x0 ++ leBytes 2 i.coreW ++ leBytes 4 i.y0 ++ leBytes 2 i.coreH ++ leBytes 1 i.selX ++ leBytes 1 i.selY
    ++ leBytes 4 i.pixOfs ++ leBytes 2 i.pitch ++ leBytes 2 i.format ++ leBytes 4 i.rowsOfs ++ leBytes 4 i.param
    ++ leBytes 1 i.home ++ leBytes 1 i.axis ++ zeros 2 ++ leInt 8 i.wp

/-- Whether an item is of the deferred series. -/
def Item.deferred (i : Item) : Bool := i.kind == 1

/-- Whether two items are one. -/
def Item.same (i j : Item) : Bool := i.cam == j.cam && i.deferred == j.deferred && i.seq == j.seq

/-! Bands whose items end (R328). -/

/-- Bands whose items have ended are free; their shared rows were written on before their items were made. -/
def Dev.bandSweep (cam : Nat) (d : Dev) : Dev :=
  d.modTiles cam fun x => { x with bands := x.bands.filter (fun b => !(b.made && b.left == 0)) }

/-- INSPECT_PENDING of a frame clears when nothing of it awaits deferred inspection. -/
def Dev.inspectDone (cam frame : Nat) (d : Dev) : Dev :=
  let waits := d.ste.deferred.any (fun q => q.cam == cam && q.frame.seq == frame) ||
    (d.tiles cam).bands.any (fun b => b.kind == 1 && b.frame.seq == frame) ||
    (match d.histFrame? cam frame with
      | some h => h.retro && !d.ste.retroed.contains (cam, frame)
      | none => false)
  if waits then d else d.setInspect cam frame false

/-- An item of a band has ended or been given up. -/
def Dev.bandItemDone (i : Item) (ended : Bool) (d : Dev) : Dev :=
  match (d.tiles i.cam).bands.find? (fun b => b.id == i.band) with
  | none => d
  | some b =>
    let left := b.left - 1
    let d1 := d.modTiles i.cam fun x => { x with bands := x.bands.map (fun y => if y.id = b.id then { y with left := left } else y) }
    let d2 := if left = 0 ∧ b.kind = 2 ∧ ended = true then
        d1.swatchBandDone i.cam i.bpp (((b.rows.drop b.frame.cfg.selY).take b.coreH).map (fun r => r.info.wp))
      else d1
    let d3 := d2.bandSweep i.cam
    if b.kind = 1 then d3.inspectDone i.cam i.frame else d3

/-! The order stage (R345 to R347). -/

/-- The results the order stage holds. -/
def Dev.heldResults (d : Dev) : Nat := (d.ste.order.map (·.results.length)).sum

/-- Whether the order stage releases nothing: delivery holds, or the staging for records is full (R347, R534). -/
def Dev.orderHeld (d : Dev) : Bool :=
  d.deliveryHolds || decide (4 * 2 ^ 20 ≤ d.stagedBytes + ((d.host.offers.filter (fun p => p.kind.isRecord)).map (·.bytes.length)).sum)

/-- The crop-ring space of a discarded result returns (R379). -/
def Dev.dropResult (r : Result) (d : Dev) : Dev :=
  match r.crop with
  | some c => d.modSte fun y => { y with crops := y.crops.filter (fun a => a ≠ c.1) }
  | none => d

/-- A result is released: its record takes the camera's next snag_seq, and its crop goes before it (R345, R533). -/
def Dev.releaseResult (cam : Nat) (r : Result) (d : Dev) : Dev :=
  let q := (d.tiles cam).snag
  let rec_ := r.record.take 4 ++ leBytes 4 q ++ r.record.drop 8
  let d1 := d.modTiles cam fun x => { x with snag := (q + 1) % 2 ^ 32 }
  let d2 := match r.crop with
    | some c =>
      (d1.modSte fun y => { y with crops := y.crops.map (fun a => if a = c.1 then { a with snag := some q } else a) }).offer
        (recordParcel .crop r.cropRing cam q (padTo 64 c.2))
    | none => d1
  d2.offer (recordParcel .snag r.snagRing cam q rec_)

/-- The oldest unfinished number of a series. -/
def Dev.oldestSeq (cam : Nat) (defer : Bool) (d : Dev) : Nat :=
  if defer then (d.tiles cam).dord else (d.rd (R.STE_CAM_ORD cam)).toNat

/-- ORDER_RELEASE for one series of a camera: items that have ended are released, oldest first. -/
def Dev.orderRelease (cam : Nat) (defer : Bool) : Nat → Dev → Dev
  | 0, d => d
  | fuel + 1, d =>
    let q := d.oldestSeq cam defer
    match d.ste.order.find? (fun o => o.item.cam == cam && o.item.deferred == defer && o.item.seq == q) with
    | none => d
    | some o =>
      if !o.ended ∨ (d.orderHeld ∧ o.results ≠ []) then d
      else
        let d1 := o.results.foldl (fun y r => y.releaseResult cam r) d
        let d2 := d1.modSte fun y => { y with order := y.order.filter (fun p => !p.item.same o.item) }
        let d3 := if defer then d2.modTiles cam fun x => { x with dord := (q + 1) % 2 ^ 32 }
                  else d2.wr (R.STE_CAM_ORD cam) (BitVec.ofNat 32 (q + 1))
        d3.orderRelease cam defer fuel

/-- Both series of a camera. -/
def Dev.releaseCam (cam : Nat) (d : Dev) : Dev :=
  let n := d.ste.order.length
  (d.orderRelease cam false n).orderRelease cam true n

/-- Every camera, when delivery resumes. -/
def Dev.releaseAll (d : Dev) : Dev := (List.range 48).foldl (fun y c => y.releaseCam c) d

def Dev.modOrder (i : Item) (g : OrderItem → OrderItem) (d : Dev) : Dev :=
  d.modSte fun y => { y with order := y.order.map (fun o => if o.item.same i then g o else o) }

def Dev.orderItem? (i : Item) (d : Dev) : Option OrderItem := d.ste.order.find? (fun o => o.item.same i)

/-- The results held for an item are discarded; their number. -/
def Dev.discardResults (i : Item) (d : Dev) : Nat × Dev :=
  match d.orderItem? i with
  | some o => (o.results.length, (o.results.foldl (fun y r => y.dropResult r) d).modOrder i fun p => { p with results := [] })
  | none => (0, d)

/-- ITEM_GIVEUP (R345): no records, a GIVEUP notice; `c` is the cluster that reports it. -/
def Dev.giveUp (i : Item) (c fault slot pc da : Nat) (d : Dev) : Dev :=
  let d1 := (d.discardResults i).2.modOrder i fun o => { o with ended := true, holder := none }
  let n : Notice :=
    { kind := 1, cam := i.cam, frame := i.frame, job := i.job, epoch := i.epoch, fault := fault, slot := slot, wpLo := i.wp,
      wpHi := i.wpHi, ts := i.ts, da := da, item := i.seq, axis := i.axis, deferred := i.deferred, pc := pc }
  let d2 := ((d1.bump (R.STE_CNT1 c) F.STE_CNT1_GIVEUP_CNT 1).steBit c 3).notice n
  let d3 := if i.kind = 2 then d2.swatchBad i.cam ((d2.swatchOf i.cam).repOf i.wp) else d2
  (d3.bandItemDone i false).releaseCam i.cam

/-- An item is given up outside a fence and a kernel fault: STE_ERR(c) is published where GIVEUP rises (R353). -/
def Dev.giveUpItem (i : Item) (c da : Nat) (d : Dev) : Dev :=
  let rise := d.f (R.STE_ERR c) (bitF 3) = 0 ∧ d.f (R.STE_ERR_MASK c) (bitF 3) = 0
  let d1 := d.giveUp i c 0 0 0 da
  if rise then d1.publish (Src.steErr c) 0 else d1

/-! Dispatch (R330, R331). -/

/-- Whether an engine takes part in dispatch and stealing. -/
def EngState.active (s : EngState) : Bool := s == .idle || s == .steal || s == .run

/-- The items an engine counts for dispatch. -/
def Engine.count (x : Engine) : Nat := x.deque.length + (if x.item.isSome then 1 else 0)

/-- The engine of a cluster with the least items and space in its deque, other than `not_`. -/
def Dev.pushTarget (c : Nat) (not_ : Option Nat) (d : Dev) : Option Nat :=
  (List.range 16).foldl (fun acc i =>
    let e := 16 * c + i
    let x := d.eng e
    if !x.state.active ∨ 32 ≤ x.deque.length ∨ not_ = some e then acc
    else match acc with
      | none => some e
      | some k => if x.count < (d.eng k).count then some e else some k) none

/-- An item enters a deque; engines of the cluster that wait to search may search again at once (R336). -/
def Dev.pushTo (e : Nat) (head : Bool) (i : Item) (d : Dev) : Dev :=
  (d.modEng e fun x => { x with deque := if head then i :: x.deque else x.deque ++ [i] }).modCluster (e / 16) fun k =>
    { k with retry := k.retry.map (fun p => (p.1, min p.2 d.now)) }

/-- Whether the dispatcher may push an item now: no Bind-off, no trip, below level 3 for LIVE and SWATCH items, within the order
window. -/
def Dev.mayPush (i : Item) (d : Dev) : Bool :=
  let win := max 1 (d.f R.STE_ORD_CFG F.STE_ORD_CFG_ORDER_WIN)
  d.glb.bindoff == .none && !d.pwr.trip && d.pwr.state == .active &&
    (i.deferred || (decide (d.level < 3) && decide ((i.seq + 2 ^ 32 - d.oldestSeq i.cam false) % 2 ^ 32 < win)))

/-- A new item goes to a deque of its home cluster, or waits in the dispatch queue. -/
def Dev.dispatchItem (i : Item) (d : Dev) : Dev :=
  let c := i.home
  let wait := d.modCluster c fun k => { k with queue := k.queue ++ [i] }
  if (d.cluster c).queue.any (fun j => j.cam == i.cam && !j.deferred) ∨ !d.mayPush i ∨ !d.clusterOn c then wait
  else match d.pushTarget c none with
    | some e => d.pushTo e false i
    | none => wait

/-- DISPATCH_QUEUE_PUSH: the first item of the queue that no earlier item of its camera precedes and that may be pushed. -/
def Dev.queuePush (c : Nat) (d : Dev) : Dev :=
  let q := (d.cluster c).queue
  let before := fun (j i : Item) => j.cam == i.cam && j.deferred == i.deferred && decide (0 < (i.seq + 2 ^ 32 - j.seq) % 2 ^ 32) &&
    decide ((i.seq + 2 ^ 32 - j.seq) % 2 ^ 32 < 2 ^ 31)
  let firstOf := fun (i : Item) => !q.any (fun j => before j i)
  match q.find? (fun i => firstOf i && d.mayPush i), d.pushTarget c none with
  | some i, some e =>
    if d.clusterOn c then (d.modCluster c fun k => { k with queue := k.queue.erase i }).pushTo e false i else d
  | _, _ => d

/-- The items of an engine's deque move to other engines of the cluster, oldest first, or wait in the dispatch queue. -/
def Dev.moveDeque (e : Nat) (d : Dev) : Dev :=
  let items := (d.eng e).deque
  let r := items.foldl (fun (acc : List Item × Dev) i => match acc.2.pushTarget (e / 16) (some e) with
    | some k => (acc.1, acc.2.pushTo k false i)
    | none => (acc.1 ++ [i], acc.2)) ([], d.modEng e fun x => { x with deque := [] })
  r.2.modCluster (e / 16) fun q => { q with queue := r.1 ++ q.queue }

/-! Engine memory behind transfers (R372). -/

/-- A write of engine memory at a plain BAR0 offset. -/
def Dev.plainPut (x : Nat) (bs : List Byte) (d : Dev) : Dev :=
  match barDecode x with
  | .scratch _ e off => d.scratchPut e off bs
  | .stash _ c off => d.stashPut c off bs
  | _ => d

/-- The data of completed XLDs of the tags `p` picks stands from now on: XWAIT returned, or the item ended. -/
def Dev.land (e : Nat) (p : Nat → Bool) (d : Dev) : Dev :=
  ((d.eng e).landed.filter (fun q => p q.1)).foldl (fun (y : Dev) q => y.plainPut q.2.1 q.2.2)
    (d.modEng e fun x => { x with landed := x.landed.filter (fun q => !p q.1) })

def Dev.landAll (e : Nat) (d : Dev) : Dev := d.land e (fun _ => true)

/-! Queue marks of engines (R381, R382). -/

/-- Every mark an engine holds is released. -/
def Dev.releaseMarks (e : Nat) (d : Dev) : Dev :=
  ((d.eng e).marks.foldl (fun y m => y.markDrop m.queue m.mark) d).modEng e fun x => { x with marks := [] }

/-! The start of an item (R332, R361, R362, R385). -/

/-- The entry bundle of a kernel in a half of a cluster's instruction memory, if it is valid. -/
def Dev.kernelEntry (c half k : Nat) (d : Dev) : Option Nat :=
  let w := leNat (d.ste.imem.bytes zeroByte (c * 16384 + half * 8192 + 4 * k) 4)
  if bitOf w 31 ∧ 16 ≤ w % 1024 then some (w % 1024) else none

/-- The VALID bits of the half of the live job (R361). -/
def Dev.kmask (c : Nat) (d : Dev) : Nat :=
  ofBits ((List.range 32).map (fun k =>
    (bitOf (leNat (d.ste.imem.bytes zeroByte (c * 16384 + d.job.epoch % 2 * 8192 + 4 * k) 4)) 31, k)))

/-- What an engine does next when it holds no item. -/
def Engine.rest (x : Engine) : EngState := if x.deque.isEmpty then .steal else .idle

/-- A kernel fault (R343, R373): the item is given up without reissue, and the engine goes on. -/
def Dev.kernelFault (e code slot da : Nat) (d : Dev) : Dev :=
  let x := d.eng e
  match x.item with
  | none => d
  | some i =>
    let c := e / 16
    let d1 := (((d.landAll e).releaseMarks e).modEng e fun y => { y with item := none, state := x.rest, stall := none }).bump (R.STE_CNT3 c)
      F.STE_CNT3_KFAULT_CNT 1
    let d2 := (d1.steBit c 4).giveUp i c code slot x.pc da
    let rise := (d.f (R.STE_ERR c) (bitF 4) = 0 ∧ d.f (R.STE_ERR_MASK c) (bitF 4) = 0) ∨
      (d.f (R.STE_ERR c) (bitF 3) = 0 ∧ d.f (R.STE_ERR_MASK c) (bitF 3) = 0)
    if rise then d2.publish (Src.steErr c) 0 else d2

/-- An engine takes an item and starts its kernel. -/
def Dev.startItem (e : Nat) (i : Item) (d : Dev) : Dev :=
  let x := d.eng e
  let hdr := d.stashBytes i.home (i.param % stashSize) 0x40
  let base := 0x200000
  let regs : List (Nat × Nat) :=
    [(1, base + i.pixOfs), (2, base + i.rowsOfs), (3, base + i.param), (4, i.pitch), (5, i.coreW + i.coreH * 2 ^ 16)]
  let s := regs.foldl (fun t p => Tbl.set (fun _ => (0 : Word)) t p.1 (BitVec.ofNat 32 p.2)) ([] : Tbl Word)
  let max_ := leAt hdr 4 2
  let y : Engine := { x with
    state := .run, item := some i, takenAt := d.now, paused := 0, stall := none, s := s, v := [], p := [], emitted := 0,
    maxSnag := if max_ = 0 then 64 else max_, cropDa := leAt hdr 0x30 8, cropLen := leAt hdr 0x38 4, hop := 0, marks := [],
    runs := x.runs + 1 }
  let d1 := ((d.setEng e y).modOrder i fun o => { o with holder := some (e, x.epoch) }).scratchPut e 0 i.bytes
  match d.kernelEntry (e / 16) (i.epoch % 2) i.kernel with
  | some pc => d1.modEng e fun z => { z with pc := pc }
  | none => (d1.modEng e fun z => { z with pc := 0 }).kernelFault e 6 0 0

/-- Whether the reference rows an inspection item of a swatching camera reads are final (R420). -/
def Dev.rowsFinal (i : Item) (d : Dev) : Bool :=
  let x := d.swatchOf i.cam
  if !d.swatching i.cam ∨ i.kind ≠ 0 then true
  else
    let p := refParam (d.camParam i.cam)
    let r := p.rowOf i.wp
    (List.range (i.coreH + 2 * p.sy)).all (fun k => x.final.contains ((r + k + max 1 p.rows - p.sy) % max 1 p.rows))

/-- ENGINE_TAKE (R332): the head of the engine's own deque. -/
def Dev.engineTake (e : Nat) (d : Dev) : Dev :=
  let x := d.eng e
  match x.deque with
  | [] => d
  | i :: rest =>
    if (x.state = .idle ∨ x.state = .steal) ∧ d.clusterOn (e / 16) ∧ d.rowsFinal i then
      let d1 := d.modCluster (e / 16) fun k =>
        { k with probe := match k.probe with
                   | some p => if p.1 = e then none else some p
                   | none => none,
                 retry := k.retry.filter (fun p => p.1 ≠ e) }
      (d1.setEng e { x with deque := rest }).startItem e i
    else d

/-! Fencing (R339 to R342). -/

/-- The steps of a fence but for its publication (R340). The run of the engine's item ends; the old epoch's marks stay held. -/
def Dev.fenceSteps (e : Nat) (d : Dev) : Dev :=
  let x := d.eng e
  let c := e / 16
  let d1 := (d.setEng e { x with epoch := (x.epoch + 1) % 65536, old := x.item.map (fun i => (x.epoch, i)), state := .fenced, fenceAt := d.now, item := none,
                                 stall := none }).modCluster c fun k =>
    { k with probe := match k.probe with
               | some p => if p.1 = e then none else some p
               | none => none,
             retry := k.retry.filter (fun p => p.1 ≠ e) }
  let d2 := match x.item with
    | none => d1
    | some i =>
      let r := d1.discardResults i
      let y := (r.2.bump (R.STE_CNT3 c) F.STE_CNT3_DISCARD_CNT r.1).modOrder i fun o => { o with holder := none }
      if i.reissue < d.f (R.STE_WDOG c) F.STE_WDOG_REISSUE_MAX then
        let j := { i with reissue := i.reissue + 1 }
        let z := (y.modOrder i fun o => { o with item := j }).bump (R.STE_CNT1 c) F.STE_CNT1_REISSUE_CNT 1
        match z.pushTarget i.home (some e) with
        | some k => z.pushTo k true j
        | none => z.modCluster i.home fun q => { q with queue := j :: q.queue }
      else y.giveUp i c 0 0 0 0
  d2.moveDeque e

/-- ENGINE_FENCE: the steps and the publication of STE_ERR(c). -/
def Dev.fence (e : Nat) (d : Dev) : Dev := (d.fenceSteps e).publish (Src.steErr (e / 16)) 0

/-- The time on the item held, in ns (R339): it pauses while the engine stalls under R347. -/
def Dev.runTime (e : Nat) (d : Dev) : Nat :=
  let x := d.eng e
  let stall := match x.stall with
    | some t => d.now - t
    | none => 0
  if x.item.isSome then d.now - x.takenAt - x.paused - stall else 0

/-- WATCHDOG_EXPIRE. -/
def Dev.watchdog (e : Nat) (d : Dev) : Dev :=
  let c := e / 16
  let lim := d.f (R.STE_WDOG c) F.STE_WDOG_LIMIT
  if (d.eng e).state = .run ∧ (d.eng e).item.isSome ∧ lim ≠ 0 ∧ lim * 1000 ≤ d.runTime e ∧ !d.pwr.trip then
    ((d.bump (R.STE_CNT0 c) F.STE_CNT0_WDOG_CNT 1).steBit c 0).fence e
  else d

/-- A software fence (R339, R344): of an engine that is on. -/
def Dev.softFence (e : Nat) (d : Dev) : Dev :=
  let st := (d.eng e).state
  if st.active then (d.steBit (e / 16) 1).fence e else d

/-- STE_CTL(c).RESET (R352): every engine is fenced, items return to the dispatch queue, FAULT is cleared. -/
def Dev.clusterReset (c : Nat) (d : Dev) : Dev :=
  let es := (List.range 16).map (fun i => 16 * c + i)
  let d0 := es.foldl (fun y e => if (y.eng e).state = .fault then y.modEng e fun x => { x with state := .fenced, fenceAt := d.now } else y) d
  let items := es.flatMap (fun e => (d0.eng e).deque)
  let d1 := (es.foldl (fun y e => y.modEng e fun x => { x with deque := [] }) d0).modCluster c fun k => { k with queue := items ++ k.queue }
  let on := es.filter (fun e => (d1.eng e).state.active)
  let d2 := on.foldl (fun y e => y.modEng e fun x => { x with state := .fenced }) d1
  let d3 := on.foldl (fun y e => y.fenceSteps e) d2
  d3.publish (Src.steErr c) 0

/-- A write of STE_CTL(c). -/
def Dev.steCtlWrite (c : Nat) (v : Word) (d : Dev) : Dev :=
  if fld v F.STE_CTL_RESET = 1 then d.clusterReset c
  else if fld v F.STE_CTL_FENCE = 1 then d.softFence (16 * c + fld v F.STE_CTL_ENGINE)
  else d

/-- ENGINE_RESET_DONE (R340, R382): the engine's registers are cleared, its marks released, and it is IDLE, or OFF where it is
disabled. -/
def Dev.engineResetDone (e : Nat) (d : Dev) : Dev :=
  let x := d.eng e
  if x.state ≠ .fenced then d
  else
    ((d.landAll e).releaseMarks e).modEng e fun y =>
      { y with state := if d.engEnabled e then .idle else .off, old := none, s := [], v := [], p := [], pc := 0, landed := [] }

/-- ENGINE_RESET_TIMEOUT (R342). -/
def Dev.engineResetTimeout (e : Nat) (d : Dev) : Dev :=
  if (d.eng e).state = .fenced ∧ (d.eng e).fenceAt + 1000 ≤ d.now then
    (d.modEng e fun x => { x with state := .fault }).steErr (e / 16) 5
  else d

/-- A write of STE_CFG(c) (R321): engines that it turns on enter IDLE; those it turns off stop, and one that holds an item is
fenced first. -/
def Dev.steCfgWrite (c : Nat) (v : Word) (d : Dev) : Dev :=
  let d1 := d.plainWrite (R.STE_CFG c) v
  (List.range 16).foldl (fun y i =>
    let e := 16 * c + i
    let x := y.eng e
    if d1.engEnabled e then (if x.state = .off then y.modEng e fun z => { z with state := .idle } else y)
    else if x.item.isSome then y.fence e
    else if x.state.active then (y.moveDeque e).modEng e fun z => { z with state := .off }
    else y) d1

/-! Stealing (R333 to R337). -/

/-- Distance of two clusters in mesh hops (R318). -/
def meshHops (a b : Nat) : Nat :=
  let diff := fun (x y : Nat) => (x - y) + (y - x)
  diff (a % 4) (b % 4) + diff (a / 4) (b / 4)

/-- The victim among the engines of a cluster: the most items, at least one, ties to the nearest index after the thief's. -/
def Dev.victim (c thief : Nat) (ok : Engine → Bool) (d : Dev) : Option Nat :=
  ((List.range 16).map (fun k => 16 * c + (thief % 16 + 1 + k) % 16)).foldl (fun acc e =>
    let x := d.eng e
    if e = thief ∨ x.deque.isEmpty ∨ !x.state.active ∨ !ok x then acc
    else match acc with
      | none => some e
      | some k => if (d.eng k).deque.length < x.deque.length then some e else some k) none

/-- Whether the tail item of a deque may be taken: one that waits in its deque for reference rows may not (R420). -/
def Dev.stealable (d : Dev) (x : Engine) : Bool :=
  match x.deque.getLast? with
  | some i => d.rowsFinal i
  | none => false

/-- The thief takes the tail item of a victim and starts it. -/
def Dev.stealFrom (v thief : Nat) (d : Dev) : Dev :=
  match (d.eng v).deque.getLast? with
  | some i => (d.modEng v fun x => { x with deque := x.deque.dropLast }).startItem thief i
  | none => d

/-- A search that found nothing: back to IDLE, and again after 256 cluster cycles (R336). -/
def Dev.searchFails (e : Nat) (d : Dev) : Dev :=
  let c := e / 16
  (d.modEng e fun x => { x with state := .idle }).modCluster c fun k =>
    { k with probe := none, retry := k.retry.filter (fun p => p.1 ≠ e) ++ [(e, d.now + 256000 / max 1 (d.clusterMHz c) + 1)] }

/-- The clusters a remote search probes, in order (R335). -/
def probeOrder (c radius : Nat) : List Nat :=
  ((List.range 7).drop 1).flatMap (fun h => (List.range 16).filter (fun k => h ≤ radius ∧ meshHops c k = h))

/-- STEAL_SEARCH: the lowest engine of a cluster that searches: its cluster's deques, then its deferred list, then the mesh. -/
def Dev.stealSearch (c : Nat) (d : Dev) : Dev :=
  if (d.cluster c).probe.isSome ∨ !d.clusterOn c then d
  else match ((List.range 16).map (fun i => 16 * c + i)).find? (fun e => (d.eng e).state == .steal && (d.eng e).deque.isEmpty) with
    | none => d
    | some e =>
      match d.victim c e d.stealable with
      | some v => (d.bump (R.STE_CNT2 c) F.STE_CNT2_STEAL_LOCAL_CNT 1).stealFrom v e
      | none =>
        match (d.cluster c).defer with
        | i :: rest =>
          if d.level ≤ 2 ∧ d.glb.bindoff = .none then (d.modCluster c fun k => { k with defer := rest }).startItem e i else d.searchFails e
        | [] =>
          let cfg := d.rd (R.STE_CFG c)
          let ps := probeOrder c (min 6 (fld cfg F.STE_CFG_RADIUS))
          if fld cfg F.STE_CFG_STEAL_OUT = 1 ∧ ps ≠ [] then d.modCluster c fun k => { k with probe := some (e, ps) }
          else d.searchFails e

/-- STEAL_PROBE_ANSWER: the next probed cluster answers the thief of cluster c with an item or a refusal. -/
def Dev.probeAnswer (c : Nat) (d : Dev) : Dev :=
  match (d.cluster c).probe with
  | none => d
  | some (e, []) => d.searchFails e
  | some (e, p :: rest) =>
    let mask := d.kmask c
    let ok := fun (x : Engine) => match x.deque.getLast? with
      | some i => i.kind == 0 && bitOf mask i.kernel && d.rowsFinal i
      | none => false
    let offered := if d.clusterOn p && d.b (R.STE_CFG p) F.STE_CFG_STEAL_IN then d.victim p e ok else none
    match offered with
    | some v =>
      ((d.modCluster c fun k => { k with probe := none }).bump (R.STE_CNT2 c) F.STE_CNT2_STEAL_REMOTE_CNT 1).stealFrom v e
    | none => if rest = [] then d.searchFails e else d.modCluster c fun k => { k with probe := some (e, rest) }

/-- STEAL_RETRY: an engine whose wait has passed searches again. -/
def Dev.stealRetry (e : Nat) (d : Dev) : Dev :=
  let c := e / 16
  if (d.cluster c).retry.any (fun p => p.1 == e && decide (p.2 ≤ d.now)) ∧ (d.eng e).state = .idle then
    (d.modEng e fun x => { x with state := x.rest }).modCluster c fun k => { k with retry := k.retry.filter (fun p => p.1 ≠ e) }
  else d

/-! Results and the end of an item (R341, R345). -/

/-- RESULT_ARRIVE: the oldest result of engine e on its way is held, or discarded as late. -/
def Dev.resultArrive (e : Nat) (d : Dev) : Dev :=
  match d.ste.flights.find? (fun f => f.engine == e) with
  | none => d
  | some f =>
    let d1 := d.modSte fun y => { y with flights := y.flights.erase f }
    let mine := fun (o : OrderItem) => o.item.cam == f.cam && o.item.deferred == f.defer && o.item.seq == f.seq &&
      o.holder == some (f.engine, f.epoch) && !o.ended
    if d1.ste.order.any mine then
      d1.modSte fun y => { y with order := y.order.map (fun o => if mine o then { o with results := o.results ++ [f.result] } else o) }
    else
      let c := e / 16
      ((d1.dropResult f.result).bump (R.STE_CNT0 c) F.STE_CNT0_LATE_RESULT_CNT 1).steErr c 2

/-- Every result of an engine on its way arrives. -/
def Dev.resultsIn (e : Nat) : Nat → Dev → Dev
  | 0, d => d
  | n + 1, d => (d.resultArrive e).resultsIn e n

/-- The end of an engine's item (R345, R380): its last results arrive with it, its marks are released, and results are released in
order. -/
def Dev.itemEnd (e : Nat) (d : Dev) : Dev :=
  let x := d.eng e
  match x.item with
  | none => d
  | some i =>
    let d1 := ((d.landAll e).resultsIn e d.ste.flights.length).releaseMarks e
    let d2 := ((d1.modEng e fun y => { y with item := none, state := y.rest, stall := none }).count
      (R.STE_ENG_DONE (e / 16) (e % 16)) whole 1).modOrder i fun o => { o with ended := true, holder := none }
    (d2.bandItemDone i true).releaseCam i.cam

/-! Live registers (R354, R356). -/

def EngState.code : EngState → Nat
  | .off => 0
  | .idle => 1
  | .steal => 2
  | .run => 3
  | .fenced => 4
  | .fault => 5

def Dev.steStatus (c : Nat) (d : Dev) : Word :=
  let run := ofBits ((List.range 16).map (fun i => ((d.eng (16 * c + i)).state == .run, i)))
  BitVec.ofNat 32 (ofBits [(d.clusterOn c, 31), ((d.cluster c).halved, 30)]
    + (if d.clusterOn c then d.clusterMHz c else 0) * 2 ^ 16 + run)

def Dev.engStatus (e : Nat) (d : Dev) : Word :=
  let x := d.eng e
  BitVec.ofNat 32 (x.state.code * 2 ^ 29 + x.deque.length * 2 ^ 16 + x.epoch)

def Dev.engItem (e : Nat) (d : Dev) : Word :=
  match (d.eng e).item with
  | some i => BitVec.ofNat 32 (2 ^ 31 + (if i.deferred then 2 ^ 30 else 0) + i.cam * 2 ^ 24 + i.reissue % 256 * 2 ^ 16)
  | none => 0

def Dev.engSeq (e : Nat) (d : Dev) : Word :=
  match (d.eng e).item with
  | some i => BitVec.ofNat 32 i.seq
  | none => 0

def Dev.engRun (e : Nat) (d : Dev) : Word := BitVec.ofNat 32 (min (d.runTime e / 1000) (2 ^ 20 - 1))

def Dev.steDefer (c : Nat) (d : Dev) : Word :=
  BitVec.ofNat 32 (min (d.cluster c).defer.length 511 + min (d.cluster c).queue.length 511 * 2 ^ 16)

def Dev.ordStatus (d : Dev) : Word :=
  BitVec.ofNat 32 ((if 8192 ≤ d.heldResults then 2 ^ 31 else 0) + min d.heldResults 8192)

/-! The commands. -/

def execDispatchQueuePush (c : Fin 16) (s : State) : Host.Outcome State Fault Refusal := s.run fun d => d.queuePush c

def execEngineTake (e : Fin 256) (s : State) : Host.Outcome State Fault Refusal := s.run fun d => d.engineTake e

def execStealSearch (c : Fin 16) (s : State) : Host.Outcome State Fault Refusal := s.run fun d => d.stealSearch c

def execStealProbeAnswer (c : Fin 16) (s : State) : Host.Outcome State Fault Refusal := s.run fun d => d.probeAnswer c

def execStealRetry (e : Fin 256) (s : State) : Host.Outcome State Fault Refusal := s.run fun d => d.stealRetry e

def execWatchdogExpire (e : Fin 256) (s : State) : Host.Outcome State Fault Refusal := s.run fun d => d.watchdog e

/-- STE_FENCE: a write of STE_CTL(c) with FENCE. -/
def execSteFence (c i : Fin 16) (s : State) : Host.Outcome State Fault Refusal :=
  s.run fun d => d.steCtlWrite c (BitVec.ofNat 32 (0x100 + i))

/-- STE_RESET: a write of STE_CTL(c) with RESET. -/
def execSteReset (c : Fin 16) (v : Word) (s : State) : Host.Outcome State Fault Refusal :=
  s.run fun d => d.steCtlWrite c (v ||| 0x80000000)

def execEngineResetDone (e : Fin 256) (s : State) : Host.Outcome State Fault Refusal := s.run fun d => d.engineResetDone e

def execEngineResetTimeout (e : Fin 256) (s : State) : Host.Outcome State Fault Refusal := s.run fun d => d.engineResetTimeout e

/-- ENGINE_DISABLE: a write of STE_CFG(c). -/
def execEngineDisable (c : Fin 16) (v : Word) (s : State) : Host.Outcome State Fault Refusal := s.run fun d => d.steCfgWrite c v

def execResultArrive (e : Fin 256) (s : State) : Host.Outcome State Fault Refusal := s.run fun d => d.resultArrive e

end Sys2Proof.Machine
end

