-- ==== Sys2Proof/Machine/Tiles.lean ====
section
/-! DEFINITION. The tile writer and the deferred loader (R322 to R329, R333, R349 to R351): strips, band buffers, shared rows and
marks, tiles as work items, and bands that await deferred inspection. -/

namespace Sys2Proof.Machine

/-! Geometry (R323, R324). -/

/-- The tile columns of a frame. -/
def TileFrame.cols (f : TileFrame) : Nat := (f.width + f.cfg.tileW - 1) / max 1 f.cfg.tileW

/-- The home cluster of a tile column. -/
def TileFrame.home (f : TileFrame) (j : Nat) : Nat := f.cfg.homes.getD (j * f.cfg.homes.length / max 1 f.cols) 0

/-- The strip of a home cluster: its first column, its width, its pitch and the size of one buffer. -/
structure Strip where
  home  : Nat
  x0    : Nat
  w     : Nat
  pitch : Nat
  size  : Nat
deriving DecidableEq, Repr

/-- The rows of a band buffer. -/
def TileCfg.bufRows (c : TileCfg) : Nat := c.tileH + 2 * c.selY

def TileFrame.strip (f : TileFrame) (c : Nat) : Strip :=
  let js := (List.range f.cols).filter (fun j => f.home j == c)
  let x0 := js.headD 0 * f.cfg.tileW
  let w := if js.isEmpty then 0 else min f.width ((js.getLastD 0 + 1) * f.cfg.tileW) - x0
  let pitch := roundUp 32 ((w + 2 * f.cfg.selX) * f.bpp)
  { home := c, x0 := x0, w := w, pitch := pitch, size := roundUp 4096 (f.cfg.bufRows * (pitch + 16)) }

/-- The settings of a camera (R322, R358). -/
def Dev.tileCfg (cam : Nat) (d : Dev) : TileCfg :=
  let t := d.rd (R.STE_CAM_TILE cam)
  let b := d.rd (R.STE_CAM_BANDS cam)
  { homes := d.homes cam, kernel := d.f (R.STE_CAM_CFG cam) F.STE_CAM_CFG_KERNEL, selX := fld t F.STE_CAM_TILE_SEL_X,
    selY := fld t F.STE_CAM_TILE_SEL_Y, tileW := fld t F.STE_CAM_TILE_TILE_W, tileH := fld t F.STE_CAM_TILE_TILE_H,
    bands := fld b F.STE_CAM_BANDS_BANDS, base := fld b F.STE_CAM_BANDS_BASE * 4096, param := d.paramOfs cam,
    scan := (d.asmCam cam).cfg.scan }

/-- Whether the settings are ones that R358 and R324 allow. -/
def TileCfg.ok (c : TileCfg) : Bool :=
  c.tileW % 32 == 0 && decide (32 ≤ c.tileW ∧ c.tileW ≤ 2048 ∧ 8 ≤ c.tileH ∧ c.tileH ≤ 512 ∧ 2 ≤ c.bands ∧ c.bands ≤ 8) &&
    c.homes != []

/-- Whether a frame can be inspected: its settings are allowed, its kernel is present and its buffers fit (R324, R358). -/
def Dev.tileFits (f : TileFrame) (d : Dev) : Bool :=
  f.cfg.ok && f.cfg.homes.all (fun c =>
    bitOf (d.kmask c) f.cfg.kernel && decide (f.cfg.base + f.cfg.bands * (f.strip c).size ≤ stashSize))

/-! Frames towards the tile writer. -/

def Dev.tilePush (cam : Nat) (t : TileIn) (d : Dev) : Dev := d.modTiles cam fun x => { x with queue := x.queue ++ [t] }

/-- A frame opens (R322): its settings are sampled; a frame that is not inspected is a gap in the stream of rows. -/
def Dev.tileOpen (f : TileFrame) (d : Dev) : Dev :=
  if d.b (R.STE_CAM_CFG f.cam) F.STE_CAM_CFG_EN then d.modSte fun y => { y with frames := y.frames ++ [f] } else d.tilePush f.cam .gap

/-- An open frame whose settings were sampled. -/
def Dev.tileFrame? (cam seq : Nat) (d : Dev) : Option TileFrame := d.ste.frames.find? (fun f => f.cam == cam && f.seq == seq)

def Dev.tileForget (cam seq : Nat) (d : Dev) : Dev :=
  d.modSte fun y => { y with frames := y.frames.filter (fun f => !(f.cam == cam && f.seq == seq)) }

/-- The first row of a frame gives its width and format; a frame that cannot be inspected sets STE_ERR(0).CFG. -/
def Dev.tileStart (cam seq width format : Nat) (d : Dev) : Dev :=
  match d.tileFrame? cam seq with
  | none => d
  | some f =>
    if f.width ≠ 0 then d
    else
      let g := { f with width := width, format := format, bpp := arrayBpp format }
      if d.tileFits g then
        (d.modSte fun y => { y with frames := y.frames.map (fun k => if k = f then g else k) }).tilePush cam (.frame g)
      else ((d.tileForget cam seq).steErr 0 8).tilePush cam .gap

/-- A row of an open frame. -/
def Dev.tileRowIn (cam seq width format : Nat) (r : TileRow) (d : Dev) : Dev :=
  let d1 := d.tileStart cam seq width format
  if (d1.tileFrame? cam seq).isSome then d1.tilePush cam (.row r) else d1

/-- The close of a frame: `edge` says that its bottom is an edge. -/
def Dev.tileClose (cam seq : Nat) (straddle edge : Bool) (d : Dev) : Dev :=
  match d.tileFrame? cam seq with
  | none => d
  | some f => if f.width = 0 then d.tileForget cam seq else (d.tileForget cam seq).tilePush cam (.close straddle edge)

/-! Rows in a buffer (R324, R325). -/

/-- The bytes of a row of a strip: neighbouring columns where the input has them, the edge column otherwise. -/
def stripBytes (f : TileFrame) (s : Strip) (r : TileRow) : List Byte :=
  (List.range (s.w + 2 * f.cfg.selX)).flatMap (fun i =>
    let x := min (s.x0 + i - f.cfg.selX) (f.width - 1)
    (r.px.getD x []).map (BitVec.ofNat 8))

/-- A row table entry. -/
def rowEntry (r : TileRow) : List Byte :=
  leInt 8 r.info.wp ++ leBytes 8 ((r.info.ts % (2 : Int) ^ 63).toNat + (if r.info.filled then 2 ^ 63 else 0))

/-- A write of the tile writer to a cluster's Stash, and whether it was granted (R435). -/
def Dev.tileStore (c a : Nat) (bs : List Byte) (d : Dev) : Bool × Dev :=
  if d.stashMay (0x30 + c) c a bs.length then (true, d.stashPut c a bs)
  else (false, d.deny (0x30 + c) true (denyAddr (0x30 + c) (0x5000000 + c * stashSize + a)))

/-- Row `k` of buffer `buf` of every home cluster. -/
def Dev.bandRow (f : TileFrame) (buf k : Nat) (r : TileRow) (d : Dev) : Bool × Dev :=
  f.cfg.homes.foldl (fun acc c =>
    let s := f.strip c
    if s.w = 0 then acc
    else
      let b := f.cfg.base + buf * s.size
      let p := acc.2.tileStore c (b + k * s.pitch) (stripBytes f s r)
      let q := p.2.tileStore c (b + f.cfg.bufRows * s.pitch + 16 * k) (rowEntry r)
      (acc.1 && p.1 && q.1, q.2)) (true, d)

/-- Rows from row `k` of a buffer. -/
def Dev.bandRows (f : TileFrame) (buf k : Nat) (rs : List TileRow) (d : Dev) : Bool × Dev :=
  rs.zipIdx.foldl (fun acc p => let q := acc.2.bandRow f buf (k + p.2) p.1; (acc.1 && q.1, q.2)) (true, d)

/-! Bands without live inspection (R328, R349, R350). -/

/-- Items of tiles that can never be made are reported as given up (R350). -/
def Dev.lostTiles (q : Deferred) (d : Dev) : Dev :=
  let cols := if q.cols = [] then List.range q.frame.cols else q.cols
  cols.foldl (fun y j =>
    let c := q.frame.home j
    ((y.bump (R.STE_CNT1 c) F.STE_CNT1_GIVEUP_CNT 1).steErr c 3).notice
      { kind := 1, cam := q.cam, frame := q.frame.seq, job := q.frame.job, epoch := q.frame.epoch, fault := 0, slot := 0, wpLo := q.lo,
        wpHi := q.hi, ts := q.ts, da := 0, item := 0xFFFFFFFF, axis := q.frame.axis, deferred := true, pc := 0 }) d

/-- A band is left to deferred inspection; during the trip its lines do not reach the history ring, and it is reported. -/
def Dev.deferBand (q : Deferred) (d : Dev) : Dev :=
  if d.pwr.trip then d.lostTiles q
  else (d.modSte fun y => { y with deferred := y.deferred ++ [q] }).setInspect q.cam q.frame.seq true

/-- Whether bands of a frame of a camera await deferred inspection. -/
def Dev.defersFrame (cam seq : Nat) (d : Dev) : Bool := d.ste.deferred.any (fun q => q.cam == cam && q.frame.seq == seq)

/-- The band of a frame as one that awaits deferred inspection. -/
def Band.defer (b : Band) : Deferred :=
  let core := (b.rows.drop b.frame.cfg.selY).take b.coreH
  let first := (core.head?.map (·.info)).getD { wp := 0, ts := 0, seq := 0, filled := false }
  { cam := b.frame.cam, frame := b.frame, y0 := b.y0, coreH := b.coreH, cols := [], lo := first.wp,
    hi := (core.getLast?.map (fun r => r.info.wp)).getD first.wp, ts := first.ts }

def SkipBand.defer (f : TileFrame) (b : SkipBand) : Deferred :=
  { cam := f.cam, frame := f, y0 := b.y0, coreH := b.n, cols := [], lo := b.lo, hi := b.hi, ts := b.ts }

def Dev.dropBand (cam id : Nat) (d : Dev) : Dev :=
  d.modTiles cam fun x => { x with bands := x.bands.filter (fun b => b.id ≠ id), cur := if x.cur = some id then none else x.cur }

/-- BAND_DROP is counted. -/
def Dev.bandDropped (cam : Nat) (d : Dev) : Dev := (d.bump (R.STE_CAM_CNT cam) F.STE_CAM_CNT_BAND_DROP_CNT 1).steErr 0 6

/-! Items of a band (R326, R329, R330). -/

/-- The item of tile column j of a band. -/
def Band.item (b : Band) (kind seq kernel now j : Nat) : Item :=
  let f := b.frame
  let c := f.home j
  let s := f.strip c
  let o := f.cfg.base + b.buf * s.size
  let x0 := j * f.cfg.tileW
  let coreW := min f.cfg.tileW (f.width - x0)
  let core := b.defer
  let fill := fun (r : TileRow) => r.info.filled ||
    r.fill.any (fun p => decide (p.1 < x0 + coreW + f.cfg.selX ∧ x0 - f.cfg.selX < p.1 + p.2))
  { kind := kind, cam := f.cam, seq := seq, frame := f.seq, job := f.job, epoch := f.epoch, psid := f.psid,
    tflags := ofBits [(j == 0, 0), (j + 1 == f.cols, 1), (b.edgeT, 2), (b.edgeB, 3), (b.selFill, 4),
      (b.rows.any fill, 5), (b.rows.any (·.unc), 6), (f.straddle, 7), (b.last && j + 1 == f.cols, 8)],
    kernel := kernel, reissue := 0, col := j, x0 := x0, coreW := coreW, y0 := b.y0, coreH := b.coreH,
    selX := f.cfg.selX, selY := f.cfg.selY, pixOfs := o + (x0 - s.x0) * f.bpp, pitch := s.pitch, format := f.format, bpp := f.bpp,
    rowsOfs := o + f.cfg.bufRows * s.pitch, param := f.cfg.param, home := c, axis := f.axis, wp := core.lo, wpHi := core.hi,
    ts := core.ts, band := b.id, since := now }

/-- The swatch kernel of a camera in the live job. -/
def Dev.swatchKernel (cam : Nat) (d : Dev) : Nat :=
  (((d.job.recipe d.job.epoch).bind (fun r => r.cams.find? (fun e => e.cam == cam))).map (·.swKernel)).getD 0

/-- Whether lines at a wp of an epoch belong to the swatch of its camera, and the kind their items take (R419, R420): none where no
item is made. -/
def Dev.bandKind (cam epoch : Nat) (wp : Int) (d : Dev) : Option Nat :=
  let x := d.swatchOf cam
  if epoch ≠ d.job.epoch ∨ x.len = 0 then some 0
  else match x.phase with
    | .done => some 0
    | .failed => none
    | .seekBase => none
    | .accumulate => some (if x.repOf wp < x.base + x.k then 2 else 0)

/-- A band whose region is complete: its items are made and dispatched, or it is deferred at level 3 or above (R349). -/
def Dev.bandMake (cam id : Nat) (d : Dev) : Dev :=
  match (d.tiles cam).bands.find? (fun b => b.id == id) with
  | none => d
  | some b =>
    if 3 ≤ d.level ∨ d.pwr.trip then
      let d1 := d.dropBand cam id
      if b.kind = 2 then d1.swatchBad cam ((d1.swatchOf cam).repOf b.defer.lo) else d1.deferBand b.defer
    else
      let n := b.frame.cols
      let kernel := if b.kind = 2 then d.swatchKernel cam else b.frame.cfg.kernel
      let d1 := d.modTiles cam fun x =>
        { x with bands := x.bands.map (fun y => if y.id = id then { y with made := true, left := n } else y) }
      (List.range n).foldl (fun y j =>
        let seq := (y.rd (R.STE_CAM_SEQ cam)).toNat
        let i := b.item b.kind seq kernel y.now j
        ((y.wr (R.STE_CAM_SEQ cam) (BitVec.ofNat 32 (seq + 1))).modSte fun z =>
          { z with order := z.order ++ [{ item := i, holder := none, ended := false, results := [] }] }).dispatchItem i) d1

/-! Shared rows and marks (R327). -/

/-- The lowest buffer of a camera that is free. -/
def Dev.freeBuf (cam n : Nat) (d : Dev) : Option Nat :=
  let x := d.tiles cam
  (List.range n).find? (fun k => !x.bands.any (fun b => b.buf == k) && x.next != some k)

/-- The share of a camera's buffers that are not free (R328): used and all. -/
def Dev.bandShare (cam : Nat) (d : Dev) : Nat × Nat :=
  let x := d.tiles cam
  (x.bands.length + (if x.next.isSome then 1 else 0), d.f (R.STE_CAM_BANDS cam) F.STE_CAM_BANDS_BANDS)

/-- The marks of the tile writer of a camera are released. -/
def Dev.tileUnmark (cam : Nat) (d : Dev) : Dev :=
  ((d.tiles cam).marks.foldl (fun y m => y.markDrop m.1 m.2) d).modTiles cam fun x => { x with marks := [] }

/-- A mark in each queue that a row came from; none are held where one is refused. -/
def Dev.tileMark (cam frame : Nat) (src : List (Nat × Nat)) (d : Dev) : Dev :=
  let r := src.foldl (fun (acc : Bool × Dev) q =>
    match acc.2.markRequest q.1 q.2 .tiles 0 cam frame with
    | (some m, y) => (acc.1, y.modTiles cam fun x => { x with marks := x.marks ++ [(q.1, m.1)] })
    | (none, y) => (false, y)) (true, d)
  if r.1 then r.2 else r.2.tileUnmark cam

/-- The first shared row: the next band's buffer is kept, or a mark is held. -/
def Dev.tileShare (cam : Nat) (f : TileFrame) (r : TileRow) (d : Dev) : Dev :=
  let x := d.tiles cam
  if f.cfg.selY = 0 ∨ x.next.isSome ∨ x.late then d
  else match d.freeBuf cam f.cfg.bands with
    | some b => d.modTiles cam fun y => { y with next := some b, late := false, rewound := false }
    | none => (d.modTiles cam fun y => { y with late := true, rewound := false }).tileMark cam f.seq r.src

/-- SELVEDGE_REWIND (R327): the next buffer has become free; the shared rows are read again unless a mark was forfeited. -/
def Dev.tileRewind (cam : Nat) (d : Dev) : Dev :=
  let x := d.tiles cam
  match x.frame with
  | none => d
  | some f =>
    if !x.late ∨ x.next.isSome then d
    else match d.freeBuf cam f.cfg.bands with
      | none => d
      | some b =>
        let held := fun (m : Nat × Nat) => (d.ply m.1).live.any (fun k => k.id == m.2)
        let ok := x.marks != [] && x.marks.all held
        (d.tileUnmark cam).modTiles cam fun y => { y with next := some b, rewound := ok }

/-- What was kept for the next band is given up. -/
def Dev.tileRelease (cam : Nat) (d : Dev) : Dev :=
  (d.tileUnmark cam).modTiles cam fun x => { x with next := none, late := false, rewound := false }

/-! The rows of a camera. -/

/-- A band whose buffer cannot be written is dropped (R435); a core in progress goes on without a buffer. -/
def Dev.bandDenied (cam id : Nat) (d : Dev) : Dev :=
  match (d.tiles cam).bands.find? (fun b => b.id == id) with
  | none => d
  | some b =>
    let q := b.defer
    let d1 := d.dropBand cam id
    if b.kind = 2 then
      (d1.swatchBad cam ((d1.swatchOf cam).repOf q.lo)).modTiles cam fun x =>
        if b.full then x else { x with skip := some { y0 := b.y0, n := b.coreH, later := false, lo := q.lo, hi := q.hi, ts := q.ts } }
    else if b.full then (d1.bandDropped cam).deferBand q
    else (d1.bandDropped cam).modTiles cam fun x =>
      { x with skip := some { y0 := b.y0, n := b.coreH, later := true, lo := q.lo, hi := q.hi, ts := q.ts } }

/-- A row is appended to a band; `core` says that it is one of its core rows. -/
def Dev.bandAdd (cam id : Nat) (core : Bool) (r : TileRow) (d : Dev) : Dev :=
  match (d.tiles cam).bands.find? (fun b => b.id == id) with
  | none => d
  | some b =>
    let d1 := d.modTiles cam fun x => { x with bands := x.bands.map (fun y =>
      if y.id = id then { y with rows := y.rows ++ [r], coreH := if core then y.coreH + 1 else y.coreH } else y) }
    let w := d1.bandRow b.frame b.buf b.rows.length r
    if w.1 then w.2 else w.2.bandDenied cam id

/-- Bands that wait for their last selvedge rows take a row; one that has them all is complete. -/
def Dev.bandsWaiting (cam : Nat) (r : TileRow) (d : Dev) : Dev :=
  ((d.tiles cam).bands.filter (fun b => b.full && !b.made)).foldl (fun y b =>
    let y1 := y.bandAdd cam b.id false r
    if b.coreH + 2 * b.frame.cfg.selY ≤ b.rows.length + 1 then y1.bandMake cam b.id else y1) d

/-- Bands that wait take their last row again to the end (R326): the bottom is an edge. -/
def Dev.bandsEdge (cam : Nat) (d : Dev) : Dev :=
  ((d.tiles cam).bands.filter (fun b => b.full && !b.made)).foldl (fun y b =>
    let y1 := y.modTiles cam fun x => { x with bands := x.bands.map (fun k => if k.id = b.id then { k with edgeB := true } else k) }
    let n := b.coreH + 2 * b.frame.cfg.selY - b.rows.length
    let y2 := match b.rows.getLast? with
      | some r => (List.range n).foldl (fun (z : Dev) _ => z.bandAdd cam b.id false r) y1
      | none => y1
    y2.bandMake cam b.id) d

/-- The core of the band in progress ends. -/
def Dev.coreEnd (cam : Nat) (last : Bool) (d : Dev) : Dev :=
  let x := d.tiles cam
  match x.frame with
  | none => d
  | some f =>
    let d1 := match x.skip with
      | some k => let y := d.modTiles cam fun z => { z with skip := none }
                  if k.later ∧ k.n ≠ 0 then y.deferBand (k.defer f) else y
      | none => d
    match x.cur with
    | none => d1
    | some id =>
      let d2 := d1.modTiles cam fun z =>
        { z with cur := none, bands := z.bands.map (fun b => if b.id = id then { b with full := true, last := last || b.last } else b) }
      let d3 := match x.last.getLast? with
        | some r => d2.tileShare cam f r
        | none => d2
      if f.cfg.selY = 0 then d3.bandMake cam id else d3

/-- The first core row of a band (R326 to R328, R349). -/
def Dev.bandBegin (cam : Nat) (f : TileFrame) (r : TileRow) (d : Dev) : Dev :=
  let y0 := (d.tiles cam).count
  let skip := fun (later : Bool) (y : Dev) => (y.tileRelease cam).modTiles cam fun x =>
    { x with skip := some { y0 := y0, n := 0, later := later, lo := r.info.wp, hi := r.info.wp, ts := r.info.ts } }
  match d.bandKind cam f.epoch r.info.wp with
  | none => skip false d
  | some kind =>
    if 3 ≤ d.level ∨ d.pwr.trip then
      if kind = 2 then skip false (d.swatchBad cam ((d.swatchOf cam).repOf r.info.wp)) else skip true d
    else
      let d1 := d.tileRewind cam
      let x := d1.tiles cam
      match (match x.next with
        | some b => some b
        | none => d1.freeBuf cam f.cfg.bands) with
      | none => if kind = 2 then skip false (d1.swatchBad cam ((d1.swatchOf cam).repOf r.info.wp)) else skip true (d1.bandDropped cam)
      | some buf =>
        let edge := x.last.isEmpty
        let fill := !edge && x.late && !x.rewound && f.cfg.selY != 0
        let shared := x.last.drop (x.last.length - f.cfg.selY)
        let top := if edge ∨ fill then List.replicate f.cfg.selY r
          else List.replicate (f.cfg.selY - shared.length) (shared.headD r) ++ shared
        let b : Band :=
          { id := x.nextId, buf := buf, frame := f, kind := kind, y0 := y0, coreH := 0, rows := top, full := false, edgeT := edge,
            edgeB := false, selFill := fill, made := false, left := 0, last := false }
        let d2 := (d1.tileRelease cam).modTiles cam fun z => { z with bands := z.bands ++ [b], cur := some b.id, nextId := z.nextId + 1 }
        let d3 := if fill then (d2.bump (R.STE_CAM_CNT cam) F.STE_CAM_CNT_SEL_FILL_CNT 1).steErr 0 7 else d2
        let w := d3.bandRows f buf 0 top
        if w.1 then w.2 else w.2.bandDenied cam b.id

/-- Whether a row is the first of a repeat of a camera in swatch (R418). -/
def Dev.repeatStarts (cam : Nat) (f : TileFrame) (r : TileRow) (d : Dev) : Bool :=
  let x := d.swatchOf cam
  match (d.tiles cam).last.getLast? with
  | some p => d.swatching cam && f.epoch == d.job.epoch && x.repOf p.info.wp != x.repOf r.info.wp
  | none => false

/-- One row of the frame in progress. -/
def Dev.tileRow (cam : Nat) (f : TileFrame) (r : TileRow) (d : Dev) : Dev :=
  let d1 := (if d.repeatStarts cam f r then d.coreEnd cam false else d).bandsWaiting cam r
  let d2 := if (d1.tiles cam).cur.isNone ∧ (d1.tiles cam).skip.isNone then d1.bandBegin cam f r else d1
  let d3 := match (d2.tiles cam).cur with
    | some id => d2.bandAdd cam id true r
    | none => d2.modTiles cam fun x => { x with skip := x.skip.map (fun (k : SkipBand) => { y0 := k.y0, n := k.n + 1, later := k.later, lo := k.lo, hi := r.info.wp, ts := k.ts }) }
  let d4 := d3.modTiles cam fun x =>
    let l := x.last ++ [r]
    { x with count := x.count + 1, last := l.drop (l.length - max 1 f.cfg.selY) }
  let n := match (d4.tiles cam).cur with
    | some id => (((d4.tiles cam).bands.find? (fun b => b.id == id)).map (·.coreH)).getD 0
    | none => ((d4.tiles cam).skip.map (·.n)).getD 0
  let d5 := if n = max 1 (f.cfg.tileH + 1 - f.cfg.selY) then d4.tileShare cam f r else d4
  if n = f.cfg.tileH then d5.coreEnd cam (decide (f.cfg.selY = 0 ∧ f.expect = (d5.tiles cam).count)) else d5

/-- The close of the frame in progress. -/
def Dev.tileEnd (cam : Nat) (straddle edge : Bool) (d : Dev) : Dev :=
  let x := d.tiles cam
  let mine := fun (b : Band) => !b.made && (match x.frame with
    | some f => b.frame.seq == f.seq
    | none => false)
  let d0 := d.modTiles cam fun y => { y with
    frame := (match y.frame with
      | some f => some { f with straddle := f.straddle || straddle }
      | none => none),
    bands := y.bands.map (fun b => if mine b then
      { b with frame := { b.frame with straddle := b.frame.straddle || straddle },
               last := b.last || (x.cur.isNone && x.skip.isNone && b.y0 + b.coreH == x.count) } else b) }
  let d1 := d0.coreEnd cam true
  let d2 := if edge then ((d1.bandsEdge cam).tileRelease cam).modTiles cam fun y => { y with last := [] } else d1
  d2.modTiles cam fun y => { y with frame := none, count := 0 }

/-- TILE_WRITE_LINE: one row, or the opening or close of a frame, reaches the tile writer of a camera. A change of width, format or
settings is an edge (DEDUCED: the rows of two geometries cannot share a buffer). -/
def Dev.tileWrite (cam : Nat) (d : Dev) : Dev :=
  let x := d.tiles cam
  match x.queue with
  | [] => d
  | t :: rest =>
    let d1 := d.setTiles cam { x with queue := rest }
    match t with
    | .frame f =>
      let same := x.bands.all (fun b => b.made || (b.frame.width == f.width && b.frame.format == f.format && b.frame.cfg == f.cfg))
      let d2 := if f.edgeTop ∨ !same then ((d1.bandsEdge cam).tileRelease cam).modTiles cam fun y => { y with last := [] } else d1
      d2.modTiles cam fun y => { y with frame := some f, count := 0 }
    | .row r => match x.frame with
      | some f => d1.tileRow cam f r
      | none => d1
    | .close s e => d1.tileEnd cam s e
    | .gap => ((d1.bandsEdge cam).tileRelease cam).modTiles cam fun y => { y with last := [] }

/-! The deferred loader (R333, R472). -/

/-- The tile settings of a frame of the history ring. -/
def Dev.tagFrame (t : FrameTag) (d : Dev) : TileFrame :=
  let rows := match d.histFrame? t.cam t.seq with
    | some h => d.inspectRows h
    | none => []
  let cfg := d.tileCfg t.cam
  let format := if (d.carCam t.cam).path = 0 then t.format else
    inspectFormat (d.skeinBytes (d.cpbOf t.cam t.psid).1 0x100) t.format
  { cam := t.cam, seq := t.seq, job := t.job, epoch := t.epoch, psid := t.psid, axis := t.axis, format := format, bpp := arrayBpp format,
    width := (rows.map (fun r => r.px.length)).foldl max 0, expect := rows.length, edgeTop := !cfg.scan || t.flag 9 || t.flag 6,
    straddle := t.flag 6, cfg := cfg }

/-- Every band of a frame of the history ring joins those that await deferred inspection. -/
def Dev.frameBands (h : HistFrame) (f : TileFrame) (d : Dev) : Dev :=
  let rows := (d.inspectRows h).map (·.info)
  if !d.tileFits f then (d.steErr 0 8).setInspect h.tag.cam h.tag.seq false
  else
    let z : RowInfo := { wp := h.tag.wpFirst, ts := h.tag.tsFirst, seq := 0, filled := false }
    (List.range ((rows.length + f.cfg.tileH - 1) / f.cfg.tileH)).foldl (fun (y : Dev) k =>
      let y0 := k * f.cfg.tileH
      let n := min f.cfg.tileH (rows.length - y0)
      y.deferBand { cam := f.cam, frame := f, y0 := y0, coreH := n, cols := [], lo := (rows.getD y0 z).wp,
                    hi := (rows.getD (y0 + n - 1) z).wp, ts := (rows.getD y0 z).ts }) d

/-- The bands of a retro frame join those that await deferred inspection (R472). -/
def Dev.retroBands (h : HistFrame) (d : Dev) : Dev :=
  (d.modSte fun y => { y with retroed := y.retroed ++ [(h.tag.cam, h.tag.seq)] }).frameBands h (d.tagFrame h.tag)

/-- Frames that a retro scan queued and whose bands are not listed yet are listed, oldest first. -/
def Dev.retroList (d : Dev) : Dev :=
  (d.skein.hist.frames.filter (fun h => h.valid && h.retro && h.inspect && !d.ste.retroed.contains (h.tag.cam, h.tag.seq))).foldl
    (fun y h => y.retroBands h) d

/-- The rows of a neighbouring frame of the stream, where the two meet without an edge. -/
def Dev.neighbourRows (f : TileFrame) (next : Bool) (d : Dev) : List TileRow :=
  if !f.cfg.scan then []
  else
    let seq := if next then (f.seq + 1) % 2 ^ 32 else (f.seq + 2 ^ 32 - 1) % 2 ^ 32
    match d.histFrame? f.cam seq, d.histFrame? f.cam f.seq with
    | some h, some own =>
      let cut := if next then h.tag.flag 9 || (own.tag.flag 6 && h.tag.flag 6) else f.edgeTop
      if h.valid && !cut then d.inspectRows h else []
    | _, _ => []

/-- The region of a deferred band: its rows, and whether its top and bottom are edges; none where a core row is gone. -/
def Dev.deferRegion (q : Deferred) (d : Dev) : Option (List TileRow × Bool × Bool) :=
  match d.histFrame? q.cam q.frame.seq with
  | none => none
  | some h =>
    let rows := d.inspectRows h
    let sy := q.frame.cfg.selY
    if !h.valid ∨ rows.length < q.y0 + q.coreH ∨ q.coreH = 0 then none
    else
      let core := (rows.drop q.y0).take q.coreH
      let above := (if q.y0 < sy then d.neighbourRows q.frame false else []) ++ rows.take q.y0
      let below := rows.drop (q.y0 + q.coreH) ++ (if rows.length < q.y0 + q.coreH + sy then d.neighbourRows q.frame true else [])
      let top := above.drop (above.length - sy)
      let bot := below.take sy
      match core.head?, core.getLast? with
      | some a, some z =>
        some (List.replicate (sy - top.length) (top.headD a) ++ top ++ core ++ bot ++
          List.replicate (sy - bot.length) ((bot.getLast?).getD z), decide (above.isEmpty ∧ 0 < sy), decide (bot.isEmpty ∧ 0 < sy))
      | _, _ => none

/-- The loader reads the records of a deferred band as STEWARD: on the tile path its rows and those around it, else the whole frame. -/
def Dev.deferRead (q : Deferred) (d : Dev) : Dev :=
  let f := q.frame
  let sy := f.cfg.selY
  let tile := (d.carCam q.cam).path = 0
  let lines := fun (seq : Nat) => (d.frameRecs q.cam seq 0 d.skein.hist.recs.length).length
  let prev := (f.seq + 2 ^ 32 - 1) % 2 ^ 32
  let next := (f.seq + 1) % 2 ^ 32
  let d1 := if tile then d.readRecs 2 q.cam f.seq (q.y0 - sy) (q.y0 + q.coreH + sy - (q.y0 - sy)) else d.readRecs 2 q.cam f.seq 0 (lines f.seq)
  let d2 := if !f.cfg.scan ∨ sy ≤ q.y0 then d1
    else if tile then d1.readRecs 2 q.cam prev (lines prev - (sy - q.y0)) (sy - q.y0) else d1.readRecs 2 q.cam prev 0 (lines prev)
  if !f.cfg.scan ∨ q.y0 + q.coreH + sy ≤ f.expect then d2
  else d2.readRecs 2 q.cam next 0 (if tile then q.y0 + q.coreH + sy - f.expect else lines next)

/-- Whether the loader may begin a band now. -/
def Dev.mayDefer (q : Deferred) (d : Dev) : Bool :=
  let n := q.frame.cfg.bands
  let free := (List.range n).countP (fun k => !(d.tiles q.cam).bands.any (fun b => b.buf == k) && (d.tiles q.cam).next != some k)
  let cols := if q.cols = [] then List.range q.frame.cols else q.cols
  decide (2 ≤ free) && q.frame.cfg.homes.all (fun c =>
    decide ((d.cluster c).defer.length + cols.countP (fun j => q.frame.home j == c) ≤ 256))

/-- The items of a deferred band join the lists of their home clusters. -/
def Dev.deferItems (b : Band) (cols : List Nat) (d : Dev) : Dev :=
  cols.foldl (fun (y : Dev) j =>
    let seq := (y.tiles b.frame.cam).dseq
    let i := b.item 1 seq b.frame.cfg.kernel y.now j
    (((y.modTiles b.frame.cam fun x => { x with dseq := (seq + 1) % 2 ^ 32 }).modSte fun z =>
      { z with order := z.order ++ [{ item := i, holder := none, ended := false, results := [] }] }).modCluster i.home fun k =>
      { k with defer := k.defer ++ [i] })) d

/-- DEFERRED_BAND_LOAD: the oldest band that can be loaded. A band whose lines the ring never held is reported as given up. -/
def Dev.deferLoad (d0 : Dev) : Dev :=
  let d := d0.retroList
  let oldest := fun (q : Deferred) => (d.ste.deferred.find? (fun p => p.cam == q.cam)) == some q
  if 2 < d.level ∨ d.glb.bindoff ≠ .none ∨ d.pwr.trip ∨ !d.skeinServes then d
  else match d.ste.deferred.find? (fun q => oldest q && d.mayDefer q) with
    | none => d
    | some q =>
      let d := d.deferRead q
      let d1 := d.modSte fun y => { y with deferred := y.deferred.erase q }
      match d.deferRegion q, d.freeBuf q.cam q.frame.cfg.bands with
      | some (rows, top, bot), some buf =>
        let cols := if q.cols = [] then List.range q.frame.cols else q.cols
        let x := d1.tiles q.cam
        let b : Band :=
          { id := x.nextId, buf := buf, frame := q.frame, kind := 1, y0 := q.y0, coreH := q.coreH, rows := rows, full := true,
            edgeT := top, edgeB := bot, selFill := false, made := true, left := cols.length,
            last := decide (q.y0 + q.coreH = q.frame.expect) }
        let d2 := d1.modTiles q.cam fun y => { y with bands := y.bands ++ [b], nextId := y.nextId + 1 }
        let w := d2.bandRows q.frame buf 0 rows
        if w.1 then w.2.deferItems b cols
        else (((w.2.dropBand q.cam b.id).bandDropped q.cam).modSte fun y => { y with deferred := y.deferred ++ [q] })
      | _, _ => ((match d.histFrame? q.cam q.frame.seq with
          | some h => if h.valid then d1.lostTiles q else d1
          | none => d1)).inspectDone q.cam q.frame.seq

/-! The trip and the watch state (R350, R351). -/

/-- Every engine loses its item, deque and marks, its epoch rises by 1, and it is IDLE where it is on. -/
def Dev.enginesAbandon (d : Dev) : Dev :=
  (List.range 256).foldl (fun y e =>
    (y.releaseMarks e).modEng e fun x =>
      { x with epoch := (x.epoch + 1) % 65536, item := none, deque := [], stall := none, old := none, xfers := [], landed := [],
               state := if x.state = .off then .off else .idle })
    ((List.range 16).foldl (fun y c => y.modCluster c fun k => { k with queue := [], defer := [], probe := none, retry := [] }) d)

/-- A live tile is deferred: its band, while it is kept, or its frame in the history ring, says how it was cut. -/
def Dev.tripTile (i : Item) (d : Dev) : Dev :=
  let frame : Option TileFrame := match (d.tiles i.cam).bands.find? (fun b => b.id == i.band) with
    | some b => some b.frame
    | none => (d.histFrame? i.cam i.frame).map (fun h => d.tagFrame h.tag)
  match frame with
  | some f =>
    let q : Deferred :=
      { cam := i.cam, frame := f, y0 := i.y0, coreH := i.coreH, cols := [i.col], lo := i.wp, hi := i.wpHi, ts := i.ts }
    (d.modSte fun y => { y with deferred := y.deferred ++ [q] }).setInspect i.cam i.frame true
  | none => d

/-- The hardware trip (R350): items that have not ended, and live ones whose results are held, become deferred tiles; a swatch tile
makes its repeat unusable. -/
def Dev.steTrip (d : Dev) : Dev :=
  let os := d.ste.order
  let gone := os.filter (fun o => !o.ended || !o.item.deferred)
  let d1 := d.job.swatching.foldl (fun (y : Dev) c => y.swatchBad c (y.swatchOf c).rep) d.enginesAbandon
  let d2 := gone.foldl (fun y o =>
    let y1 := (y.discardResults o.item).2.modOrder o.item fun p => { p with ended := true, holder := none }
    let y2 := if o.item.kind = 2 then y1.swatchBad o.item.cam ((y1.swatchOf o.item.cam).repOf o.item.wp) else y1.tripTile o.item
    if o.ended then y2 else y2.bandItemDone o.item false) d1
  (gone.map (fun o => o.item.cam)).dedup.foldl (fun y c => y.releaseCam c) d2

/-- Entry into the watch state (R351): unfinished items are given up, and local scratch is lost (it reads as unwritten memory). The Stash's
background test stops, and starts a pass after it (R451). -/
def Dev.steWatch (d : Dev) : Dev :=
  let gone := d.ste.order.filter (fun o => !o.ended)
  (gone.foldl (fun y o => y.giveUp o.item o.item.home 0 0 0 0) d.enginesAbandon).modStash fun x => { x with scr := [], tests := [] }

/-! The commands. -/

def execTileWriteLine (cam : Fin 48) (s : State) : Host.Outcome State Fault Refusal := s.run fun d => d.tileWrite cam

def execSelvedgeRewind (cam : Fin 48) (s : State) : Host.Outcome State Fault Refusal := s.run fun d => d.tileRewind cam

def execDeferredBandLoad (s : State) : Host.Outcome State Fault Refusal := s.run fun d => d.deferLoad

end Sys2Proof.Machine
end

