-- ==== Sys2Proof/Machine/Car.lean ====
section
/-! DEFINITION. The Carriages (R271 to R277, R284 to R292, R306 to R314): paths, the in-line queue, memory-mode frames, parameter
blocks, and what a processed frame hands on. -/

namespace Sys2Proof.Machine

def Dev.carriage (k : Nat) (d : Dev) : Carriage := d.car.cars.get (fun _ => Carriage.init) k

def Dev.setCarriage (k : Nat) (x : Carriage) (d : Dev) : Dev :=
  { d with car := { d.car with cars := d.car.cars.set (fun _ => Carriage.init) k x } }

def Dev.modCarriage (k : Nat) (g : Carriage → Carriage) (d : Dev) : Dev := d.setCarriage k (g (d.carriage k))

/-- Whether Carriages run. -/
def Dev.carRuns (d : Dev) : Bool := !d.pwr.trip && d.pwr.state == .active

/-! Paths (R271 to R273). -/

/-- The camera bound in-line to Carriage k. -/
def Dev.boundCam (k : Nat) (d : Dev) : Option Nat :=
  (List.range 48).find? (fun c => (d.asmCam c).on && (d.carCam c).path == 1 && (d.carCam c).car == k)

/-- The cameras Carriage k serves in memory mode. -/
def Dev.memCams (k : Nat) (d : Dev) : List Nat :=
  (List.range 48).filter (fun c => (d.asmCam c).on && (d.carCam c).path == 2 && (d.carCam c).car == k)

/-- PATH, CARRIAGE and REGION take effect as a camera's frame opens. -/
def Dev.carFrameOpen (cam : Nat) (d : Dev) : Dev :=
  let v := d.rd (R.CAR_CAM_PATH cam)
  let p := if fld v F.CAR_CAM_PATH_PATH = 3 then 0 else fld v F.CAR_CAM_PATH_PATH
  let k := fld v F.CAR_CAM_PATH_CARRIAGE
  let set := fun (path car : Nat) (y : Dev) => y.modCarCam cam fun x =>
    { x with path := path, car := car, region := fld v F.CAR_CAM_PATH_REGION,
             ringAt := if x.region = fld v F.CAR_CAM_PATH_REGION then x.ringAt else 0, opened := [] }
  if p = 0 then set 0 k d
  else if !d.b (R.CAR_CFG k) F.CAR_CFG_EN then set 0 k (d.carErr k 10)
  else if p = 1 then
    let d1 := set 1 k d
    if d1.boundCam k = some cam then d1 else d1.carErr k 10
  else if 8 ≤ ((d.memCams k).filter (· ≠ cam)).length then set 2 4 (d.carErr k 10)
  else set 2 k d

/-- A stamped line goes to its Carriage, or to its memory-mode ring. A stopped Carriage abandons the line's frame whole (R308). -/
def Dev.carLine (l : LineRec) (d : Dev) : Dev :=
  let x := d.carCam l.cam
  if x.path = 1 ∧ d.boundCam x.car = some l.cam then
    d.modCarriage x.car fun y => if d.carRuns then { y with cross := y.cross ++ [.line l] } else { y with abandon := some (l.cam, l.frame) }
  else if x.path = 2 ∧ x.car < 4 then d.modCarCam l.cam fun y => { y with opened := y.opened ++ [l] }
  else d

/-- The bytes of a line in a Carriage's queue or ring. -/
def lineBytes (l : LineRec) : Nat := (l.px.length * formatBits l.format + 7) / 8

/-- The bytes of a camera's memory-mode ring. -/
def Dev.memRing (cam : Nat) (d : Dev) : Nat := d.f (R.SKEIN_RGN_SIZE (d.carCam cam).region) ⟨0, 17⟩ * 2 ^ 20

/-- Every output of a camera has GAP_BEFORE at its next tag. -/
def Dev.carGaps (cam : Nat) (outs : List Nat) (d : Dev) : Dev :=
  { d with car := { d.car with gaps := outs.foldl (fun g o => if g.contains (cam, o) then g else g ++ [(cam, o)]) d.car.gaps } }

/-- A frame of Carriage k and camera `cam` that is lost is counted, and every output of the camera has a gap (R276, R477). -/
def Dev.memSkip (k cam : Nat) (d : Dev) : Dev :=
  ((d.bump (R.CAR_CNT0 k) F.CAR_CNT0_MEM_SKIP_CNT 1).carErr k 7).carGaps cam [0, 1, 2, 3]

/-- Frames of a memory-mode ring that stand where `need` bytes must go are overwritten (R276). -/
def Dev.memEvict (cam need : Nat) : Nat → Dev → Dev
  | 0, d => d
  | fuel + 1, d =>
    let x := d.carCam cam
    match x.ring with
    | [] => d
    | f :: rest =>
      if (x.ring.map (·.size)).sum + need ≤ d.memRing cam then d
      else
        let k := x.car
        let d1 := (d.setCarCam cam { x with ring := rest }).modCarriage k fun y =>
          { y with mem := match y.mem with
                     | some (c, g, q, m) => if c = cam ∧ g.tag.seq = f.tag.seq then none else some (c, g, q, m)
                     | none => none }
        (d1.memSkip k cam).memEvict cam need fuel

/-- The tag of a frame reaches its path (R272, R273). The spec gives the memory-mode ring no layout: the bytes of the Skein region
that a frame takes are free values. Frames tagged during the trip receive no processing (R308). -/
def Dev.carClose (t : FrameTag) (d : Dev) : Dev :=
  let x := d.carCam t.cam
  if !d.carRuns then d.modCarCam t.cam fun y => { y with opened := [] }
  else if x.path = 1 ∧ d.boundCam x.car = some t.cam then
    d.modCarriage x.car fun y => { y with cross := y.cross ++ [.close t] }
  else if x.path = 2 ∧ x.car < 4 then
    let size := 64 + (x.opened.map lineBytes).sum
    let base := (d.rd64 (R.SKEIN_RGN_BASE x.region)).toNat / 2 ^ 20 * 2 ^ 20
    let d1 := d.memEvict t.cam size x.ring.length
    let cap := d1.memRing t.cam
    let at_ := if cap < x.ringAt + size then 0 else x.ringAt
    let d2 := d1.modCarCam t.cam fun y => { y with opened := [] }
    if cap < size then d2.memSkip x.car t.cam
    else if !d.skeinExists (base + at_) size then (d2.decodeError 2 true (base + at_)).memSkip x.car t.cam
    else
      let f : MemFrame := { tag := t, lines := x.opened, size := size, da := base + at_ }
      (d2.modCarCam t.cam fun y => { y with ring := y.ring ++ [f], ringAt := at_ + size }).spoilRange (base + at_) size
  else d

/-! Parameter blocks (R284, R286, R287). -/

/-- The master of Carriage k. -/
def carMaster (k : Nat) : Nat := 0x20 + k

/-- The bytes a CPB occupies: up to its defect list's end, or to its column table's. -/
def cpbLength (hdr : List Byte) : Nat :=
  if leAt hdr 0x2C 4 = 0 then 0x6100 + 4 * leAt hdr 0x0C 2 else 0xA100 + 4 * leAt hdr 0x2C 4

/-- What stops CAR(k) from reading a footprint: none, or the device with the decode error or the denial recorded. -/
def Dev.carBarred (k a n : Nat) (d : Dev) : Option Dev :=
  if !d.skeinServes then some d
  else if !d.skeinExists a n then some (d.decodeError (carMaster k) false a)
  else if !d.skeinMay (carMaster k) false a n then some (d.deny (carMaster k) false a)
  else none

/-- Reads a CPB as CAR(k); a refused or denied one has no bytes. The second answer says that a block of it is uncorrectable (R477). -/
def Dev.cpbLoad (k psid da : Nat) (d : Dev) : CpbCopy × Bool × Dev :=
  let refuse := fun (y : Dev) => (({ psid := psid, da := da, bytes := [] } : CpbCopy), false, y.carErr k 10)
  match d.carBarred k da 0x100 with
  | some y => refuse y
  | none =>
    let hdr := d.skeinRead (carMaster k) da 0x100
    if hdr.2.1 then ({ psid := psid, da := da, bytes := [] }, true, hdr.2.2)
    else if cpbRefused hdr.1 then refuse hdr.2.2
    else match d.carBarred k da (cpbLength hdr.1) with
      | some y => refuse y
      | none =>
        let r := d.skeinRead (carMaster k) da (cpbLength hdr.1)
        ({ psid := psid, da := da, bytes := if r.2.1 then [] else r.1 }, r.2.1, r.2.2)

/-- The table of dark and gain at ff_pixel_da, as CAR(k) streams it for a frame of `n` pixels (R281). The spec does not say what a
pixel takes from a table that CAR(k) may not read: free values. The second answer says that a block is uncorrectable. -/
def Dev.flatTable (k : Nat) (cpb : List Byte) (n : Nat) (d : Dev) : (Nat → Nat) × Bool × Dev :=
  let a := leAt cpb 0x30 8
  if !(cpbFlag cpb 2 && cpbFlag cpb 3) || n == 0 then (fun _ => 0, false, d)
  else match d.carBarred k a (4 * n) with
    | some y => let r := y.freshBytes (4 * n); (fun i => leAt r.1 (4 * i) 4, false, r.2)
    | none => let r := d.skeinRead (carMaster k) a (4 * n); (fun i => leAt r.1 (4 * i) 4, r.2.1, r.2.2)

/-- CPB_PRELOAD_DONE: the newest CPB recorded for the bound camera is in the shadow copy, unless a block of it is uncorrectable. -/
def Dev.cpbPreload (k : Nat) (d : Dev) : Dev :=
  match d.boundCam k with
  | none => d
  | some cam =>
    match (d.carCam cam).cpbs with
    | [] => d
    | p :: _ =>
      let x := d.carriage k
      let has := fun (c : Option CpbCopy) => c.any (fun y => y.psid == p.1 && y.da == p.2)
      if p.2 = 0 ∨ has x.work ∨ has x.shadow ∨ !d.carRuns then d
      else let r := d.cpbLoad k p.1 p.2; if r.2.1 then r.2.2 else r.2.2.modCarriage k fun y => { y with shadow := some r.1 }

/-- A PSID older than those kept is counted. -/
def Dev.cpbStale (k : Nat) (d : Dev) : Dev := (d.bump (R.CAR_CNT2 k) F.CAR_CNT2_CPB_STALE_CNT 1).carErr k 4

/-- The first line of an in-line frame: the shadow copy is swapped in, or the frame keeps the previous CPB. A Carriage without a working
copy loads the frame's own (R309). A refused CPB leaves the one in use (R284). The answer says that the frame is lost (R477). -/
def Dev.cpbSwap (k cam psid : Nat) (d : Dev) : Bool × Dev :=
  let q := d.cpbOf cam psid
  let d0 := if q.2 then (d.cpbStale k).modCarriage k fun y => { y with mismatch := true } else d.modCarriage k fun y => { y with mismatch := false }
  let x := d0.carriage k
  let here := fun (c : Option CpbCopy) (exact : Bool) => c.any (fun y => y.da == q.1 && (!exact || y.psid == psid))
  if q.1 = 0 ∨ here x.work true then (false, d0)
  else if here x.shadow false then
    match x.shadow with
    | some y =>
      if y.bytes = [] then (false, d0)
      else (false, (d0.setCarriage k { x with work := some { y with psid := psid }, shadow := none }).wr64 (R.CAR_CPB_IN_USE k) (BitVec.ofNat 64 y.da))
    | none => (false, d0)
  else if here x.work false then (false, d0)
  else if x.work.isNone then
    let r := d0.cpbLoad k psid q.1
    if r.1.bytes = [] then r.2
    else (false, (r.2.2.modCarriage k fun z => { z with work := some r.1 }).wr64 (R.CAR_CPB_IN_USE k) (BitVec.ofNat 64 q.1))
  else (false, ((d0.bump (R.CAR_CNT1 k) F.CAR_CNT1_CPB_LATE_CNT 1).carErr k 5).modCarriage k fun y => { y with mismatch := true })

/-! The in-line queue (R275). -/

/-- CAR_LINE_IN: what the assembler passed next reaches the Carriage; `drained` bytes have left its queue since the last. A frame that
has closed ends first. -/
def Dev.carLineIn (k drained : Nat) (d : Dev) : Dev :=
  let x := d.carriage k
  match x.cross with
  | [] => d
  | c :: rest =>
    if x.closed.isSome then d
    else
    let y := { x with cross := rest, fill := x.fill - drained }
    match c with
    | .line l =>
      let cur := x.cur.filter (fun m => m.cam == l.cam && m.frame == l.frame)
      if x.abandon = some (l.cam, l.frame) then d.setCarriage k y
      else if 256 * 1024 < y.fill + lineBytes l then
        (((d.setCarriage k { y with abandon := some (l.cam, l.frame), cur := [] }).bump (R.CAR_CNT0 k) F.CAR_CNT0_INLINE_OVF_CNT 1).carErr k
          8).carGaps l.cam [0, 1, 2, 3]
      else
        let d1 := d.setCarriage k { y with abandon := none, fill := y.fill + lineBytes l }
        let r := if cur = [] then d1.cpbSwap k l.cam l.psid else (false, d1)
        if r.1 then (r.2.modCarriage k fun z => { z with abandon := some (l.cam, l.frame), cur := [] }).memSkip k l.cam
        else r.2.modCarriage k fun z => { z with cur := cur ++ [l] }
    | .close t =>
      d.setCarriage k (if x.abandon = some (t.cam, t.seq) then { y with abandon := none, cur := [] } else { y with closed := some t })

/-! A processed frame (R279, R288 to R295, R306, R307). -/

/-- Whether an output of a CPB is produced at all: its format is allowed where it goes. -/
def outAllowed (o : OutDesc) (insp : Bool) : Bool := decide (o.format ≤ 4) && (!insp || decide (o.format ≤ 2))

/-- The bytes of an image. -/
def imageBytes (im : List (List (List Nat))) : List Byte := im.flatMap (fun r => r.flatMap (fun p => p.map (BitVec.ofNat 8)))

/-- An output tag (R291). -/
def Dev.outTag (t : FrameTag) (k fmt : Nat) (im : List (List (List Nat))) (d : Dev) : FrameTag :=
  let u := { t with output := k, lines := im.length, width := (im.head?.map List.length).getD 0, format := 0xC000 + fmt }
  if d.car.gaps.contains (t.cam, k) then u.setFlag 9 else u

/-- The outputs of a CPB that the level in force withholds from a frame (R307). -/
def levelDrops (level : Nat) (insp : Bool) (o : OutDesc) : Bool :=
  (o.preview && decide (1 ≤ level)) || (insp && decide (3 ≤ level)) || (!insp && level == 4)

/-- One output of a frame: to the tile writer where it is the INSPECT output, to the delivery engine otherwise. -/
def Dev.carOutput (k : Nat) (t : FrameTag) (lines : List LineRec) (p : Processed) (insp : Bool) (j : Nat) (o : OutDesc) (d : Dev) : Dev :=
  let im := outImage o p.lut
  let empty := im.all List.isEmpty
  if o.decim ≠ 0 ∧ t.seq % max 1 o.decim ≠ 0 then d
  else if empty then d
  else if insp then
    let info := fun (r : Nat) => ((lines.getD (sourceRow o r) (lines.headD
      { cam := 0, frame := 0, row := 0, epoch := 0, psid := 0, info := { wp := 0, ts := 0, seq := 0, filled := false }, format := 0, px := [],
        fill := [], unc := false, src := [] })))
    let w := (im.head?.map List.length).getD 0
    let d1 := im.zipIdx.foldl (fun (y : Dev) r =>
      let l := info r.2
      y.tileRowIn t.cam t.seq w (0xC000 + o.format) { px := r.1, info := l.info, fill := if l.fill = [] then [] else [(0, w)], unc := l.unc, src := [] }) d
    let scan := (d.asmCam t.cam).cfg.scan
    d1.tileClose t.cam t.seq (t.flag 6) (!scan || t.flag 6)
  else
    let u := d.outTag t j o.format im
    let par : Parcel :=
      { recordParcel .output o.ring t.cam t.seq (padTo 64 (u.bytes ++ imageBytes im)) with carriage := k, output := j }
    ({ d with car := { d.car with gaps := d.car.gaps.filter (· ≠ (t.cam, j)) } }).offer par

/-- The inspection of a frame whose INSPECT output is not produced is left to the history ring (R47, R307). -/
def Dev.inspectLater (t : FrameTag) (d : Dev) : Dev :=
  match d.tileFrame? t.cam t.seq, d.histFrame? t.cam t.seq with
  | some f, some h => (d.tileForget t.cam t.seq).frameBands h { d.tagFrame t with cfg := f.cfg }
  | some _, none => d.tileForget t.cam t.seq
  | none, _ => d

/-- CAR_FRAME_END of a frame: its outputs, and its statistics record, which waits for CAR_STATS_DONE. -/
def Dev.carFrame (k : Nat) (t0 : FrameTag) (lines : List LineRec) (cpb : List Byte) (mismatch : Bool) (d : Dev) : Dev :=
  let scan := (d.asmCam t0.cam).cfg.scan
  let width := (lines.map (·.px.length)).foldl max 0
  let tab := d.flatTable k cpb (width * lines.length)
  if tab.2.1 then tab.2.2.memSkip k t0.cam
  else match process cpb t0.format scan tab.1 (lines.map (·.px)) with
  | none => ((((d.bump (R.CAR_CNT2 k) F.CAR_CNT2_FMT_CNT 1).carErr k 9).carGaps t0.cam [0, 1, 2, 3]).inspectLater t0)
  | some p =>
    let level := d.level
    let outs := ((List.range 4).map (fun j => (j, outDesc cpb j))).filter (fun q => q.2.en)
    let main := outs.find? (fun q => q.2.inspect)
    let isInsp := fun (j : Nat) => main.any (fun q => q.1 == j)
    let bad := outs.any (fun q => !outAllowed q.2 (isInsp q.1)) || 1 < outs.countP (fun q => q.2.inspect)
    let good := outs.filter (fun q => outAllowed q.2 (isInsp q.1))
    let statsOn := bitOf (leAt cpb 0x3B 1) 0
    let statsCut := statsOn && decide (2 ≤ level) && t0.seq % 4 != 0
    let shed := good.any (fun q => levelDrops level (isInsp q.1) q.2) || statsCut
    let t1 := if mismatch then t0.setFlag 8 else t0
    let t := if shed then t1.setFlag 7 else t1
    let gap := good.any (fun q => !levelDrops level (isInsp q.1) q.2 && d.car.gaps.contains (t.cam, q.1))
    let n := if cpbFlag cpb 0 then (dpcList cpb).2 else 0
    let d0 := if bad then tab.2.2.carErr k 10 else tab.2.2
    let d1 := if n = 0 then d0 else (d0.bump (R.CAR_CNT2 k) F.CAR_CNT2_DPC_ORDER_CNT n).carErr k 3
    let d2 := good.foldl (fun (y : Dev) q =>
      if levelDrops level (isInsp q.1) q.2 then (if isInsp q.1 then y.inspectLater t else y)
      else y.carOutput k t lines p (isInsp q.1) q.1 q.2) d1
    let d3 := if statsOn ∧ !statsCut then
        d2.modCarriage k fun y =>
          { y with stats := y.stats ++ [recordParcel .stats (leAt cpb 0x3A 1 % 64) t.cam t.seq (padTo 64 (statsRecord cpb k (if gap then t.setFlag 9 else t) p t.format))] }
      else d2
    (d3.count (R.CAR_FRAMES k) whole 1).publish (Src.carFrame k) 0

/-- CAR_FRAME_END: the in-line frame that has closed, else the memory-mode frame in progress. -/
def Dev.carFrameEnd (k : Nat) (d : Dev) : Dev :=
  let x := d.carriage k
  if !d.carRuns then d
  else match x.closed, x.mem with
    | some t, _ =>
      (d.setCarriage k { x with closed := none, cur := [], mismatch := false }).carFrame k t x.cur ((x.work.map (·.bytes)).getD []) x.mismatch
    | none, some (cam, f, q, m) =>
      ((d.setCarriage k { x with mem := none }).modCarCam cam fun y =>
        { y with ring := y.ring.filter (fun g => g.tag.seq ≠ f.tag.seq) }).carFrame k f.tag f.lines q.bytes m
    | none, none => d

/-- CAR_STATS_DONE: the oldest statistics record is handed to the delivery engine. -/
def Dev.carStatsDone (k : Nat) (d : Dev) : Dev :=
  let x := d.carriage k
  match x.stats with
  | [] => d
  | p :: rest => ((d.setCarriage k { x with stats := rest }).offer p).publish (Src.carStats k) 0

/-- The memory-mode frame Carriage k processes next: the oldest ts_first among its cameras. -/
def Dev.memNext (k : Nat) (d : Dev) : Option (Nat × MemFrame) :=
  (List.range 48).foldl (fun acc c =>
    let x := d.carCam c
    if x.car ≠ k then acc
    else match x.ring, acc with
      | [], _ => acc
      | f :: _, none => some (c, f)
      | f :: _, some (b, g) => if f.tag.tsFirst < g.tag.tsFirst then some (c, f) else some (b, g)) none

/-- CAR_MEM_FRAME_START: the frame's CPB is loaded first. A Carriage that may not read the frame's place abandons the frame, and so
does one that meets an uncorrectable block (R477). -/
def Dev.memStart (k : Nat) (d : Dev) : Dev :=
  let x := d.carriage k
  let cfg := d.rd (R.CAR_CFG k)
  if fld cfg F.CAR_CFG_EN = 0 ∨ fld cfg F.CAR_CFG_MEM_EN = 0 ∨ x.mem.isSome ∨ !d.carRuns then d
  else match d.memNext k with
    | none => d
    | some (cam, f) =>
      let y := d.carCam cam
      let skip := fun (z : Dev) => (z.modCarCam cam fun w => { w with ring := w.ring.drop 1 }).carGaps cam [0, 1, 2, 3]
      match d.carBarred k f.da f.size with
      | some z => skip z
      | none =>
        let m := d.skeinRead (carMaster k) f.da f.size
        let q := d.cpbOf cam f.tag.psid
        let d1 := if q.2 then m.2.2.cpbStale k else m.2.2
        let r := if q.1 = 0 then ({ psid := f.tag.psid, da := 0, bytes := [] }, false, d1) else d1.cpbLoad k f.tag.psid q.1
        let c := if r.1.bytes = [] then { r.1 with bytes := y.used } else r.1
        if m.2.1 || r.2.1 then skip (r.2.2.memSkip k cam)
        else (r.2.2.modCarCam cam fun z => { z with used := c.bytes }).modCarriage k fun z => { z with mem := some (cam, f, c, q.2) }

/-! Reset, the trip, the watch state, live registers (R308, R309, R314). -/

/-- The frames in progress on Carriage k are abandoned whole. -/
def Dev.carAbandon (k : Nat) (d : Dev) : Dev :=
  let d1 := match (d.carriage k).mem with
    | some (cam, f, _, _) => d.modCarCam cam fun y => { y with ring := y.ring.filter (fun g => g.tag.seq ≠ f.tag.seq) }
    | none => d
  d1.modCarriage k fun x =>
    { x with cross := x.cross.filter (fun c => match c with
               | .line l => !(x.cur.any (fun m => m.frame == l.frame))
               | .close t => !(x.cur.any (fun m => m.frame == t.seq))),
             fill := 0, cur := [], closed := none, mem := none, mismatch := false,
             abandon := match x.cur, x.closed with
               | m :: _, none => some (m.cam, m.frame)
               | _, _ => x.abandon }

/-- The frame that is abandoned where what crosses is emptied: that of the last line to cross, if any. -/
def Carriage.cutFrame (x : Carriage) : Option (Nat × Nat) :=
  x.cross.foldl (fun a c => match c with
    | .line l => some (l.cam, l.frame)
    | .close _ => a) x.abandon

/-- Whether Carriage k has a frame in progress. -/
def Carriage.busy (x : Carriage) : Bool := x.cur != [] || x.closed.isSome || x.mem.isSome

/-- A write of CAR_CTL(k) (R309). Lines of the frame that are still to come are abandoned with it. -/
def Dev.carCtlWrite (k : Nat) (v : Word) (d : Dev) : Dev :=
  if fld v F.CAR_CTL_RESET = 0 then d
  else
    let x := d.carriage k
    let d0 := (List.range 48).foldl (fun (y : Dev) c => if (y.carCam c).car = k then y.modCarCam c fun z => { z with used := [] } else y)
      (d.carAbandon k)
    let d1 := d0.modCarriage k fun z => { Carriage.init with abandon := z.cutFrame }
    let d2 := ([R.CAR_ERR k, R.CAR_CNT0 k, R.CAR_CNT1 k, R.CAR_CNT2 k, R.CAR_FRAMES k].foldl (fun (y : Dev) r => y.wr r 0) d1).wr64
      (R.CAR_CPB_IN_USE k) 0
    if x.busy then d2.bump (R.CAR_CNT2 k) F.CAR_CNT2_RESET_DROP_CNT 1 else d2

/-- The hardware trip: the frame in progress is abandoned whole. -/
def Dev.carTrip (d : Dev) : Dev :=
  (List.range 4).foldl (fun (y : Dev) k =>
    (y.carAbandon k).modCarriage k fun z => { z with cross := [], abandon := z.cutFrame }) d

/-- Entry into the watch state: the Carriages stop, and a set that is issuing fails. -/
def Dev.carWatch (d : Dev) : Dev :=
  (List.range 48).foldl (fun (y : Dev) c => y.setFail c) d.carTrip

/-- CAR_STATUS(k) as it reads, but for LOAD. -/
def Dev.carStatus (k load : Nat) (d : Dev) : Word :=
  BitVec.ofNat 32 (ofBits [((d.boundCam k).isSome, 31), ((d.carriage k).mem.isSome, 30)] + (d.boundCam k).getD 0 * 2 ^ 24
    + min 8 (d.memCams k).length * 2 ^ 20 + min load 1000)

/-- The fill of Carriage k's input (R277): used and capacity of the fullest of its queues, as pairs. -/
def Dev.carFill (k : Nat) (d : Dev) : List (Nat × Nat) :=
  ((d.carriage k).fill, 256 * 1024) :: (d.memCams k).map (fun c => (((d.carCam c).ring.map (·.size)).sum, d.memRing c))

/-! The commands. -/

def execCarLineIn (k : Fin 4) (drained : Nat) (s : State) : Host.Outcome State Fault Refusal := s.run fun d => d.carLineIn k drained

def execCarMemFrameStart (k : Fin 4) (s : State) : Host.Outcome State Fault Refusal := s.run fun d => d.memStart k

def execCarFrameEnd (k : Fin 4) (s : State) : Host.Outcome State Fault Refusal := s.run fun d => d.carFrameEnd k

def execCarStatsDone (k : Fin 4) (s : State) : Host.Outcome State Fault Refusal := s.run fun d => d.carStatsDone k

def execCpbPreloadDone (k : Fin 4) (s : State) : Host.Outcome State Fault Refusal := s.run fun d => d.cpbPreload k

/-- CAR_RESET: a write of CAR_CTL(k). -/
def execCarReset (k : Fin 4) (v : Word) (s : State) : Host.Outcome State Fault Refusal := s.run fun d => d.carCtlWrite k v

end Sys2Proof.Machine
end

