-- ==== Sys2Proof/Machine/Asm.lean ====
section
/-! DEFINITION. The frame assembler (R237, R238, R244 to R266): merging in tag order, lines, frame boundaries, matching to the
trigger ledger, splice cuts, frame tags, and queue resets. -/

namespace Sys2Proof.Machine

/-! Matching (R255 to R257). -/

/-- The epoch of a frame without an entry (R407): by its estimated ts against tS. -/
def Dev.epochByTs (ts : Int) (d : Dev) : Nat :=
  let j := d.job
  if j.switched ∧ ts < d.int64 R.JOB_SPLICE_TS then j.prev else j.epoch

/-- The position record of an axis nearest to an instant. -/
def nearestRec (ts : Int) (rs : List Smp) : Option Smp :=
  rs.foldl (fun acc r => match acc with
    | none => some r
    | some q => if (ts - r.ts).natAbs < (ts - q.ts).natAbs then some r else some q) none

/-- The estimate of R256 for an arrival. An axis that has sent no record supplies its held position (log entry 22). -/
def Dev.estimate (c : Nat) (arrival : Int) (d : Dev) : Match :=
  let a := d.f (R.TRIG_CAM_SRC c) F.TRIG_CAM_SRC_AXIS
  let ts := arrival - (d.asmCam c).cfg.latMin
  let wp := match nearestRec ts (d.axis a).posRecs with
    | some r => r.predict ts / 65536
    | none => let x := d.axis a; x.wpFineAt x.c / 65536
  { wp := wp, ts := ts, axis := a, seq := 0xFFFFFFFF, epoch := d.epochByTs ts, unc := true, late := false, lost := false }

/-- The loop of R255 over the unconsumed entries: those skipped, the one matched, and those left. -/
def matchLoop (latMin latMax : Nat) (arrival : Int) : List LedgerEntry → List LedgerEntry × Option LedgerEntry × List LedgerEntry
  | [] => ([], none, [])
  | e :: es =>
    if latMax ≠ 0 ∧ e.ts + latMax < arrival then
      let r := matchLoop latMin latMax arrival es
      (e :: r.1, r.2.1, r.2.2)
    else if arrival - latMin < e.ts then ([], none, e :: es)
    else ([], some e, es)

/-- The entries that a jump of the camera's frame ID skips. -/
def fidSkip (fid last : Nat) : Nat :=
  let k := (fid + 2 ^ 32 - last % 2 ^ 32) % 2 ^ 32
  if 1 < k ∧ k < 2 ^ 31 then k - 1 else 0

/-- The match of a frame (its frame ID given) or of a line, the entries it skips, and the device. -/
def Dev.matchNow (c : Nat) (arrival : Int) (fid : Option Nat) (d : Dev) : Match × List LedgerEntry × Dev :=
  let x := d.asmCam c
  if d.f (R.TRIG_CAM_SRC c) F.TRIG_CAM_SRC_KIND = 0 then (d.estimate c arrival, [], d)
  else
    let l := d.ledger c
    let n := match fid, x.lastFid with
      | some f, some g => if x.cfg.fid then min (fidSkip f g) l.entries.length else 0
      | _, _ => 0
    let r := matchLoop x.cfg.latMin x.cfg.latMax arrival (l.entries.drop n)
    let skips := l.entries.take n ++ r.1
    let d1 := d.setLedger c { l with entries := r.2.2 }
    let d2 := if skips = [] then d1 else (d1.bump (R.ASM_CNT3 c) F.ASM_CNT3_NO_FRAME_CNT skips.length).asmErr c 5
    match r.2.1 with
    | none => (d.estimate c arrival, skips, (d2.bump (R.ASM_CNT3 c) F.ASM_CNT3_UNMATCHED_CNT 1).asmErr c 6)
    | some e =>
      let unc := if x.cfg.latMax ≠ 0 then false else if e.lost then true else if l.entries.length = skips.length + 1 then false else x.orderUnc
      ({ wp := e.wp, ts := e.ts, axis := e.axis, seq := e.seq, epoch := e.epoch, unc := e.unc || unc, late := e.late, lost := e.lost },
        skips, (d2.modAsmCam c fun y => { y with orderUnc := unc, lastTrig := e.seq }).wr (R.ASM_LAST_TRIG c) (BitVec.ofNat 32 e.seq))

/-! Settings (R244, R249, R409). -/

/-- The camera's settings as a frame opens; a refused one leaves the value in use. -/
def Dev.sampleCfg (c : Nat) (d : Dev) : Dev :=
  let x := d.asmCam c
  let v := d.rd (R.ASM_CAM_CFG c)
  let lines := d.f (R.ASM_FRAME_CFG c) F.ASM_FRAME_CFG_FRAME_LINES
  let len := (d.rd64 (R.ASM_FRAME_LEN c)).toNat
  let badLen := x.mode == 1 && len == 0
  let badLines := x.mode != 0 && lines == 0
  let cfg : CamCfg :=
    { lines := if badLines then x.cfg.lines else lines, width := min 32768 (d.f (R.ASM_WIDTH c) ⟨0, 16⟩),
      org := d.int64 (R.ASM_FRAME_ORG c), len := if badLen then x.cfg.len else len, latMin := (d.rd (R.ASM_LAT_MIN c)).toNat,
      latMax := (d.rd (R.ASM_LAT_MAX c)).toNat, fill := fld v F.ASM_CAM_CFG_FILL,
      scan := x.mode != 0 || fld v F.ASM_CAM_CFG_SCAN == 1, fid := fld v F.ASM_CAM_CFG_FID_CHECK == 1 }
  let d1 := d.setAsmCam c { x with cfg := cfg }
  if badLen ∨ badLines then d1.asmErr c 9 else d1

/-- A CAMERA entry of a recipe is written into the camera's registers (R409). -/
def Dev.applyCamEntry (e : CamEntry) (d : Dev) : Dev :=
  let c := e.cam
  let mark := d.job.mark
  let w := fun (r v : Nat) (y : Dev) => y.wr r (BitVec.ofNat 32 v)
  let d1 := (w (R.ASM_FRAME_CFG c) e.lines (w (R.ASM_WIDTH c) e.width d)).wr64 (R.ASM_FRAME_ORG c)
    (BitVec.ofInt 64 (if e.orgRel then mark + e.org else e.org))
  let d2 := w (R.ASM_LAT_MIN c) e.latMin (w (R.ASM_LAT_MAX c) e.latMax (d1.wr64 (R.ASM_FRAME_LEN c) (BitVec.ofNat 64 e.len)))
  let d3 := (d2.sf (R.ASM_CAM_CFG c) F.ASM_CAM_CFG_FILL e.fill)
  let d4 := w (R.STE_CAM_CFG c) e.steCfg (w (R.STE_CAM_TILE c) e.steTile (w (R.STE_CAM_BANDS c) e.steBands (w (R.STE_CAM_PARAM c) e.steParam
    (w (R.CAR_CAM_PATH c) e.path d3))))
  if e.refRel then d4.paramWrite c 0x18 (leInt 8 (leIntAt (d4.camParam c) 0x18 8 + mark)) else d4

/-- The camera's entry of the live recipe is written as its first frame of the new epoch opens. -/
def Dev.applyDue (c epoch : Nat) (d : Dev) : Dev :=
  if d.job.camsDue.contains c ∧ epoch = d.job.epoch then
    let d0 := d.modJob fun j => { j with camsDue := j.camsDue.filter (· ≠ c) }
    match (d.job.recipe epoch).bind (fun r => r.cams.find? (fun e => e.cam == c)) with
    | some e => ((d0.applyCamEntry e).sampleCfg c).modAsmCam c fun x => { x with lastK := none }
    | none => d0
  else d

/-! Frames (R246, R249, R250, R258). -/

/-- The width of a frame as far as settings and headers give it; 0 where its first line gives it. -/
def AsmCam.frameWidth (x : AsmCam) : Nat := min 32768 (if x.cfg.width ≠ 0 then x.cfg.width else (x.header.map (·.width)).getD 0)

/-- The lines expected of a frame. -/
def AsmCam.frameCount (x : AsmCam) : Nat :=
  if x.mode = 0 ∧ x.cfg.lines = 0 then (x.header.map (·.lines)).getD 0 else x.cfg.lines

/-- A frame opens: its settings are taken and its frame_seq is consumed. -/
def Dev.openFrame (c : Nat) (k : Int) (arrival : Int) (flags : Nat) (d : Dev) : Dev :=
  let d1 := d.sampleCfg c
  let x := d1.asmCam c
  let f : OpenFrame :=
    { seq := x.seq, k := k, count := x.frameCount, first := none, last := none, arrival := arrival, lines := 0, rows := 0, crc := x.lostCrc,
      flags := flags + (if x.lostCrc = 0 then 0 else 4), width := x.frameWidth, format := (x.header.map (·.format)).getD 0,
      fid := (x.header.map (·.frameId)).getD 0, chunks := [] }
  let next := (x.seq + 1) % 2 ^ 32
  (d1.setAsmCam c { x with openF := some f, seq := next, lostCrc := 0, perPacket := none, lastK := if x.mode = 1 then some k else x.lastK }).wr
    (R.ASM_FRAME_SEQ c) (BitVec.ofNat 32 next)

/-- A change to the open frame. -/
def Dev.modFrame (c : Nat) (g : OpenFrame → OpenFrame) (d : Dev) : Dev :=
  d.modAsmCam c fun x => { x with openF := match x.openF with
                             | some f => some (g f)
                             | none => none }

/-- A flag of R262 is set in the open frame. -/
def OpenFrame.flag (k : Nat) (f : OpenFrame) : OpenFrame := if bitOf f.flags k then f else { f with flags := f.flags + 2 ^ k }

/-- Packets lost in the frame in progress, or before the next one (R248). -/
def Dev.losePackets (c n : Nat) (d : Dev) : Dev :=
  if n = 0 then d
  else match (d.asmCam c).openF with
    | some _ => d.modFrame c fun f => OpenFrame.flag 2 { f with crc := f.crc + n }
    | none => d.modAsmCam c fun x => { x with lostCrc := x.lostCrc + n }

/-- The job_id of an epoch (R392). -/
def Dev.jobOf (epoch : Nat) (d : Dev) : Nat :=
  if epoch = 0 then 0 else ((d.job.jobs.find? (fun p => p.1 == epoch)).map (·.2)).getD 0

/-- The number by which the sensor-delay model knows a frame or line: its trigger_seq, frame_seq for a camera with ledger source NONE,
and the last matched entry's where it is unmatched. -/
def Dev.modelSeq (c : Nat) (m : Match) (seq : Nat) (d : Dev) : Nat :=
  if d.f (R.TRIG_CAM_SRC c) F.TRIG_CAM_SRC_KIND = 0 then seq
  else if m.seq = 0xFFFFFFFF then (d.asmCam c).lastTrig else m.seq

/-- The first match of the open frame is known: a due recipe entry is written, and its path and tile settings are taken. -/
def Dev.startFrame (c : Nat) (m : Match) (d : Dev) : Dev :=
  let due := d.job.camsDue.contains c && m.epoch == d.job.epoch
  let d1 := d.applyDue c m.epoch
  let x := d1.asmCam c
  let d2 := d1.modFrame c fun f =>
    let g := { f with first := some m, last := some m }
    let h := if due then { g with count := x.frameCount, width := x.frameWidth } else g
    if x.gap || m.lost then OpenFrame.flag 9 h else h
  let d3 := (d2.modAsmCam c fun y => { y with gap := false }).carFrameOpen c
  match (d3.asmCam c).openF with
  | none => d3
  | some f =>
    let s := d3.modelSeq c m f.seq
    let cut := bitOf f.flags 6
    let t : TileFrame :=
      { cam := c, seq := f.seq, job := d3.jobOf m.epoch, epoch := m.epoch, psid := (d3.framePsid c s s).1, axis := m.axis,
        format := f.format, bpp := 1, width := 0, expect := f.count, edgeTop := !x.cfg.scan || cut || bitOf f.flags 9, straddle := cut,
        cfg := d3.tileCfg c }
    if m.epoch = 0 then d3.tilePush c .gap else d3.tileOpen t

/-! Rows. -/

/-- A row of the open frame goes to the history ring and to its path (R34, R263); `room` says whether the ring's write buffer takes
it, `cut` that a splice cut falls before it. -/
def Dev.emitRow (c : Nat) (info : RowInfo) (px : List Nat) (fill : List (Nat × Nat)) (unc cut : Bool) (src : List (Nat × Nat)) (room : Bool) (d : Dev) : Dev :=
  match (d.asmCam c).openF with
  | none => d
  | some f =>
    let m := f.first.getD (d.estimate c f.arrival)
    let s := d.modelSeq c m f.seq
    let l : LineRec :=
      { cam := c, frame := f.seq, row := f.rows, epoch := m.epoch, psid := (d.framePsid c s s).1, info := info, format := f.format, px := px,
        fill := fill, unc := unc, src := src }
    let d1 := (d.histLine l cut room).modFrame c fun g => { g with rows := g.rows + 1 }
    let d2 := if (d1.tileFrame? c f.seq).isSome ∧ 3 ≤ d1.level then d1.modFrame c (OpenFrame.flag 7) else d1
    if (d2.carCam c).path = 0 then
      d2.tileRowIn c f.seq px.length f.format { px := px.map (rawPixel f.format), info := info, fill := fill, unc := unc, src := src }
    else d2.carLine l

/-- A row of fill pixels. -/
def Dev.fillRow (c : Nat) (info : RowInfo) (room : Bool) (d : Dev) : Dev :=
  match (d.asmCam c).openF with
  | none => d
  | some f => d.emitRow c info (List.replicate (max 1 f.width) (d.asmCam c).cfg.fill) [(0, max 1 f.width)] false false [] room

/-- The rows that a short frame lacks. An area frame's rows carry its first stamp; the spec gives a line-scan row without a skipped
entry and without a line after it no stamp, which is then a free value. -/
def Dev.fillShort (c : Nat) (room : Bool) : Nat → Dev → Dev
  | 0, d => d
  | n + 1, d =>
    match (d.asmCam c).openF with
    | none => d
    | some f =>
      if (d.asmCam c).cfg.scan then
        let a := d.fresh 64
        let b := a.2.fresh 64
        (b.2.fillRow c { wp := a.1.toInt, ts := b.1.toNat, seq := 0xFFFFFFFF, filled := true } room).fillShort c room n
      else
        let m := f.first.getD (d.estimate c f.arrival)
        (d.fillRow c { wp := m.wp, ts := m.ts, seq := m.seq, filled := true } room).fillShort c room n

/-! The close of a frame and its tag (R250, R254, R260 to R262, R305, R411). -/

/-- Why a frame closes. -/
inductive CloseWhy where
  | ended | early | request | cut
deriving DecidableEq, Repr

/-- Whether a frame that lacks lines is short (R250, R252, R254). -/
def shortRule (mode : Nat) (straddle : Bool) (why : CloseWhy) : Bool :=
  match why with
  | .cut => false
  | .request => mode == 1 && !straddle
  | _ => !straddle || mode == 2

/-- The chunk comparison of R305: shadows of the frame's sets, and whether some chunk differs. -/
def Dev.chunkCheck (c seq : Nat) (chunks : List (Nat × Nat)) (d : Dev) : Bool × Dev :=
  (List.range 4).foldl (fun (acc : Bool × Dev) j =>
    let w := acc.2.rd64 (R.CAR_MDL_CHUNK c j)
    match acc.2.shadowOf c seq (DWord.lo w).toNat with
    | none => acc
    | some v =>
      let y := acc.2.wr (R.CAR_MDL_SHADOW c j) (BitVec.ofNat 32 v)
      match chunks.find? (fun p => p.1 == (DWord.hi w).toNat) with
      | some p =>
        if p.2 % 2 ^ 32 = v % 2 ^ 32 then (acc.1, y)
        else (true, (y.bump (R.CAR_MDL_CNT c) F.CAR_MDL_CNT_MISMATCH_CNT 1).carErr 0 2)
      | none => (acc.1, y)) (false, d)

/-- Whether a frame's psid disagrees with its camera's splice set (R411). -/
def Dev.spliceMismatch (c epoch psid seq : Nat) (d : Dev) : Bool :=
  let j := d.job
  let refused := j.refused.contains c && epoch == j.epoch &&
    !(d.carCam c).effects.any (fun e => decide (d.int64 R.JOB_SPLICE_TS ≤ e.at_) && seqLe e.eff seq)
  let set := match j.psids.find? (fun p => p.1 == c) with
    | some p =>
      let behind := (p.2 + 65536 - psid) % 65536
      if epoch = j.epoch ∧ j.switched then decide (0 < behind ∧ behind < 32768) else psid == p.2
    | none => false
  set || refused

/-- Whether shedding steps 1 and 2 touch a frame of a camera on a Carriage path (R46). -/
def Dev.carShed (c seq psid : Nat) (d : Dev) : Bool :=
  let x := d.carCam c
  let cpb := d.skeinBytes (d.cpbOf c psid).1 0x100
  x.path != 0 && ((decide (1 ≤ d.level) && (List.range 4).any (fun j => (outDesc cpb j).en && (outDesc cpb j).preview)) ||
    (decide (2 ≤ d.level) && bitOf (leAt cpb 0x3B 1) 0 && seq % 4 != 0) ||
    (decide (3 ≤ d.level) && (inspectOut cpb).isSome))

/-- The tag of a frame that closes, with the chunk comparison made. -/
def Dev.makeTag (c : Nat) (f : OpenFrame) (m : Match) (d : Dev) : FrameTag × Dev :=
  let x := d.asmCam c
  let lastM := f.last.getD m
  let s := d.modelSeq c m f.seq
  let p := d.framePsid c s (d.modelSeq c lastM f.seq)
  let ch := d.chunkCheck c s f.chunks
  let set := fun (b : Bool) (k : Nat) (g : OpenFrame) => if b then g.flag k else g
  let g := set (x.markLost) 5 (set (d.carShed c f.seq p.1) 7 (set (p.2 || ch.1 || d.spliceMismatch c m.epoch p.1 s) 8
    (set x.gap 9 (set (d.swatchFlag c m.epoch m.wp) 10 f))))
  ({ cam := c, output := 0xFF, seq := f.seq, trig := m.seq, job := d.jobOf m.epoch, epoch := m.epoch, psid := p.1,
     flags := g.flags + m.axis % 4 * 2048, wpFirst := m.wp, wpLast := if x.cfg.scan then lastM.wp else m.wp, tsFirst := m.ts, lines := f.lines,
     width := f.width, format := f.format, crc := min 0xFFFF f.crc, fid := f.fid }, ch.2)

/-- A frame closes (R250 to R262): it is filled where it is short, tagged, and handed on; ASM_FRAME is published. -/
def Dev.closeFrame (c : Nat) (why : CloseWhy) (room : Bool) (d : Dev) : Dev :=
  match (d.asmCam c).openF with
  | none => d
  | some f0 =>
    let d0 := if f0.first.isSome then d else
      (d.startFrame c (d.estimate c f0.arrival)).modFrame c fun f => (OpenFrame.flag 3 f)
    match (d0.asmCam c).openF with
    | none => d0
    | some f1 =>
      let x := d0.asmCam c
      let short := decide (f1.lines < f1.count) && shortRule x.mode (bitOf f1.flags 6) why
      let d1 := if short then ((d0.modFrame c (OpenFrame.flag 0)).bump (R.ASM_CNT2 c) F.ASM_CNT2_SHORT_CNT 1).asmErr c 3 else d0
      let d2 := if short then d1.fillShort c room (f1.count - f1.rows) else d1
      let d3 := if why = .cut then d2.modFrame c (OpenFrame.flag 6) else d2
      match (d3.asmCam c).openF with
      | none => d3
      | some f =>
        let m := f.first.getD (d3.estimate c f.arrival)
        let t := d3.makeTag c f m
        let tag := t.1
        let d4 := (t.2.modAsmCam c fun y => { y with openF := none, cur := none, closeReq := false, gap := false, markLost := false }).sf
          (R.CAR_MDL_STATUS c) ⟨16, 16⟩ tag.psid
        let none_ := d4.f (R.TRIG_CAM_SRC c) F.TRIG_CAM_SRC_KIND = 0
        let d5 := if none_ then d4.modCarCam c fun y => { y with frames := ((tag.seq, tag.tsFirst, tag.wpFirst) :: y.frames).take 64 } else d4
        let size := 64 + f.rows * ((f.width * formatBits f.format + 7) / 8)
        let h := d5.rawHandOver tag size
        let d6 := h.2.histEntry tag (h.2.defersFrame c tag.seq) h.1
        let d7 := if (d6.carCam c).path = 0 then d6.tileClose c tag.seq (tag.flag 6) (!x.cfg.scan || tag.flag 6 && why == .cut)
                  else d6.carClose tag
        (d7.swatchFrame tag).publish (Src.asmFrame c) 0

/-! Lines (R246, R247, R251 to R254, R410). -/

/-- FRAMING is counted. -/
def Dev.framing (c : Nat) (d : Dev) : Dev := (d.bump (R.ASM_CNT4 c) F.ASM_CNT4_FRAMING_CNT 1).asmErr c 8

/-- What the match of a line or frame adds to the frame's flags: POS_UNCERTAIN and TRIG_LATE. -/
def Dev.noteMatch (c : Nat) (m : Match) (d : Dev) : Dev :=
  d.modFrame c fun f =>
    let g := if m.unc then f.flag 3 else f
    { (if m.late then g.flag 4 else g) with last := some m }

/-- A line is put into the open frame: made the frame's width (R246), or discarded where the frame is full (R251). -/
def Dev.putLine (c : Nat) (cu : CurLine) (m : Match) (cut room : Bool) (d : Dev) : Dev :=
  let d0 := d.losePackets c cu.lost
  match (d0.asmCam c).openF with
  | none => d0
  | some f =>
    if f.count ≤ f.rows then
      let d1 := (d0.count (R.ASM_EXCESS c) whole 1)
      if bitOf f.flags 1 then d1 else ((d1.modFrame c (OpenFrame.flag 1)).bump (R.ASM_CNT2 c) F.ASM_CNT2_LONG_CNT 1).asmErr c 4
    else
      let w := if f.width = 0 then min 32768 (max 1 cu.px.length) else f.width
      let lack := w - cu.px.length
      let px := (cu.px ++ List.replicate lack (d0.asmCam c).cfg.fill).take w
      let bad := w < cu.px.length ∨ (0 < lack ∧ cu.lost = 0)
      let d1 := if bad then (d0.bump (R.ASM_CNT4 c) F.ASM_CNT4_WIDTH_ERR_CNT 1).asmErr c 7 else d0
      let d2 := (d1.modFrame c fun g => { g with width := w, lines := g.lines + 1 }).noteMatch c m
      let per := match cu.pkts with
        | p :: rest => if cu.lost = 0 ∧ f.lines = 0 ∧ cu.pkts.dropLast.all (· == p) ∧ (rest.getLast?.getD p) ≤ p then some p
                       else (d2.asmCam c).perPacket
        | [] => (d2.asmCam c).perPacket
      (d2.modAsmCam c fun x => { x with perPacket := per }).emitRow c { wp := m.wp, ts := m.ts, seq := m.seq, filled := false } px
        (cu.fill ++ (if 0 < lack then [(cu.px.length, lack)] else [])) m.unc cut cu.src room

/-- Skipped entries leave filled slots in the open frame (R252). -/
def Dev.fillSlots (c : Nat) (es : List LedgerEntry) (room : Bool) (d : Dev) : Dev :=
  es.foldl (fun (y : Dev) e => match (y.asmCam c).openF with
    | some f => if f.rows < f.count then y.fillRow c { wp := e.wp, ts := e.ts, seq := e.seq, filled := true } room else y
    | none => y) d

/-- Entries skipped within a LINE_COUNT frame leave filled slots (R258); a frame whose last slot they fill closes. The entries left
are skipped before the next frame. -/
def Dev.fillCount (c : Nat) (es : List LedgerEntry) (room : Bool) (d : Dev) : List LedgerEntry × Dev :=
  match (d.asmCam c).openF with
  | none => (es, d)
  | some f =>
    let d1 := d.fillSlots c es room
    if f.count ≤ f.rows + es.length then (es.drop (f.count - f.rows), d1.closeFrame c .ended room) else ([], d1)

/-- The position window of a wp (R249). -/
def CamCfg.window (g : CamCfg) (wp : Int) : Int := (wp - g.org) / (max 1 g.len : Nat)

/-- A camera's next tag carries GAP_BEFORE. -/
def Dev.gapNext (c : Nat) (d : Dev) : Dev := d.modAsmCam c fun x => { x with gap := true }

/-- Before the first line of a frame whose width the line gives, the frame takes it. -/
def Dev.lineWidth (c : Nat) (cu : CurLine) (d : Dev) : Dev :=
  d.modFrame c fun f => if f.width = 0 then { f with width := min 32768 (max 1 cu.px.length) } else f

/-- A line of a LINE_POS camera (R252, R253). -/
def Dev.linePos (c : Nat) (cu : CurLine) (m : Match) (cut room : Bool) (d : Dev) : Dev :=
  let inWin := fun (g : CamCfg) (k : Int) (e : LedgerEntry) => g.window e.wp == k
  -- the frame in progress
  let r : Bool × List LedgerEntry × Dev := match (d.asmCam c).openF with
    | none => (false, cu.skips, d)
    | some f =>
      let g := (d.asmCam c).cfg
      let b : Int := g.org + f.k * g.len
      let mine := cu.skips.filter (inWin g f.k)
      let rest := cu.skips.filter (fun e => !inWin g f.k e)
      if m.wp < b then
        if b - m.wp < g.len then (true, rest, (d.framing c).fillSlots c mine room)
        else (false, rest, ((d.framing c).fillSlots c mine room).closeFrame c .early room)
      else if m.wp < b + g.len then (true, rest, d.fillSlots c mine room)
      else (false, rest, (d.fillSlots c mine room).closeFrame c .ended room)
  if r.1 then (if r.2.1 = [] then r.2.2 else r.2.2.gapNext c).putLine c cu m cut room
  else
    let d1 := r.2.2.applyDue c m.epoch
    let g := (d1.asmCam c).cfg
    let k := g.window m.wp
    let mine := r.2.1.filter (inWin g k)
    let gap := decide (mine.length < r.2.1.length) || (match (d1.asmCam c).lastK with
      | some j => decide (j + 1 < k)
      | none => false)
    let d2 := if gap then d1.gapNext c else d1
    let d3 := ((d2.openFrame c k cu.at_ (if cut then 64 else 0)).startFrame c m).lineWidth c cu
    (d3.fillSlots c mine room).putLine c cu m cut room

/-- A complete line of a camera (R249 to R254). -/
def Dev.lineDone (c : Nat) (room : Bool) (d : Dev) : Dev :=
  match (d.asmCam c).cur with
  | none => d
  | some cu =>
    let d0 := d.modAsmCam c fun x => { x with cur := none }
    if !cu.got then d0.losePackets c cu.lost
    else
      let d1 := if (d0.asmCam c).closeReq then d0.closeFrame c .request room else d0
      let x := d1.asmCam c
      match cu.match_ with
      | none =>
        -- a line of an area frame, or one in no frame
        match x.openF with
        | some f => d1.putLine c cu (f.first.getD (d1.estimate c f.arrival)) false room
        | none => (d1.losePackets c cu.lost).framing c
      | some m =>
        let older := match x.openF with
          | some f => (match f.first with
              | some g => g.epoch != m.epoch && nextEpoch g.epoch == m.epoch
              | none => false)
          | none => false
        let d2 := if older then d1.closeFrame c .cut room else d1
        match x.mode with
        | 1 => d2.linePos c cu m older room
        | 2 =>
          let r := d2.fillCount c cu.skips room
          let d3 := if (r.2.asmCam c).openF.isSome then r.2 else
            ((if r.1 = [] then r.2 else r.2.gapNext c).openFrame c 0 cu.at_ (if older then 64 else 0)).startFrame c m
          let d4 := d3.putLine c cu m older room
          (match (d4.asmCam c).openF with
            | some f => if f.count ≤ f.rows then d4.closeFrame c .ended room else d4
            | none => d4)
        | _ =>
          let d3 := if older then d2.openFrame c 0 cu.at_ 64 else d2
          match (d3.asmCam c).openF with
          | none => ((if cu.skips = [] then d3 else d3.gapNext c).losePackets c cu.lost).framing c
          | some f =>
            let d4 := if f.first.isSome then d3.fillSlots c cu.skips room else
              (if cu.skips = [] then d3 else d3.gapNext c).startFrame c m
            d4.putLine c cu m older room

/-! Packets (R245, R247, R248). -/

/-- The line in progress, begun where there is none. -/
def AsmCam.curOr (x : AsmCam) (arrival : Int) : CurLine :=
  x.cur.getD { px := [], match_ := none, skips := [], got := false, lost := 0, fill := [], pkts := [], at_ := arrival, src := [] }

/-- A header or a trailer shows that the line in progress has lost its last packet: the line ends (R247). -/
def Dev.lineCut (c : Nat) (room : Bool) (d : Dev) : Dev := if (d.asmCam c).cur.isSome then d.lineDone c room else d

/-- One part of a packet's payload, from entry `e` of queue `q`, that arrived at `a`. -/
def Dev.takePart (c q e : Nat) (a : Int) (room : Bool) (d : Dev) : StreamPart → Dev
  | .header h =>
    let d := d.lineCut c room
    let x := d.asmCam c
    if x.mode = 0 then
      let d1 := if x.openF.isSome then (d.framing c).closeFrame c .early room else d
      let d2 := d1.modAsmCam c fun y => { y with header := some h, cur := none }
      let d3 := if x.cfg.scan then d2.openFrame c 0 a 0
        else
          let m := d2.matchNow c a (some h.frameId)
          let d4 := if m.2.1 = [] then m.2.2 else m.2.2.gapNext c
          (((d4.applyDue c m.1.epoch).openFrame c 0 a 0).startFrame c m.1).noteMatch c m.1
      d3.modAsmCam c fun y => { y with lastFid := some h.frameId }
    else
      let d1 := if x.openF.isSome then d.framing c else d
      d1.modAsmCam c fun y => { y with header := some h, lastFid := some h.frameId }
  | .pixels px ends =>
    let x := d.asmCam c
    let cu := x.curOr a
    let first := !cu.got
    let r := if first && x.cfg.scan then (let m := d.matchNow c a none; (some m.1, m.2.1, m.2.2)) else (cu.match_, cu.skips, d)
    let new := { cu with px := cu.px ++ px, match_ := r.1, skips := r.2.1, got := true, pkts := cu.pkts ++ [px.length],
                         at_ := if first then a else cu.at_, src := if cu.src.any (fun p => p.1 == q) then cu.src else cu.src ++ [(q, e)] }
    let d1 := r.2.2.modAsmCam c fun y => { y with cur := some new }
    let w := match (d1.asmCam c).openF with
      | some f => f.width
      | none => (d1.asmCam c).frameWidth
    if ends ∨ (0 < cu.lost ∧ 0 < w ∧ w ≤ new.px.length ∧ (d1.asmCam c).perPacket.isSome) then d1.lineDone c room else d1
  | .chunk id v => d.modFrame c fun f => { f with chunks := f.chunks.filter (fun p => p.1 ≠ id) ++ [(id, v)] }
  | .trailer =>
    let d0 := d.lineCut c room
    let x := d0.asmCam c
    if x.openF.isNone then d0
    else if x.mode = 0 then d0.closeFrame c .ended room
    else d0.framing c

/-- A packet taken in tag order. -/
def Dev.takePacket (c q : Nat) (p : PlyPacket) (room : Bool) (d : Dev) : Dev :=
  p.pkt.parts.foldl (fun (y : Dev) part => y.takePart c q p.start p.ts room part) d

/-- A packet that will not come (R247, R248): its pixels are filled in their place where the camera sends a fixed payload. -/
def Dev.missPacket (c : Nat) (arrival : Int) (room : Bool) (d : Dev) : Dev :=
  let x := d.asmCam c
  match x.perPacket, x.openF with
  | some n, some f =>
    let cu := x.curOr arrival
    let k := min n (f.width - cu.px.length)
    let new := { cu with px := cu.px ++ List.replicate k x.cfg.fill, lost := cu.lost + 1,
                         fill := cu.fill ++ [(cu.px.length, k)] }
    let d1 := d.modAsmCam c fun y => { y with cur := some new }
    if f.width ≤ new.px.length then d1.lineDone c room else d1
  | _, _ => match x.cur with
    | some cu => d.modAsmCam c fun y => { y with cur := some { cu with lost := cu.lost + 1 } }
    | none => d.losePackets c 1

/-- The read pointer passes the packets that have been taken. -/
def Ply.advance (p : Ply) : Ply :=
  let first := p.packets.find? (fun k => !k.taken)
  Ply.trim { p with read := match first with
                      | some k => k.start
                      | none => p.commit }

/-- A packet of a queue has been taken, in the frame in progress of camera c. -/
def Dev.taken (q start : Nat) (c : Option Nat) (d : Dev) : Dev :=
  let frame := ((c.bind (fun k => (d.asmCam k).openF)).map (·.seq)).getD 0
  (d.modPly q fun p => Ply.advance { p with packets := p.packets.map (fun k =>
    if k.start = start then { k with taken := true, frame := frame } else k) })

/-- The camera that takes the packets of a queue (R244): the lowest enabled one whose group holds its connection. -/
def Dev.camOfQueue (q : Nat) (d : Dev) : Option Nat :=
  (List.range 48).find? (fun c => (d.asmCam c).on && (d.members (d.asmCam c).conn).contains q)

/-- How far a tag lies after the expected one; the width of the tag is 8 bits (DESIGN CHOICE). -/
def tagAfter (tag expected : Nat) : Nat := (tag + 256 - expected % 256) % 256

/-- Waiting packets are taken while the next tag is among them; stale ones are discarded. -/
def Dev.mergeReady (c : Nat) (room : Bool) : Nat → Dev → Dev
  | 0, d => d
  | fuel + 1, d =>
    let x := d.asmCam c
    match x.expected with
    | none => d
    | some e =>
      match x.waiting.find? (fun w => w.2.2.pkt.tag % 256 == e % 256), x.waiting.find? (fun w => decide (128 ≤ tagAfter w.2.2.pkt.tag e)) with
      | some w, _ =>
        let d1 := d.setAsmCam c { x with waiting := x.waiting.erase w, expected := some ((e + 1) % 256) }
        (((d1.takePacket c w.1 w.2.2 room).taken w.1 w.2.2.start (some c)).mergeReady c room fuel)
      | none, some w => ((d.setAsmCam c { x with waiting := x.waiting.erase w }).taken w.1 w.2.2.start (some c)).mergeReady c room fuel
      | none, none => d

/-- The merge wait of a camera (R245) runs from the first later tag that became visible. -/
def Dev.mergeTimer (c : Nat) (d : Dev) : Dev :=
  let x := d.asmCam c
  match x.waiting.map (fun w => w.2.1) with
  | [] => d.disarm (.mergeSkew c)
  | t :: ts => d.arm (.mergeSkew c) (ts.foldl min t + 100 * max 1 (d.f (R.ASM_Q_CFG c) F.ASM_Q_CFG_MERGE_SKEW))

/-- ASM_PACKET_VISIBLE: the oldest packet of queue q that has not been seen. -/
def Dev.packetVisible (q : Nat) (room : Bool) (d : Dev) : Dev :=
  let c? := d.camOfQueue q
  let seen := fun (k : PlyPacket) => match c? with
    | some c => (d.asmCam c).waiting.any (fun w => w.1 == q && w.2.2.start == k.start)
    | none => false
  match (d.ply q).packets.find? (fun k => !k.taken && !seen k) with
  | none => d
  | some p =>
    match c? with
    | none => d.taken q p.start none
    | some c =>
      if !p.pkt.imageId then d.taken q p.start (some c)
      else
        let x := d.asmCam c
        let d1 := d.setAsmCam c { x with waiting := x.waiting ++ [(q, d.now, p)], expected := some (x.expected.getD (p.pkt.tag % 256)) }
        (d1.mergeReady c room (x.waiting.length + 1)).mergeTimer c

/-- MERGE_SKEW_EXPIRE: the missing tags before the nearest waiting one are lost. -/
def Dev.mergeExpire (c : Nat) (room : Bool) (d : Dev) : Dev :=
  let x := d.asmCam c
  match x.expected, x.waiting with
  | some e, w :: ws =>
    if !d.due (.mergeSkew c) then d
    else
      let n := ws.foldl (fun m v => min m (tagAfter v.2.2.pkt.tag e)) (tagAfter w.2.2.pkt.tag e)
      let d1 := (List.range n).foldl (fun (y : Dev) _ => y.missPacket c w.2.2.ts room) d
      ((d1.modAsmCam c fun y => { y with expected := some ((e + n) % 256) }).mergeReady c room x.waiting.length).mergeTimer c
  | _, _ => d

/-! Queue resets (R237, R238). -/

/-- The camera whose group holds queue q is resynchronised. -/
def Dev.resync (c : Nat) (lost : Nat) (room : Bool) (d : Dev) : Dev :=
  let x := d.asmCam c
  let cut := (x.cur.map (·.lost)).getD 0
  let d1 := ((d.modAsmCam c fun y => { y with expected := none, cur := none }).losePackets c (lost + cut))
  if x.mode = 1 then d1 else d1.closeFrame c .early room

/-- A queue is emptied: its packets are lost, its marks forfeited. -/
def Dev.plyEmpty (q : Nat) (d : Dev) : Dev :=
  let d1 := (d.ply q).live.foldl (fun (y : Dev) m => y.forfeit q m) d
  d1.setPly q { Ply.init with marks := (d1.ply q).marks, nextMark := (d1.ply q).nextMark, resetting := (d1.ply q).resetting }

/-- The reset of queue q (R237). -/
def Dev.plyReset (q : Nat) (room : Bool) (d : Dev) : Dev :=
  let n := ((d.ply q).packets.filter (fun k => !k.taken && k.pkt.imageId)).length
  let d1 := (d.plyEmpty q).modPly q fun p => { p with resetting := true }
  match d.camOfQueue q with
  | none => d1
  | some c =>
    let d2 := (d1.modAsmCam c fun x => { x with waiting := x.waiting.filter (fun w => w.1 ≠ q) }).resync c n room
    let x := d2.asmCam c
    match x.waiting with
    | [] => d2.mergeTimer c
    | w :: ws =>
      let e := ws.foldl (fun m v => if 128 ≤ tagAfter v.2.2.pkt.tag m then v.2.2.pkt.tag % 256 else m) (w.2.2.pkt.tag % 256)
      ((d2.modAsmCam c fun y => { y with expected := some e }).mergeReady c room x.waiting.length).mergeTimer c

/-- PTR_FAULT. -/
def Dev.ptrFault (q : Nat) (room : Bool) (d : Dev) : Dev :=
  ((d.plyReset q room).bump (R.ASM_CNT1 q) F.ASM_CNT1_PTR_RESET_CNT 1).asmErr q 1

/-! Software (R244, R254, R257). -/

/-- A close request: the open frame closes before the next line. -/
def Dev.closeRequest (c : Nat) (d : Dev) : Dev := d.modAsmCam c fun x => { x with closeReq := x.openF.isSome }

/-- FLUSH. -/
def Dev.ledgerFlush (c : Nat) (d : Dev) : Dev :=
  (d.setLedger c { d.ledger c with entries := [] }).modAsmCam c fun x => { x with orderUnc := false }

/-- A write of ASM_CTL(i). -/
def Dev.asmCtlWrite (i : Nat) (v : Word) (room : Bool) (d : Dev) : Dev :=
  let d1 := if fld v F.ASM_CTL_FLUSH = 1 then d.ledgerFlush i else d
  let d2 := if fld v F.ASM_CTL_QRESET = 1 then d1.plyReset i room else d1
  if fld v F.ASM_CTL_CLOSE = 1 then d2.closeRequest i else d2

/-- The rise of EN (R244, R249, R287). -/
def Dev.camEnable (c : Nat) (d : Dev) : Dev :=
  let v := d.rd (R.ASM_CAM_CFG c)
  let m := fld v F.ASM_CAM_CFG_MODE
  let mode := if 2 < m then 0 else m
  let conn := fld v F.ASM_CAM_CFG_CONN
  let badLen := mode == 1 && d.rd64 (R.ASM_FRAME_LEN c) == 0
  let badLines := mode != 0 && d.f (R.ASM_FRAME_CFG c) F.ASM_FRAME_CFG_FRAME_LINES == 0
  let x := d.asmCam c
  let cpb := (d.rd64 (R.CAR_SET_CPB c)).toNat
  let d1 := (d.setAsmCam c { x with on := !(badLen || badLines), conn := conn, mode := mode, expected := none, waiting := [], header := none,
                                    lastFid := none, cur := none, perPacket := none, closeReq := false, lastK := none }).modCarCam c fun y =>
    { y with cpbs := y.cpbs.filter (fun p => p.1 ≠ 0) ++ [(0, cpb)] }
  if badLen || badLines then d1.asmErr c 9
  else
    let d2 := d1.sampleCfg c
    let same := (List.range 48).filter (fun k => (d2.asmCam k).on && (d2.asmCam k).conn == conn)
    (same.drop 1).foldl (fun (y : Dev) k => y.asmErr k 9) d2

/-- The fall of EN: the open frame closes at once; packets that wait are read and discarded. -/
def Dev.camDisable (c : Nat) (room : Bool) (d : Dev) : Dev :=
  let x := d.asmCam c
  let d1 := d.losePackets c ((x.cur.map (·.lost)).getD 0)
  let d2 := (d1.closeFrame c .early room).modAsmCam c fun y => { y with on := false, cur := none, waiting := [], expected := none }
  (x.waiting.foldl (fun (y : Dev) w => y.taken w.1 w.2.2.start none) d2).disarm (.mergeSkew c)

/-- A write of ASM_CAM_CFG(c). -/
def Dev.camCfgWrite (c : Nat) (v : Word) (room : Bool) (d : Dev) : Dev :=
  let was := d.b (R.ASM_CAM_CFG c) F.ASM_CAM_CFG_EN
  let d1 := d.plainWrite (R.ASM_CAM_CFG c) v
  let now_ := d1.b (R.ASM_CAM_CFG c) F.ASM_CAM_CFG_EN
  if now_ && !was then d1.camEnable c else if was && !now_ then d1.camDisable c room else d1

/-- Entry into the watch state (R250, R266): every open frame is closed, short where it lacks lines, and the queues empty. -/
def Dev.asmWatch (d : Dev) : Dev :=
  let d1 := (List.range 48).foldl (fun (y : Dev) c =>
    ((y.modAsmCam c fun x => { x with cur := none, waiting := [], expected := none }).closeFrame c .early true).disarm (.mergeSkew c)) d
  (List.range 48).foldl (fun (y : Dev) q => y.plyEmpty q) d1

/-- ASM_STATUS(i) as it reads. -/
def Dev.asmStatus (c : Nat) (d : Dev) : Word :=
  let x := d.asmCam c
  match x.openF with
  | some f => BitVec.ofNat 32 (2 ^ 31 + x.mode * 2 ^ 28 + f.lines % 2 ^ 24)
  | none => BitVec.ofNat 32 (x.mode * 2 ^ 28)

/-! The commands. `room` says whether the history ring's write buffer takes the lines that the command writes. -/

def execAsmPacketVisible (q : Fin 48) (room : Bool) (s : State) : Host.Outcome State Fault Refusal := s.run fun d => d.packetVisible q room

def execMergeSkewExpire (cam : Fin 48) (room : Bool) (s : State) : Host.Outcome State Fault Refusal := s.run fun d => d.mergeExpire cam room

def execPtrFault (q : Fin 48) (room : Bool) (s : State) : Host.Outcome State Fault Refusal := s.run fun d => d.ptrFault q room

def execQueueResetEnd (q : Fin 48) (s : State) : Host.Outcome State Fault Refusal :=
  s.run fun d => d.modPly q fun p => { p with resetting := false }

/-- QRESET: a write of ASM_CTL(q) with that bit. -/
def execQreset (q : Fin 48) (room : Bool) (s : State) : Host.Outcome State Fault Refusal := s.run fun d => d.asmCtlWrite q 2 room

def execClose (cam : Fin 48) (s : State) : Host.Outcome State Fault Refusal := s.run fun d => d.asmCtlWrite cam 1 true

def execFlush (cam : Fin 48) (s : State) : Host.Outcome State Fault Refusal := s.run fun d => d.asmCtlWrite cam 4 true

/-- ASM_CLOSE(cam), the Chain task input. -/
def execAsmClose (cam : Fin 48) (s : State) : Host.Outcome State Fault Refusal :=
  s.run fun d => match d.activate (Task.asmClose cam) with
    | (some _, d1) => d1.closeRequest cam
    | (none, d1) => d1

/-- ASM_CAM_ENABLE: a write of ASM_CAM_CFG(cam) with EN set. -/
def execAsmCamEnable (cam : Fin 48) (v : Word) (s : State) : Host.Outcome State Fault Refusal :=
  s.run fun d => d.camCfgWrite cam (v ||| 0x80000000) true

/-- ASM_CAM_DISABLE: a write of ASM_CAM_CFG(cam) with EN clear. -/
def execAsmCamDisable (cam : Fin 48) (v : Word) (room : Bool) (s : State) : Host.Outcome State Fault Refusal :=
  s.run fun d => d.camCfgWrite cam (v &&& 0x7FFFFFFF) room

end Sys2Proof.Machine
end

