-- ==== Sys2Proof/Machine/Control.lean ====
section
/-! DEFINITION. Control commands on the camera uplinks (spec/06): their order, acknowledgements and timeouts, the steps of
discovery and training, and the host mailbox. -/

namespace Sys2Proof.Machine

/-- The group tag of the group whose master is connection m (R198). -/
def groupTag (m : Nat) : Nat := Config.serialNumber.toNat % 2 ^ 24 * 256 + m

/-- A control command starts on connection n (R194): its acknowledgement is due in 200 ms and its final one in 10 s. -/
def Dev.ctrlStart (n : Nat) (k : CtrlKind) (d : Dev) : Dev :=
  ((d.modConn n fun x => { x with cmd := some k, cmdAt := d.now }).arm (.ctrl n) (d.now + 200000000)).arm (.ctrlEnd n)
    (d.now + 10000000000)

/-- The command of connection n has ended. -/
def Dev.ctrlDone (n : Nat) (d : Dev) : Dev :=
  ((d.modConn n fun x => { x with cmd := none }).disarm (.ctrl n)).disarm (.ctrlEnd n)

/-- The value that a discovery step writes (R180, R198, R199). -/
def Dev.discValue (n : Nat) (step : DiscStep) (d : Dev) : Nat :=
  let x := d.conn n
  match step with
  | .pktSizeWrite => 16384
  | .tagWrite => groupTag n
  | .cfgWrite => x.maxRate * 256 + x.count
  | _ => 0

/-- The next control command of connection n starts (R192): a parameter set's, then discovery's, then the mailbox's, and only
when none is outstanding. -/
def Dev.ctrlNext (n : Nat) (d : Dev) : Dev :=
  let x := d.conn n
  if x.cmd.isSome ∨ d.pwr.state = .watch ∨ d.pwr.state = .entry then d
  else match x.setQ, x.disc, x.mailbox with
    | q :: rest, _, _ =>
      if x.state.live then
        ((d.setConn n { x with setQ := rest }).ctrlStart n (.set q.1 q.2.1 q.2.2)).emit
          (.control n true q.2.1 (4 * q.2.2.length) (q.2.2.flatMap (leBytes 4)))
      else d
    | [], some st, _ =>
      if x.state = .discover ∧ x.aligned then (d.ctrlStart n (.disc st)).emit (.bootstrap n st (d.discValue n st)) else d
    | [], none, some m =>
      if x.state.live ∧ d.isMaster n then (d.ctrlStart n .mailbox).emit (.control n m.write m.addr m.size m.data) else d
    | [], none, none => d

/-- Read data goes to CLL_CTRL_BUF(n) from offset 0 (R207). -/
def Dev.ctrlBuffer (n : Nat) (data : List Byte) (d : Dev) : Dev :=
  (List.range ((data.length + 3) / 4)).foldl (fun y k =>
    y.wr (R.CLL_CTRL_BUF n k) (BitVec.ofNat 32 (leAt data (4 * k) 4))) d

/-- A connection that names master m (R198): it joins m's group in its own octet; another octet's group sets GROUP; a group
whose count is set is not joined (R200); a tag of no present group is read again. -/
def Dev.joinGroup (n tag : Nat) (d : Dev) : Dev :=
  let m := tag % 256
  if tag / 256 ≠ groupTag 0 / 256 ∨ 48 ≤ m then d
  else if m / 8 ≠ n / 8 then (d.modConn n fun x => { x with disc := none }).cllErr n 5
  else if !d.isMaster m then d
  else if (d.conn m).count ≠ 0 then d.modConn n fun x => { x with disc := none }
  else d.modConn n fun x => { x with joined := true, master := m, disc := none }

/-- A step of discovery has been acknowledged with success (R198, R199, R201). -/
def Dev.discAck (n : Nat) (st : DiscStep) (a : ControlAck) (d : Dev) : Dev :=
  let next (s : DiscStep) (y : Dev) : Dev := y.modConn n fun x => { x with disc := some s }
  let role (y : Dev) : Dev := next (if (y.conn n).devId = 0 then .tagWrite else .tagRead) y
  match st with
  | .standard => next .devId d
  | .devId => next .cfgDefault (d.modConn n fun x => { x with devId := a.value })
  | .cfgDefault => next .pktSize (d.modConn n fun x => { x with cap := a.conns, maxRate := a.rate })
  | .pktSize => if 16384 < a.value then next .pktSizeWrite d else role d
  | .pktSizeWrite => role d
  | .tagWrite =>
    (d.modConn n fun x => { x with joined := true, master := n, disc := none }).arm (.joinWait n) (d.now + 1000000)
  | .tagRead => d.joinGroup n a.value
  | .cfgWrite => (d.usedMembers n).foldl (fun y k => y.toState .train k) (d.modConn n fun x => { x with disc := none })

/-- A control acknowledgement on connection n (R194): one with a CRC error is discarded, a wait acknowledgement restarts the
200 ms, and a final one ends the command. A step of discovery that the camera refuses is made again. -/
def Dev.ctrlAck (n : Nat) (a : ControlAck) (d : Dev) : Dev :=
  match (d.conn n).cmd with
  | none => d
  | some k =>
    if !a.crcOk then d
    else if a.wait then
      let d1 := d.arm (.ctrl n) (d.now + 200000000)
      match k with
      | .mailbox => d1.count (R.CLL_CTRL_STATUS n) F.CLL_CTRL_STATUS_WAITS 1
      | _ => d1
    else
      let d1 := d.ctrlDone n
      let ok := a.fits && a.code == 0
      match k with
      | .set cam _ _ => if ok then d1.setAck cam else d1.setFail cam
      | .disc st => if ok then d1.discAck n st a else d1
      | .mailbox =>
        let d2 := d1.sf (R.CLL_CTRL_STATUS n) F.CLL_CTRL_STATUS_ACK_CODE a.code
        let read := (d.conn n).mailbox.any (fun m => !m.write)
        let size := match (d.conn n).mailbox with
          | some m => m.size
          | none => 0
        if !a.fits then d2.mailboxEnd n 4
        else if a.code ≠ 0 then d2.mailboxEnd n 2
        else (if read then d2.ctrlBuffer n (a.data.take size) else d2).mailboxEnd n 0

/-- The outstanding command of connection n has timed out (R194, R201). -/
def Dev.ctrlTimeout (n : Nat) (d : Dev) : Dev :=
  match (d.conn n).cmd with
  | none => d
  | some k =>
    if !d.due (.ctrl n) ∧ !d.due (.ctrlEnd n) then d
    else
      let d1 := (d.ctrlDone n).bump (R.CLL_CNT3 n) F.CLL_CNT3_CTRL_TMO_CNT 1
      match k with
      | .set cam _ _ => d1.setFail cam
      | .mailbox => d1.mailboxEnd n 1
      | .disc _ => if (d1.conn n).joined then d1.groupFail (d1.conn n).master else (d1.discFail n).toState .absent n

/-- A write of CLL_CTRL_CMD(n) (R207, R227). -/
def Dev.ctrlCmdWrite (n : Nat) (v : Word) (d : Dev) : Dev :=
  let d1 := d.plainWrite (R.CLL_CTRL_CMD n) v
  if fld v F.CLL_CTRL_CMD_GO = 0 then d1
  else if d.b (R.CLL_CTRL_STATUS n) F.CLL_CTRL_STATUS_BUSY then d1.ctlRefused n
  else if !d.isMaster n ∨ !(d.conn n).state.live then d1.mailboxEnd n 3
  else
    let size := fld v F.CLL_CTRL_CMD_SIZE
    if size % 4 ≠ 0 ∨ size < 4 ∨ 256 < size then d1.mailboxEnd n 5
    else
      let data := (List.range (size / 4)).flatMap (fun k => leBytes 4 (d1.rd (R.CLL_CTRL_BUF n k)).toNat)
      let write := fld v F.CLL_CTRL_CMD_WRITE = 1
      let cmd : MailCmd :=
        { write := write, addr := (d1.rd (R.CLL_CTRL_ADDR n)).toNat, size := size, data := if write then data else [] }
      ((((d1.modConn n fun x => { x with mailbox := some cmd }).sb (R.CLL_CTRL_STATUS n) F.CLL_CTRL_STATUS_BUSY true).sf
        (R.CLL_CTRL_STATUS n) F.CLL_CTRL_STATUS_ACK_CODE 0).sf (R.CLL_CTRL_STATUS n) F.CLL_CTRL_STATUS_WAITS 0)

/-! The commands. -/

def execCtrlCommandStart (n : Fin 48) (s : State) : Host.Outcome State Fault Refusal := s.run fun d => d.ctrlNext n

def execCtrlAckReceive (n : Fin 48) (ack : ControlAck) (s : State) : Host.Outcome State Fault Refusal :=
  s.run fun d => d.ctrlAck n ack

def execCtrlTimeout (n : Fin 48) (s : State) : Host.Outcome State Fault Refusal := s.run fun d => d.ctrlTimeout n

/-- MAILBOX_GO: a write of CLL_CTRL_CMD(n) with GO. -/
def execMailboxGo (n : Fin 48) (v : Word) (s : State) : Host.Outcome State Fault Refusal :=
  s.run fun d => d.ctrlCmdWrite n (v ||| 0x80000000)

end Sys2Proof.Machine
end

