-- ==== Sys2Proof/Machine/Fab.lean ====
section
/-! DEFINITION. The Ornewell fabric (spec/16) but for what a peer's requests reach in this device and the splice marks taken: ports
and training, credits and replay, routes, membership, roles and epochs, requests, and time. -/

namespace Sys2Proof.Machine

def Dev.modFab (g : FabSt → FabSt) (d : Dev) : Dev := { d with fab := g d.fab }

def Dev.fport (p : Nat) (d : Dev) : FabPort := d.fab.ports.get (fun _ => FabPort.init) p

def Dev.setFport (p : Nat) (x : FabPort) (d : Dev) : Dev :=
  d.modFab fun f => { f with ports := f.ports.set (fun _ => FabPort.init) p x }

def Dev.modFport (p : Nat) (g : FabPort → FabPort) (d : Dev) : Dev := d.setFport p (g (d.fport p))

/-- A FAB_ERR bit is set; FAB_ERR is published when an unmasked bit rises (R582). -/
def Dev.fabErr (bit : Nat) (d : Dev) : Dev :=
  let rise := d.f R.FAB_ERR (bitF bit) = 0 ∧ d.f R.FAB_ERR_MASK (bitF bit) = 0
  let d1 := d.err 13 R.FAB_ERR bit
  if rise then d1.publish Src.fabErr 0 else d1

/-- Whether the 16-bit epoch `a` is newer than `b` (R565). -/
def epochNewer (a b : Nat) : Bool :=
  let x := (a + 65536 - b % 65536) % 65536
  decide (1 ≤ x) && decide (x ≤ 32767)

/-- The low 24 bits of the serial number are on the lanes; the whole of it names the device. -/
def serial : Nat := Config.serialNumber.toNat

/-- The device's address, 0 where it has none. -/
def Dev.fabAddr (d : Dev) : Nat := d.fab.addr.getD 0

/-- A field of FAB_TMO, 0 treated as 1. -/
def Dev.fabTmo (f : Fld) (d : Dev) : Nat := max 1 (d.f R.FAB_TMO f)

def Dev.rootTmo (d : Dev) : Nat := d.fabTmo F.FAB_TMO_OT_TMO * 1000000

def Dev.reqTmo (d : Dev) : Nat := d.fabTmo F.FAB_TMO_REQ_TMO * 1000

/-! Packets on a port (R558 to R562). -/

/-- The traffic class of a packet (R560). -/
def msgTc : FabMsg → Nat
  | .response _ => 1
  | .read _ _ => 2
  | .write _ data => if data.length ≤ 64 then 2 else 3
  | _ => 0

/-- The units of a packet (R559): START and payload. The contents of the membership and SYNC packets have no stated length; they are
taken as one payload unit, as a MARK has. -/
def msgUnits : FabMsg → Nat
  | .read _ _ => 1
  | .fence => 1
  | .write _ data => 1 + (data.length + 31) / 32
  | .response data => 1 + (data.length + 31) / 32
  | _ => 2

/-- Credits of a class in units: the receive buffers of R560. -/
def initialCredit : List Nat := [128, 384, 512, 1024]

/-- A port sends the next packet: the highest class that has one and credit for it (R560, R561). -/
def Dev.portSend (p : Nat) (d : Dev) : Option Dev :=
  let x := d.fport p
  let ready := fun (k : Nat) => x.queue.find? (fun q => msgTc q.msg == k && decide (msgUnits q.msg ≤ x.credit.getD k 0))
  match (List.range 4).findSome? ready with
  | none => none
  | some q =>
    let k := msgTc q.msg
    let seq := x.txSeq
    some ((d.setFport p { x with
      queue := x.queue.erase q, credit := x.credit.set k (x.credit.getD k 0 - msgUnits q.msg), txSeq := (seq + 1) % 4096,
      unacked := x.unacked ++ [(seq, q)] }).emit (.fabPacket p seq q))

/-- Every packet that has credit is sent. -/
def Dev.portPump (p : Nat) : Nat → Dev → Dev
  | 0, d => d
  | fuel + 1, d => match d.portSend p with
    | some y => y.portPump p fuel
    | none => d

/-- A packet is given to a port that is UP. -/
def Dev.portPut (p : Nat) (q : FabPacket) (d : Dev) : Dev :=
  if (d.fport p).state ≠ .up then d
  else
    let d1 := d.modFport p fun x => { x with queue := x.queue ++ [q] }
    d1.portPump p (d1.fport p).queue.length

/-- The port toward an address (R568): FAB_ROUTE's primary port, else its alternate, where it is UP. -/
def Dev.fabRoute (dst : Nat) (d : Dev) : Option Nat :=
  let r := d.rd (R.FAB_ROUTE dst)
  let main := fld r F.FAB_ROUTE_PORT
  let alt := fld r F.FAB_ROUTE_ALT
  if fld r F.FAB_ROUTE_VALID = 0 then none
  else if (d.fport main).state = .up then some main
  else if fld r F.FAB_ROUTE_ALT_VALID = 1 ∧ (d.fport alt).state = .up then some alt
  else none

/-- The ports a flood takes: the tree edges that are UP, or every port that is UP while no route table has been given. -/
def Dev.floodPorts (d : Dev) : List Nat :=
  let up := (List.range 4).filter (fun p => (d.fport p).state == .up)
  let tree := up.filter (fun p => (d.fport p).tree)
  if (List.range 4).any (fun p => (d.fport p).tree) then tree else up

/-- A packet of this device with the epochs it holds. -/
def Dev.fabPacket (dst : Nat) (bcast : Bool) (txid status : Nat) (msg : FabMsg) (d : Dev) : FabPacket :=
  { dst := dst, bcast := bcast, src := d.fabAddr, hops := 0, sink := false, txid := txid, rootEp := d.fab.rootEp, sinkEp := d.fab.sinkEp,
    status := status, msg := msg }

/-- A broadcast by this device (R568). -/
def Dev.flood (msg : FabMsg) (d : Dev) : Dev :=
  let q := d.fabPacket 0 true 0 0 msg
  d.floodPorts.foldl (fun y p => y.portPut p q) d

/-- A packet toward an address: whether there is a route, and the device. -/
def Dev.fabSend (q : FabPacket) (d : Dev) : Bool × Dev :=
  match d.fabRoute q.dst with
  | some p => (true, d.portPut p q)
  | none => (false, d)

/-- A packet that arrived on port p goes on (R568). -/
def Dev.fabForward (p : Nat) (q : FabPacket) (d : Dev) : Dev :=
  if 15 ≤ q.hops then (d.bump R.FAB_CNT1 F.FAB_CNT1_HOP_DROP_CNT 1).fabErr 7
  else
    let r := { q with hops := q.hops + 1 }
    if q.bcast then (d.floodPorts.filter (· ≠ p)).foldl (fun y k => y.portPut k r) d else (d.fabSend r).2

/-- A packet has arrived in order on a port (R562): whether the port takes it, and the device. -/
def Dev.fabArrive (p : Nat) (d : Dev) : Bool × Dev :=
  let x := d.fport p
  if x.state = .up then (true, d.setFport p { x with rxSeq := (x.rxSeq + 1) % 4096 }) else (false, d)

/-! Ports and training (R557, R562 to R564). -/

/-- This device's HELLO on port p (R566). -/
def Dev.hello (p : Nat) (d : Dev) : FabHello :=
  let cfg := d.rd R.FAB_CFG
  { serial := serial, rootPrio := fld cfg F.FAB_CFG_ROOT_PRIO, sinkPrio := fld cfg F.FAB_CFG_SINK_PRIO,
    pref := if fld cfg F.FAB_CFG_PREF_VALID = 1 then some (fld cfg F.FAB_CFG_PREF_ADDR) else none, addr := d.fab.addr,
    rootEp := d.fab.rootEp, sinkEp := d.fab.sinkEp, root := d.fab.root, sink := d.fab.sink, port := p }

/-- A port enters TRAIN, phase LOCK; from UP it counts a retrain (R563). -/
def Dev.portTrain (p : Nat) (d : Dev) : Dev :=
  d.modFport p fun x => { x with state := .train, phase := 0, since := d.now, locked := 0, txSeq := 0, rxSeq := 0, replays := 0 }

/-- A port leaves UP: its unacknowledged packets are discarded (R568). -/
def Dev.portLeave (p : Nat) (d : Dev) : Dev :=
  let d1 := d.modFport p fun x => { x with unacked := [], queue := [], credit := [0, 0, 0, 0] }
  if (List.range 4).all (fun k => k == p || (d1.fport k).state != .up) then d1.modFab fun f => { f with lostAt := some d.now } else d1

/-- A retrain from UP. -/
def Dev.portRetrain (p : Nat) (d : Dev) : Dev :=
  if (d.fport p).state ≠ .up then d
  else ((d.portLeave p).portTrain p).bump (R.FAB_PORT_CNT1 p) F.FAB_PORT_CNT1_RETRAIN_CNT 1

/-- A port goes to OFF; its training begins anew when it comes back. -/
def Dev.portOff (p : Nat) (d : Dev) : Dev :=
  let d1 := if (d.fport p).state = .up then d.portLeave p else d
  d1.modFport p fun x => { FabPort.init with delay := x.delay }

/-- EN of FAB_CFG and of FAB_PORT_CFG(p) put a port into training or OFF (R563). -/
def Dev.portEnable (p : Nat) (d : Dev) : Dev :=
  let want := d.b R.FAB_CFG F.FAB_CFG_EN && d.b (R.FAB_PORT_CFG p) F.FAB_PORT_CFG_EN && d.pwr.state == .active
  if want then (if (d.fport p).state = .off then d.portTrain p else d)
  else if (d.fport p).state = .off then d else d.portOff p

/-- A write of FAB_PORT_CFG(p). -/
def Dev.fabPortCfgWrite (p : Nat) (v : Word) (d : Dev) : Dev := (d.plainWrite (R.FAB_PORT_CFG p) v).portEnable p

/-- A training phase completes: the next one, or UP after the fourth (R563). HELLO goes out in HANDSHAKE. -/
def Dev.trainPhase (p : Nat) (d : Dev) : Dev :=
  let x := d.fport p
  if x.state ≠ .train then d
  else if x.phase < 3 then
    let d1 := d.setFport p { x with phase := x.phase + 1, locked := 15 }
    if x.phase = 2 then d1.emit (.fabPacket p 0 (d1.fabPacket 0 false 0 0 (.hello (d1.hello p)))) else d1
  else
    let d1 := (d.setFport p { x with state := .up, phase := 0, back := 0, credit := initialCredit }).modFab fun f => { f with lostAt := none }
    if d1.fab.state = .alone then d1.modFab fun f => { f with state := .joining, stateAt := d.now, claimAt := none, claims := [] } else d1

/-- A port not trained 100 ms after it entered TRAIN enters DOWN. -/
def Dev.trainFail (p : Nat) (d : Dev) : Dev :=
  let x := d.fport p
  if x.state ≠ .train ∨ d.now < x.since + 100000000 then d
  else (((d.setFport p { x with state := .down, phase := 0, since := d.now, locked := 0 }).bump (R.FAB_PORT_CNT1 p)
    F.FAB_PORT_CNT1_TRAIN_FAIL_CNT 1).fabErr 1).fabErr 0

/-- The back-off of DOWN ends: 100 ms × 2^step. -/
def Dev.backoffEnd (p : Nat) (d : Dev) : Dev :=
  let x := d.fport p
  if x.state ≠ .down ∨ d.now < x.since + 100000000 * 2 ^ x.back then d
  else (d.setFport p { x with back := min 5 (x.back + 1) }).portTrain p

/-- A tap after a request (0 hold, 1 increment, 2 decrement), with its status (0 not updated, 1 updated, 2 at minimum, 3 at
maximum): from 0 to `top`, and within what leaves the main tap 50 % (R564). -/
def tapStep (tap other top req : Nat) : Nat × Nat :=
  if req = 1 then (if top ≤ tap ∨ 20 ≤ tap + other then (tap, 3) else (tap + 1, 1))
  else if req = 2 then (if tap = 0 then (tap, 2) else (tap - 1, 1))
  else (tap, 0)

/-- A tap request from the partner in phase TAPS (R564). -/
def Dev.tapRequest (p lane pre post preset : Nat) (d : Dev) : Dev :=
  let x := d.fport p
  if x.state ≠ .train ∨ x.phase ≠ 1 then d
  else
    let t := x.taps.getD lane (0, 0)
    let r : (Nat × Nat) × (Nat × Nat) :=
      if preset = 1 then ((0, 1), (0, 1)) else if preset = 2 then ((0, 1), (6, 1)) else if preset = 3 then ((2, 1), (10, 1))
      else
        let a := tapStep t.1 t.2 7 pre
        (a, tapStep t.2 a.1 15 post)
    (d.setFport p { x with taps := x.taps.set lane (r.1.1, r.2.1) }).emit (.fabTaps p lane r.1.2 r.2.2 r.1.1 r.2.1)

/-- A marker on port p (R557, R576): BIP-8 mismatches are counted, a failed deskew retrains, and each fourth marker carries the
stamps of its arrival and of the next outgoing marker to the neighbour. -/
def Dev.marker (p bip : Nat) (deskewed : Bool) (arrive leave : Int) (d : Dev) : Dev :=
  let x := d.fport p
  if x.state ≠ .up ∧ ¬ (x.state = .train ∧ 2 ≤ x.phase) then d
  else
    let d1 := (d.bump (R.FAB_PORT_CNT2 p) F.FAB_PORT_CNT2_BIP_CNT bip).setFport p { x with markers := (x.markers + 1) % 65536 }
    if x.state ≠ .up then d1
    else if !deskewed then d1.portRetrain p
    else if (x.markers + 1) % 4 = 0 then d1.portPut p (d1.fabPacket x.peerAddr false 0 0 (.sync arrive leave (x.markers + 1))) else d1

/-- A control unit on port p (R558, R562): the check of the packet before it, ACK and NAK for those sent, and credit. -/
def Dev.controlUnit (p : Nat) (good : Bool) (ack : Nat) (nak : Bool) (credit : List Nat) (d : Dev) : Dev :=
  let x := d.fport p
  if x.state ≠ .up then d
  else
    let d1 := if good then d
      else (((d.bump (R.FAB_PORT_CNT0 p) F.FAB_PORT_CNT0_CRC_CNT 1).fabErr 2).emit (.fabNak p ((x.rxSeq + 4095) % 4096)))
    let hit := x.unacked.any (fun u => u.1 == ack)
    let rest := if hit then (x.unacked.dropWhile (fun u => u.1 != ack)).drop 1 else x.unacked
    let y := { x with unacked := rest, replays := if hit then 0 else x.replays,
                      credit := (List.range 4).map (fun k => x.credit.getD k 0 + credit.getD k 0) }
    if !nak then (d1.setFport p y).portPump p y.queue.length
    else if 7 ≤ y.replays then (((d1.setFport p y).bump (R.FAB_PORT_CNT0 p) F.FAB_PORT_CNT0_REPLAY_CNT 1).fabErr 2).portRetrain p
    else
      let d2 := ((d1.setFport p { y with replays := y.replays + 1 }).bump (R.FAB_PORT_CNT0 p) F.FAB_PORT_CNT0_REPLAY_CNT 1).fabErr 2
      (rest.foldl (fun z u => z.emit (.fabPacket p u.1 u.2)) d2).portPump p y.queue.length

/-! Membership, roles and epochs (R565 to R570). -/

/-- A change of an epoch or a fencing is published and is cause FABRIC (R570). -/
def Dev.epochEvent (d : Dev) : Dev := (d.publish Src.fabEpoch 0).intCause 6

/-- The epochs become those given. -/
def Dev.setEpochs (root sink : Nat) (d : Dev) : Dev :=
  if d.fab.rootEp = root ∧ d.fab.sinkEp = sink then d
  else ((d.modFab fun f => { f with rootEp := root, sinkEp := sink }).wr R.FAB_EPOCH (BitVec.ofNat 32 (root * 65536 + sink))).epochEvent

/-- The device is fenced (R570). -/
def Dev.fabFence (d : Dev) : Dev :=
  ((d.modFab fun f =>
    { f with root := false, sink := false, heldRoot := none, heldSink := none, state := .spare, stateAt := d.now, claimAt := none,
             claims := [] }).fabErr 4).epochEvent

/-- Whether epochs that a neighbour shows fence this device: a role it holds, or last held before ALONE, is at a newer epoch. -/
def Dev.fencedBy (rootEp sinkEp : Nat) (d : Dev) : Bool :=
  (match d.fab.heldRoot with
    | some e => epochNewer rootEp e
    | none => false) ||
  (match d.fab.heldSink with
    | some e => epochNewer sinkEp e
    | none => false)

/-- The members' links as (serial, port, serial, port). -/
def FabSt.links (f : FabSt) : List (Nat × Nat × Nat × Nat) :=
  f.table.flatMap (fun m => m.links.map (fun l => (m.serial, l.1, l.2.1, l.2.2)))

/-- A route as FAB_ROUTE(d) shows it. -/
def routeWord (r : FabRoute) : Word :=
  BitVec.ofNat 32 (2 ^ 31 + r.hops % 16 * 2 ^ 20 + (match r.alt with
    | some a => 512 + a % 4 * 16
    | none => 0) + r.port % 4)

/-- Routes and tree edges are written (R567). -/
def Dev.setRoutes (routes : List (Nat × FabRoute)) (tree : List Nat) (d : Dev) : Dev :=
  let d1 := (List.range 64).foldl (fun (y : Dev) a => y.wr (R.FAB_ROUTE a) (match routes.find? (fun r => r.1 == a) with
    | some r => routeWord r.2
    | none => 0)) d
  (List.range 4).foldl (fun (y : Dev) p => y.modFport p fun x => { x with tree := tree.contains p }) d1

/-- The table a member is given. -/
def FabSt.assignOf (f : FabSt) (m : FabMember) (conflict : Bool) : FabAssign :=
  let ls := f.links
  { serial := m.serial, addr := some m.addr, conflict := conflict,
    routes := (f.table.filter (fun k => k.serial != m.serial && !k.dead)).filterMap (fun k =>
      (Config.fabRoute ls serial m.serial k.serial).map (fun r => (k.addr, r))),
    tree := Config.fabTree ls serial m.serial }

/-- The root writes every member's tables, its own among them, and the member map. -/
def Dev.rootAssign (d : Dev) : Dev :=
  let map := ofBits ((d.fab.table.filter (fun m => !m.dead)).map (fun m => (true, m.addr)))
  let d1 := d.modFab fun f => { f with members := map }
  (d1.fab.table.filter (fun m => !m.dead)).foldl (fun (y : Dev) m =>
    let a := y.fab.assignOf m false
    if m.serial = serial then y.setRoutes a.routes a.tree else y.flood (.assign a)) d1

/-- SINK goes to the eligible member with the lowest SINK_PRIO, then the lowest serial number (R569). -/
def Dev.sinkAssign (d : Dev) : Dev :=
  let ok := d.fab.table.filter (fun m => !m.dead && !m.spare && m.sinkPrio != 0)
  let best := ok.foldl (fun (acc : Option FabMember) m => match acc with
    | none => some m
    | some b => if m.sinkPrio < b.sinkPrio ∨ (m.sinkPrio = b.sinkPrio ∧ m.serial < b.serial) then some m else acc) none
  match best with
  | none => d.modFab fun f => { f with sinkAddr := none }
  | some m =>
    let ep := (d.fab.sinkEp + 1) % 65536
    let mine := m.serial == serial
    (d.modFab fun f => { f with sinkAddr := some m.addr, sink := mine, heldSink := if mine then some ep else f.heldSink }).setEpochs
      d.fab.rootEp ep

/-- This device as its own root knows it. -/
def Dev.selfMember (addr : Nat) (d : Dev) : FabMember :=
  { serial := serial, addr := addr, sinkPrio := d.f R.FAB_CFG F.FAB_CFG_SINK_PRIO, spare := false, dead := false, lastAt := d.now,
    links := (List.range 4).filterMap (fun p =>
      let x := d.fport p
      if x.state = .up then some (p, x.peer, x.peerPort) else none) }

/-- This device becomes root (R566). -/
def Dev.becomeRoot (epoch : Nat) (d : Dev) : Dev :=
  let cfg := d.rd R.FAB_CFG
  let addr := d.fab.addr.getD (if fld cfg F.FAB_CFG_PREF_VALID = 1 then fld cfg F.FAB_CFG_PREF_ADDR else 0)
  let d1 := d.modFab fun f =>
    { f with state := .member, stateAt := d.now, root := true, heldRoot := some epoch, addr := some addr, rootAddr := some addr,
             rootId := serial, hops := 0, claimAt := none, claims := [], table := [], locked := true, joined := true }
  let d2 := d1.modFab fun f => { f with table := [d1.selfMember addr] }
  (d2.setEpochs epoch d.fab.sinkEp).rootAssign

/-- A HELLO on port p (R566, R570). -/
def Dev.helloIn (p : Nat) (h : FabHello) (d : Dev) : Dev :=
  let x := d.fport p
  if ¬ (x.state = .up ∨ (x.state = .train ∧ x.phase = 3)) then d
  else
    let d1 := d.setFport p { x with peer := h.serial, peerAddr := h.addr.getD 0, peerPort := h.port }
    if d1.fencedBy h.rootEp h.sinkEp then d1.fabFence else d1

/-- Whether the claim (prio, serial) is better than another (R566). -/
def claimBetter (p s p' s' : Nat) : Bool := decide (p < p') || (p == p' && decide (s < s'))

/-- A root's announcement is taken: the device follows it. -/
def Dev.follow (p : Nat) (q : FabPacket) (r : FabRoot) (d : Dev) : Dev :=
  let d0 := if d.fencedBy r.rootEp r.sinkEp then d.fabFence else d
  let mine := r.sinkAddr.isSome && r.sinkAddr == d0.fab.addr && d0.fab.state == .member
  (d0.modFab fun f =>
    { f with rootAddr := some q.src, rootId := r.serial, sinkAddr := r.sinkAddr, sink := mine,
             heldSink := if mine then some r.sinkEp else f.heldSink, members := r.members, hops := q.hops + 1, upPort := p,
             rootAt := d.now, claimAt := none, claims := [] }).setEpochs r.rootEp r.sinkEp

/-- A ROOT announcement (R566): two roots that meet are decided by the newer epoch, else by the better claim. -/
def Dev.rootIn (p : Nat) (q : FabPacket) (r : FabRoot) (d : Dev) : Dev :=
  let a := d.fabArrive p
  if !a.1 ∨ d.fab.state = .off ∨ r.serial = serial then a.2
  else
    let d1 := a.2
    let f := d1.fab
    if f.root then
      let better := claimBetter r.prio r.serial (d1.f R.FAB_CFG F.FAB_CFG_ROOT_PRIO) serial
      if epochNewer r.rootEp f.rootEp ∨ (r.rootEp = f.rootEp ∧ better = true) then
        ((d1.fabFence.modFab fun g => { g with table := [] }).follow p q r).fabForward p q
      else if r.rootEp = f.rootEp then
        let ep := (f.rootEp + 1) % 65536
        (d1.modFab fun g => { g with heldRoot := some ep }).setEpochs ep f.sinkEp
      else d1
    else if f.rootAddr.isNone ∨ epochNewer r.rootEp f.rootEp ∨ (r.rootEp = f.rootEp ∧ f.rootId = r.serial) then
      (d1.follow p q r).fabForward p q
    else d1

/-- This device's claim. -/
def Dev.ownClaim (d : Dev) : FabClaim := { serial := serial, prio := d.f R.FAB_CFG F.FAB_CFG_ROOT_PRIO, rootEp := d.fab.rootEp }

/-- The device starts to claim (R566). -/
def Dev.claimNow (d : Dev) : Dev :=
  if d.f R.FAB_CFG F.FAB_CFG_ROOT_PRIO = 0 ∨ d.fab.state = .spare ∨ d.fab.claimAt.isSome then d
  else (d.modFab fun f => { f with claimAt := some d.now, claims := f.claims ++ [d.ownClaim] }).flood (.claim d.ownClaim)

/-- A CLAIM (R566). A working root is not displaced. -/
def Dev.claimIn (p : Nat) (q : FabPacket) (c : FabClaim) (d : Dev) : Dev :=
  let a := d.fabArrive p
  if !a.1 ∨ d.fab.root ∨ d.fab.claims.contains c then a.2
  else (a.2.modFab fun f => { f with claims := f.claims ++ [c] }).fabForward p q

/-- A JOINING device has heard no root for 3 ms (R566). -/
def Dev.claimStart (d : Dev) : Dev :=
  let f := d.fab
  if f.state = .joining ∧ f.rootAddr.isNone ∧ f.stateAt + 3000000 ≤ d.now then d.claimNow else d

/-- Claims have been heard for 3 ms (R566): the best becomes root, with an epoch one newer than the newest seen. -/
def Dev.electionEnd (d : Dev) : Dev :=
  match d.fab.claimAt with
  | none => d
  | some t =>
    if d.now < t + 3000000 then d
    else
      let cs := d.fab.claims.filter (fun c => c.prio != 0)
      let beaten := cs.any (fun c => claimBetter c.prio c.serial d.ownClaim.prio serial)
      let newest := cs.foldl (fun e c => if epochNewer c.rootEp e then c.rootEp else e) d.fab.rootEp
      if beaten then d.modFab fun f => { f with claimAt := none, claims := [] } else d.becomeRoot ((newest + 1) % 65536)

/-- FAB_ROOT_TIMEOUT (R565, R566): no port UP for ROOT_TMO takes the device to ALONE; a member that hears no root claims. -/
def Dev.rootTimeout (d : Dev) : Dev :=
  let f := d.fab
  let alone := match f.lostAt with
    | some t => decide (t + d.rootTmo ≤ d.now)
    | none => false
  if f.state = .off ∨ f.state = .alone then d
  else if alone then
    d.modFab fun g => { g with state := .alone, stateAt := d.now, root := false, sink := false, rootAddr := none, sinkAddr := none,
                               claimAt := none, claims := [], table := [] }
  else if f.state = .member ∧ !f.root ∧ f.rootAt + d.rootTmo ≤ d.now then
    (d.modFab fun g => { g with rootAddr := none }).claimNow
  else d

/-- An address for a new member (R567): the one it held, else the one it prefers, else the lowest free. -/
def FabSt.freeAddr (f : FabSt) (k : FabKeepalive) : Option Nat :=
  let taken := fun (a : Nat) => f.table.any (fun m => m.addr == a && m.serial != k.serial)
  let ok := fun (o : Option Nat) => o.any (fun a => decide (a < 64) && !taken a)
  if ok k.addr then k.addr else if ok k.pref then k.pref else (List.range 64).find? (fun a => !taken a)

/-- A KEEPALIVE (R567, R569): the root keeps its member's record; a new member, or a change of its ports, gives new tables. Where two
devices claim one address the lower serial number keeps it. -/
def Dev.keepaliveIn (p : Nat) (q : FabPacket) (k : FabKeepalive) (d : Dev) : Dev :=
  let a := d.fabArrive p
  if !a.1 then a.2
  else if !d.fab.root then a.2.portPut d.fab.upPort { q with hops := q.hops + 1 }
  else
    let d1 := a.2
    let f := d1.fab
    match f.table.find? (fun m => m.serial == k.serial) with
    | some m =>
      let n : FabMember := { m with sinkPrio := k.sinkPrio, spare := k.spare, dead := false, lastAt := d.now, links := k.links }
      let d2 := d1.modFab fun g => { g with table := g.table.map (fun y => if y.serial = k.serial then n else y) }
      let d3 := if m.links = k.links ∧ !m.dead then d2 else d2.rootAssign
      if d3.fab.sinkAddr.isNone then d3.sinkAssign else d3
    | none =>
      let rival := k.addr.bind (fun x => f.table.find? (fun m => m.addr == x))
      let wins := rival.any (fun m => decide (k.serial < m.serial) && m.serial != serial)
      let f1 := match rival with
        | some m => if wins then { f with table := f.table.filter (fun y => y.serial != m.serial) } else f
        | none => f
      match f1.freeAddr k with
      | none => d1.flood (.assign { serial := k.serial, addr := none, conflict := false, routes := [], tree := [] })
      | some x =>
        let n : FabMember :=
          { serial := k.serial, addr := x, sinkPrio := k.sinkPrio, spare := k.spare, dead := false, lastAt := d.now, links := k.links }
        let moved : List (FabMember × Bool) := match rival with
          | some m => if wins then (match f1.freeAddr { k with serial := m.serial, addr := none, pref := none } with
              | some z => [({ m with addr := if z = x then (((List.range 64).find? (fun b => b != x &&
                  !f1.table.any (fun y => y.addr == b))).getD z) else z }, true)]
              | none => []) else []
          | none => []
        let d2 := d1.modFab fun g => { g with table := f1.table ++ [n] ++ moved.map (·.1) }
        let d3 := d2.rootAssign
        let d4 := moved.foldl (fun (y : Dev) m => y.flood (.assign (y.fab.assignOf m.1 true))) d3
        let d5 := if rival.isSome && !wins then d4.flood (.assign (d4.fab.assignOf n true)) else d4
        if d5.fab.sinkAddr.isNone then d5.sinkAssign else d5

/-- An ASSIGN (R567): the device named takes its address and tables; the others pass it on. -/
def Dev.assignIn (p : Nat) (q : FabPacket) (a : FabAssign) (d : Dev) : Dev :=
  let r := d.fabArrive p
  if !r.1 then r.2
  else if a.serial ≠ serial then r.2.fabForward p q
  else
    let d1 := if a.conflict then r.2.fabErr 12 else r.2
    match a.addr with
    | none => d1.fabErr 9
    | some x =>
      (d1.setRoutes a.routes a.tree).modFab fun f =>
        { f with addr := some x, state := if f.state = .joining then .member else f.state, joined := true }

/-- FAB_MEMBER_TIMEOUT (R569). -/
def Dev.memberTimeout (addr : Nat) (d : Dev) : Dev :=
  match d.fab.table.find? (fun m => m.addr == addr && !m.dead && m.serial != serial) with
  | none => d
  | some m =>
    if !d.fab.root ∨ d.now < m.lastAt + d.fabTmo F.FAB_TMO_MEMBER_TMO * 1000000 then d
    else
      let d1 := d.modFab fun f => { f with table := f.table.map (fun y => if y.serial = m.serial then { y with dead := true } else y) }
      let d2 := d1.modFab fun f => { f with members := ofBits ((f.table.filter (fun y => !y.dead)).map (fun y => (true, y.addr))) }
      if d.fab.sinkAddr = some addr then d2.sinkAssign else d2

/-- The root floods its announcement (R566); a change of its own ports gives new tables first. -/
def Dev.rootAnnounce (d0 : Dev) : Dev :=
  if !d0.fab.root then d0
  else
    let me := d0.selfMember d0.fabAddr
    let same := d0.fab.table.any (fun m => m.serial == serial && m.links == me.links)
    let d := if same then d0
      else (d0.modFab fun f => { f with table := me :: f.table.filter (fun m => m.serial != serial) }).rootAssign
    d.flood (.root { serial := serial, prio := d.f R.FAB_CFG F.FAB_CFG_ROOT_PRIO, rootEp := d.fab.rootEp, sinkEp := d.fab.sinkEp,
                        sinkAddr := d.fab.sinkAddr, members := d.fab.members })

/-- A device that knows a root sends it KEEPALIVE (R569). -/
def Dev.keepaliveSend (d : Dev) : Dev :=
  let f := d.fab
  if f.root ∨ f.rootAddr.isNone ∨ f.state = .off ∨ f.state = .alone then d
  else
    let h := d.hello f.upPort
    let k : FabKeepalive :=
      { serial := serial, addr := f.addr, pref := h.pref, sinkPrio := h.sinkPrio, spare := f.state == .spare,
        links := (d.selfMember 0).links }
    d.portPut f.upPort (d.fabPacket (f.rootAddr.getD 0) false 0 0 (.keepalive k))

/-- A FENCE for this device fences it (R570). -/
def Dev.fenceIn (p : Nat) (q : FabPacket) (d : Dev) : Dev :=
  let a := d.fabArrive p
  if !a.1 then a.2 else if d.fab.addr = some q.dst then a.2.fabFence else a.2.fabForward p q

/-- A write of FAB_CFG: EN takes the device into the fabric or out of it, and its ports with it (R563, R565). -/
def Dev.fabCfgWrite (v : Word) (d : Dev) : Dev :=
  let was := d.b R.FAB_CFG F.FAB_CFG_EN
  let d1 := d.plainWrite R.FAB_CFG v
  let en := d1.b R.FAB_CFG F.FAB_CFG_EN
  let d2 := if en && !was then d1.modFab fun f => { f with state := .alone, stateAt := d.now, lostAt := some d.now }
    else if was && !en then d1.modFab fun f =>
      { f with state := .off, root := false, sink := false, rootAddr := none, sinkAddr := none, claimAt := none, claims := [], table := [],
               locked := false, members := 0 }
    else d1
  (List.range 4).foldl (fun y p => y.portEnable p) d2

/-- CLEAR_SPARE (R565). -/
def Dev.clearSpare (d : Dev) : Dev :=
  if d.fab.state = .spare then d.modFab fun f => { f with state := .member, stateAt := d.now } else d

/-! Requests to peers (R571 to R573). -/

/-- A free txid of 16 bits, if fewer than 256 requests are outstanding. -/
def Dev.freeTxid (d : Dev) : Option Nat :=
  let busy := fun (t : Nat) => d.fab.reqs.any (fun r => r.txid == t) || d.fab.quar.any (fun r => r.1 == t)
  if 256 ≤ d.fab.reqs.length then none
  else (List.range 65536).find? (fun k => !busy ((d.fab.nextTx + k) % 65536)) |>.map (fun k => (d.fab.nextTx + k) % 65536)

/-- A request to a peer is sent: none where no txid is free; otherwise whether there is a route, and the device. A request with no
usable route sets NOROUTE. -/
def Dev.fabRequest (dst : Nat) (sink : Bool) (use : FabUse) (msg : FabMsg) (d : Dev) : Option (Bool × Dev) :=
  match d.freeTxid with
  | none => none
  | some t =>
    let len := match msg with
      | .read _ n => n
      | .write _ bs => bs.length
      | _ => 0
    let r := d.fabSend { d.fabPacket dst false t 0 msg with sink := sink }
    if r.1 then
      some (true, r.2.modFab fun f => { f with reqs := f.reqs ++ [{ txid := t, use := use, len := len, sent := d.now }], nextTx := t + 1 })
    else some (false, d.fabErr 8)

/-- A request to a peer fails for a channel (R497, R572): READ_ERR or WRITE_ERR. -/
def Dev.fabUseFail (u : FabUse) (d : Dev) : Dev :=
  match u with
  | .read ch first pos => d.hookReadFail ch 7 first ((d.hookCh ch).readDa first + pos)
  | .write ch first _ => d.hookFail ch 8 first ((d.hookCh ch).desc.dstOf first)

/-- FAB_REQ_TIMEOUT (R573). -/
def Dev.fabReqTimeout (txid : Nat) (d : Dev) : Dev :=
  match d.fab.reqs.find? (fun r => r.txid == txid) with
  | none => d
  | some r =>
    if d.now < r.sent + d.reqTmo then d
    else
      (((d.modFab fun f => { f with reqs := f.reqs.erase r, quar := f.quar ++ [(txid, d.now + 2 * d.reqTmo)] }).bump R.FAB_CNT0
        F.FAB_CNT0_REQ_TMO_CNT 1).fabErr 5).fabUseFail r.use

/-- FAB_TXID_QUARANTINE_END (R573). -/
def Dev.fabQuarEnd (txid : Nat) (d : Dev) : Dev :=
  d.modFab fun f => { f with quar := f.quar.filter (fun q => !(q.1 == txid && decide (q.2 ≤ d.now))) }

/-! Time (R576 to R579). -/

/-- A number divided by a positive one, rounded to the nearest whole number. -/
def roundDiv (a : Int) (b : Nat) : Int := (2 * a + b) / (2 * b)

/-- A SYNC packet from the neighbour (R576). -/
def Dev.syncIn (p : Nat) (t2 t3 : Int) (d : Dev) : Dev :=
  let a := d.fabArrive p
  if !a.1 ∨ d.fab.upPort ≠ p then a.2 else a.2.modFab fun f => { f with stamps := some (t2, t3) }

/-- The ts steps (R578). -/
def Dev.tsStep (ns : Int) (d : Dev) : Dev :=
  (({ d with ts := ((d.ts : Int) + ns).toNat }).wr64 R.FAB_TIME_STEP (BitVec.ofInt 64 ns)).fabErr 10

/-- An exchange is complete (R576, R577): delay, offset, lock, and a step or a new rate correction. -/
def Dev.timeSync (t1 t4 : Int) (d : Dev) : Dev :=
  match d.fab.stamps with
  | none => d
  | some (t2, t3) =>
    if d.fab.root ∨ ¬ (d.fab.state = .member ∨ d.fab.state = .spare) then d
    else
      let p := d.fab.upPort
      let asym := ((d.rd (R.FAB_PORT_CFG p)).extractLsb' 0 16).toInt
      let delay := ((t4 - t1) - (t3 - t2) + asym) / 2
      let ofs := t3 + delay - t4
      let mag := ofs.natAbs
      let f := d.fab
      let good := if mag < 500 then f.good + 1 else 0
      let bad := if 1000 < mag then f.bad + 1 else 0
      let locked := if 8 ≤ good then true else if 8 ≤ bad then false else f.locked
      let d1 := (d.modFport p fun x => { x with delay := (delay * 16 / 1000).toNat }).modFab fun g =>
        { g with ofs := ofs, good := good, bad := bad, locked := locked, exchanged := true, stamps := none,
                 rate := max (-100000) (min 100000 (Config.fabSlew ofs g.rate)) }
      if !f.exchanged ∨ 1000000 < mag then d1.tsStep (roundDiv ofs 1000) else d1

/-- FAB_TIME_PULSE (R579). -/
def Dev.timePulse (d : Dev) : Dev :=
  let cfg := d.rd R.FAB_TIME_CFG
  let period := max 1 (fld cfg F.FAB_TIME_CFG_PERIOD) * 1000
  if fld cfg F.FAB_TIME_CFG_PULSE_EN = 1 ∧ d.ts % period = 0 ∧ (d.fab.root ∨ d.fab.locked) then d.publish Src.fabTime 0 else d

/-- The ts is captured (R579). -/
def Dev.timeCap (d : Dev) : Dev := d.wr64 R.FAB_TIME_CAPTURE d.tsWord

/-- Splice marks are sent as MARK packets (R421, R580); a device in ALONE or OFF sends none. -/
def Dev.sendMark (abort : Bool) (job epoch : Nat) (mark : Int) (d : Dev) : Dev :=
  if d.fab.state = .off ∨ d.fab.state = .alone then d
  else
    let m : FabMark :=
      { abort := abort, origin := d.fabAddr, seq := d.fab.markSeq, job := job, epoch := epoch, axis := d.job.axis,
        speed := d.axisSpeed d.job.axis, mark := mark, ts := d.ts }
    (d.modFab fun f => { f with markSeq := (f.markSeq + 1) % 65536 }).flood (.mark m)

/-- The watch state (R583): every port goes to OFF. -/
def Dev.fabWatch (d : Dev) : Dev := (List.range 4).foldl (fun y p => if (y.fport p).state = .off then y else y.portOff p) d

/-! Live registers (R584 to R586). -/

def PortState.code : PortState → Nat
  | .off => 0
  | .train => 1
  | .up => 2
  | .down => 3

def FabState.code : FabState → Nat
  | .off => 0
  | .alone => 1
  | .joining => 2
  | .member => 3
  | .spare => 4

def Dev.fabStatus (d : Dev) : Word :=
  let f := d.fab
  BitVec.ofNat 32 (f.state.code * 2 ^ 29 + ofBits [(f.root, 28), (f.sink, 27), (f.locked, 26)] + f.upPort * 2 ^ 24 + d.fabAddr * 2 ^ 16
    + f.hops % 16 * 2 ^ 12 + (List.range 64).countP (fun a => bitOf f.members a))

def Dev.fabRole (d : Dev) : Word :=
  let f := d.fab
  BitVec.ofNat 32 ((match f.rootAddr with
    | some a => 2 ^ 31 + a * 2 ^ 24
    | none => 0) + (match f.sinkAddr with
    | some a => 2 ^ 23 + a * 2 ^ 16
    | none => 0))

def Dev.fabPortStatus (p : Nat) (d : Dev) : Word :=
  let x := d.fport p
  BitVec.ofNat 32 (x.state.code * 2 ^ 30 + x.phase * 2 ^ 28 + ofBits [(x.tree, 27)] + x.locked * 2 ^ 22 + x.peerAddr * 2 ^ 16
    + x.peerPort * 2 ^ 14 + x.back * 2 ^ 11)

def Dev.fabPortTaps (p : Nat) (d : Dev) : Word :=
  BitVec.ofNat 32 (((d.fport p).taps.zipIdx.map (fun t => (t.1.1 * 16 + t.1.2) * 2 ^ (8 * t.2))).sum)

/-! The commands. -/

def execFabEnable (v : Word) (s : State) : Host.Outcome State Fault Refusal := s.run fun d => d.fabCfgWrite v

def execFabPortEnable (p : Fin 4) (v : Word) (s : State) : Host.Outcome State Fault Refusal := s.run fun d => d.fabPortCfgWrite p v

def execFabTrainPhaseDone (p : Fin 4) (s : State) : Host.Outcome State Fault Refusal := s.run fun d => d.trainPhase p

def execFabTrainTimeout (p : Fin 4) (s : State) : Host.Outcome State Fault Refusal := s.run fun d => d.trainFail p

def execFabBackoffEnd (p : Fin 4) (s : State) : Host.Outcome State Fault Refusal := s.run fun d => d.backoffEnd p

def execFabLockLoss (p : Fin 4) (s : State) : Host.Outcome State Fault Refusal := s.run fun d => d.portRetrain p

def execFabTapRequest (p lane : Fin 4) (pre post preset : Fin 4) (s : State) : Host.Outcome State Fault Refusal :=
  s.run fun d => d.tapRequest p lane pre post preset

def execFabMarker (p : Fin 4) (bip : Nat) (deskewed : Bool) (arrive leave : Int) (s : State) : Host.Outcome State Fault Refusal :=
  s.run fun d => d.marker p bip deskewed arrive leave

def execFabControlUnitRx (p : Fin 4) (good : Bool) (ack : Nat) (nak : Bool) (credit : List Nat) (s : State) :
    Host.Outcome State Fault Refusal :=
  s.run fun d => d.controlUnit p good ack nak credit

def execFabHelloRx (p : Fin 4) (h : FabHello) (s : State) : Host.Outcome State Fault Refusal := s.run fun d => d.helloIn p h

/-- The header of a packet that arrives with the membership packets' messages; `src` and `hops` are what they need of it. -/
def headOf (src hops : Nat) (bcast : Bool) (dst : Nat) (msg : FabMsg) : FabPacket :=
  { dst := dst, bcast := bcast, src := src, hops := hops, sink := false, txid := 0, rootEp := 0, sinkEp := 0, status := 0, msg := msg }

def execFabRootRx (p : Fin 4) (src hops : Nat) (r : FabRoot) (s : State) : Host.Outcome State Fault Refusal :=
  s.run fun d => d.rootIn p (headOf src hops true 0 (.root r)) r

def execFabClaimRx (p : Fin 4) (src hops : Nat) (c : FabClaim) (s : State) : Host.Outcome State Fault Refusal :=
  s.run fun d => d.claimIn p (headOf src hops true 0 (.claim c)) c

def execFabAssignRx (p : Fin 4) (src hops : Nat) (a : FabAssign) (s : State) : Host.Outcome State Fault Refusal :=
  s.run fun d => d.assignIn p (headOf src hops true 0 (.assign a)) a

def execFabKeepaliveRx (p : Fin 4) (src hops dst : Nat) (k : FabKeepalive) (s : State) : Host.Outcome State Fault Refusal :=
  s.run fun d => d.keepaliveIn p (headOf src hops false dst (.keepalive k)) k

def execFabSyncRx (p : Fin 4) (t2 t3 : Int) (s : State) : Host.Outcome State Fault Refusal := s.run fun d => d.syncIn p t2 t3

def execFabFenceRx (p : Fin 4) (src hops dst : Nat) (s : State) : Host.Outcome State Fault Refusal :=
  s.run fun d => d.fenceIn p (headOf src hops false dst .fence)

def execFabRootAnnounce (s : State) : Host.Outcome State Fault Refusal := s.run fun d => d.rootAnnounce

def execFabKeepaliveSend (s : State) : Host.Outcome State Fault Refusal := s.run fun d => d.keepaliveSend

def execFabClaimStart (s : State) : Host.Outcome State Fault Refusal := s.run fun d => d.claimStart

def execFabElectionEnd (s : State) : Host.Outcome State Fault Refusal := s.run fun d => d.electionEnd

def execFabRootTimeout (s : State) : Host.Outcome State Fault Refusal := s.run fun d => d.rootTimeout

def execFabMemberTimeout (addr : Fin 64) (s : State) : Host.Outcome State Fault Refusal := s.run fun d => d.memberTimeout addr

def execFabReqTimeout (txid : Nat) (s : State) : Host.Outcome State Fault Refusal := s.run fun d => d.fabReqTimeout txid

def execFabTxidQuarantineEnd (txid : Nat) (s : State) : Host.Outcome State Fault Refusal := s.run fun d => d.fabQuarEnd txid

/-- FAB_TIME_SYNC: the instants, in ps of the member's clock, at which its marker left (t1) and the upstream's arrived (t4). -/
def execFabTimeSync (t1 t4 : Int) (s : State) : Host.Outcome State Fault Refusal := s.run fun d => d.timeSync t1 t4

def execFabTimePulse (s : State) : Host.Outcome State Fault Refusal := s.run fun d => d.timePulse

def execClearSpare (s : State) : Host.Outcome State Fault Refusal := s.run fun d => d.clearSpare

def execTimeCap (s : State) : Host.Outcome State Fault Refusal := s.run fun d => d.timeCap

def execFabTimeCap (s : State) : Host.Outcome State Fault Refusal :=
  s.run fun d => match d.activate Task.fabTimeCap with
    | (some _, d1) => d1.timeCap
    | (none, d1) => d1

end Sys2Proof.Machine
end

