-- ==== Sys2Proof/Machine/Job.lean ====
section
/-! DEFINITION. Jobs and splices (spec/11) but for what staging writes: arming, the switch, draining and release, aborts, marks
from the fabric, and the JOB registers. -/

namespace Sys2Proof.Machine

/-- The target slot (R394). -/
def JobSt.target (j : JobSt) : Nat := nextEpoch j.epoch % 2

/-- A slot takes a state and a recipe. -/
def JobSt.setSlot (h : Nat) (st : SlotState) (r : Option Recipe) (j : JobSt) : JobSt :=
  if h % 2 = 0 then { j with slot0 := st, rec0 := r } else { j with slot1 := st, rec1 := r }

/-- The register that shows the job_id of a slot. -/
def jobIdReg (h : Nat) : Nat := if h % 2 = 0 then R.JOB_ID0 else R.JOB_ID1

/-- A request of JOB_CTL is refused for its state (R428). -/
def Dev.jobRefused (d : Dev) : Dev := d.jobErr 0

/-- The wp of an axis now, with its ts (R10) and POS_UNCERTAIN. -/
def Dev.axisNow (a : Nat) (d : Dev) : Int × Int × Bool :=
  let e := d.extrapolate a d.ts
  (e.1 / 65536, d.ts, e.2.2)

/-! Swatches at a switch (R418, R420). -/

/-- Every swatching camera fails (R420, R425, R426). -/
def Dev.swatchAbandon (d : Dev) : Dev := d.job.swatching.foldl (fun y c => y.swatchFail c) d

/-- The swatch of a camera that its CAMERA entry starts. -/
def Dev.swatchStart (r : Recipe) (e : CamEntry) (d : Dev) : Dev :=
  let homes := (List.range 16).filter (fun c => bitOf (e.steCfg % 65536) c)
  let p := refParam (d.stashBytes (homes.headD 0) (e.steParam % 2 ^ 21) 0x60)
  let raw := ((d.asmCam e.cam).header.map (·.format)).getD 0
  let cpb := match (r.sets.find? (fun s => s.cam == e.cam)).map (·.cpb) with
    | some (a + 1) => a + 1
    | _ => ((d.carCam e.cam).cpbs.head?.map (·.2)).getD 0
  let path := fld (BitVec.ofNat 32 e.path) F.CAR_CAM_PATH_PATH
  let fmt := if path = 1 ∨ path = 2 then inspectFormat (d.skeinBytes cpb 0x100) raw else raw
  (d.setSwatch e.cam { Swatch.init with
    phase := .seekBase, mark := d.job.mark, len := p.rep, k := swatchLimit r.swatchK fmt, extra := r.extra,
    endWp := d.job.mark, endTs := d.ts }).modJob fun j => { j with swatching := j.swatching ++ [e.cam] }

/-- The swatches of a new job: those of the old one are abandoned first. -/
def Dev.swatchSwitch (r : Recipe) (d : Dev) : Dev :=
  let d1 := d.swatchAbandon.modJob fun j => { j with swatch := [], swatching := [] }
  let d2 := (r.cams.filter (·.swatch)).foldl (fun y e => y.swatchStart r e) d1
  d2.wr64 R.JOB_SWATCH_CAMS (BitVec.ofNat 64 (ofBits (d2.job.swatching.map (fun c => (true, c)))))

/-! The switch (R401, R405 to R409). -/

/-- The scales of the new job are applied at the Gauge's next sample (R408). -/
def Dev.jobScales (r : Recipe) (d : Dev) : Dev :=
  r.scales.foldl (fun (y : Dev) q =>
    ((y.wr (R.GAUGE_SCALE_NUM q.1) (BitVec.ofNat 32 q.2.1)).wr (R.GAUGE_SCALE_DEN q.1) (BitVec.ofNat 32 q.2.2)).modAxis q.1
      fun x => { x with reqScale := true }) d

/-- The switch with position `p` and instant `ts`: `start` for START, `late` for a late fabric mark, `abort` where it meets an abort. -/
def Dev.switchNow (p ts : Int) (start late abort : Bool) (d : Dev) : Dev :=
  let j := d.job
  let old := j.epoch
  let new := nextEpoch old
  match j.recipe new with
  | none => d
  | some r =>
    let unc := (d.extrapolate j.axis d.ts).2.2
    let d1 := (d.modJob fun k =>
      let k1 := k.setSlot new .live (some r)
      let k2 := if k1.slot old = .live ∧ old ≠ 0 then k1.setSlot old .draining (k1.recipe old) else k1
      { k2 with epoch := new, prev := old, switched := true, armed := false, hit := !start, fabLate := late,
                jobs := ((new, r.jobId) :: k.jobs).take 16, camsDue := r.cams.map (·.cam),
                rates := r.cams.foldl (fun t e => Tbl.set (fun _ => 0) t e.cam e.rate) k.rates })
    let d2 := ((d1.wr64 R.JOB_SPLICE_WP (BitVec.ofInt 64 p)).wr64 R.JOB_SPLICE_TS (BitVec.ofInt 64 ts)).wr R.JOB_DEADLINE
      (BitVec.ofNat 32 (if r.deadline = 0 then 50 else r.deadline))
    let d3 := d2.publish Src.jobSplice (if start then 0 else j.hop)
    let now := j.swaps.filter (fun w => start || (d3.unit w.1).state != .armed)
    let d4 := now.foldl (fun (y : Dev) w => y.setChange w.1 w.2.1 w.2.2) d3
    let d5 := (d4.jobScales r).swatchSwitch r
    let flags := ofBits [(unc, 0), (!start && j.fab, 1), (late, 2), (start, 3), (abort, 4)]
    let d6 := if late then d5.sb R.JOB_ARM_STATUS F.JOB_ARM_STATUS_FAB_LATE true else d5
    d6.spliceRecord 0 flags p ts d6.job.lateCams

/-- The position of the splice axis that this compare cycle predicts, in 1/65,536 nm with lead 0, while the axis is in RUN. -/
def Dev.splicePos (d : Dev) : Option Int := (d.sampleNow d.job.axis).map (fun s => s.predict ((d.ts : Int) + 7))

/-- Whether the armed splice switches in this compare cycle (R405). -/
def Dev.switchDue (d : Dev) : Option Int :=
  if !d.job.armed then none
  else match d.splicePos with
    | some p => if d.job.mark * 65536 ≤ p then some p else none
    | none => none

/-- SPLICE_SWITCH (R405). -/
def Dev.spliceSwitch (d : Dev) : Dev :=
  match d.switchDue with
  | some p => d.switchNow (p / 65536) ((d.ts : Int) + 7) false false false
  | none => d

/-! Arming (R402, R403, R421, R422). -/

/-- An arm is refused with a result. -/
def Dev.armRefused (code : Nat) (d : Dev) : Dev :=
  let d1 := ((d.sf R.JOB_ARM_STATUS F.JOB_ARM_STATUS_RESULT code).bump R.JOB_CNT0 F.JOB_CNT0_ARM_REFUSED_CNT 1).jobErr 3
  if code = 6 then d1.jobErr 5 else d1

/-- Whether a TRIG_SET of the target slot names a unit that follows another axis. -/
def Dev.armAxisClash (axis : Nat) (r : Recipe) (d : Dev) : Bool :=
  r.trigs.any (fun t =>
    let x := d.unit t.unit
    (if x.state = .idle then d.f (R.TRIG_CMP_CFG t.unit) F.TRIG_CMP_CFG_AXIS else x.axis) != axis)

/-- The result of R402 for an arm at a mark; `fab` waives TOO_CLOSE, and PASSED within JOB_FAB_LATE (R422). -/
def Dev.armCheck (axis : Nat) (mark : Int) (fab : Bool) (d : Dev) : Nat :=
  let j := d.job
  let wp := (d.axisNow axis).1
  if j.slot j.target ≠ .staged then 1
  else if j.armed then 2
  else if (d.axis axis).state ≠ .run ∨ (j.recipe j.target).any (fun r => d.armAxisClash axis r) then 3
  else if mark ≤ wp ∧ ¬ (fab = true ∧ wp - mark ≤ (d.rd R.JOB_FAB_LATE).toNat) then 4
  else if fab = false ∧ mark - wp < (d.rd64 R.JOB_ARM_MIN).toNat then 5
  else 0

/-- The splice sets are submitted (R403). -/
def Dev.armSets (axis : Nat) (mark : Int) (r : Recipe) (d : Dev) : Dev :=
  r.sets.foldl (fun (y : Dev) s =>
    let q := y.submitSet s.cam true s.cpb s.writes 2 axis mark
    if q.1 then q.2.modJob fun j => { j with psids := (s.cam, (q.2.carCam s.cam).psid) :: j.psids.filter (fun p => p.1 ≠ s.cam) }
    else (q.2.modJob fun j => { j with refused := j.refused ++ [s.cam] }).camsetLate s.cam) d

/-- The sets of compare units that a switch to a recipe changes. -/
def Recipe.swaps (r : Recipe) : List (Nat × Bool × Int) := r.trigs.map (fun t => (t.unit, t.rel, t.ofs))

/-- A mark goes to the fabric's peers where FAB_SEND asks (R421). -/
def Dev.markPeers (abort : Bool) (job epoch : Nat) (mark : Int) (d : Dev) : Dev :=
  if d.b R.JOB_SPLICE_CFG F.JOB_SPLICE_CFG_FAB_SEND then d.sendMark abort job epoch mark else d

/-- An accepted arm. -/
def Dev.armAccept (axis : Nat) (mark : Int) (hop : Nat) (fab : Bool) (r : Recipe) (d : Dev) : Dev :=
  let new := nextEpoch d.job.epoch
  let d1 := d.modJob fun j =>
    { j with armed := true, axis := axis, mark := mark, hop := hop, fab := fab, fabLate := false, hit := false, swaps := r.swaps,
             swapSet := new % 2, psids := [], lateCams := [], refused := [] }
  let d2 := (d1.wr R.JOB_ARM_STATUS (BitVec.ofNat 32 (ofBits [(fab, 27), (d1.b R.JOB_ARM_STATUS F.JOB_ARM_STATUS_ABORT_LATE, 25)] + new))).publish
    Src.jobArmed hop
  (d2.armSets axis mark r).markPeers false r.jobId new mark

/-- An arm by software or the Chain (R402). `soft` says that JOB_CTL asked. -/
def Dev.arm_ (hop : Nat) (soft : Bool) (d : Dev) : Dev :=
  let axis := d.f R.JOB_SPLICE_CFG F.JOB_SPLICE_CFG_AXIS
  let mark := d.int64 R.JOB_MARK
  let code := d.armCheck axis mark false
  match code, d.job.recipe d.job.target with
  | 0, some r => d.armAccept axis mark hop false r
  | _, _ => let d1 := d.armRefused code; if soft ∧ code ≤ 2 then d1.jobRefused else d1

/-- START (R401). -/
def Dev.jobStart (d : Dev) : Dev :=
  let axis := d.f R.JOB_SPLICE_CFG F.JOB_SPLICE_CFG_AXIS
  let j := d.job
  match (if j.slot j.target ≠ .staged then 1 else if j.armed then 2 else 0), j.recipe j.target with
  | 0, some r =>
    let p := d.axisNow axis
    (d.modJob fun k =>
      { k with axis := axis, mark := p.1, swaps := r.swaps, swapSet := k.target, psids := [], lateCams := [], refused := [], fab := false,
               hop := 0 }).switchNow p.1 p.2.1 true false false
  | code, _ => (d.armRefused code).jobRefused

/-! Aborting (R416, R417). -/

/-- The CAMSET entry of a camera in the live job. -/
def Dev.liveSet (cam : Nat) (d : Dev) : Option CamSet :=
  if d.job.epoch = 0 then none else (d.job.recipe d.job.epoch).bind (fun r => r.sets.find? (fun s => s.cam == cam))

/-- A camera whose splice set is issuing or issued gets the live job's set again (R416). -/
def Dev.restoreSet (cam : Nat) (d : Dev) : Dev :=
  match d.liveSet cam with
  | some s => (d.submitSet cam true s.cpb s.writes 0 0 0).2
  | none => d

/-- Whether a camera's splice set is still pending. -/
def Dev.setPending (cam : Nat) (d : Dev) : Bool := (d.carCam cam).pending.any (fun q => q.job)

/-- The armed splice is aborted (R416). -/
def Dev.abortArmed (d : Dev) : Dev :=
  let cams := d.job.psids.map (·.1)
  let gone := cams.filter (fun c => d.setPending c)
  let issued := cams.filter (fun c => !d.setPending c)
  let target := nextEpoch d.job.epoch
  let id := ((d.job.recipe target).map (·.jobId)).getD 0
  let p := d.axisNow d.job.axis
  let d1 := (d.modJob fun j => { j with armed := false, swaps := [], psids := j.psids.filter (fun q => issued.contains q.1) }).bump R.JOB_CNT1
    F.JOB_CNT1_ABORT_CNT 1
  let d2 := issued.foldl (fun y c => y.restoreSet c) (gone.foldl (fun y c => y.withdrawSet c) d1)
  (d2.spliceRecord 1 (ofBits [(p.2.2, 0), (d.job.fab, 1)]) p.1 p.2.1 (issued.filter (fun c => (d.liveSet c).isSome))).markPeers true id target d.job.mark

/-- The outcome of an abort that meets or follows the switch (R417). -/
def Dev.abortLate (d : Dev) : Dev := (d.sb R.JOB_ARM_STATUS F.JOB_ARM_STATUS_ABORT_LATE true).jobErr 4

/-- An abort: with a switch due in the same compare cycle the switch wins; after the switch it is late; with nothing armed it is
refused. -/
def Dev.jobAbort (d : Dev) : Dev :=
  if d.job.armed then
    match d.switchDue with
    | some p => (d.switchNow (p / 65536) ((d.ts : Int) + 7) false false true).abortLate
    | none => d.abortArmed
  else if d.job.hit then d.abortLate
  else d.jobRefused

/-! Marks from the fabric (R421, R422, R580). -/

/-- A received arm. -/
def Dev.fabArm (m : FabMark) (d : Dev) : Dev :=
  let j := d.job
  let axis := d.f R.JOB_SPLICE_CFG F.JOB_SPLICE_CFG_AXIS
  let mark := m.mark + d.int64 R.JOB_FAB_OFS
  let held := j.slot j.target == .staged && (j.recipe j.target).any (fun r => r.jobId == m.job)
  let this := held && nextEpoch j.epoch == m.epoch
  if j.armed ∧ this ∧ mark = j.mark then d
  else if !this ∨ j.armed then d.armRefused 6
  else match d.armCheck axis mark true, j.recipe j.target with
    | 0, some r =>
      let p := d.axisNow axis
      let d1 := d.armAccept axis mark 0 true r
      if mark ≤ p.1 then d1.switchNow p.1 d.ts false true false else d1
    | code, _ => d.armRefused code

/-- A MARK that the fabric has not brought before is taken (R580). -/
def Dev.markIn (p : Nat) (q : FabPacket) (m : FabMark) (d : Dev) : Dev :=
  let a := d.fabArrive p
  if !a.1 then a.2
  else
    let d1 := a.2.fabForward p q
    if d1.fab.marks.contains (m.origin, m.seq) ∨ (m.origin = d1.fabAddr ∧ d1.fab.addr.isSome) then
      d1.bump R.FAB_CNT2 F.FAB_CNT2_MARK_DUP_CNT 1
    else
      let d2 := ((d1.modFab fun f => { f with marks := ((m.origin, m.seq) :: f.marks).take 64 }).bump R.FAB_CNT2
        F.FAB_CNT2_MARK_RX_CNT 1).publish Src.fabMark 0
      if !d2.b R.JOB_SPLICE_CFG F.JOB_SPLICE_CFG_FAB_ACCEPT then d2
      else if !m.abort then d2.fabArm m
      else
        let j := d2.job
        if j.armed then
          (if nextEpoch j.epoch = m.epoch ∧ (j.recipe j.target).any (fun r => r.jobId == m.job) then d2.jobAbort else d2)
        else if j.epoch = m.epoch ∧ j.hit then d2.abortLate
        else d2

/-- FAB_MARK_TX (R581). -/
def Dev.markTx (d : Dev) : Dev :=
  if d.job.armed then
    let new := nextEpoch d.job.epoch
    d.sendMark false (((d.job.recipe new).map (·.jobId)).getD 0) new d.job.mark
  else d.fabErr 11

/-! Draining and release (R413 to R415). -/

/-- Whether anything of an epoch remains in the device (R413). -/
def Dev.epochRemains (ep : Nat) (d : Dev) : Bool :=
  let line := fun (l : LineRec) => l.epoch == ep
  let frameOf := fun (c : Nat) =>
    let x := d.asmCam c
    (x.openF.any (fun f => f.first.any (fun m => m.epoch == ep))) || (x.cur.any (fun l => l.match_.any (fun m => m.epoch == ep)))
  let tilesOf := fun (c : Nat) =>
    let x := d.tiles c
    x.frame.any (fun f => f.epoch == ep) || x.bands.any (fun b => b.frame.epoch == ep) || x.queue.any (fun t => match t with
      | .frame f => f.epoch == ep
      | _ => false)
  let carOf := fun (c : Nat) =>
    let x := d.carCam c
    x.ring.any (fun f => f.tag.epoch == ep) || x.opened.any line
  let carriageOf := fun (k : Nat) =>
    let x := d.carriage k
    x.cur.any line || x.closed.any (fun t => t.epoch == ep) || x.mem.any (fun m => m.2.1.tag.epoch == ep) || x.cross.any (fun q => match q with
      | .line l => line l
      | .close t => t.epoch == ep)
  (List.range 48).any (fun c => frameOf c || tilesOf c || carOf c) || (List.range 4).any carriageOf ||
    d.ste.frames.any (fun f => f.epoch == ep) || d.ste.order.any (fun o => o.item.epoch == ep) ||
    d.ste.deferred.any (fun q => q.frame.epoch == ep) || d.skein.hist.frames.any (fun h => h.inspect && h.tag.epoch == ep)

/-- The DRAINING slot becomes FREE and is reported (R413, R415). -/
def Dev.slotFree (h : Nat) (cams : List Nat) (d : Dev) : Dev :=
  let p := d.axisNow d.job.axis
  ((d.modJob fun j => j.setSlot h .free none).spliceRecord 4 (ofBits [(p.2.2, 0)]) p.1 p.2.1 cams).wr (jobIdReg h) 0

/-- The slot that drains, if one does. -/
def JobSt.draining (j : JobSt) : Option Nat := if j.slot0 = .draining then some 0 else if j.slot1 = .draining then some 1 else none

/-- SLOT_DRAINED. -/
def Dev.slotDrained (d : Dev) : Dev :=
  match d.job.draining with
  | some h => if d.epochRemains d.job.prev then d else d.slotFree h []
  | none => d

/-- What crosses to a tile writer without the frames of an epoch. -/
def tileSkip (ep : Nat) : Bool → List TileIn → List TileIn
  | _, [] => []
  | _, .frame f :: rest => if f.epoch = ep then .gap :: tileSkip ep true rest else .frame f :: tileSkip ep false rest
  | _, .gap :: rest => .gap :: tileSkip ep false rest
  | skip, .row r :: rest => if skip then tileSkip ep skip rest else .row r :: tileSkip ep skip rest
  | skip, .close s e :: rest => if skip then tileSkip ep false rest else .close s e :: tileSkip ep false rest

/-- An engine that runs an item of the epoch leaves it, as in a fence. -/
def Dev.engineLeave (ep e : Nat) (d : Dev) : Dev :=
  let x := d.eng e
  let d1 := d.setEng e { x with deque := x.deque.filter (fun i => i.epoch ≠ ep) }
  if x.item.any (fun i => i.epoch == ep) then
    d1.modEng e fun y => { y with epoch := (x.epoch + 1) % 65536, old := x.item.map (fun i => (x.epoch, i)), state := .fenced, fenceAt := d.now, item := none,
                                  stall := none }
  else d1

/-- The inspection of an epoch's frames ends: items are given up, and open frames are no longer inspected (R415). -/
def Dev.epochItems (ep : Nat) (d : Dev) : Dev :=
  let gone := d.ste.order.filter (fun o => !o.ended && o.item.epoch == ep)
  let d1 := (List.range 256).foldl (fun y e => y.engineLeave ep e) d
  let d2 := (List.range 16).foldl (fun (y : Dev) c => y.modCluster c fun k =>
    { k with queue := k.queue.filter (fun i => i.epoch ≠ ep), defer := k.defer.filter (fun i => i.epoch ≠ ep) }) d1
  let d3 := gone.foldl (fun (y : Dev) o => y.giveUpItem o.item o.item.home 0) d2
  let d4 := (List.range 48).foldl (fun (y : Dev) c => (y.tileUnmark c).modTiles c fun x =>
    let skip := x.frame.any (fun f => f.epoch == ep)
    { x with queue := tileSkip ep skip x.queue, frame := if skip then none else x.frame,
             bands := x.bands.filter (fun b => b.frame.epoch ≠ ep), cur := if skip then none else x.cur,
             skip := if skip then none else x.skip }) d3
  d4.modSte fun y =>
    { y with frames := y.frames.filter (fun f => f.epoch ≠ ep), deferred := y.deferred.filter (fun q => q.frame.epoch ≠ ep) }

/-- Frames of an epoch that await deferred inspection are reported as overwritten ones are (R47, R415). -/
def Dev.epochFrames (ep : Nat) (d : Dev) : Dev :=
  (d.skein.hist.frames.filter (fun h => h.inspect && h.tag.epoch == ep)).foldl (fun (y : Dev) h =>
    (((y.setInspect h.tag.cam h.tag.seq false).bump R.SKEIN_CNT2 F.SKEIN_CNT2_HIST_OVW_CNT 1).skeinErr 4).notice (overwrittenNotice h.tag)) d

/-- Memory-mode frames of an epoch are skipped (R276, R415). -/
def Dev.epochCarFrames (ep : Nat) (d : Dev) : Dev :=
  (List.range 48).foldl (fun (y : Dev) c =>
    let x := y.carCam c
    let n := x.ring.countP (fun f => f.tag.epoch == ep)
    if n = 0 then y
    else
      let k := x.car
      let y1 := (y.setCarCam c { x with ring := x.ring.filter (fun f => f.tag.epoch ≠ ep) }).modCarriage k fun z =>
        { z with mem := if z.mem.any (fun m => m.1 == c && m.2.1.tag.epoch == ep) then none else z.mem }
      ((y1.bump (R.CAR_CNT0 k) F.CAR_CNT0_MEM_SKIP_CNT n).carErr k 7).carGaps c [0, 1, 2, 3]) d

/-- The cameras a forced release affects. -/
def Dev.releaseCams (ep : Nat) (d : Dev) : List Nat :=
  (List.range 48).filter (fun c =>
    d.ste.order.any (fun o => !o.ended && o.item.epoch == ep && o.item.cam == c) ||
    d.skein.hist.frames.any (fun h => h.inspect && h.tag.epoch == ep && h.tag.cam == c) ||
    (d.carCam c).ring.any (fun f => f.tag.epoch == ep) || d.ste.frames.any (fun f => f.epoch == ep && f.cam == c) ||
    (d.asmCam c).openF.any (fun f => f.first.any (fun m => m.epoch == ep)))

/-- RELEASE (R415). -/
def Dev.jobRelease (d : Dev) : Dev :=
  match d.job.draining with
  | none => d.jobRefused
  | some h =>
    let ep := d.job.prev
    let cams := d.releaseCams ep
    ((((d.epochFrames ep).epochItems ep).epochCarFrames ep).jobErr 1).slotFree h cams

/-! Staging is accepted (R394, R399). -/

/-- JOB_STAGE: the target slot begins to stage, or the request is refused with BUSY. -/
def Dev.jobStage (d : Dev) : Dev :=
  let j := d.job
  let h := j.target
  if j.staging.isSome ∨ ¬ (j.slot h = .free ∨ (j.slot h = .staged ∧ !j.armed)) then
    (d.sf R.JOB_STAGE_STATUS F.JOB_STAGE_STATUS_RESULT 7).jobRefused
  else
    ((d.modJob fun k => { k.setSlot h .staging none with staging := some (d.rd64 R.JOB_STAGE_DA).toNat }).sb R.JOB_STAGE_STATUS
      F.JOB_STAGE_STATUS_BUSY true).wr (jobIdReg h) 0

/-- JOB_RESET (R425). -/
def Dev.jobReset (d : Dev) : Dev :=
  let d1 := if d.job.armed then d.abortArmed else d
  let d2 := match d1.job.staging with
    | some _ => (d1.modJob fun j => { j.setSlot j.target .free none with staging := none }).sb R.JOB_STAGE_STATUS F.JOB_STAGE_STATUS_BUSY false
    | none => d1
  d2.swatchAbandon

/-- The watch state (R426): an armed splice is aborted and a swatch abandoned; staging pauses. -/
def Dev.jobWatch (d : Dev) : Dev := (if d.job.armed then d.abortArmed else d).swatchAbandon

/-- A write of JOB_CTL (R428): the highest bit acts, and the others are refused. -/
def Dev.jobCtlWrite (v : Word) (d : Dev) : Dev :=
  let bits := (List.range 7).filter (fun k => fld v (bitF (k + 1)) == 1)
  let d1 := match bits.getLast? with
    | some 0 => d.jobStage
    | some 1 => d.arm_ 0 true
    | some 2 => d.jobStart
    | some 3 => d.swatchRestart
    | some 4 => d.jobRelease
    | some 5 => d.jobAbort
    | some _ => d.jobReset
    | none => d
  if 1 < bits.length then d1.jobRefused else d1

/-! Live registers (R428, R430). -/

def SlotState.code : SlotState → Nat
  | .free => 0
  | .staging => 1
  | .staged => 2
  | .live => 3
  | .draining => 4

def Dev.jobStatus (d : Dev) : Word :=
  let j := d.job
  BitVec.ofNat 32 (j.epoch * 65536 + ofBits [(j.armed, 15), (!j.swatching.isEmpty, 14)] + j.slot1.code * 512 + j.slot0.code * 64)

def Dev.jobSwatchStatus (d : Dev) : Word :=
  let j := d.job
  let r := if j.epoch = 0 then none else j.recipe j.epoch
  let low := match j.swatching.map (fun c => (d.swatchOf c).good) with
    | g :: gs => gs.foldl min g
    | [] => 0
  BitVec.ofNat 32 (ofBits [(!j.swatching.isEmpty, 31)] + ((r.map (·.swatchK)).getD 0) * 65536 + ((r.map (·.extra)).getD 0) * 256 + low % 128)

/-! The commands. -/

def execJobStage (s : State) : Host.Outcome State Fault Refusal := s.run fun d => d.jobStage

def execJobStart (s : State) : Host.Outcome State Fault Refusal := s.run fun d => d.jobStart

def execJobCtlArm (s : State) : Host.Outcome State Fault Refusal := s.run fun d => d.arm_ 0 true

def execJobArm (s : State) : Host.Outcome State Fault Refusal :=
  s.run fun d => match d.activate Task.jobArm with
    | (some a, d1) => d1.arm_ (a.hop + 1) false
    | (none, d1) => d1

def execSpliceSwitch (s : State) : Host.Outcome State Fault Refusal := s.run fun d => d.spliceSwitch

def execJobRelease (s : State) : Host.Outcome State Fault Refusal := s.run fun d => d.jobRelease

def execSlotDrained (s : State) : Host.Outcome State Fault Refusal := s.run fun d => d.slotDrained

def execJobCtlAbort (s : State) : Host.Outcome State Fault Refusal := s.run fun d => d.jobAbort

def execJobAbort (s : State) : Host.Outcome State Fault Refusal :=
  s.run fun d => match d.activate Task.jobAbort with
    | (some _, d1) => d1.jobAbort
    | (none, d1) => d1

def execSwatchRestart (s : State) : Host.Outcome State Fault Refusal := s.run fun d => d.swatchRestart

def execJobReset (s : State) : Host.Outcome State Fault Refusal := s.run fun d => d.jobReset

def execFabMarkRx (p : Fin 4) (src hops : Nat) (m : FabMark) (s : State) : Host.Outcome State Fault Refusal :=
  s.run fun d => d.markIn p (headOf src hops true 0 (.mark m)) m

def execMarkTx (s : State) : Host.Outcome State Fault Refusal := s.run fun d => d.markTx

def execFabMarkTx (s : State) : Host.Outcome State Fault Refusal :=
  s.run fun d => match d.activate Task.fabMarkTx with
    | (some _, d1) => d1.markTx
    | (none, d1) => d1

end Sys2Proof.Machine
end

