-- ==== Sys2Proof/Machine/Stw.lean ====
section
/-! DEFINITION. The Steward (spec/17) but for resets and Cast-on: the NVM and its commit records, the NVM pipe, the fault log, and
the instructions of the test port. -/

namespace Sys2Proof.Machine

def Dev.modStw (g : StwSt → StwSt) (d : Dev) : Dev := { d with stw := g d.stw }

/-- A STW_ERR bit is set (R615). -/
def Dev.stwErr (bit : Nat) (d : Dev) : Dev := d.err 1 R.STW_ERR bit

/-! The NVM (R596). -/

/-- Erased NVM reads as ones. -/
def erased (_ : Nat) : Byte := 0xFF#8

/-- The bytes of the part, its slots, and its sectors. -/
def nvmSize : Nat := 0x4000000
def slotBase (slot : Nat) : Nat := 0x1000000 + slot % 2 * 0x1000000
def slotSize : Nat := 0x1000000
def sectorSize : Nat := 0x10000

def StwSt.bytes (x : StwSt) (a n : Nat) : List Byte := x.nvm.bytes erased a n

/-- Bytes are programmed. -/
def Dev.nvmPut (a : Nat) (bs : List Byte) (d : Dev) : Dev :=
  (d.modStw fun x => { x with nvm := x.nvm.setBytes erased a bs }).emit (.nvmProgram a bs)

/-- The sectors of a range are erased. -/
def Dev.nvmErase (a n : Nat) (d : Dev) : Dev :=
  (d.modStw fun x => { x with nvm := x.nvm.keep (fun k => !(decide (a ≤ k) && decide (k < a + n))) }).emit (.nvmErase (a / sectorSize))

/-! Commit records (R597, R602). -/

/-- A commit record: its place in the commit area, seq, kind, slot, version, length and CRC. -/
structure CommitRec where
  pos     : Nat
  seq     : Nat
  kind    : Nat
  slot    : Nat
  version : Nat
  len     : Nat
  crc     : Nat
deriving DecidableEq, Repr

def commitBase : Nat := 0x100000

/-- A sequence number is newer than another (R593). -/
def seqNewer (a b : Nat) : Bool :=
  let x := (a + 2 ^ 32 - b % 2 ^ 32) % 2 ^ 32
  decide (1 ≤ x) && decide (x < 2 ^ 31)

/-- The record at a place, if it is valid. -/
def StwSt.record (x : StwSt) (pos : Nat) : Option CommitRec :=
  let bs := x.bytes (commitBase + 64 * pos) 64
  if leAt bs 0 4 = 0x52434D43 ∧ leAt bs 0x3C 4 = crc32c (bs.take 0x3C) then
    some { pos := pos, seq := leAt bs 4 4, kind := leAt bs 8 1, slot := leAt bs 9 1, version := leAt bs 0x0C 4, len := leAt bs 0x10 4,
           crc := leAt bs 0x14 4 }
  else none

/-- The valid records. Only places with programmed bytes can hold one. -/
def StwSt.records (x : StwSt) : List CommitRec :=
  let places := (x.nvm.filter (fun p => decide (commitBase ≤ p.1) && decide (p.1 < commitBase + 0x100000))).map (fun p => (p.1 - commitBase) / 64)
  (places.foldr (fun p acc => match acc with
    | q :: _ => if p = q then acc else p :: acc
    | [] => [p]) []).filterMap x.record

/-- The newest of records. -/
def newestRec (rs : List CommitRec) : Option CommitRec :=
  rs.foldl (fun acc r => match acc with
    | none => some r
    | some b => if seqNewer r.seq b.seq then some r else acc) none

/-- The bytes of a record. -/
def commitBytes (seq kind slot version len crc ts : Nat) : List Byte :=
  let bs := leBytes 4 0x52434D43 ++ leBytes 4 seq ++ leBytes 1 kind ++ leBytes 1 slot ++ zeros 2 ++ leBytes 4 version ++ leBytes 4 len
    ++ leBytes 4 crc ++ leBytes 8 ts ++ zeros 28
  bs ++ leBytes 4 (crc32c bs)

/-- Whether a place is erased. -/
def StwSt.blank (x : StwSt) (pos : Nat) : Bool := (x.bytes (commitBase + 64 * pos) 64).all (· == 0xFF#8)

/-- The place of the next record (R597): after the newest, in the same sector if a place there is erased, else the start of the next
sector, which is erased first. -/
def StwSt.nextPlace (x : StwSt) : Nat × Bool :=
  let from_ := match newestRec x.records with
    | some r => r.pos + 1
    | none => 0
  let sector := if from_ = 0 then 0 else (from_ - 1) / 1024
  match (List.range 1024).find? (fun k => decide (from_ ≤ sector * 1024 + k) && x.blank (sector * 1024 + k)) with
  | some k => (sector * 1024 + k, false)
  | none => (if from_ = 0 then 0 else (sector + 1) % 16 * 1024, true)

/-- The newest COMMIT. -/
def StwSt.newestCommit (x : StwSt) : Option CommitRec := newestRec (x.records.filter (fun r => r.kind == 2))

/-- The newest record's seq, or 0. -/
def StwSt.newestSeq (x : StwSt) : Nat := ((newestRec x.records).map (·.seq)).getD 0

/-- A record is put at the next place. -/
def Dev.recordPut (kind slot version len crc : Nat) (d : Dev) : Dev :=
  let pl := d.stw.nextPlace
  let d1 := if pl.2 then d.nvmErase (commitBase + 64 * pl.1) sectorSize else d
  d1.nvmPut (commitBase + 64 * pl.1) (commitBytes ((d.stw.newestSeq + 1) % 2 ^ 32) kind slot version len crc d.ts)

/-- A record is appended. Where the record after it would erase the sector of the newest COMMIT, the last place of the present sector
takes a copy of that record first (R602). -/
def Dev.recordAppend (kind slot version len crc : Nat) (d : Dev) : Dev :=
  let pl := d.stw.nextPlace
  match d.stw.newestCommit with
  | some c =>
    if pl.2 = false ∧ pl.1 % 1024 = 1023 ∧ c.pos / 1024 = (pl.1 / 1024 + 1) % 16 then
      (d.recordPut 2 c.slot c.version c.len c.crc).recordPut kind slot version len crc
    else d.recordPut kind slot version len crc
  | none => d.recordPut kind slot version len crc

/-! Slot images (R598) and the choice of slot (R593). -/

/-- The header of a slot's image: version, length and CRC, if it is valid. -/
def StwSt.imageHeader (x : StwSt) (slot : Nat) : Option (Nat × Nat × Nat) :=
  let bs := x.bytes (slotBase slot) 64
  let len := leAt bs 8 4
  if leAt bs 0 4 = 0x474D4954 ∧ 64 ≤ len ∧ len ≤ slotSize ∧ leAt bs 0x10 1 ≤ 0xB0 ∧ 0xB0 ≤ leAt bs 0x11 1 then
    some (leAt bs 4 4, len, leAt bs 0x0C 4)
  else none

/-- The CRC of an image of a length. -/
def StwSt.imageCrc (x : StwSt) (slot len : Nat) : Nat := crc32c (x.bytes (slotBase slot + 0x40) (len - 0x40))

/-- Whether the image of a record's slot checks. -/
def StwSt.imageChecks (x : StwSt) (r : CommitRec) : Bool :=
  match x.imageHeader r.slot with
  | some h => h.2.1 == r.len && x.imageCrc r.slot h.2.1 == r.crc
  | none => false

/-- The record used and the RESULT of R594. -/
def StwSt.chooseSlot (x : StwSt) : Option CommitRec × Nat :=
  let rs := x.records
  let b := newestRec (rs.filter (fun r => r.kind == 1))
  match newestRec (rs.filter (fun r => r.kind == 2)) with
  | none => (none, 3)
  | some c =>
    if x.imageChecks c then (some c, if b.any (fun r => seqNewer r.seq c.seq) then 1 else 0)
    else match newestRec (rs.filter (fun r => r.kind == 2 && r.slot % 2 != c.slot % 2)) with
      | some e => if x.imageChecks e then (some e, 2) else (none, 3)
      | none => (none, 3)

/-! The board table (R599). -/

/-- The valid copy `k` of the board table. -/
def StwSt.boardCopy (x : StwSt) (k : Nat) : Option (List Byte) :=
  let bs := x.bytes (k * sectorSize) 512
  if leAt bs 0 4 = 0x42544C54 ∧ leAt bs 4 2 = 1 ∧ leAt bs 6 2 = 512 ∧ leAt bs 0x1FC 4 = crc32c (bs.take 0x1FC) then some bs else none

/-- The number and bytes of the valid copy with the newer seq. -/
def StwSt.board (x : StwSt) : Option (Nat × List Byte) :=
  match x.boardCopy 0, x.boardCopy 1 with
  | some a, some b => if seqNewer (leAt b 8 4) (leAt a 8 4) then some (1, b) else some (0, a)
  | some a, none => some (0, a)
  | none, some b => some (1, b)
  | none, none => none

/-! The NVM pipe (R600, R601). -/

/-- The slot of a new session: the one the newest valid COMMIT does not name. -/
def StwSt.targetSlot (x : StwSt) : Nat := match x.newestCommit with
  | some c => (c.slot + 1) % 2
  | none => 0

/-- What an operation makes of its operands before it acts: RANGE or ORDER, or 0. -/
def Dev.nvmCheck (q : NvmOp) (d : Dev) : Nat :=
  let x := d.stw
  let hwm := (d.rd R.STW_NVM_HWM).toNat
  match q.op with
  | 1 => if q.len % 64 ≠ 0 ∨ nvmSize < q.addr + q.len then 1 else 0
  | 3 =>
    if x.session.isNone then 2
    else if q.addr % 256 ≠ 0 ∨ q.len % 256 ≠ 0 ∨ slotSize < q.addr + q.len then 1
    else if q.addr < hwm then 2
    else 0
  | 4 => if x.session.isNone then 2 else 0
  | 5 => if x.session.isNone ∨ x.verified.isNone then 2 else 0
  | _ => 0

/-- The bytes an operation handles. -/
def NvmOp.total (q : NvmOp) : Nat :=
  match q.op with
  | 1 => q.len
  | 2 => slotSize
  | 3 => q.len
  | 5 => 64
  | 6 => 512
  | _ => 0

/-- The bytes of an operation's page or sector. -/
def NvmOp.unit (q : NvmOp) : Nat := if q.op = 2 then sectorSize else if q.op = 3 then 256 else 64

/-- What the first `n` bytes of an operation do to the NVM or Skein, with a result: 0, DENY (3) or UE (4). -/
def Dev.nvmAct (q : NvmOp) (n : Nat) (d : Dev) : Nat × Nat × Dev :=
  match q.op with
  | 1 =>
    if !d.skeinExists q.da q.len then (3, 0, d.decodeError 2 true q.da) else (0, n, d.skeinWrite 2 q.da (d.stw.bytes q.addr n))
  | 2 => (0, n, d.nvmErase (slotBase (d.stw.session.getD 0)) (n / sectorSize * sectorSize))
  | 3 =>
    if !d.skeinExists q.da q.len then (3, 0, d.decodeError 2 false q.da)
    else
      let pages := List.range (n / 256)
      let good := pages.takeWhile (fun k => (d.badBlocks (q.da + 256 * k) 256).isEmpty)
      let m := 256 * good.length
      let d1 := if m < n / 256 * 256 then (d.skeinRead 2 (q.da + m) 256).2.2 else d
      let d2 := (d1.nvmPut (slotBase (d.stw.session.getD 0) + q.addr) (d.skeinBytes q.da m)).wr R.STW_NVM_HWM
        (BitVec.ofNat 32 (if m = 0 then (d.rd R.STW_NVM_HWM).toNat else q.addr + m))
      (if m < n / 256 * 256 then 4 else 0, m, d2)
  | 5 =>
    match d.stw.verified, d.stw.session with
    | some v, some s =>
      if n < 64 then (0, n, d.nvmPut (commitBase + 64 * d.stw.nextPlace.1)
          ((commitBytes ((d.stw.newestSeq + 1) % 2 ^ 32) 2 s v.1 v.2.1 v.2.2 d.ts).take n))
      else (0, n, d.recordAppend 2 s v.1 v.2.1 v.2.2)
    | _, _ => (0, n, d)
  | 6 =>
    if !d.skeinExists q.da 512 then (3, 0, d.decodeError 2 false q.da)
    else
      let r := d.skeinRead 2 q.da 512
      if r.2.1 then (4, 0, r.2.2)
      else
        let seq := match d.stw.board with
          | some b => (leAt b.2 8 4 + 1) % 2 ^ 32
          | none => 1
        let copy := match d.stw.board with
          | some b => 1 - b.1
          | none => 0
        let body := r.1.take 8 ++ leBytes 4 seq ++ (r.1.drop 12).take (0x1FC - 12)
        (0, n, (r.2.2.nvmErase (copy * sectorSize) sectorSize).nvmPut (copy * sectorSize) ((body ++ leBytes 4 (crc32c body)).take n))
  | _ => (0, n, d)

/-- VERIFY (R600). -/
def Dev.nvmVerify (q : NvmOp) (d : Dev) : Nat × Dev :=
  let x := d.stw
  let s := x.session.getD 0
  match x.imageHeader s with
  | some h =>
    if h.2.1 ≤ (d.rd R.STW_NVM_HWM).toNat ∧ x.imageCrc s h.2.1 = q.arg then
      (0, d.modStw fun y => { y with verified := some (h.1, h.2.1, q.arg) })
    else (6, d)
  | none => (6, d)

/-- A GO of the pipe (R600, R601): refused while busy or for an OP that is not one; an ABORT stops the running operation. -/
def Dev.nvmCmdWrite (v : Word) (d : Dev) : Dev :=
  let d0 := d.plainWrite R.STW_NVM_CMD v
  let op := fld v F.STW_NVM_CMD_OP
  if fld v F.STW_NVM_CMD_GO = 0 then d0
  else match op, d0.stw.op with
    | 7, some q => d0.modStw fun x => { x with op := some { q with abort := true } }
    | _, some _ => d0.stwErr 2
    | _, none =>
      if op = 0 ∨ 7 ≤ op then d0.stwErr 2
      else
        let q : NvmOp :=
          { op := op, addr := (d0.rd R.STW_NVM_ADDR).toNat, len := (d0.rd R.STW_NVM_LEN).toNat, da := (d0.rd64 R.STW_NVM_DA).toNat,
            arg := (d0.rd R.STW_NVM_ARG).toNat, abort := false }
        let d1 := ((((d0.modStw fun x => { x with op := some q, verified := if op = 3 then none else x.verified }).sb R.STW_NVM_STATUS
          F.STW_NVM_STATUS_BUSY true).sb R.STW_NVM_STATUS F.STW_NVM_STATUS_DONE false).sf R.STW_NVM_STATUS F.STW_NVM_STATUS_OP op).wr
          R.STW_NVM_PROGRESS 0
        if op = 2 then
          let t := d1.stw.targetSlot
          ((d1.modStw fun x => { x with session := some t, verified := none }).wr R.STW_NVM_HWM 0).recordAppend 1 t 0 0 0
        else d1

/-- Whether an operation reads or writes Skein. -/
def NvmOp.usesSkein (q : NvmOp) : Bool := q.op == 1 || q.op == 3 || q.op == 6

/-- The session's target or slot 0, as the log entry of an operation shows it. -/
def Dev.nvmLog (op result : Nat) (d : Dev) : Dev :=
  d.logEvent 7 1 (BitVec.ofNat 64 (d.stw.session.getD d.stw.targetSlot * 256 + result * 16 + op))

/-- NVM_OP_COMPLETE (R601): `done` bytes have been handled where the operation was aborted or the NVM failed. -/
def Dev.nvmComplete (done : Nat) (fails : Bool) (d : Dev) : Dev :=
  match d.stw.op with
  | none => d
  | some q =>
    if q.usesSkein ∧ !d.skeinServes then d
    else
      let code := d.nvmCheck q
      let part := min q.total (done / q.unit * q.unit)
      let r : Nat × Nat × Dev :=
        if code ≠ 0 then (code, 0, d)
        else if q.op = 4 then (let v := d.nvmVerify q; (v.1, 0, v.2))
        else if fails then (let a := d.nvmAct q part; (5, a.2.1, a.2.2))
        else if q.abort ∧ part < q.total then (let a := d.nvmAct q part; (if a.1 = 0 then 7 else a.1, a.2.1, a.2.2))
        else d.nvmAct q q.total
      let ends := r.1 = 5 ∨ r.1 = 7 ∨ (q.op = 5 ∧ r.1 = 0)
      let d1 := r.2.2.nvmLog q.op r.1
      let d2 := (d1.modStw fun x => { x with op := none, session := if ends then none else x.session,
                                             verified := if ends then none else x.verified }).wr R.STW_NVM_PROGRESS (BitVec.ofNat 32 r.2.1)
      let d3 := ((d2.sb R.STW_NVM_STATUS F.STW_NVM_STATUS_BUSY false).sb R.STW_NVM_STATUS F.STW_NVM_STATUS_DONE true).sf R.STW_NVM_STATUS
        F.STW_NVM_STATUS_RESULT r.1
      let d4 := if r.1 = 0 then d3 else d3.stwErr 1
      d4.intCause 8

/-- A reset during an operation leaves its first `done` bytes made (R603), and closes the session. -/
def Dev.nvmReset (done : Nat) (d : Dev) : Dev :=
  let d1 := match d.stw.op with
    | some q => if d.nvmCheck q ≠ 0 then d else (d.nvmAct q (min q.total (if q.op = 5 ∨ q.op = 6 then done else done / q.unit * q.unit))).2.2
    | none => d
  d1.modStw fun x => { x with op := none, session := none, verified := none }

/-! The fault log (R604 to R608). -/

def logBase : Nat := 0x3000000

/-- The bytes of an entry. -/
def logBytes (seq boot : Nat) (e : LogEntry) : List Byte :=
  let bs := leBytes 4 seq ++ leBytes 1 e.kind ++ leBytes 1 e.block ++ leBytes 2 boot ++ leBytes 8 e.ts ++ leBytes 8 e.detail.toNat
    ++ leBytes 2 e.rep ++ zeros 2
  bs ++ leBytes 4 (crc32c bs)

/-- The bytes of a sector's header. -/
def sectorHeader (seq erases flags : Nat) : List Byte :=
  let bs := leBytes 4 0x474C4654 ++ leBytes 4 seq ++ leBytes 4 erases ++ leBytes 4 flags ++ zeros 44
  bs ++ leBytes 4 (crc32c bs)

/-- A sector's seq and erase count, if its header is valid. -/
def StwSt.sectorInfo (x : StwSt) (k : Nat) : Option (Nat × Nat) :=
  let bs := x.bytes (logBase + k * sectorSize) 64
  if leAt bs 0 4 = 0x474C4654 ∧ leAt bs 0x3C 4 = crc32c (bs.take 0x3C) then some (leAt bs 4 4, leAt bs 8 4) else none

/-- The next sector that is not retired. -/
def StwSt.nextSector (x : StwSt) : Option Nat :=
  ((List.range 64).map (fun k => (x.sector + 1 + k) % 64)).find? (fun k => !x.retired.contains k)

/-- The Steward opens a sector: erased, with a header whose erase count and seq are one more. -/
def Dev.openSector (k seq : Nat) (d : Dev) : Dev :=
  let erases := ((d.stw.sectorInfo k).map (·.2)).getD 0
  ((d.nvmErase (logBase + k * sectorSize) sectorSize).nvmPut (logBase + k * sectorSize) (sectorHeader seq (erases + 1) 0)).modStw
    fun x => { x with sector := k }

/-- A sector is retired (R605); when more than 8 are, logging stops. -/
def Dev.retireSector (k : Nat) (d : Dev) : Dev :=
  let info := (d.stw.sectorInfo k).getD (0, 0)
  let d1 := (d.nvmPut (logBase + k * sectorSize) (sectorHeader info.1 info.2 1)).modStw fun x =>
    { x with retired := if x.retired.contains k then x.retired else x.retired ++ [k] }
  let d2 := d1.sf R.STW_LOG_STATUS ⟨28, 4⟩ (min 15 d1.stw.retired.length)
  if 8 < d2.stw.retired.length then d2.stwErr 4 else d2

/-- One entry is appended. The place after the newest entry is used, or the start of the next sector. -/
def Dev.logAppend (e : LogEntry) (d : Dev) : Dev :=
  let x := d.stw
  let first := fun (k : Nat) => logBase + k * sectorSize + 64
  let full := match x.logAt with
    | some a => decide ((a - logBase) % sectorSize + 64 > sectorSize)
    | none => true
  let d1 := if !full then d
    else match x.logAt with
      | some _ => (match x.nextSector with
        | some k => d.openSector k (((x.sectorInfo x.sector).map (·.1)).getD 0 + 1)
        | none => d)
      | none => d.openSector x.sector 1
  let a := if full then first d1.stw.sector else (x.logAt.getD 0) + 32
  (d1.nvmPut a (logBytes ((x.logSeq + 1) % 2 ^ 32) ((d.rd R.STW_BOOT_CNT).toNat % 65536) e)).modStw fun y =>
    { y with logSeq := (x.logSeq + 1) % 2 ^ 32, logAt := some a }

/-- The entries to be written next: STASH_LINE and SKEIN_UE first. -/
def logOrder (es : List LogEntry) : List LogEntry :=
  let urgent := fun (e : LogEntry) => e.kind == 3 || e.kind == 4
  es.filter urgent ++ es.filter (fun e => !urgent e)

/-- Whether the Steward may write the log now. -/
def Dev.logMay (d : Dev) : Bool :=
  d.stw.op.isNone && d.stw.boot == .done && d.pwr.state == .active && decide (d.stw.retired.length ≤ 8) && d.stw.nvmOk

/-- The first `n` entries are written; a failing sector is retired and its entries go to the next. -/
def Dev.logWrite (n : Nat) (fails : Bool) (d : Dev) : Dev :=
  let es := (logOrder d.stw.log).take n
  if es.isEmpty then d
  else
    let d0 := if fails then
        (let y := d.retireSector d.stw.sector
         match y.stw.nextSector with
         | some k => (y.openSector k (((y.stw.sectorInfo d.stw.sector).map (·.1)).getD 0 + 1)).modStw fun x =>
             { x with logAt := some (logBase + k * sectorSize + 32) }
         | none => y)
      else d
    if 8 < d0.stw.retired.length then d0
    else es.foldl (fun (y : Dev) e => (y.logAppend e).modStw fun x =>
      { x with log := x.log.erase e, logTimes := (d.now :: x.logTimes).take 1024 }) d0

/-- LOG_PAGE_WRITE (R608): at most a page of 8 entries, and at most 960 in 60 s. -/
def Dev.logPage (fails : Bool) (d : Dev) : Dev :=
  let used := d.stw.logTimes.countP (fun t => decide (d.now < t + 60000000000))
  if !d.logMay then d else d.logWrite (min 8 (960 - used)) fails

/-- LOG_FLUSH (R608). -/
def Dev.logFlush (d : Dev) : Dev := if !d.logMay then d else d.logWrite d.stw.log.length false

/-! The test port (R609, R610). -/

/-- The identification code. -/
def idcode : Word := 0x248005EB

/-- EXTEST, CLAMP or HIGHZ: taken in TEST with BSCAN_EN, else BYPASS with BSCAN_REFUSED. -/
def Dev.jtagPins (i : JtagIr) (d : Dev) : Dev :=
  if d.glb.mode = .test ∧ d.b R.STW_TEST_CFG ⟨0, 1⟩ then d.modStw fun x => { x with ir := i }
  else (d.modStw fun x => { x with ir := .bypass }).stwErr 5

def Dev.jtagSelect (i : JtagIr) (d : Dev) : Dev := d.modStw fun x => { x with ir := i }

/-- The pins are given back where the device is no longer in TEST with BSCAN_EN. -/
def Dev.bscanUpdate (d : Dev) : Dev :=
  if d.pinsHeld ∧ ¬ (d.glb.mode = .test ∧ d.b R.STW_TEST_CFG ⟨0, 1⟩) then d.jtagSelect .bypass else d

/-! Live registers (R613, R614). -/

def Dev.stwStatus (d : Dev) : Word :=
  let x := d.stw
  BitVec.ofNat 32 (ofBits [(x.session.isSome, 31), (x.session == some 1, 30), (x.verified.isSome, 29), (x.boardOk, 28), (d.pinsHeld, 27),
    (x.nvmOk, 26)])

def Dev.stwLogStatus (d : Dev) : Word := setFld (d.rd R.STW_LOG_STATUS) ⟨16, 9⟩ d.stw.log.length

/-! The commands. -/

/-- A write of STW_NVM_CMD with GO and the operation. -/
def nvmGo (op : Nat) (d : Dev) : Dev := d.nvmCmdWrite (BitVec.ofNat 32 (2 ^ 31 + op))

def execNvmRead (s : State) : Host.Outcome State Fault Refusal := s.run (nvmGo 1)

def execNvmBegin (s : State) : Host.Outcome State Fault Refusal := s.run (nvmGo 2)

def execNvmProgram (s : State) : Host.Outcome State Fault Refusal := s.run (nvmGo 3)

def execNvmVerify (s : State) : Host.Outcome State Fault Refusal := s.run (nvmGo 4)

def execNvmCommit (s : State) : Host.Outcome State Fault Refusal := s.run (nvmGo 5)

def execNvmBoard (s : State) : Host.Outcome State Fault Refusal := s.run (nvmGo 6)

def execNvmAbort (s : State) : Host.Outcome State Fault Refusal := s.run (nvmGo 7)

def execNvmOpComplete (done : Nat) (fails : Bool) (s : State) : Host.Outcome State Fault Refusal := s.run fun d => d.nvmComplete done fails

def execLogPageWrite (fails : Bool) (s : State) : Host.Outcome State Fault Refusal := s.run fun d => d.logPage fails

def execLogFlush (s : State) : Host.Outcome State Fault Refusal := s.run fun d => d.logFlush

def execJtagReset (s : State) : Host.Outcome State Fault Refusal := s.run fun d => d.jtagSelect .idcode

def execExtest (s : State) : Host.Outcome State Fault Refusal := s.run fun d => d.jtagPins .extest

def execIdcode (s : State) : Host.Outcome State Fault Refusal := s.run fun d => d.jtagSelect .idcode

/-- SAMPLE/PRELOAD: the boundary register samples the pins' levels. -/
def execSamplePreload (pins : List Bool) (s : State) : Host.Outcome State Fault Refusal :=
  s.run fun d => (d.jtagSelect .sample).modStw fun x => { x with bsr := pins }

def execClamp (s : State) : Host.Outcome State Fault Refusal := s.run fun d => d.jtagPins .clamp

def execHighz (s : State) : Host.Outcome State Fault Refusal := s.run fun d => d.jtagPins .highz

def execBypass (s : State) : Host.Outcome State Fault Refusal := s.run fun d => d.jtagSelect .bypass

def execAccess (s : State) : Host.Outcome State Fault Refusal := s.run fun d => d.jtagSelect .access

end Sys2Proof.Machine
end

