-- ==== Sys2Proof/Machine/Pwr.lean ====
section
/-! DEFINITION. Power (spec/18): the level of shedding in force, the watch state, the housekeeping converter, the thermal governor,
the hardware trip and the electrical limit. -/

namespace Sys2Proof.Machine

def Dev.modPwr (g : PwrSt → PwrSt) (d : Dev) : Dev := { d with pwr := g d.pwr }

/-- A PWR_ERR bit is set (R641). -/
def Dev.pwrErr (bit : Nat) (d : Dev) : Dev := d.err 2 R.PWR_ERR bit

/-! The level in force (R45, R48). -/

/-- A change that may change the shedding level in force: a change is reported and published. -/
def Dev.withLevel (g : Dev → Dev) (d : Dev) : Dev :=
  let d1 := g d
  if d1.level = d.level then d1 else (d1.intCause 1).publish Src.glbShed 0

/-- The thermal floor; when it falls away, the level descends from it by R44. -/
def Dev.setFloor (on : Bool) (d : Dev) : Dev :=
  if on = d.glb.floor then d
  else d.withLevel fun y =>
    if on then { y with glb := { y.glb with floor := true } }
    else
      let z : Dev := { y with glb := { y.glb with floor := false, shed := max 3 y.glb.shed } }
      if z.glb.pressure.isEmpty then z.arm .shedLower (z.now + 10000000) else z

/-! The governor (R628, R629, R632). -/

/-- The value of a housekeeping channel as last written. -/
def Dev.hkVal (ch : Nat) (d : Dev) : BitVec 16 := (d.rd (R.PWR_HK_VAL ch)).extractLsb' 0 16

/-- TEMP(k) in 1/16 °C. -/
def Dev.temp (k : Nat) (d : Dev) : Int := (d.hkVal (48 + k)).toInt

/-- Tj: the greatest of the 24 temperature channels. -/
def Dev.tj (d : Dev) : Int := (List.range 23).foldl (fun t k => max t (d.temp (k + 1))) (d.temp 0)

/-- T_START as it acts, in 1/16 °C. -/
def Dev.tStart (d : Dev) : Int := 16 * (max 60 (min 109 (d.f R.PWR_THERM_CFG F.PWR_THERM_CFG_T_START)) : Nat)

/-- The cap changes; the Steward commands the voltage of the table where the regulator answers (R632, R649). -/
def Dev.setCap (mhz : Nat) (d : Dev) : Dev :=
  let d1 := d.modPwr fun x => { x with cap := mhz, capAt := d.now }
  let v := Config.vcore (mhz / 125)
  if !d.pwr.pmbus ∨ v = d.pwr.vcore then d1 else (d1.modPwr fun x => { x with vcore := v }).emit (.vcore v)

/-- A change of step publishes PWR_THERMAL and sets the THERMAL cause. -/
def Dev.setStep (n : Nat) (d : Dev) : Dev :=
  if n = d.pwr.step then d
  else (((d.modPwr fun x => { x with step := n }).publish Src.pwrThermal 0).intCause 5).setFloor (decide (3 ≤ n))

/-- The step that a temperature gives with no step before it. -/
def Dev.stepOf (t : Int) (d : Dev) : Nat := if 1920 ≤ t then 3 else if 1760 ≤ t then 2 else if d.tStart ≤ t then 1 else 0

/-- Entry into a step, with its cap. -/
def Dev.enterStep (n : Nat) (d : Dev) : Dev :=
  let cap := if n = 0 then 3000 else if n = 1 then (if d.pwr.step = 0 then d.pwr.cap - 125 else 1500) else 1500
  (if n = d.pwr.step then d else d.setCap cap).setStep n

/-- GOVERNOR_EVAL: a rise moves straight to the highest step; a fall moves one step down. -/
def Dev.governor (d : Dev) : Dev :=
  if d.pwr.trip then d
  else
    let t := d.tj
    let up := d.stepOf t
    let n := match d.pwr.step with
      | 0 => up
      | 1 => max 1 up
      | 2 => if up = 3 then 3 else if t < 1712 then 1 else 2
      | _ => if t < 1872 then 2 else 3
    d.enterStep n

/-- THROTTLE_CAP_STEP (R629). -/
def Dev.throttle (d : Dev) : Dev :=
  let cfg := d.rd R.PWR_THERM_CFG
  let t := d.tj
  let down := max 1 (fld cfg F.PWR_THERM_CFG_DOWN_MS) * 1000000
  let up := max 1 (fld cfg F.PWR_THERM_CFG_UP_10MS) * 10000000
  if d.pwr.step ≠ 1 then d
  else if d.tStart ≤ t then
    if d.pwr.capAt + down ≤ d.now ∧ 1500 < d.pwr.cap then d.setCap (d.pwr.cap - 125) else d
  else if t < d.tStart - 16 * (fld cfg F.PWR_THERM_CFG_T_HYST : Nat) ∧ d.pwr.capAt + up ≤ d.now then
    let d1 := d.setCap (min 3000 (d.pwr.cap + 125))
    if d1.pwr.cap = 3000 then d1.setStep 0 else d1
  else d

/-! The hardware trip (R630). -/

/-- The electrical limit halves or releases every cluster clock (R633). -/
def Dev.setHalved (v : Bool) (d : Dev) : Dev :=
  (List.range 16).foldl (fun (y : Dev) c => y.modCluster c fun k => { k with halved := v }) (d.modPwr fun x => { x with halved := v })

/-- THERMAL_TRIP. -/
def Dev.thermalTrip (d : Dev) : Dev :=
  if d.pwr.trip then d
  else
    let d0 := if d.pwr.state = .watch then d else (d.steTrip).carTrip
    let d1 := (((d0.modPwr fun x => { x with trip := true, coolAt := none }).setHalved false).bump R.PWR_CNT0 F.PWR_CNT0_TRIP_CNT
      1).pwrErr 0
    (((d1.publish Src.pwrTrip 0).logEvent 6 2 (BitVec.ofInt 64 d.tj)).emit (.thermTrip true)).setStep 4

/-- TRIP_END: every sensor has read below 115 °C for 10 ms; the step is the one that Tj gives. -/
def Dev.tripEnd (d : Dev) : Dev :=
  match d.pwr.coolAt with
  | some t =>
    if d.pwr.trip ∧ t + 10000000 ≤ d.now then
      let n := d.stepOf d.tj
      (((d.modPwr fun x => { x with trip := false }).emit (.thermTrip false)).setCap (if n = 0 then 3000 else 1500)).setStep n
    else d
  | none => d

/-! The electrical limit (R633). -/

def Dev.ilimHalve (d : Dev) : Dev :=
  if !d.b R.PWR_ILIM_CFG F.PWR_ILIM_CFG_EN ∨ d.pwr.halved ∨ d.pwr.trip then d
  else ((d.setHalved true).bump R.PWR_CNT0 F.PWR_CNT0_ILIM_CNT 1).pwrErr 1

/-! The housekeeping converter (R622 to R627). -/

/-- Whether the converter leaves a slot idle. -/
def hkIdle (ch : Nat) : Bool := ch == 82 || ch == 83 || decide (88 ≤ ch)

/-- The next slot that is converted. -/
def nextSlot (s : Nat) : Nat := if s < 82 then s else if s < 84 then 84 else if s < 88 then s else 0

/-- The corrected code (R624). -/
def hkCorrected (raw : Nat) : Int :=
  ((raw : Int) - (Config.hkTrim.extractLsb' 0 16).toInt) * (Config.hkTrim.extractLsb' 16 16).toNat / 32768

/-- The full scale of the sense part of a channel. -/
def Dev.hkScale (ch : Nat) (d : Dev) : Nat :=
  if ch < 48 then d.f R.PWR_CXP_SCALE ⟨0, 16⟩ else if ch = 84 then d.f R.PWR_CORE_SCALE ⟨0, 16⟩ else 0

/-- The nominal value of a supply channel in mV. -/
def Dev.supplyNominal (ch : Nat) (d : Dev) : Int :=
  match ch with
  | 72 => d.pwr.vcore
  | 73 => 800
  | 74 => 750
  | 75 => 1200
  | 76 => 500
  | 77 => 1050
  | 78 => 1800
  | 79 => 1800
  | 80 => 3300
  | _ => 3300

/-- A channel's run of conversions outside its window, with the effect of the fourth in a row. -/
def Dev.hkRun (ch : Nat) (outside : Bool) (g : Dev → Dev) (d : Dev) : Dev :=
  let n := if outside then min 4 (d.pwr.runs.get (fun _ => 0) ch + 1) else 0
  let d1 := d.modPwr fun x => { x with runs := x.runs.set (fun _ => 0) ch n }
  if n = 4 then g d1 else d1

/-- A result reaches PWR_HK_RESULT (R625). -/
def Dev.hkResult (ch : Nat) (v : BitVec 16) (urgent : Bool) (d : Dev) : Dev :=
  let was := d.rd R.PWR_HK_RESULT
  let valid := fld was F.PWR_HK_RESULT_VALID == 1
  let new := BitVec.ofNat 32 (ofBits [(true, 31), (valid || fld was F.PWR_HK_RESULT_OVR == 1, 30), (urgent, 29)] + ch % 128 * 2 ^ 16 + v.toNat)
  let d1 := d.wr R.PWR_HK_RESULT new
  if valid then (d1.bump R.PWR_CNT1 F.PWR_CNT1_OVR_CNT 1).pwrErr 3 else d1

/-- A temperature result: its maximum, and since when every sensor has read below 115 °C. -/
def Dev.tempResult (k : Nat) (v : BitVec 16) (d : Dev) : Dev :=
  let old := (d.rd (R.PWR_TEMP_MAX k)).extractLsb' 0 16
  let d1 := if old.toInt < v.toInt then d.wr (R.PWR_TEMP_MAX k) (v.setWidth 32) else d
  let cool := (List.range 24).all (fun j => decide (d1.temp j < 1840))
  d1.modPwr fun x => { x with coolAt := if cool then some (x.coolAt.getD d.now) else none }

/-- What a result does beyond its register; `scheduled` says that it is the one of its frame. -/
def Dev.hkActs (ch : Nat) (v : BitVec 16) (scheduled : Bool) (d : Dev) : Dev :=
  if ch < 48 then d.currentMeasured ch v.toNat
  else if ch < 72 then d.tempResult (ch - 48) v
  else if ch < 82 then
    let nom := d.supplyNominal ch
    let off := (v.toNat : Int) - nom
    d.hkRun ch (if ch = 72 then decide (50 < off.natAbs) else decide (nom < 20 * off.natAbs)) fun y =>
      (y.sf R.PWR_SUPPLY_FLAGS (bitF (ch - 72)) 1).pwrErr 2
  else if 85 ≤ ch ∧ ch ≤ 87 ∧ scheduled = true then
    let nom : Int := if ch = 85 then 1000 else if ch = 86 then 625 else 0
    d.hkRun ch (decide (4 < (v.toInt - nom).natAbs)) fun y => y.pwrErr 4
  else d

/-- One conversion of a channel; a reserved channel is not converted (R622). -/
def Dev.hkConvert (ch raw : Nat) (urgent : Bool) (d : Dev) : Dev :=
  if hkIdle ch then d else
  let v := Config.hkValue ch (d.hkScale ch) (hkCorrected raw)
  let cnt := (d.f (R.PWR_HK_VAL ch) ⟨16, 16⟩ + 1) % 65536
  let d1 := (d.wr (R.PWR_HK_VAL ch) (BitVec.ofNat 32 (cnt * 65536 + v.toNat))).hkActs ch v (!urgent)
  let cfg := d1.rd R.PWR_HK_CFG
  if urgent ∨ (fld cfg F.PWR_HK_CFG_STREAM_EN = 1 ∧ fld cfg F.PWR_HK_CFG_STREAM_CH = ch) then d1.hkResult ch v urgent else d1

/-- HK_CONVERSION: an urgent request is converted in the next slot while the frame has taken fewer than 10; else the next slot's
channel. `raw` is the code of the channel converted. -/
def Dev.hkSlot (raw : Nat) (d : Dev) : Dev :=
  match d.pwr.urgent with
  | ch :: rest =>
    if d.pwr.urgents < 10 then
      (d.modPwr fun x => { x with urgent := rest, urgents := x.urgents + 1 }).hkConvert ch raw true
    else (d.modPwr fun x => { x with slot := nextSlot (nextSlot x.slot + 1), urgents := if nextSlot (nextSlot x.slot + 1) = 0 then 0 else x.urgents }).hkConvert
      (nextSlot d.pwr.slot) raw false
  | [] =>
    (d.modPwr fun x => { x with slot := nextSlot (nextSlot x.slot + 1), urgents := if nextSlot (nextSlot x.slot + 1) = 0 then 0 else x.urgents }).hkConvert
      (nextSlot d.pwr.slot) raw false

/-- A write of PWR_HK_URGENT (R626): the frame takes 10, and 8 more wait. -/
def Dev.hkUrgent (v : Word) (d : Dev) : Dev :=
  if fld v F.PWR_HK_URGENT_GO = 0 then d
  else if d.pwr.urgent.length < 18 - d.pwr.urgents then
    d.modPwr fun x => { x with urgent := x.urgent ++ [fld v F.PWR_HK_URGENT_CHANNEL] }
  else d.pwrErr 5

/-- A read of PWR_HK_RESULT: VALID and OVR clear. -/
def Dev.hkResultRead (d : Dev) : Dev :=
  let v := d.rd R.PWR_HK_RESULT
  { d.wr R.PWR_HK_RESULT (v &&& 0x3FFFFFFF#32) with rdata := v }

/-! The watch state (R616 to R620). -/

/-- A watch request (R617). -/
def Dev.watchRequest (d : Dev) : Dev :=
  if d.pwr.state ≠ .active ∨ d.pinsHeld = true then d.pwrErr 6 else d.modPwr fun x => { x with request := true }

/-- An exit cause: 0 PWR_WAKE, 1 software, 2 D0. It waits in ENTERING and WATCH; of causes that meet, the first in that order is
recorded (R618). -/
def Dev.exitCause (c : Nat) (d : Dev) : Dev :=
  if d.pwr.state = .entry ∨ d.pwr.state = .watch then
    d.modPwr fun x => { x with heldBy := some (match x.heldBy with
      | some k => min k c
      | none => c) }
  else d

/-- A write of PWR_CTL. -/
def Dev.pwrCtlWrite (v : Word) (d : Dev) : Dev :=
  if fld v F.PWR_CTL_KEY ≠ 0x3C then d
  else
    let d1 := if fld v F.PWR_CTL_EXIT = 1 then d.exitCause 1 else d
    if fld v F.PWR_CTL_WATCH = 1 then d1.watchRequest else d1

/-- The wake request (R547). -/
def Dev.hostWake (d : Dev) : Dev :=
  let h := d.host
  let d1 : Dev := { d with host := { h with cfg := { h.cfg with pmeStat := true } } }
  if !h.cfg.pmeEn then d1
  else if h.l1 then d1.emit .pmPme
  else if h.perst ∧ h.wakeLow = false then ({ d1 with host := { d1.host with wakeLow := true } }).emit (.wakePin true)
  else d1

/-- An activation of PWR_WAKE (R618, R619). -/
def Dev.pwrWake (d : Dev) : Dev :=
  let d1 := d.bump R.PWR_CNT1 F.PWR_CNT1_WAKE_CNT 1
  if d.pwr.state = .entry ∨ d.pwr.state = .watch then d1.exitCause 0
  else if d.b R.PWR_WATCH_CFG F.PWR_WATCH_CFG_WAKE_HOST && !d.host.d0 then d1.hostWake else d1

/-- WATCH_ENTRY_START: after any pipe operation, the splice is aborted, frames close, Hook aborts and connections park. -/
def Dev.watchEntry (d : Dev) : Dev :=
  if !d.pwr.request ∨ d.stw.op.isSome ∨ d.pwr.state ≠ .active then d
  else
    let d1 := d.jobWatch.asmWatch
    let d2 := (List.range 16).foldl (fun (y : Dev) ch => if (y.hookCh ch).state = .idle then y else y.hookAbort ch) d1
    d2.cllWatchEnter.modPwr fun x => { x with state := .entry, request := false, since := d.now, heldBy := none }

/-- WATCH_ENTRY_DONE: once Hook's bursts are complete, clusters power down, ports go off, check blocks are written back, and the
Gauge and the Carriages stop. -/
def Dev.watchEntered (d : Dev) : Dev :=
  if d.pwr.state ≠ .entry ∨ (List.range 16).any (fun ch => (d.hookCh ch).state != .idle) then d
  else
    let d1 := d.steWatch.fabWatch.carWatch.modSkein fun x => { x with cached := [] }
    d1.gaugeWatchEnter.modPwr fun x => { x with state := .watch }

/-- WATCH_EXIT_START: the cause is recorded, and the Gauge settles. -/
def Dev.watchExit (d : Dev) : Dev :=
  match d.pwr.heldBy with
  | some c =>
    if d.pwr.state ≠ .watch then d
    else
      let d1 := (d.modPwr fun x => { x with state := .exit, cause := c, heldBy := none, since := d.now }).gaugeWatchExit
      if c = 0 ∧ d.b R.PWR_WATCH_CFG F.PWR_WATCH_CFG_WAKE_HOST = true then d1.hostWake else d1
  | none => d

/-- WATCH_EXIT_DONE: the device is ACTIVE, and the enabled fabric ports train. -/
def Dev.watchExited (d : Dev) : Dev :=
  if d.pwr.state ≠ .exit then d
  else (List.range 4).foldl (fun (y : Dev) p => y.portEnable p) (d.modPwr fun x => { x with state := .active })

/-! Live registers (R638, R639). -/

def PowerState.code : PowerState → Nat
  | .active => 0
  | .entry => 1
  | .watch => 2
  | .exit => 3

/-- PWR_STATUS as it reads. -/
def Dev.pwrStatus (d : Dev) : Word :=
  let x := d.pwr
  BitVec.ofNat 32 (x.state.code * 2 ^ 30 + x.step * 2 ^ 27 + ofBits [(x.halved, 26)] + x.cause * 2 ^ 24 + x.cap / 125 * 2 ^ 16
    + (BitVec.ofInt 16 d.tj).toNat)

/-- PWR_VCORE as it reads. -/
def Dev.pwrVcore (d : Dev) : Word := BitVec.ofNat 32 ((d.hkVal 72).toNat * 65536 + d.pwr.vcore)

/-! The commands. -/

/-- PWR_CTL_WATCH: a keyed write of PWR_CTL with WATCH. -/
def execPwrCtlWatch (s : State) : Host.Outcome State Fault Refusal := s.run fun d => d.pwrCtlWrite 0x3C000001

/-- PWR_CTL_EXIT: a keyed write of PWR_CTL with EXIT. -/
def execPwrCtlExit (s : State) : Host.Outcome State Fault Refusal := s.run fun d => d.pwrCtlWrite 0x3C000002

def execPwrWake (s : State) : Host.Outcome State Fault Refusal :=
  s.run fun d => match d.activate Task.pwrWake with
    | (some _, d1) => d1.pwrWake
    | (none, d1) => d1

def execWatchEntryStart (s : State) : Host.Outcome State Fault Refusal := s.run fun d => d.watchEntry

def execWatchEntryDone (s : State) : Host.Outcome State Fault Refusal := s.run fun d => d.watchEntered

def execWatchExitStart (s : State) : Host.Outcome State Fault Refusal := s.run fun d => d.watchExit

def execWatchExitDone (s : State) : Host.Outcome State Fault Refusal := s.run fun d => d.watchExited

def execHkConversion (raw : BitVec 12) (s : State) : Host.Outcome State Fault Refusal := s.run fun d => d.hkSlot raw.toNat

def execHkUrgent (v : Word) (s : State) : Host.Outcome State Fault Refusal := s.run fun d => d.hkUrgent v

def execHkResultRead (s : State) : Host.Outcome State Fault Refusal := s.run fun d => d.hkResultRead

def execGovernorEval (s : State) : Host.Outcome State Fault Refusal := s.run fun d => d.governor

def execThrottleCapStep (s : State) : Host.Outcome State Fault Refusal := s.run fun d => d.throttle

def execThermalTrip (s : State) : Host.Outcome State Fault Refusal := s.run fun d => d.thermalTrip

def execTripEnd (s : State) : Host.Outcome State Fault Refusal := s.run fun d => d.tripEnd

def execIlimHalve (s : State) : Host.Outcome State Fault Refusal := s.run fun d => d.ilimHalve

/-- ILIM_RELEASE: the current has stayed below 90 % of THRESH for 1 ms. -/
def execIlimRelease (s : State) : Host.Outcome State Fault Refusal := s.run fun d => if d.pwr.halved then d.setHalved false else d

end Sys2Proof.Machine
end

