-- ==== Sys2Proof/Machine/Glb.lean ====
section
/-! DEFINITION. The GLB block and the shedding controller (R40 to R48, R61 to R72): pressure signals and levels, service modes, the
device Bind-off and the global interrupt. -/

namespace Sys2Proof.Machine

/-! Pressure signals (R42). -/

/-- The inspection deadline in nanoseconds: JOB_DEADLINE counts 100 µs. -/
def Dev.deadline (d : Dev) : Nat := d.f R.JOB_DEADLINE ⟨0, 16⟩ * 100000

/-- The wait of the oldest undispatched work item. -/
def Dev.oldestWait (d : Dev) : Option Nat :=
  (((List.range 16).flatMap (fun c => (d.cluster c).queue)).map (fun i => d.now - i.since)).max?

/-- The band buffers of a cluster in use and in all. -/
def Dev.bandFill (c : Nat) (d : Dev) : Nat × Nat :=
  (List.range 48).foldl (fun acc cam =>
    let g := d.tileCfg cam
    if d.b (R.STE_CAM_CFG cam) F.STE_CAM_CFG_EN && g.homes.contains c then
      (acc.1 + min g.bands (d.tiles cam).bands.length, acc.2 + g.bands)
    else acc) (0, 0)

/-- Used and capacity of every Carriage input queue. -/
def Dev.carFills (d : Dev) : List (Nat × Nat) := (List.range 4).flatMap (fun k => d.carFill k)

/-- The 10 µs windows with refusals among the newest `n`. -/
def Dev.skeinRefusals (n : Nat) (d : Dev) : Nat := d.skein.refused.countP (fun w => decide (d.now / 10000 < w + n))

def overFull (p : Nat × Nat) : Bool := decide (3 * p.2 < 4 * p.1)

def lowFill (p : Nat × Nat) : Bool := decide (4 * p.1 ≤ p.2)

/-- Whether the link is in L0 with the function in D0: while it is not, the delivery backlog is ignored (R49). -/
def Dev.hostListens (d : Dev) : Bool := d.host.l0 && d.host.d0

/-- Whether a signal's engage condition holds. -/
def Dev.engages (p : Pressure) (d : Dev) : Bool :=
  match p with
  | .delivery => d.hostListens && overFull (d.backlogBytes, d.backlogCap)
  | .engine => d.oldestWait.any (fun w => decide (d.deadline < w))
  | .band => (List.range 16).any (fun c => overFull (d.bandFill c))
  | .skein => decide (2 ≤ d.skeinRefusals 10)
  | .carriage => d.carFills.any overFull

/-- Whether a signal's release condition holds. -/
def Dev.releases (p : Pressure) (d : Dev) : Bool :=
  match p with
  | .delivery => !d.hostListens || decide (4 * d.backlogBytes < d.backlogCap)
  | .engine => d.oldestWait.all (fun w => decide (2 * w < d.deadline))
  | .band => (List.range 16).all (fun c => lowFill (d.bandFill c))
  | .skein => d.skeinRefusals 100 == 0
  | .carriage => d.carFills.all lowFill

/-! Levels (R43, R44). -/

/-- The level of R43 and R44 changes. -/
def Dev.setShed (n : Nat) (d : Dev) : Dev := d.withLevel fun y => { y with glb := { y.glb with shed := n } }

/-- A signal engages: the first one overloaded raises the level at once and starts the 50 µs. -/
def Dev.pressureUp (p : Pressure) (d : Dev) : Dev :=
  if d.glb.pressure.contains p ∨ !d.engages p then d
  else
    let d1 : Dev := { d with glb := { d.glb with pressure := d.glb.pressure ++ [p] } }
    if d.glb.pressure.isEmpty then ((d1.disarm .shedLower).arm .shedRaise (d.now + 50000)).setShed (min 4 (d.glb.shed + 1)) else d1

/-- Signals whose release condition holds are clear; when all are, the 10 ms start. -/
def Dev.pressureDown (d : Dev) : Dev :=
  if d.glb.pressure.isEmpty then d
  else
    let left := d.glb.pressure.filter (fun p => !d.releases p)
    let d1 : Dev := { d with glb := { d.glb with pressure := left } }
    if left.isEmpty then
      let d2 := d1.disarm .shedRaise
      if d.glb.shed = 0 then d2 else d2.arm .shedLower (d.now + 10000000)
    else d1

/-- SHED_RAISE_INTERVAL_EXPIRY: 50 µs with some signal overloaded. -/
def Dev.shedInterval (d : Dev) : Dev :=
  let d1 := d.pressureDown
  if d1.due .shedRaise && !d1.glb.pressure.isEmpty then (d1.arm .shedRaise (d.now + 50000)).setShed (min 4 (d1.glb.shed + 1)) else d1

/-- SHED_LOWER_EXPIRY: 10 ms with all signals clear. -/
def Dev.shedLower (d : Dev) : Dev :=
  if d.due .shedLower && d.glb.pressure.isEmpty then
    let n := d.glb.shed - 1
    (if n = 0 then d.disarm .shedLower else d.arm .shedLower (d.now + 10000000)).setShed n
  else d

/-- SKEIN_PRESSURE_WINDOW. -/
def Dev.skeinWindow (d : Dev) : Dev :=
  (d.pressureUp .skein).pressureDown.modSkein fun x => { x with refused := x.refused.filter (fun w => decide (d.now / 10000 < w + 100)) }

/-! Service modes (R61 to R63). -/

def Mode.code : Mode → Nat
  | .bringup => 0
  | .service => 1
  | .test => 2
  | .recovery => 3

/-- The mode of a code. -/
def modeOf (n : Nat) : Option Mode :=
  match n with
  | 0 => some .bringup
  | 1 => some .service
  | 2 => some .test
  | 3 => some .recovery
  | _ => none

/-- Whether a transition is allowed. -/
def Dev.mayEnter (m : Mode) (d : Dev) : Bool :=
  match d.glb.mode, m with
  | .bringup, .service => true
  | .bringup, .test => true
  | .test, .service => true
  | .service, .recovery => d.glb.bindoff == .done
  | .recovery, .service => true
  | .recovery, .test => true
  | _, _ => false

/-- Every Chain LOCK rises or falls (R168). -/
def Dev.chainLock (v : Bool) (d : Dev) : Dev :=
  (List.range 64).foldl (fun (y : Dev) ch => y.sb (R.CHAIN_CH_CFG ch) F.CHAIN_CH_CFG_LOCK v) d

/-- The effects of an entry into a mode: locks, the end of a Bind-off, and the end of the boundary scan. -/
def Dev.enterMode (m : Mode) (d : Dev) : Dev :=
  let d0 : Dev := { d with glb := { d.glb with mode := m } }
  let d1 := d0.intCause 4
  match m with
  | .service =>
    let d2 := if d.glb.mode = .test then (d1.sf R.STW_TEST_CFG ⟨0, 1⟩ 0).bscanUpdate else d1
    (({ d2 with glb := { d2.glb with accLocked := true, skeinLocked := true, bindoff := .none } }).chainLock true).releaseAll
  | .recovery => ({ d1 with glb := { d1.glb with skeinLocked := false } }).chainLock false
  | _ => d1

/-- A Bind-off starts; with one in force nothing changes (R63). -/
def Dev.bindoffStart (d : Dev) : Dev :=
  if d.glb.bindoff = .none then { d with glb := { d.glb with bindoff := .inProgress } } else d

/-- A write of GLB_SERVICE. -/
def Dev.serviceWrite (v : Word) (d : Dev) : Dev :=
  let d0 := if fld v F.GLB_SERVICE_REFUSED = 1 then d.sb R.GLB_SERVICE F.GLB_SERVICE_REFUSED false else d
  if fld v F.GLB_SERVICE_KEY ≠ 0x5E then d0
  else
    let req := fld v F.GLB_SERVICE_REQ
    let d1 := if req = 7 then d0
      else match modeOf req with
        | some m => if d0.mayEnter m then d0.enterMode m else d0.sb R.GLB_SERVICE F.GLB_SERVICE_REFUSED true
        | none => d0.sb R.GLB_SERVICE F.GLB_SERVICE_REFUSED true
    if fld v F.GLB_SERVICE_BINDOFF = 1 then d1.bindoffStart else d1

/-- Whether every dispatched item has ended and every Hook transfer has completed. -/
def Dev.bindoffReady (d : Dev) : Bool :=
  (List.range 256).all (fun e => (d.eng e).item.isNone && (d.eng e).deque.isEmpty) &&
    (List.range 16).all (fun ch => (d.hookCh ch).state == .idle)

/-- BINDOFF_COMPLETE. -/
def Dev.bindoffDone (d : Dev) : Dev :=
  if d.glb.bindoff = .inProgress ∧ d.bindoffReady = true then
    ({ d with glb := { d.glb with bindoff := .done } }).intCause 3
  else d

/-! The global interrupt (R72). -/

/-- A software write of GLB_INT_STATUS or GLB_INT_EN: vector 0 is sent again while the value is non-zero. -/
def Dev.intWrite (en : Bool) (v : Word) (d : Dev) : Dev :=
  let d1 := d.plainWrite (if en then R.GLB_INT_EN else R.GLB_INT_STATUS) v
  if d1.intPending = 0 then d1 else d1.message 0

/-! Live registers (R65). -/

/-- GLB_STATUS as it reads. -/
def Dev.glbStatus (d : Dev) : Word :=
  BitVec.ofNat 32 (ofBits [(d.b R.GLB_CASTON F.GLB_CASTON_DONE, 31), (d.glb.bindoff == .done, 30), (d.glbErr != 0, 29),
    (d.hostListens, 28), (d.glb.floor, 20)] + d.level * 2 ^ 21 + d.glb.mode.code * 2 ^ 18)

/-! The commands. -/

def execShedRaise (p : Pressure) (s : State) : Host.Outcome State Fault Refusal := s.run fun d => d.pressureUp p

def execShedRaiseIntervalExpiry (s : State) : Host.Outcome State Fault Refusal := s.run fun d => d.shedInterval

def execShedLowerExpiry (s : State) : Host.Outcome State Fault Refusal := s.run fun d => d.shedLower

def execEngineBacklogDeadline (s : State) : Host.Outcome State Fault Refusal := s.run fun d => d.pressureUp .engine

def execSkeinPressureWindow (s : State) : Host.Outcome State Fault Refusal := s.run fun d => d.skeinWindow

/-- SERVICE_MODE_REQUEST: a write of GLB_SERVICE. -/
def execServiceModeRequest (v : Word) (s : State) : Host.Outcome State Fault Refusal := s.run fun d => d.serviceWrite v

/-- BINDOFF_START: a keyed write of GLB_SERVICE with BINDOFF and no mode request. -/
def execBindoffStart (s : State) : Host.Outcome State Fault Refusal := s.run fun d => d.serviceWrite 0x5E00000F

def execBindoffComplete (s : State) : Host.Outcome State Fault Refusal := s.run fun d => d.bindoffDone

def execGlbIntWrite (en : Bool) (v : Word) (s : State) : Host.Outcome State Fault Refusal := s.run fun d => d.intWrite en v

end Sys2Proof.Machine
end

