-- ==== Sys2Proof/Machine/Link.lean ====
section
/-! DEFINITION. The host endpoint (spec/15): configuration writes, completions and timeouts, MSI-X unmasking and INTx, BAR2 windows,
the link, function resets and power states of the function. -/

namespace Sys2Proof.Machine

/-! The end of outbound requests (R522 to R525). -/

/-- The header of the first uncorrectable error is kept (R541). -/
def Dev.logHeader (hdr : List Byte) (d : Dev) : Dev :=
  d.modHost fun x => { x with hdrLog := some (x.hdrLog.getD hdr) }

/-- The cause of ERROR for a ring whose access fails to be translated (R537): 1 a descriptor fetch, 3 a completion write, else 2. -/
def Dev.xlateCause (r iova : Nat) (write : Bool) (d : Dev) : Nat :=
  let x := d.ring r
  if !write then 1 else if x.cbase ≤ iova ∧ iova < x.cbase + 32 * 2 ^ x.clog then 3 else 2

/-- A translation fails its access (R525). -/
def Dev.xlateFail (iova : Nat) (write : Bool) (user : AtsUser) (d : Dev) : Dev :=
  let d1 := (d.bump R.HOST_CNT4 F.HOST_CNT4_XLATE_FAIL_CNT 1).hostErr 4
  match user with
  | .ring r => d1.ringError r (d.xlateCause r iova write)
  | .hook ch =>
    let x := d.hookCh ch
    if write then d1.hookFail ch 8 x.wrote (2 ^ 63 + iova) else d1.hookReadFail ch 7 x.next (2 ^ 63 + iova)

/-- An outstanding request fails to its requester. -/
def Dev.failReq (q : OutReq) (d : Dev) : Dev :=
  match q.kind with
  | .desc r _ => (d.modRing r fun x => { x with fetching := 0 }).ringError r 1
  | .hook ch first => d.hookReadFail ch 7 first (2 ^ 63 + q.addr)
  | .xlate iova write user => d.xlateFail iova write user

def Dev.dropReq (tag : Nat) (d : Dev) : Dev := d.modHost fun x => { x with reqs := x.reqs.filter (fun q => q.tag ≠ tag) }

/-- Read data of a Hook burst: the piece is kept by its place in the burst. -/
def HookBurst.arrive (b : HookBurst) (pos : Nat) (bytes : List Byte) : HookBurst := { b with parts := b.parts ++ [(pos, bytes)] }

/-- Data for a Hook channel's read of the burst at `first`; `barrierMark` stands for the read of R492. -/
def Dev.hookData (ch first iova : Nat) (bytes : List Byte) (d : Dev) : Dev :=
  let x := d.hookCh ch
  if first = barrierMark then (d.modHook ch fun y => { y with remote := y.remote - 1 }).hookAdvance ch
  else
    let base := x.readDa first
    d.modHook ch fun y =>
      { y with bursts := y.bursts.map (fun b => if b.first = first then b.arrive (2 ^ 63 + iova - base) bytes else b) }

/-- COMPLETION_RECEIVE (R523, R524, R525): a read's data may come in several completions. `hdr` is the completion's header. -/
def Dev.completionIn (tag : Nat) (c : Completion) (hdr : List Byte) (d : Dev) : Dev :=
  match d.host.reqs.find? (fun q => q.tag == tag) with
  | none =>
    (((d.bump R.HOST_CNT0 F.HOST_CNT0_LATE_CPL_CNT 1).hostErr 1).errorMessage 0).logHeader hdr
  | some q =>
    let bad := fun (y : Dev) => ((y.dropReq tag).bump R.HOST_CNT1 F.HOST_CNT1_CPL_ERR_CNT 1).hostErr 2
    match c with
    | .failed => (bad d).failReq q
    | .poisoned => (((bad d).errorMessage 1).logHeader hdr).failReq q
    | .data bytes =>
      match q.kind with
      | .desc r n => if bytes.length = q.len then (d.dropReq tag).descData r n bytes else d
      | .hook ch first =>
        if q.len ≤ bytes.length then (d.dropReq tag).hookData ch first q.addr (bytes.take q.len)
        else
          (d.modHost fun x => { x with reqs := x.reqs.map (fun z =>
            if z.tag = tag then { z with addr := z.addr + bytes.length, len := z.len - bytes.length } else z) }).hookData ch first q.addr bytes
      | .xlate .. => d
    | .translation base size target read write =>
      match q.kind with
      | .xlate iova w user =>
        let d1 := d.dropReq tag
        if (if w then write else read) && decide (base ≤ iova) && decide (iova < base + size) then
          d1.atsInsert { base := base, size := size, target := target, read := read, write := write }
        else d1.xlateFail iova w user
      | _ => d

/-- COMPLETION_TIMEOUT (R522). -/
def Dev.completionTimeout (tag : Nat) (d : Dev) : Dev :=
  let t := ctoNs d.host.cfg.ctoSub
  match d.host.reqs.find? (fun q => q.tag == tag) with
  | some q =>
    if d.host.cfg.ctoOff ∨ d.now < q.sent + t then d
    else
      let d1 := (((d.dropReq tag).errorMessage 1).bump R.HOST_CNT0 F.HOST_CNT0_CTO_CNT 1).hostErr 0
      (d1.modHost fun x => { x with quar := x.quar ++ [(tag, d.now + 2 * t)] }).failReq q
  | none => d

/-! Messages that wait (R539, R540). -/

/-- Every pending message that its masks let go is sent, or waits until messages can leave. -/
def Dev.msixRelease (d : Dev) : Dev :=
  if !d.host.msixEn then d
  else
    let go := d.host.pba.filter (fun v => !d.msixMasked v)
    go.foldl (fun (y : Dev) v => y.message v) (d.modHost fun x => { x with pba := x.pba.filter (fun v => !go.contains v) })

/-- Messages and deliveries that waited for the link, D0 or Bus Master Enable go on. -/
def Dev.hostResume (d : Dev) : Dev :=
  let d1 := if d.canSend then
      d.host.msgWait.foldl (fun (y : Dev) v => y.message v) (d.modHost fun x => { x with msgWait := [] })
    else d
  let d2 := if d1.canRequest then (List.range 64).foldl (fun (y : Dev) r => (y.flushReturns r).revokeEnd r) d1 else d1
  if d2.deliveryHolds then d2 else d2.releaseAll

/-- MSIX_UNMASK: the mask bit of a vector's table entry is cleared. -/
def Dev.msixUnmask (v : Nat) (d : Dev) : Dev :=
  let dflt := fun (i : Nat) => if i % 4 = 3 then (1 : Word) else 0
  (d.modHost fun x => { x with msix := x.msix.set dflt (4 * v + 3) (x.msix.get dflt (4 * v + 3) &&& 0xFFFFFFFE#32) }).msixRelease

/-- A write of HOST_INTX_PEND(i). -/
def Dev.intxPendWrite (i : Nat) (v : Word) (d : Dev) : Dev := (d.plainWrite (R.HOST_INTX_PEND i) v).intxUpdate

/-! Configuration writes (R511, R544, R547). -/

/-- WAKE# is released. -/
def Dev.wakeRelease (d : Dev) : Dev :=
  if d.host.wakeLow then (d.modHost fun x => { x with wakeLow := false }).emit (.wakePin false) else d

def Dev.modCfg (g : CfgSpace → CfgSpace) (d : Dev) : Dev := d.modHost fun x => { x with cfg := g x.cfg }

/-- The effect of one item of configuration space. -/
def Dev.cfgItem (i : CfgItem) (d : Dev) : Dev :=
  match i with
  | .maxPayload n => d.modCfg fun c => { c with mps := max 128 (min 512 n) }
  | .maxReadRequest n => d.modCfg fun c => { c with mrrs := max 128 (min 4096 n) }
  | .relaxedOrdering v => d.modCfg fun c => { c with relax := v }
  | .timeoutRange n => d.modCfg fun c => { c with ctoSub := n % 16 }
  | .timeoutDisable v => d.modCfg fun c => { c with ctoOff := v }
  | .tag10 v => d.modCfg fun c => { c with tag10 := v }
  | .busMaster v => (d.modHost fun x => { x with bme := v }).hostResume
  | .intxDisable v => (d.modHost fun x => { x with intxDis := v }).intxUpdate
  | .msixEnable v => (d.modHost fun x => { x with msixEn := v }).intxUpdate.msixRelease
  | .functionMask v => (d.modHost fun x => { x with fnMask := v }).msixRelease
  | .atsEnable v stu =>
    (d.modCfg fun c => { c with atsEn := v, stu := stu % 32 }).modHost fun x => { x with ats := if v then x.ats else [] }
  | .pmeEnable v => d.modCfg fun c => { c with pmeEn := v }
  | .pmeClear => (d.modCfg fun c => { c with pmeStat := false }).wakeRelease
  | .errorReporting a b c => d.modCfg fun k => { k with errCor := a, errNon := b, errFat := c }

/-- CONFIG_WRITE: answered with Retry Status while a function-level reset lasts (R544). -/
def Dev.configWrite (i : CfgItem) (d : Dev) : Dev :=
  if d.host.perst ∨ !d.host.dlUp then d else if d.host.flrBusy then d.emit (.completionError true) else d.cfgItem i

/-! BAR2 windows (R517 to R519). -/

/-- A write of HOST_WIN_APPLY: the shadows are in use from the next TLP on. -/
def Dev.winApply (v : Word) (d : Dev) : Dev :=
  if fld v ⟨0, 1⟩ = 0 then d
  else
    let d1 := (List.range 16).foldl (fun (y : Dev) w => y.wr (R.HOST_WIN w) (y.rd (R.HOST_WIN_SHADOW w))) d
    let next := ((d.rd R.HOST_RX_SEQ).toNat + 1) % 2 ^ 32
    if d.host.winPend.isSome then (d1.modHost fun x => { x with applySeq := next }).hostErr 13
    else (d1.sb R.HOST_WIN_STATUS F.HOST_WIN_STATUS_PENDING true).modHost fun x => { x with winPend := some d.now, applySeq := next }

/-- Within 100 ns of the request the boundary is reported. -/
def Dev.winDone (d : Dev) : Dev :=
  match d.host.winPend with
  | some t =>
    if d.now < t + 100 then d
    else
      (((d.wr R.HOST_WIN_APPLY_SEQ (BitVec.ofNat 32 d.host.applySeq)).sb R.HOST_WIN_STATUS F.HOST_WIN_STATUS_PENDING false).sb
        R.HOST_WIN_STATUS F.HOST_WIN_STATUS_APPLIED true).modHost fun x => { x with winPend := none }
  | none => d

/-! The link (R513, R542). -/

/-- HOST_LINK is published and its cause set. -/
def Dev.linkEvent (d : Dev) : Dev := (d.publish Src.hostLink 0).intCause 7

/-- The link leaves L0. -/
def Dev.leaveL0 (d : Dev) : Dev := if d.host.l0 then (d.modHost fun x => { x with l0 := false }).linkEvent else d

/-- LINK_ENTER_L0: rate, width and mode are those of the last completed training. -/
def Dev.enterL0 (rate width : Nat) (flit : Bool) (d : Dev) : Dev :=
  if d.host.perst then d
  else
    let d1 := (d.modHost fun x =>
      { x with ltssm := true, l1 := false, dlUp := true, l0 := true, rate := rate, width := width, flit := flit }).disarm .recovery
    if d.host.l0 then d1 else d1.linkEvent.hostResume

/-- LINK_RECOVERY_START. -/
def Dev.recoveryStart (d : Dev) : Dev :=
  if d.host.dlUp ∧ (d.host.ltssm ∨ d.host.l1) then
    ((d.modHost fun x => { x with ltssm := false, l1 := false }).bump R.HOST_CNT2 F.HOST_CNT2_RECOVERY_CNT 1).arm .recovery
      (d.now + 1000000)
  else d

/-- LINK_RECOVERY_TIMEOUT. -/
def Dev.recoveryTimeout (d : Dev) : Dev := if d.due .recovery then (d.disarm .recovery).leaveL0 else d

/-! Function resets (R543 to R546). -/

/-- HOST registers that a function reset keeps: HOST_ERR, the counters and HOST_RX_SEQ. -/
def hostKept (off : Nat) : Bool :=
  off == R.HOST_ERR || (decide (R.HOST_CNT0 ≤ off) && decide (off ≤ R.HOST_CNT5)) || off == R.HOST_RX_SEQ ||
    (decide (R.HOST_RING_CNT 0 ≤ off) && decide (off ≤ R.HOST_RING_CNT 63) && (off - R.HOST_RING_CNT 0) % 64 == 0)

def inHost (off : Nat) : Bool := decide (0x380000 ≤ off) && decide (off < 0x390000)

/-- The parcel a ring has in progress is abandoned. -/
def Dev.abandonRing (r : Nat) (d : Dev) : Dev :=
  let x := d.ring r
  let p : Option Parcel := match x.piece, x.rest with
    | some q, _ => some q.parcel
    | none, some (q, _, _) => some q
    | none, none => none
  let d1 := match p with
    | some q =>
      let y := d.abandonFrame q
      if q.kind = ParcelKind.crop then y.freeCrop q.cam q.seq else y
    | none => d
  d1.setRing r Ring.init

/-- The function reaches D0 (R547, R618). -/
def Dev.toD0 (d : Dev) : Dev :=
  if d.host.d0 then d
  else
    let d1 := (d.modHost fun x => { x with d0 := true }).wakeRelease
    if d1.b R.PWR_WATCH_CFG F.PWR_WATCH_CFG_ON_D3 then d1.exitCause 2 else d1

/-- The reset state of the function (R544). -/
def Dev.functionReset (d : Dev) : Dev :=
  let d1 := (List.range 64).foldl (fun (y : Dev) r => y.abandonRing r) d
  let d2 := d1.withBlkErr 12 fun y =>
    { y with regs := y.regs.keep (fun k => !inHost k || hostKept k), held := y.held.filter (fun p => !inHost p.1),
             latch := y.latch.filter (fun p => !inHost p.1) }
  let d3 := d2.modHost fun x =>
    { x with cfg := { CfgSpace.init with subsys := x.cfg.subsys }, msix := [], pba := [], msgWait := [], hdrLog := none, ats := [],
             invals := [], bme := false, msixEn := false, fnMask := false, intxDis := false, winPend := none, applySeq := 0 }
  d3.intxUpdate.hookReset

/-- The function enters D3hot or D3cold (R542, R617). -/
def Dev.toD3 (d : Dev) : Dev :=
  if !d.host.d0 then d
  else
    let d1 := d.modHost fun x => { x with d0 := false }
    if d1.b R.PWR_WATCH_CFG F.PWR_WATCH_CFG_ON_D3 then d1.watchRequest else d1

/-- What a data link that goes down does (R543). -/
def Dev.linkDown (d : Dev) : Dev :=
  if !d.host.dlUp then d
  else
    let d1 := d.host.reqs.foldl (fun (y : Dev) q => (y.dropReq q.tag).failReq q) d
    let d2 := (d1.modHost fun x =>
      { x with reqs := [], quar := [], dlUp := false, l0 := false, l1 := false, ltssm := false, flrBusy := false, intA := false }).disarm .recovery
    let d3 := ((d2.functionReset.bump R.HOST_CNT2 F.HOST_CNT2_LINK_DOWN_CNT 1).hostErr 10).linkEvent
    d3.logEvent 5 12 0

/-- FUNCTION_LEVEL_RESET (R544). -/
def Dev.flr (d : Dev) : Dev :=
  if d.host.perst ∨ !d.host.dlUp ∨ d.host.flrBusy then d
  else
    let t := ctoNs d.host.cfg.ctoSub
    let tags := d.host.reqs.map (fun q => (q.tag, d.now + 2 * t))
    let d1 := d.host.reqs.foldl (fun (y : Dev) q => (y.dropReq q.tag).failReq q) d
    let d2 := (d1.modHost fun x => { x with reqs := [], quar := x.quar ++ tags, flrBusy := true }).functionReset
    (d2.hostErr 11).toD0

/-- PERST_ASSERT (R545, R546): the data link goes down and the function is in D3cold. -/
def Dev.perstAssert (d : Dev) : Dev :=
  if d.host.perst then d else d.linkDown.toD3.modHost fun x => { x with perst := true, ltssm := false, l1 := false, flrBusy := false }

/-- PERST_DEASSERT (R544). -/
def Dev.perstDeassert (d : Dev) : Dev :=
  if d.host.perst then ((d.modHost fun x => { x with perst := false }).functionReset).toD0 else d

/-- D_STATE_CHANGE between D0 and D3hot (R546): in D3hot the link enters L1. -/
def Dev.dState (d3 : Bool) (d : Dev) : Dev :=
  if d.host.perst ∨ !d.host.dlUp ∨ d.host.flrBusy then d
  else if d3 then
    if !d.host.d0 then d else (d.toD3.leaveL0.modHost fun x => { x with ltssm := false, l1 := true }).disarm .recovery
  else if d.host.d0 then d else d.toD0.hostResume

/-! Live registers (R550, R551). -/

/-- HOST_STATUS as it reads. -/
def Dev.hostStatus (d : Dev) : Word :=
  let h := d.host
  BitVec.ofNat 32 (ofBits [(h.l0, 31), (h.dlUp, 30), (h.dlUp && h.flit, 29), (h.flrBusy, 18), (h.msixEn, 17), (h.intA, 16)]
    + (if h.dlUp then h.rate * 2 ^ 26 + h.width * 2 ^ 21 else 0) + (if h.d0 then 0 else 3 * 2 ^ 19))

/-- HOST_TAGQ as it reads. -/
def Dev.hostTagq (d : Dev) : Word := BitVec.ofNat 32 (d.host.reqs.length * 2 ^ 16 + d.host.quar.length)

/-! The commands. -/

def execConfigWrite (i : CfgItem) (s : State) : Host.Outcome State Fault Refusal := s.run fun d => d.configWrite i

/-- WIN_APPLY: a write of HOST_WIN_APPLY. -/
def execWinApply (v : Word) (s : State) : Host.Outcome State Fault Refusal := s.run fun d => d.winApply v

def execCompletionReceive (tag : Nat) (c : Completion) (hdr : List Byte) (s : State) : Host.Outcome State Fault Refusal :=
  s.run fun d => d.completionIn tag c hdr

def execCompletionTimeout (tag : Nat) (s : State) : Host.Outcome State Fault Refusal := s.run fun d => d.completionTimeout tag

def execMsixUnmask (v : Fin 256) (s : State) : Host.Outcome State Fault Refusal := s.run fun d => d.msixUnmask v

def execIntxPendWrite (i : Fin 8) (v : Word) (s : State) : Host.Outcome State Fault Refusal := s.run fun d => d.intxPendWrite i v

def execLinkEnterL0 (rate : Fin 7) (width : Fin 17) (flit : Bool) (s : State) : Host.Outcome State Fault Refusal :=
  s.run fun d => d.enterL0 rate width flit

def execLinkRecoveryStart (s : State) : Host.Outcome State Fault Refusal := s.run fun d => d.recoveryStart

def execLinkRecoveryTimeout (s : State) : Host.Outcome State Fault Refusal := s.run fun d => d.recoveryTimeout

/-- DATA_LINK_DOWN: the reset state of the function is D0. -/
def execDataLinkDown (s : State) : Host.Outcome State Fault Refusal := s.run fun d => if d.host.dlUp then d.linkDown.toD0 else d

def execFunctionLevelReset (s : State) : Host.Outcome State Fault Refusal := s.run fun d => d.flr

/-- FLR_DONE: the function answers configuration requests again. -/
def execFlrDone (s : State) : Host.Outcome State Fault Refusal := s.run fun d => d.modHost fun x => { x with flrBusy := false }

def execDStateChange (d3 : Bool) (s : State) : Host.Outcome State Fault Refusal := s.run fun d => d.dState d3

def execPerstAssert (s : State) : Host.Outcome State Fault Refusal := s.run fun d => d.perstAssert

def execPerstDeassert (s : State) : Host.Outcome State Fault Refusal := s.run fun d => d.perstDeassert

end Sys2Proof.Machine
end

