-- ==== Sys2Proof/Machine/Reset.lean ====
section
/-! DEFINITION. Resets and Cast-on (R588 to R595, R615): what a cold reset and a device reset keep, the release, and the completion of
Cast-on. -/

namespace Sys2Proof.Machine

/-- Bit of STW_RESET_CAUSE. -/
def causeBit (c : ResetCause) : Nat :=
  match c with
  | .powerOn => 5
  | .porstPin => 4
  | .brownout => 3
  | .rstPin => 2
  | .sw => 1
  | .wdog => 0

/-- Whether a cause makes a cold reset. -/
def causeCold (c : ResetCause) : Bool := c == .powerOn || c == .porstPin || c == .brownout

/-- What the Steward keeps through any reset: the NVM, with the log's position in it, and the test port. -/
def StwSt.afterReset (x : StwSt) (cold : Bool) (now : Nat) : StwSt :=
  { StwSt.init with
    boot := .held, since := now, cold := cold, nvm := x.nvm, logSeq := x.logSeq, logAt := x.logAt, sector := x.sector,
    retired := x.retired, ir := if x.ir = .extest ∨ x.ir = .clamp ∨ x.ir = .highz then .bypass else x.ir, bsr := x.bsr,
    acc := { x.acc with busy := none } }

/-- A reset ends a thermal trip. -/
def Dev.endTrip (d : Dev) : Dev := if d.pwr.trip then d.emit (.thermTrip false) else d

/-- A cold reset drops every connection's power (R588). -/
def Dev.dropPower (d : Dev) : Dev :=
  d.cll.conns.foldl (fun (y : Dev) p => if p.2.pwrOn then y.emit (.cxpPower p.1 false) else y) d

/-- COLD_RESET: everything but the NVM; an NVM operation leaves its first `done` bytes made (R603). -/
def Dev.coldReset (c : ResetCause) (done : Nat) (d : Dev) : Dev :=
  if !causeCold c then d
  else
    let d1 := (d.nvmReset done).endTrip.dropPower
    { Dev.init with
      now := d.now, free := d.free, outbox := d1.outbox, regs := [(R.STW_RESET_CAUSE, BitVec.ofNat 32 (2 ^ causeBit c))],
      host := { HostSt.init with perst := d.host.perst }, stw := d1.stw.afterReset true d.now }

/-- What stands at a connection's pins through a device reset: the level of CXP_PWR_EN(n) (R218), loss of signal, the fault pin and the
current. -/
def Conn.afterReset (x : Conn) : Conn := { Conn.init with los := x.los, pwrOn := x.pwrOn, fltPin := x.fltPin, current := x.current }

/-- The registers a device reset keeps: STW_BOOT_CNT, STW_RESET_CAUSE, and what R544 keeps of the HOST block. -/
def deviceKept (off : Nat) : Bool := off == R.STW_BOOT_CNT || off == R.STW_RESET_CAUSE || (inHost off && hostKept off)

/-- A device reset adds its cause; the first one stops every block (R589, R590). -/
def Dev.deviceReset (c : ResetCause) (done : Nat) (d : Dev) : Dev :=
  let d1 := d.sf R.STW_RESET_CAUSE (bitF (causeBit c)) 1
  if d.stw.boot = .held then d1
  else
    let d2 := (d1.nvmReset done).endTrip
    let h := d.host
    let t := ctoNs h.cfg.ctoSub
    { Dev.init with
      now := d.now, ts := d.ts, free := d.free, outbox := d2.outbox, regs := d2.regs.keep deviceKept,
      trig := { TrigSt.init with
        supply := d.trig.supply,
        inputs := d.trig.inputs.map (fun p => (p.1, { TrigInput.init with level := p.2.level, accepted := p.2.level })) },
      cll := { CllSt.init with conns := (d.cll.conns.map (fun p => (p.1, p.2.afterReset))).filter (fun p => p.2 ≠ Conn.init) },
      host := { HostSt.init with
        l0 := h.l0, ltssm := h.ltssm, l1 := h.l1, dlUp := h.dlUp, rate := h.rate, width := h.width, flit := h.flit, perst := h.perst,
        d0 := !h.perst, quar := h.quar ++ h.reqs.map (fun q => (q.tag, d.now + 2 * t)) },
      skein := { SkeinSt.init with mem := d.skein.mem, bad := d.skein.bad, inited := d.skein.inited },
      stw := d2.stw.afterReset false d.now }

/-- RESET_RELEASE: after 10 µs, once the pins are released, Cast-on starts; ts restarts at 0 after a cold reset. -/
def Dev.resetRelease (d : Dev) : Dev :=
  if d.stw.boot ≠ .held ∨ d.now < d.stw.since + 10000 then d
  else
    let d1 := d.modStw fun x => { x with boot := .caston, since := d.now }
    if d.stw.cold then { d1 with ts := 0 } else d1

/-! Cast-on. -/

/-- Skein's training (R455, R456, R599): a board table of another density makes it fail. -/
def Dev.castonSkein (rep : CastonReport) (board : Option (List Byte)) (d : Dev) : Dev :=
  let match_ := board.all (fun b => leAt b 0x14 1 == rep.density.val)
  let trained := if match_ then rep.trained.toNat else 0
  let ok := trained == 65535
  let cap := if ok then 15 * 2 ^ rep.density.val * 2 ^ 30 else 0
  let d1 := d.modSkein fun x => { x with trained := trained, cap := cap }
  if ok then d1 else (d1.skeinErr 3).logEvent 8 14 (BitVec.ofNat 64 trained)

/-- The Stash after its march test and repair (R449). -/
def Dev.castonStash (rep : CastonReport) (d : Dev) : Dev :=
  let d1 : Dev := { d with stash := { d.stash with bad := rep.badBanks, fixed := rep.fixBanks, scrOff := rep.scrOff, scrFix := rep.scrFix } }
  let d2 := rep.badBanks.foldl (fun (y : Dev) k => y.sf (R.STASH_BANK_OWN (k / 16) (k % 16)) F.STASH_BANK_OWN_OWNER 0xFE) d1
  if rep.badBanks.isEmpty then d2 else d2.err 15 R.STASH_ERR 3

/-- The board table is applied (R599). -/
def Dev.applyBoard (b : List Byte) (d : Dev) : Dev :=
  let oc := leAt b 0x20 2
  let d1 := (List.range 48).foldl (fun (y : Dev) n =>
    let y1 := y.sb (R.CLL_PWR n) F.CLL_PWR_EN (bitOf (leAt b 0x18 8) n)
    let y2 := if oc = 0 then y1 else y1.sf (R.CLL_PWR n) F.CLL_PWR_OC_LIMIT oc
    y2.sf (R.CLL_EQ n) F.CLL_EQ_CLASS (leAt b (0x28 + n) 1)) d
  let d2 := d1.bankChange fun y => y.sf R.TRIG_BANK_CFG F.TRIG_BANK_CFG_STD (leAt b 0x22 1)
  let panel := leAt b 0x23 1
  let d3 := (d2.sb R.CLL_PNL_CFG F.CLL_PNL_CFG_EN (bitOf panel 0)).sb R.CLL_PNL_CFG F.CLL_PNL_CFG_BTN_POL (bitOf panel 1)
  (d3.wr R.STW_BOARD_SEQ (BitVec.ofNat 32 (leAt b 8 4))).modCfg fun c => { c with subsys := leAt b 0x10 4 }

/-- The slot loaded is recorded. -/
def Dev.castonSlot (c : Option CommitRec) (d : Dev) : Dev :=
  match c with
  | some r => (d.wr R.STW_IMAGE_VER (BitVec.ofNat 32 r.version)).wr R.STW_COMMIT_SEQ (BitVec.ofNat 32 r.seq)
  | none => d

/-- CASTON_COMPLETE (R592, R594). -/
def Dev.caston (rep : CastonReport) (d : Dev) : Dev :=
  if d.stw.boot ≠ .caston then d
  else
    let choice := if rep.nvm then d.stw.chooseSlot else (none, 3)
    let slot := (choice.1.map (fun r => r.slot % 2)).getD 0
    let board := if rep.nvm then d.stw.board.map (·.2) else none
    let d1 := (d.modStw fun x => { x with boot := .done, boardOk := board.isSome, nvmOk := rep.nvm }).modPwr fun x => { x with pmbus := rep.pmbus }
    let d2 := (d1.castonStash rep).castonSkein rep board
    let d3 := match board with
      | some b => d2.applyBoard b
      | none => d2
    let d4 : Dev := { d3 with cll := { d3.cll with pwrReady := true } }
    let d5 := (List.range 48).foldl (fun (y : Dev) n => y.powerUpdate n) d4
    let d6 := (((d5.castonSlot choice.1).sb R.GLB_CASTON F.GLB_CASTON_DONE true).sf R.GLB_CASTON F.GLB_CASTON_RESULT choice.2).sf
      R.GLB_CASTON F.GLB_CASTON_SLOT slot
    let d7 := d6.intCause 2
    let d8 := if d7.f R.GLB_CASTON F.GLB_CASTON_EARLY_WR = 0 then d7 else d7.glbErrSet 3
    let us := (d.now - d.stw.since) / 1000
    let d9 := (d8.wr R.STW_CASTON_TIME (BitVec.ofNat 32 us)).count R.STW_BOOT_CNT whole 1
    let d10 := (d9.logEvent 1 1 ((d.rd R.STW_RESET_CAUSE).setWidth 64)).logEvent 2 1
      (BitVec.ofNat 64 (us % 2 ^ 32 * 2 ^ 32 + slot * 8 + choice.2))
    if choice.2 = 0 then d10 else d10.stwErr 0

/-- Whether a block decodes: with NO_IMAGE only GLB, STW, HOST and SKEIN do (R595). -/
def Dev.blockDecodes (b : Nat) (d : Dev) : Bool :=
  d.f R.GLB_CASTON F.GLB_CASTON_RESULT != 3 || b == 0 || b == 1 || b == 12 || b == 14

/-! The commands. -/

def execColdReset (c : ResetCause) (done : Nat) (s : State) : Host.Outcome State Fault Refusal := s.run fun d => d.coldReset c done

/-- DEVICE_RESET: SYS_RST_N low for 1 µs or more (R588). -/
def execDeviceReset (done : Nat) (s : State) : Host.Outcome State Fault Refusal := s.run fun d => d.deviceReset .rstPin done

/-- STW_RESET: a write of the register (R589). -/
def execStwReset (v : Word) (done : Nat) (s : State) : Host.Outcome State Fault Refusal :=
  s.run fun d => if fld v F.STW_RESET_KEY = 0xA7 ∧ fld v F.STW_RESET_DEVICE = 1 then d.deviceReset .sw done else d

def execStewardWdogExpire (done : Nat) (s : State) : Host.Outcome State Fault Refusal := s.run fun d => d.deviceReset .wdog done

def execResetRelease (s : State) : Host.Outcome State Fault Refusal := s.run fun d => d.resetRelease

def execCastonComplete (rep : CastonReport) (s : State) : Host.Outcome State Fault Refusal := s.run fun d => d.caston rep

end Sys2Proof.Machine
end

