-- ==== Sys2Proof/Machine/Bus.lean ====
section
/-! DEFINITION. Register reads and writes with the effects that their rows add (R13 to R17), access checks (R56 to R60, R70), reads
and writes of BAR0 and of device addresses by any master, and inbound memory requests of the host (R514 to R519). -/

namespace Sys2Proof.Machine

/-! Registers by offset. -/

/-- The instance of a repeated register that an offset selects. -/
def inst (base stride n off : Nat) : Option Nat :=
  if base ≤ off ∧ off < base + stride * n ∧ (off - base) % stride = 0 then some ((off - base) / stride) else none

/-- The first row whose register an offset selects. -/
def pick {α : Type} (off : Nat) (rows : List (Nat × Nat × Nat × (Nat → α))) : Option α :=
  rows.findSome? fun r => (inst r.1 r.2.1 r.2.2.1 off).map r.2.2.2

/-- A free number of `w` bits for what the bus does not tell. -/
def Dev.freshNat (w : Nat) (d : Dev) : Nat × Dev := ((d.fresh w).1.toNat, (d.fresh w).2)

/-- A free bit. -/
def Dev.freshBit (d : Dev) : Bool × Dev := ((d.freshNat 1).1 == 1, (d.freshNat 1).2)

/-- Applies each of the effects whose bit is set, in ascending order of the bits. -/
def eachBit (v : Word) (acts : List (Nat × (Dev → Dev))) (d : Dev) : Dev :=
  acts.foldl (fun y a => if bitOf v.toNat a.1 then a.2 y else y) d

/-! Writes. -/

/-- Registers of GLB to TRIG with effects of their own. -/
def Dev.writeTop (off : Nat) (v : Word) (d : Dev) : Option Dev :=
  pick off [
    (R.GLB_SERVICE, 4, 1, fun _ => d.serviceWrite v),
    (R.GLB_INT_STATUS, 4, 1, fun _ => d.intWrite false v),
    (R.GLB_INT_EN, 4, 1, fun _ => d.intWrite true v),
    (R.STW_RESET, 4, 1, fun _ =>
      if fld v F.STW_RESET_KEY = 0xA7 ∧ fld v F.STW_RESET_DEVICE = 1 then (d.freshNat 32).2.deviceReset .sw (d.freshNat 32).1 else d),
    (R.STW_NVM_CMD, 4, 1, fun _ => d.nvmCmdWrite v),
    (R.STW_LOG_CTL, 4, 1, fun _ => if bitOf v.toNat 0 then d.logFlush else d),
    (R.STW_TEST_CFG, 4, 1, fun _ => (d.plainWrite R.STW_TEST_CFG v).bscanUpdate),
    (R.PWR_CTL, 4, 1, fun _ => d.pwrCtlWrite v),
    (R.PWR_HK_URGENT, 4, 1, fun _ => d.hkUrgent v),
    (R.CHAIN_IRQ_STATUS + 4, 4, 1, fun _ => (d.plainWrite (R.CHAIN_IRQ_STATUS + 4) v).irqResend),
    (R.CHAIN_IRQ_EN + 4, 4, 1, fun _ => (d.plainWrite (R.CHAIN_IRQ_EN + 4) v).irqResend),
    (R.CHAIN_CTR_VAL 0, 16, 16, fun k => d.ctrValWrite k v),
    (R.GAUGE_SNAP, 4, 1, fun _ => if bitOf v.toNat 0 then d.snapRequest else d),
    (R.GAUGE_CHECK_CFG, 4, 1, fun _ => d.checkCfgWrite v),
    (R.GAUGE_AXIS_CFG 0, 256, 4, fun a => d.axisCfgWrite a v),
    (R.GAUGE_AXIS_CTL 0, 256, 4, fun a =>
      eachBit v [(0, fun y => y.zeroRequest a), (1, fun y => y.scaleRequest a), (2, fun y => y.corrLoad a)] d),
    (R.GAUGE_REF_CFG 0, 256, 4, fun a => d.refCfgWrite a v),
    (R.TRIG_BANK_CFG, 4, 1, fun _ => d.bankCfgWrite v),
    (R.TRIG_CMP_CTL 0, 256, 16, fun u => d.cmpCtlWrite u v),
    (R.TRIG_OUT_CFG 0, 16, 32, fun p => d.trigOutCfgWrite p v),
    (R.TRIG_LIST 0, 8, 4096, fun i => d.listWrite i false v),
    (R.TRIG_LIST 0 + 4, 8, 4096, fun i => d.listWrite i true v)]

/-- Registers of CLL to JOB with effects of their own. -/
def Dev.writeMid (off : Nat) (v : Word) (d : Dev) : Option Dev :=
  pick off [
    (R.CLL_CFG 0, 4096, 48, fun n => d.cllCfgWrite n v),
    (R.CLL_CTL 0, 4096, 48, fun n => eachBit v [(5, fun y => y.powerClear n)] (d.cllCtlWrite n v)),
    (R.CLL_PWR 0, 4096, 48, fun n => d.cllPwrWrite n v),
    (R.CLL_CTRL_CMD 0, 4096, 48, fun n => d.ctrlCmdWrite n v),
    (R.ASM_CAM_CFG 0, 2048, 48, fun c => d.freshBit.2.camCfgWrite c v d.freshBit.1),
    (R.ASM_CTL 0, 2048, 48, fun c => d.freshBit.2.asmCtlWrite c v d.freshBit.1),
    (R.CAR_CTL 0, 65536, 4, fun k => d.carCtlWrite k v),
    (R.CAR_SET_CTL 0, 256, 48, fun c => d.carSetCtlWrite c v),
    (R.STE_CFG 0, 65536, 16, fun c => d.steCfgWrite c v),
    (R.STE_CTL 0, 65536, 16, fun c => d.steCtlWrite c v),
    (R.JOB_CTL, 4, 1, fun _ => d.jobCtlWrite v)]

/-- The reserved bits last written to a register (R486). -/
def Dev.noteReserved (off : Nat) (v keep : Word) (d : Dev) : Dev :=
  { d with hook := { d.hook with resv := d.hook.resv.set (fun _ => 0) off (v &&& ~~~ keep) } }

/-- Registers of HOOK to STASH with effects of their own. -/
def Dev.writeLow (off : Nat) (v : Word) (d : Dev) : Option Dev :=
  pick off [
    (R.HOOK_CTL, 4, 1, fun _ => if bitOf v.toNat 0 then d.hookReset else d),
    (R.HOOK_IRQ_STATUS, 4, 1, fun _ => d.hookIrqWrite false v),
    (R.HOOK_IRQ_EN, 4, 1, fun _ => d.hookIrqWrite true v),
    (R.HOOK_CFG 0, 128, 16, fun ch => (d.plainWrite (R.HOOK_CFG ch) v).noteReserved (R.HOOK_CFG ch) v 0xF0F00007),
    (R.HOOK_COUNT 0 0, 128, 16, fun ch => (d.plainWrite (R.HOOK_COUNT ch 0) v).noteReserved (R.HOOK_COUNT ch 0) v 0xFFFF),
    (R.HOOK_COUNT 0 1, 128, 16, fun ch => (d.plainWrite (R.HOOK_COUNT ch 1) v).noteReserved (R.HOOK_COUNT ch 1) v 0xFFFF),
    (R.HOOK_COUNT 0 2, 128, 16, fun ch => (d.plainWrite (R.HOOK_COUNT ch 2) v).noteReserved (R.HOOK_COUNT ch 2) v 0xFFFF),
    (R.HOST_WIN_APPLY, 4, 1, fun _ => d.winApply v),
    (R.HOST_INTX_PEND 0, 4, 8, fun i => d.intxPendWrite i v),
    (R.HOST_RING_CFG 0, 64, 64, fun r => (d.freshNat 32).2.ringCfgWrite r v (d.freshNat 32).1),
    (R.HOST_RING_CTL 0, 64, 64, fun r => if bitOf v.toNat 0 then (d.freshNat 32).2.revoke r (d.freshNat 32).1 else d),
    (R.HOST_RING_DTAIL 0, 64, 64, fun r => d.dtailWrite r v),
    (R.HOST_RING_CHEAD 0, 64, 64, fun r => d.cheadWrite r v),
    (R.FAB_CFG, 4, 1, fun _ => d.fabCfgWrite v),
    (R.FAB_CTL, 4, 1, fun _ => eachBit v [(0, fun y => y.timeCap), (1, fun y => y.markTx), (2, fun y => y.clearSpare)] d),
    (R.FAB_PORT_CFG 0, 64, 4, fun p => d.fabPortCfgWrite p v),
    (R.SKEIN_CTL, 4, 1, fun _ => if bitOf v.toNat 0 then d.modSkein fun x => { x with cached := [] } else d),
    (R.SKEIN_HIST_CFG, 4, 1, fun _ => d.histCfgWrite v),
    (R.SKEIN_RETRO_CTL, 4, 1, fun _ => d.retroGo v),
    (R.STASH_TEST_CFG, 4, 1, fun _ => d.testCfgWrite v)]

/-- Registers whose write a master may be denied beyond the access tables: Chain configuration and fires, and Hook's start. -/
def Dev.writeOwned (m off : Nat) (v : Word) (d : Dev) : Option (Bool × Dev) :=
  if isChainConfig off then
    some (d.glb.mode == .service || (d.configNeeds off v).all (fun ch => d.ownsCh m ch), d.chainConfigWrite m off v)
  else if off = R.CHAIN_FIRE then
    let r := d.softFire m (v.toNat % 64)
    some (if r.1 then r else (false, d.deny m true (denyAddr m R.CHAIN_FIRE)))
  else if off = R.CHAIN_FIRE_MULTI + 4 then
    let lo := (d.heldLow R.CHAIN_FIRE_MULTI).getD 0
    some (((List.range 64).filter (fun ch => Nat.bitAt (dword v lo).toNat ch)).all (fun ch => d.mayFire m ch),
      (d.fireMulti m lo v).unhold R.CHAIN_FIRE_MULTI)
  else match inst (R.HOOK_CH_CTL 0) 128 16 off with
    | some ch => some (!(decide (0x10 ≤ m) && decide (m ≤ 0x1F)), d.hookCtlWrite m ch v)
    | none => none

/-- STASH_BANK_OWN(c,b): bank 16c + b. -/
def bankOf (off : Nat) : Option Nat :=
  if R.STASH_BANK_OWN 0 0 ≤ off ∧ off < R.STASH_BANK_OWN 15 15 + 4 ∧ off % 4 = 0 then some ((off - R.STASH_BANK_OWN 0 0) / 4) else none

/-- A write of one register word by a master that its block's access table grants: whether it is granted, and the device. -/
def Dev.regWrite (m off : Nat) (v : Word) (d : Dev) : Bool × Dev :=
  match d.writeOwned m off v with
  | some r => r
  | none => match bankOf off with
    | some k => (true, d.bankHandover k v)
    | none => match (d.writeTop off v).orElse fun _ => (d.writeMid off v).orElse fun _ => d.writeLow off v with
      | some y => (true, y)
      | none => (true, d.withBlkErr ((blockOf off).getD 0) fun y => y.plainWrite off v)

/-! Reads. -/

/-- A bit map of numbers. -/
def bitsOf (ns : List Nat) : Nat := ofBits (ns.dedup.map (fun k => (true, k)))

/-- Words that show what the Talom holds beyond its registers. -/
def Dev.liveTop (off : Nat) (d : Dev) : Option Word :=
  pick off [
    (R.GLB_STATUS, 4, 1, fun _ => d.glbStatus),
    (R.GLB_ERR, 4, 1, fun _ => d.glbErr),
    (R.STW_STATUS, 4, 1, fun _ => d.stwStatus),
    (R.STW_LOG_HEAD, 4, 1, fun _ => BitVec.ofNat 32 (d.stw.logAt.getD 0)),
    (R.STW_LOG_SEQ, 4, 1, fun _ => BitVec.ofNat 32 d.stw.logSeq),
    (R.STW_LOG_STATUS, 4, 1, fun _ => d.stwLogStatus),
    (R.PWR_STATUS, 4, 1, fun _ => d.pwrStatus),
    (R.PWR_VCORE, 4, 1, fun _ => d.pwrVcore),
    (R.PWR_HK_TRIM, 4, 1, fun _ => Config.hkTrim),
    (R.GAUGE_CHECK_STATUS, 4, 1, fun _ =>
      BitVec.ofNat 32 ((if d.gauge.checkOn then d.gauge.checkStep * 2 ^ 28 + 2 ^ 27 else 0) + d.gauge.checkCyc)),
    (R.GAUGE_AXIS_STATUS 0, 256, 4, fun a => (d.axis a).status),
    (R.GAUGE_AMP 0, 256, 4, fun a => BitVec.ofNat 32 (d.axis a).amp),
    (R.GAUGE_SPEED 0, 256, 4, fun a => BitVec.ofInt 32 ((d.axis a).selected.tdiv 65536)),
    (R.GAUGE_SPEED_P 0, 256, 4, fun a => BitVec.ofInt 32 ((d.axis a).speedP.tdiv 65536)),
    (R.GAUGE_SPEED_D 0, 256, 4, fun a => BitVec.ofInt 32 ((d.axis a).speedD.tdiv 65536)),
    (R.GAUGE_CORR_OFS 0, 256, 4, fun a => (BitVec.ofInt 16 (d.axis a).corr.cosOfs) ++ (BitVec.ofInt 16 (d.axis a).corr.sinOfs)),
    (R.GAUGE_CORR_GP 0, 256, 4, fun a => (BitVec.ofNat 16 (d.axis a).corr.gain) ++ (BitVec.ofInt 16 (d.axis a).corr.phase)),
    (R.TRIG_BANK_CFG, 4, 1, fun _ => setFld (d.rd R.TRIG_BANK_CFG) F.TRIG_BANK_CFG_MISMATCH
      (bitsOf ((List.range 6).filter (fun b => d.bankMismatch b)))),
    (R.TRIG_CMP_STATUS 0, 256, 16, fun u => BitVec.ofNat 32 ((d.unit u).state.code * 2 ^ 30 + (d.unit u).set * 2 ^ 29)),
    (R.TRIG_CMP_PTR 0, 256, 16, fun u =>
      let x := d.unit u
      BitVec.ofNat 32 (if x.pitch then x.n else x.idx + x.wrap * 4096)),
    (R.TRIG_LEDGER_STATUS 0, 4, 48, fun c => setFld (d.rd (R.TRIG_LEDGER_STATUS c)) F.TRIG_LEDGER_STATUS_FILL (d.ledger c).entries.length)]

/-- The live words of CLL to JOB. -/
def Dev.liveMid (off : Nat) (d : Dev) : Option Word :=
  pick off [
    (R.CLL_STATUS 0, 4096, 48, fun n => d.cllStatus n),
    (R.CLL_EQ 0, 4096, 48, fun n => setFld (d.rd (R.CLL_EQ n)) ⟨4, 3⟩ (d.conn n).eq),
    (R.CLL_PWR_STATUS 0, 4096, 48, fun n => d.cllPwrStatus n),
    (R.ASM_STATUS 0, 2048, 48, fun c => d.asmStatus c),
    (R.ASM_Q_STATUS 0, 2048, 48, fun q => d.plyStatus q),
    (R.STE_STATUS 0, 65536, 16, fun c => d.steStatus c),
    (R.STE_KMASK 0, 65536, 16, fun c => BitVec.ofNat 32 (d.kmask c)),
    (R.STE_DEFER 0, 65536, 16, fun c => d.steDefer c),
    (R.STE_ORD_STATUS, 4, 1, fun _ => d.ordStatus),
    (R.JOB_STATUS, 4, 1, fun _ => d.jobStatus),
    (R.JOB_SWATCH_STATUS, 4, 1, fun _ => d.jobSwatchStatus)]

/-- The live words of the engines: engine 16c + i. -/
def Dev.liveEngine (off : Nat) (d : Dev) : Option Word :=
  if off < 0x200000 ∨ 0x300000 ≤ off ∨ off % 0x10000 < 0x1000 ∨ 0x1200 ≤ off % 0x10000 then none
  else
    let e := (off - 0x200000) / 0x10000 * 16 + (off % 0x10000 - 0x1000) / 32
    match off % 32 with
    | 0 => some (d.engStatus e)
    | 4 => some (d.engItem e)
    | 8 => some (d.engSeq e)
    | 12 => some (d.engRun e)
    | _ => none

/-- The live words of HOOK to STASH. -/
def Dev.liveLow (off : Nat) (d : Dev) : Option Word :=
  pick off [
    (R.HOOK_STATUS, 4, 1, fun _ => d.hookStatus),
    (R.HOOK_CH_STATUS 0, 128, 16, fun ch => d.hookChStatus ch),
    (R.HOST_STATUS, 4, 1, fun _ => d.hostStatus),
    (R.HOST_TAGQ, 4, 1, fun _ => d.hostTagq),
    (R.HOST_ATS_STATUS, 4, 1, fun _ => BitVec.ofNat 32 d.host.ats.length),
    (R.HOST_DLV_STATUS, 4, 1, fun _ => d.dlvStatus),
    (R.HOST_RING_STATUS 0, 64, 64, fun r => d.ringStatus r),
    (R.FAB_STATUS, 4, 1, fun _ => d.fabStatus),
    (R.FAB_ROLE, 4, 1, fun _ => d.fabRole),
    (R.FAB_TIME_OFS, 4, 1, fun _ => BitVec.ofInt 32 d.fab.ofs),
    (R.FAB_PORT_STATUS 0, 64, 4, fun p => d.fabPortStatus p),
    (R.FAB_PORT_TAPS 0, 64, 4, fun p => d.fabPortTaps p),
    (R.FAB_PORT_DELAY 0, 64, 4, fun p => BitVec.ofNat 32 (d.fport p).delay),
    (R.SKEIN_STATUS, 4, 1, fun _ =>
      BitVec.ofNat 32 (ofBits [(d.skein.inited, 31), (d.stw.boot == .done && d.skein.trained != 65535, 30), (d.glb.skeinLocked, 29),
        (d.skein.hist.on, 28)] + d.skein.trained)),
    (R.STASH_REPAIR 0, 4, 16, fun c => BitVec.ofNat 32
      (bitsOf ((d.stash.bad.filter (fun k => k / 16 == c)).map (· % 16)) * 65536 +
        bitsOf ((d.stash.fixed.filter (fun k => k / 16 == c)).map (· % 16)))),
    (R.STASH_SCR_REPAIR 0, 4, 16, fun c => BitVec.ofNat 32
      (bitsOf ((d.stash.scrOff.filter (fun k => k / 16 == c)).map (· % 16)) * 65536 +
        bitsOf ((d.stash.scrFix.filter (fun k => k / 16 == c)).map (· % 16))))]

/-- The live 64-bit registers, by the offset of their low word. -/
def Dev.live64 (off : Nat) (d : Dev) : Option DWord :=
  pick off [
    (R.STW_DSN, 8, 1, fun _ => Config.serialNumber),
    (R.GAUGE_WP 0, 256, 4, fun a => wpWord (d.axis a).wp),
    (R.TRIG_CMP_HWM 0, 256, 16, fun u => wpWord (d.unit u).hwm),
    (R.TRIG_LIST 0, 8, 4096, fun i => d.trig.lists.get (fun _ => 0)
      (d.f R.TRIG_LIST_SEL F.TRIG_LIST_SEL_UNIT * 8192 + d.f R.TRIG_LIST_SEL F.TRIG_LIST_SEL_SET * 4096 + i)),
    (R.FAB_ROOT_ID, 8, 1, fun _ => BitVec.ofNat 64 d.fab.rootId),
    (R.FAB_MEMBERS, 8, 1, fun _ => BitVec.ofNat 64 d.fab.members),
    (R.SKEIN_CAP, 8, 1, fun _ => BitVec.ofNat 64 d.skein.cap),
    (R.SKEIN_HIST_SPAN, 8, 1, fun _ => BitVec.ofNat 64 d.histSpan)]

/-- The word of a 64-bit live register that an offset selects. -/
def Dev.live64Word (off : Nat) (d : Dev) : Option Word :=
  ((d.live64 off).map (·.lo)).orElse fun _ => if off < 4 then none else (d.live64 (off - 4)).map (·.hi)

/-- What a register word reads as, without the effects of a read. Reserved offsets and WO fields read 0 (R14, R15). -/
def Dev.regValue (off : Nat) (d : Dev) : Word :=
  match RegMap.lookup off with
  | none => 0
  | some (row, k) =>
    match bankOf off with
    | some b => d.bankOwnRead b
    | none =>
      match (d.liveTop off).orElse fun _ => (d.liveMid off).orElse fun _ => (d.liveLow off).orElse fun _ =>
          (d.liveEngine off).orElse fun _ => d.live64Word off with
      | some w => w
      | none => d.rd off &&& RegRow.part (row.rw ||| row.w1c ||| row.rc ||| row.rwl ||| row.ro) k

/-- A reading that the spec takes from what the hardware has done over the last millisecond, or in the middle of an operation: a free
value in its field. -/
def Dev.openReading (off : Nat) (d : Dev) : Option (Word × Dev) :=
  let load := fun (w : Nat) => let r := d.freshNat w; (BitVec.ofNat 32 r.1, r.2)
  pick off [
    (R.CAR_STATUS 0, 65536, 4, fun k => (d.carStatus k ((d.freshNat 10).1 % 1001), (d.freshNat 10).2)),
    (R.STE_LOAD 0, 65536, 16, fun _ => load 10),
    (R.SKEIN_LOAD 0, 4, 16, fun _ => load 10),
    (R.STASH_BUSY 0, 4, 16, fun _ =>
      let a := d.freshNat 10
      let b := a.2.freshNat 4
      (BitVec.ofNat 32 (b.1 * 65536 + a.1), b.2))] |>.orElse fun _ =>
    if d.stw.op.isSome ∧ (off = R.STW_NVM_PROGRESS ∨ off = R.STW_NVM_HWM) then some (d.fresh 32) else none

/-- A read of the high word of a 64-bit register returns the latched value, once (R13). -/
def Dev.takeLatch (off : Nat) (d : Dev) : Option (Word × Dev) :=
  (d.latch.find? (fun p => p.1 = off)).map fun p => (p.2, { d with latch := d.latch.filter (fun q => q.1 ≠ off) })

/-- A read of one register word with its effects: latching (R13), clearing (R15, R17), and what a row adds. -/
def Dev.regRead (off : Nat) (d : Dev) : Word × Dev :=
  match d.openReading off with
  | some r => r
  | none =>
    match inst (R.GAUGE_WP 0) 256 4 off with
    | some a => ((d.wpLowRead a).rdata, d.wpLowRead a)
    | none =>
      let v := d.regValue off
      if off = R.PWR_HK_RESULT then (v, d.hkResultRead)
      else if (inst (R.PWR_TEMP_MAX 0) 4 24 off).isSome then (v, d.wr off 0x8000)
      else match RegMap.lookup off with
        | some (row, 0) =>
          let d1 := if row.wide then
              { d with latch := (d.latch.filter (fun p => p.1 ≠ off)) ++ [(off, d.regValue (off + 4))] } else d
          (v, d1.clearRC off)
        | some (_, _) =>
          match d.takeLatch (off - 4) with
          | some r => (r.1, r.2.clearRC off)
          | none => (v, d.clearRC off)
        | none => (v, d)

/-! Access (R58, R59, R62, R572). -/

/-- What an access comes to: done, denied, a decode error, an uncorrectable block, or no service in the trip or the watch state. -/
inductive Acc where
  | ok | deny | decode | ue | trip
deriving DecidableEq, Repr

/-- The registers readable by every master. -/
def openRegs : List Nat := [R.GLB_ID, R.GLB_STATUS, R.GLB_CASTON]

/-- Whether FAB_PEER_ACC grants a fabric master a register access (pair 0) or a Skein access (pair 1). -/
def Dev.peerGrants (m pair : Nat) (write : Bool) (d : Dev) : Bool :=
  m < 0x40 || bitOf (d.rd (R.FAB_PEER_ACC (m - 0x40))).toNat (2 * pair + (if write then 1 else 0))

/-- Whether block b's registers at the offsets grant a master an access. -/
def Dev.regMay (m : Nat) (write : Bool) (b : Nat) (offs : List Nat) (d : Dev) : Bool :=
  (!write && offs.all openRegs.contains) || (pairGrants m write (d.rd (R.GLB_ACC b)) && d.peerGrants m 0 write)

/-- Whether Skein grants a master an access to a footprint. -/
def Dev.skeinGrants (m : Nat) (write : Bool) (a n : Nat) (d : Dev) : Bool := d.skeinMay m write a n && d.peerGrants m 1 write

/-- One or two naturally aligned words (R514). -/
def regShape (x n : Nat) : Bool := (n == 4 || n == 8) && x % n == 0

/-- The word offsets of an access. -/
def wordsOf (x n : Nat) : List Nat := (List.range (n / 4)).map (fun i => x + 4 * i)

/-- Whether Cast-on has completed (R64). -/
def Dev.started (d : Dev) : Bool := d.b R.GLB_CASTON F.GLB_CASTON_DONE

/-- The engines whose scratch a range touches. -/
def scratchEngines (x n : Nat) : List Nat := (List.range ((x % scratchSize + max n 1 - 1) / scratchSize + 1)).map (· + x / scratchSize)

/-- Register words read in order. -/
def Dev.readWords (offs : List Nat) (d : Dev) : List Byte × Dev :=
  offs.foldl (fun (acc : List Byte × Dev) o =>
    let r := acc.2.regRead o
    (acc.1 ++ leBytes 4 r.1.toNat, r.2)) ([], d)

/-- Register words written in order: whether all were granted. -/
def Dev.writeWords (m : Nat) (offs : List Nat) (bs : List Byte) (d : Dev) : Bool × Dev :=
  offs.zipIdx.foldl (fun (acc : Bool × Dev) o =>
    let r := acc.2.regWrite m o.1 (BitVec.ofNat 32 (leAt bs (4 * o.2) 4))
    (acc.1 && r.1, r.2)) (true, d)

/-- What a read of BAR0 before Cast-on completes returns (R64). -/
def Dev.earlyRead (x n : Nat) (d : Dev) : List Byte :=
  if regShape x n then (wordsOf x n).flatMap (fun o => leBytes 4 (if openRegs.contains o then (d.regValue o).toNat else 0)) else zeros n

/-- Why an access to `n` bytes at offset `x` of BAR0 or its mirror cannot be made, if it cannot. -/
def Dev.barStop (m : Nat) (write : Bool) (x n : Nat) (d : Dev) : Option (Acc × Dev) :=
  let addr := denyAddr m x
  let undecoded := some (Acc.decode, d.decodeError m write addr)
  let judge := fun (may : Bool) => if may then none else some (Acc.deny, d.deny m write addr)
  if !d.started then none
  else match barDecode x with
    | .hole => undecoded
    | .reg b off => if !regShape x n ∨ !d.blockDecodes b then undecoded else judge (d.regMay m write b (wordsOf off n))
    | .scratch _ e off =>
      let a := e * scratchSize + off
      if 256 * scratchSize < a + n then undecoded else judge ((scratchEngines a n).all (fun k => d.scratchMay m k))
    | .stash _ c off =>
      let a := c * stashSize + off
      if 16 * stashSize < a + n then undecoded else judge (d.stashMay m 0 a n)

/-- A read of `n` bytes at offset `x` of BAR0 or its mirror. -/
def Dev.barRead (m x n : Nat) (d : Dev) : Acc × List Byte × Dev :=
  match d.barStop m false x n with
  | some r => (r.1, zeros n, r.2)
  | none =>
    if !d.started then (.ok, d.earlyRead x n, d)
    else match barDecode x with
      | .hole => (.ok, zeros n, d)
      | .reg _ off => (.ok, (d.readWords (wordsOf off n)).1, (d.readWords (wordsOf off n)).2)
      | .scratch _ e off => (.ok, d.scratchBytes e off n, d)
      | .stash _ c off => (.ok, d.stashBytes c off n, d)

/-- A write at offset `x` of BAR0 or its mirror. -/
def Dev.barWrite (m x : Nat) (bs : List Byte) (d : Dev) : Acc × Dev :=
  match d.barStop m true x bs.length with
  | some r => r
  | none =>
    if !d.started then (.ok, d.bump R.GLB_CASTON F.GLB_CASTON_EARLY_WR 1)
    else match barDecode x with
      | .hole => (.ok, d)
      | .reg _ off =>
        let r := d.writeWords m (wordsOf off bs.length) bs
        (if r.1 then .ok else .deny, r.2)
      | .scratch op e off => (.ok, d.scratchStore op e off bs)
      | .stash op c off => (.ok, d.stashStore op c off bs)

/-- Whether a footprint of Skein can be served: the failure, or none. `addr` is what the log records. -/
def Dev.skeinStop (m : Nat) (write : Bool) (a n addr : Nat) (d : Dev) : Option (Acc × Dev) :=
  if !d.skeinExists a n then some (.decode, d.decodeError m write addr)
  else if !d.skeinGrants m write a n then some (.deny, d.deny m write addr)
  else if !d.skeinServes then some (.trip, d)
  else none

/-- A read of Skein by a master. -/
def Dev.skeinFetch (m a n addr : Nat) (d : Dev) : Acc × List Byte × Dev :=
  match d.skeinStop m false a n addr with
  | some r => (r.1, zeros n, r.2)
  | none =>
    let r := d.skeinRead m a n
    (if r.2.1 then .ue else .ok, r.1, r.2.2)

/-- A write of Skein by a master. -/
def Dev.skeinStore (m a : Nat) (bs : List Byte) (addr : Nat) (d : Dev) : Acc × Dev :=
  match d.skeinStop m true a bs.length addr with
  | some r => r
  | none => (.ok, d.skeinWrite m a bs)

/-- A read of a local device address by a master (R54 to R56). -/
def Dev.daRead (m da n : Nat) (d : Dev) : Acc × List Byte × Dev :=
  match daDecode da with
  | .skein a => d.skeinFetch m a n da
  | .bar x => d.barRead m x n
  | _ => (.decode, zeros n, d.decodeError m false da)

/-- A write of a local device address by a master. -/
def Dev.daWrite (m da : Nat) (bs : List Byte) (d : Dev) : Acc × Dev :=
  match daDecode da with
  | .skein a => d.skeinStore m a bs da
  | .bar x => d.barWrite m x bs
  | _ => (.decode, d.decodeError m true da)

/-- Why an access to a local device address cannot be made, if it cannot. -/
def Dev.daStop (m : Nat) (write : Bool) (da n : Nat) (d : Dev) : Option (Acc × Dev) :=
  match daDecode da with
  | .skein a => d.skeinStop m write a n da
  | .bar x => d.barStop m write x n
  | _ => some (.decode, d.decodeError m write da)

/-- Whether a device address lies in the register range. -/
def inRegRange (da : Nat) : Bool := decide (0x10_0000_0000 ≤ da) && decide (da ≤ 0x10_00FF_FFFF)

/-- A footprint as the accesses it is made of: 32-bit words in the register range (R490), one access elsewhere. -/
def accesses (da n : Nat) : List (Nat × Nat) := if inRegRange da ∧ n % 4 = 0 then (wordsOf da n).map (·, 4) else [(da, n)]

/-- The first access of a footprint that cannot be made. -/
def Dev.runStop (m : Nat) (write : Bool) (da n : Nat) (d : Dev) : Option (Acc × Dev) :=
  (accesses da n).findSome? (fun p => d.daStop m write p.1 p.2)

/-- A footprint is read access by access: it ends at the first that fails. -/
def Dev.runRead (m da n : Nat) (d : Dev) : Acc × List Byte × Dev :=
  (accesses da n).foldl (fun (acc : Acc × List Byte × Dev) p =>
    if acc.1 ≠ .ok then acc
    else
      let r := acc.2.2.daRead m p.1 p.2
      (r.1, acc.2.1 ++ r.2.1, r.2.2)) (.ok, [], d)

/-- A footprint is written access by access: it ends at the first that fails. -/
def Dev.runWrite (m da : Nat) (bs : List Byte) (d : Dev) : Acc × Dev :=
  (accesses da bs.length).foldl (fun (acc : Acc × Dev) p =>
    if acc.1 ≠ .ok then acc else acc.2.daWrite m p.1 ((bs.drop (p.1 - da)).take p.2)) (.ok, d)

/-! BAR2 (R515). -/

/-- The Skein DA that an offset of BAR2 reaches, where its window is enabled. -/
def Dev.windowDa (x : Nat) (d : Dev) : Option Nat :=
  let w := d.rd (R.HOST_WIN (x / 2 ^ 30 % 16))
  if fld w F.HOST_WIN_SHADOW_EN = 0 then none else some (fld w F.HOST_WIN_SHADOW_BASE * 2 ^ 30 + x % 2 ^ 30)

/-- The completion of a BAR2 read, one for each run up to a 64-byte boundary; a run of an uncorrectable block is poisoned. -/
def Dev.windowComplete (a : Nat) (bs : List Byte) (bad : List Nat) (d : Dev) : Dev :=
  (blocksOf a bs.length).foldl (fun (y : Dev) b =>
    let lo := max a (64 * b)
    let hi := min (a + bs.length) (64 * b + 64)
    y.emit (.completion ((bs.drop (lo - a)).take (hi - lo)) (bad.contains b))) d

def Dev.windowRead (m x n : Nat) (d : Dev) : Dev :=
  match d.windowDa x with
  | none => (d.decodeError m false x).emit (.completion (zeros n) false)
  | some a =>
    match d.skeinStop m false a n x with
    | some (.trip, y) => (y.hostErr 12).emit (.completion (zeros n) true)
    | some (_, y) => y.emit (.completion (zeros n) false)
    | none =>
      let r := d.skeinRead m a n
      r.2.2.windowComplete a r.1 (d.badBlocks a n)

def Dev.windowWrite (m x : Nat) (bs : List Byte) (d : Dev) : Dev :=
  match d.windowDa x with
  | none => d.decodeError m true x
  | some a =>
    match d.skeinStop m true a bs.length x with
    | some (.trip, y) => y.hostErr 12
    | some (_, y) => y
    | none => d.skeinWrite m a bs

/-! BAR4 (R50). -/

def msixDefault (i : Nat) : Word := if i % 4 = 3 then 1 else 0

/-- A word of BAR4: the MSI-X table, then the PBA. -/
def Dev.msixWord (off : Nat) (d : Dev) : Word :=
  if off < 0x1000 then d.host.msix.get msixDefault (off / 4)
  else if 0x8000 ≤ off ∧ off < 0x8020 then
    BitVec.ofNat 32 (bitsOf ((d.host.pba.filter (fun v => v / 32 == (off - 0x8000) / 4)).map (· % 32)))
  else 0

/-- A write of a word of BAR4: the table's fields; a vector that is unmasked sends its pending message (R539). -/
def Dev.msixWrite (off : Nat) (v : Word) (d : Dev) : Dev :=
  if 0x1000 ≤ off then d
  else
    let keep : Word := if off / 4 % 4 = 3 then 1 else if off / 4 % 4 = 0 then 0xFFFFFFFC else 0xFFFFFFFF
    (d.modHost fun x => { x with msix := x.msix.set msixDefault (off / 4) (v &&& keep) }).msixRelease

/-! Inbound memory requests (R514 to R517). -/

/-- The master of a TLP (R57). -/
def Dev.hostMaster (rid : Nat) (d : Dev) : Nat :=
  let own := d.f R.GLB_HOST_RID ⟨0, 16⟩
  if own = 0 ∨ own = rid then 0 else 1

/-- A request that PCI Express does not allow: empty, too long, or across a 4 KiB boundary. -/
def Dev.tlpMalformed (off n : Nat) (write : Bool) (d : Dev) : Bool :=
  n == 0 || (if write then decide (d.host.cfg.mps < n) else decide (4096 < n)) || decide (4096 < off % 4096 + n)

/-- Whether the function takes memory requests: D0, and no function-level reset in progress. -/
def Dev.takesRequests (d : Dev) : Bool := d.host.d0 && !d.host.flrBusy

/-- HOST_MEM_READ. -/
def Dev.hostRead (rid : Nat) (bar : Option (Fin 3)) (off n : Nat) (hdr : List Byte) (d : Dev) : Dev :=
  if !d.host.l0 then d
  else if d.tlpMalformed off n false then (d.errorMessage 2).logHeader hdr
  else
    let m := d.hostMaster rid
    let y := d.count R.HOST_RX_SEQ whole 1
    let unsupported := ((d.errorMessage 1).logHeader hdr).emit (.completionError false)
    if !d.takesRequests then unsupported
    else match bar with
      | none => unsupported
      | some 0 =>
        let r := y.barRead m off n
        r.2.2.emit (.completion r.2.1 false)
      | some 1 => y.windowRead m off n
      | some 2 => y.emit (.completion ((wordsOf off (n / 4 * 4)).flatMap (fun o => leBytes 4 (y.msixWord o).toNat)) false)

/-- HOST_MEM_WRITE. -/
def Dev.hostStore (rid : Nat) (bar : Option (Fin 3)) (off : Nat) (bs : List Byte) (poisoned : Bool) (hdr : List Byte) (d : Dev) : Dev :=
  if !d.host.l0 then d
  else if d.tlpMalformed off bs.length true then (d.errorMessage 2).logHeader hdr
  else
    let m := d.hostMaster rid
    if !d.takesRequests ∨ bar = none then d.errorMessage 0
    else
      let y := d.count R.HOST_RX_SEQ whole 1
      if poisoned then
        (((y.bump R.HOST_CNT1 F.HOST_CNT1_POISON_RX_CNT 1).hostErr 3).errorMessage 1).logHeader hdr
      else match bar with
        | none => y
        | some 0 => (y.barWrite m off bs).2
        | some 1 => y.windowWrite m off bs
        | some 2 => (wordsOf off bs.length).zipIdx.foldl (fun (z : Dev) o => z.msixWrite o.1 (BitVec.ofNat 32 (leAt bs (4 * o.2) 4))) y

/-! The commands. -/

/-- REG_WRITE: a write that has passed its checks, of a register by a master. -/
def execRegWrite (m off : Nat) (v : Word) (s : State) : Host.Outcome State Fault Refusal := s.run fun d => (d.regWrite m off v).2

/-- REG64_LOW_WORD_READ: a read of the low word of a 64-bit register; the next read of its high word returns the latched value. -/
def execReg64LowWordRead (off : Nat) (s : State) : Host.Outcome State Fault Refusal :=
  s.run fun d => match RegMap.lookup off with
    | some (row, 0) => if row.wide then { (d.regRead off).2 with rdata := (d.regRead off).1 } else d
    | _ => d

/-- REG64_LOW_WORD_WRITE: the low word is held. -/
def execReg64LowWordWrite (off : Nat) (v : Word) (s : State) : Host.Outcome State Fault Refusal :=
  s.run fun d => match RegMap.lookup off with
    | some (row, 0) => if row.wide then d.hold off v else d
    | _ => d

/-- RC_FIELD_READ: a read of a register that has RC fields. -/
def execRcFieldRead (off : Nat) (s : State) : Host.Outcome State Fault Refusal :=
  s.run fun d => match RegMap.lookup off with
    | some (row, _) => if row.rc = 0 then d else { (d.regRead off).2 with rdata := (d.regRead off).1 }
    | none => d

def execHostMemRead (rid : Nat) (bar : Option (Fin 3)) (off n : Nat) (hdr : List Byte) (s : State) : Host.Outcome State Fault Refusal :=
  s.run fun d => d.hostRead rid bar off n hdr

def execHostMemWrite (rid : Nat) (bar : Option (Fin 3)) (off : Nat) (bs : List Byte) (poisoned : Bool) (hdr : List Byte) (s : State) :
    Host.Outcome State Fault Refusal :=
  s.run fun d => d.hostStore rid bar off bs poisoned hdr

end Sys2Proof.Machine
end

