-- ==== Sys2Proof/Machine/HookRun.lean ====
section
/-! DEFINITION. Hook's movement of data (spec/14, R484 to R498): bursts, the read engine and the write engine, staged copies, and the
acknowledgements of the completion point. -/

namespace Sys2Proof.Machine

/-! Targets (R54, R572, R575). -/

/-- Where an access of Hook goes: a local DA, host memory, a peer (with SINK), or nowhere. -/
inductive HookTarget where
  | here (da : Nat)
  | host (iova : Nat)
  | peer (n da : Nat) (sink : Bool)
  | nowhere
deriving DecidableEq, Repr

/-- Whether writes of a channel to peers go to the sink. -/
def Dev.toSink (ch : Nat) (d : Dev) : Bool := bitOf (d.rd R.FAB_SINK_CFG).toNat (16 + ch)

/-- The target of an access. A peer DA with the device's own address is served locally. -/
def Dev.hookTarget (ch : Nat) (write : Bool) (da : Nat) (d : Dev) : HookTarget :=
  match daDecode da with
  | .host iova => .host iova
  | .peer n a =>
    if write && d.toSink ch then
      if d.fab.sink then .here a
      else match d.fab.sinkAddr with
        | some s => .peer s a true
        | none => .nowhere
    else if d.fab.addr = some n then .here a else .peer n a false
  | _ => .here da

/-- Whether a write redirected to this device as the sink lies outside the sink's region (R575). -/
def Dev.outsideSink (da n : Nat) (d : Dev) : Bool :=
  let r := d.f R.FAB_SINK_CFG F.FAB_SINK_CFG_RGN
  let base := (d.rd64 (R.SKEIN_RGN_BASE r)).toNat / 2 ^ 20 * 2 ^ 20
  let size := d.f (R.SKEIN_RGN_SIZE r) ⟨0, 17⟩ * 2 ^ 20
  !(d.b (R.SKEIN_RGN_ACC r) F.SKEIN_RGN_ACC_EN && decide (base ≤ da) && decide (da + n ≤ base + size))

/-- Whether a local access waits for Skein (R504). -/
def Dev.waitsForSkein (da : Nat) (d : Dev) : Bool :=
  match daDecode da with
  | .skein _ => !d.skeinServes
  | _ => false

/-- Whether host accesses fail at once: the link is not in L0 or the function not in D0 (R542). -/
def Dev.hostGone (d : Dev) : Bool := !(d.host.l0 && d.host.d0)

/-- A footprint cut into pieces of at most `most` bytes, none across a 4 KiB boundary: place and length. -/
def piecesOf (most : Nat) : Nat → Nat → Nat → Nat → List (Nat × Nat)
  | 0, _, _, _ => []
  | fuel + 1, base, pos, left =>
    if left = 0 then []
    else
      let n := max 1 (min (min most left) (4096 - (base + pos) % 4096))
      (pos, n) :: piecesOf most fuel base (pos + n) (left - n)

/-- The number of free tags. -/
def Dev.tagsFree (d : Dev) : Nat := ((List.range (if d.host.cfg.tag10 then 768 else 256)).filter (fun t => !d.tagBusy t)).length

/-! Bursts (R488). -/

/-- The elements of the burst that begins at element `n`, from a count already taken. -/
def burstGrow (q : HookDesc) (n : Nat) : Nat → Nat → Nat
  | 0, k => k
  | fuel + 1, k =>
    let a := q.srcOf (n + k)
    let b := q.dstOf (n + k)
    if n + k < q.total ∧ a = q.srcOf n + k * q.size ∧ b = q.dstOf n + k * q.size ∧ a % 4096 ≠ 0 ∧ b % 4096 ≠ 0
        ∧ (k + 1) * q.size ≤ 4096 then burstGrow q n fuel (k + 1)
    else k

/-- The elements of the burst that begins at element `n`. -/
def burstLen (q : HookDesc) (n : Nat) : Nat := burstGrow q n 1024 1

/-- The elements of the run of writes that begins at element `n` of a staged transfer. -/
def runGrow (q : HookDesc) (n : Nat) : Nat → Nat → Nat
  | 0, k => k
  | fuel + 1, k =>
    let b := q.dstOf (n + k)
    if n + k < q.total ∧ b = q.dstOf n + k * q.size ∧ b % 4096 ≠ 0 ∧ (k + 1) * q.size ≤ 4096 then runGrow q n fuel (k + 1) else k

/-- The next read of a channel: its number among bursts, its DA and its bytes. A staged channel reads its source footprint in 4
KiB-aligned pieces. -/
def HookCh.nextRead (x : HookCh) : Nat × Nat × Nat :=
  let da := x.readDa x.next
  if x.staged then (x.next, da, min (4096 - da % 4096) (x.desc.srcSpan - x.next))
  else (x.next, da, burstLen x.desc x.next * x.desc.size)

/-! The read engine (R489 to R491). -/

/-- Whether a channel may take another slot. -/
def Dev.maySlot (ch : Nat) (d : Dev) : Bool :=
  let x := d.hookCh ch
  x.state == .run && !x.issuedAll && (x.staged || (decide (x.held < x.desc.slots) && decide (0 < d.freeSlots)))

/-- Whether what a channel's next read needs is at hand: Skein in service, tags and translations, transaction numbers. -/
def Dev.readReady (ch : Nat) (d : Dev) : Bool :=
  let r := (d.hookCh ch).nextRead
  match d.hookTarget ch false r.2.1 with
  | .here da => !d.waitsForSkein da
  | .host iova =>
    d.hostGone || (d.canRequest && (d.xlateMissing iova r.2.2 false).isNone &&
      decide ((piecesOf d.host.cfg.mrrs r.2.2 iova 0 r.2.2).length ≤ d.tagsFree))
  | .peer _ _ _ => decide (d.fab.reqs.length + 9 ≤ 256)
  | .nowhere => true

/-- The channel the read engine serves next: the highest PRIO, rotating among equals. -/
def Dev.readPick (d : Dev) : Option Nat :=
  ((List.range 16).map (fun k => (d.hook.last + 1 + k) % 16)).foldl (fun acc ch =>
    if !(d.maySlot ch && d.readReady ch) then acc
    else match acc with
      | none => some ch
      | some k => if (d.hookCh k).desc.prio < (d.hookCh ch).desc.prio then some ch else some k) none

/-- The burst takes its slot. -/
def Dev.takeSlot (ch n len : Nat) (d : Dev) : Dev :=
  d.modHook ch fun x =>
    { x with bursts := x.bursts ++ [{ first := n, len := len, parts := [], data := none, order := 0 }],
             next := n + (if x.staged then len else len / x.desc.size) }

/-- HOOK_BURST_READ: the read engine issues the reads of the next burst. -/
def Dev.hookBurstRead (d : Dev) : Dev :=
  match d.readPick with
  | none => d
  | some ch =>
    let r := (d.hookCh ch).nextRead
    let d0 : Dev := { d with hook := { d.hook with last := ch } }
    match d.hookTarget ch false r.2.1 with
    | .here da =>
      match d0.runStop (0x10 + ch) false da r.2.2 with
      | some y => y.2.hookReadFail ch 6 r.1 r.2.1
      | none => d0.takeSlot ch r.1 r.2.2
    | .host iova =>
      if d.hostGone then d0.hookReadFail ch 7 r.1 r.2.1
      else (piecesOf d.host.cfg.mrrs r.2.2 iova 0 r.2.2).foldl (fun (y : Dev) p =>
        y.requestRead (.hook ch r.1) (iova + p.1) ((y.xlate (iova + p.1) false).getD (iova + p.1)) p.2) (d0.takeSlot ch r.1 r.2.2)
    | .peer n a _ =>
      let go := (piecesOf 512 r.2.2 a 0 r.2.2).foldl (fun (acc : Bool × Dev) p =>
        match acc.2.fabRequest n false (.read ch r.1 p.1) (.read (a + p.1) p.2) with
        | some (ok, y) => (acc.1 && ok, y)
        | none => (false, acc.2)) (true, d0.takeSlot ch r.1 r.2.2)
      if go.1 then go.2 else go.2.hookReadFail ch 7 r.1 r.2.1
    | .nowhere => (d0.fabErr 8).hookReadFail ch 7 r.1 r.2.1

/-- The bytes of a burst whose pieces have all arrived. -/
def HookBurst.gathered (b : HookBurst) : Option (List Byte) :=
  let have_ := (b.parts.map (·.2.length)).sum
  if have_ < b.len then none
  else some ((List.range b.len).map (fun i =>
    ((b.parts.find? (fun p => decide (p.1 ≤ i) && decide (i < p.1 + p.2.length))).map (fun p => p.2.getD (i - p.1) 0)).getD 0))

/-- A burst's data is in its slot: it takes its number; a staged channel keeps the piece in its copy. -/
def Dev.slotFull (ch : Nat) (b : HookBurst) (bs : List Byte) (d : Dev) : Dev :=
  let k := d.hook.order
  let d1 : Dev := { d with hook := { d.hook with order := k + 1 } }
  d1.modHook ch fun x =>
    if x.staged then { x with copy := x.copy ++ [(b.first, bs)], bursts := x.bursts.filter (fun c => c.first ≠ b.first), order := k }
    else { x with bursts := x.bursts.map (fun c => if c.first = b.first then { c with data := some bs, order := k } else c) }

/-- The DA of the first element of a footprint that meets an uncorrectable block. -/
def Dev.firstBad (da n e : Nat) (d : Dev) : Nat :=
  let starts := (List.range (n / e)).map (fun i => da + i * e)
  (starts.find? (fun a => (d.badBlocks a e).any (fun _ => true))).getD da

/-- HOOK_READ_RESPONSE: data of the burst that begins at `first` is in its slot, or an error ends the transfer (R497). -/
def Dev.hookReadResponse (ch first : Nat) (d : Dev) : Dev :=
  let x := d.hookCh ch
  match x.bursts.find? (fun b => decide (b.first = first) && b.data.isNone) with
  | none => d
  | some b =>
    match d.hookTarget ch false (x.readDa first) with
    | .here da =>
      if d.waitsForSkein da then d
      else
        let r := d.runRead (0x10 + ch) da b.len
        match r.1 with
        | .ok => r.2.2.slotFull ch b r.2.1
        | .ue => r.2.2.hookReadFail ch 7 first (d.firstBad da b.len x.desc.size)
        | _ => r.2.2.hookReadFail ch 6 first (x.readDa first)
    | _ =>
      match b.gathered with
      | some bs => d.slotFull ch b bs
      | none => d

/-! The write engine (R489, R492, R497). -/

/-- The bytes of an element in a staged copy. -/
def HookCh.copyBytes (x : HookCh) (n : Nat) : List Byte :=
  let lo := (x.desc.footprint x.desc.src x.desc.sstep).1.toNat
  let off := x.desc.srcOf n - lo
  match x.copy.find? (fun p => decide (p.1 ≤ off) && decide (off < p.1 + p.2.length)) with
  | some p => (p.2.drop (off - p.1)).take x.desc.size
  | none => []

/-- What a channel writes next: its number among completed bursts, the first element, and the bytes. -/
def HookCh.nextWrite (x : HookCh) : Option (Nat × Nat × List Byte) :=
  if x.state ≠ .run ∧ x.state ≠ .drain then none
  else if x.staged then
    if x.state = .run ∧ x.issuedAll ∧ x.bursts = [] ∧ x.wrote < x.desc.total then
      some (x.order, x.wrote, (List.range (runGrow x.desc x.wrote 1024 1)).flatMap (fun i => x.copyBytes (x.wrote + i)))
    else none
  else match x.bursts.head? with
    | some b => b.data.map (fun bs => (b.order, b.first, bs))
    | none => none

/-- The host word that holds the last byte of a write; its read follows the last write of a barrier transfer to the host (R492). -/
def HookDesc.lastWord (q : HookDesc) (n : Nat) (bs : List Byte) : Nat := (q.dstOf n + bs.length - 1) / 4 * 4 - 2 ^ 63

/-- Whether a write is the last that a channel will make. -/
def HookCh.lastWrite (x : HookCh) (n : Nat) (bs : List Byte) : Bool :=
  decide (x.desc.total ≤ n + bs.length / x.desc.size) || (x.state == .drain && decide (x.bursts.length ≤ 1))

/-- Whether what a write needs is at hand. -/
def Dev.writeReady (ch n : Nat) (bs : List Byte) (d : Dev) : Bool :=
  let x := d.hookCh ch
  match d.hookTarget ch true (x.desc.dstOf n) with
  | .here da => !d.waitsForSkein da
  | .host iova =>
    d.hostGone || (d.canRequest && (d.xlateMissing iova bs.length true).isNone &&
      (!x.desc.barrier || (decide (0 < d.tagsFree) && (d.xlate (x.desc.lastWord n bs) false).isSome)))
  | .peer _ _ _ => decide (d.fab.reqs.length + 9 ≤ 256)
  | .nowhere => true

/-- The channel the write engine serves next: bursts in the order in which they completed. -/
def Dev.writePick (d : Dev) : Option (Nat × Nat × List Byte) :=
  ((List.range 16).foldl (fun (acc : Option (Nat × Nat × Nat × List Byte)) ch =>
    match (d.hookCh ch).nextWrite with
    | none => acc
    | some w =>
      if !d.writeReady ch w.2.1 w.2.2 then acc
      else match acc with
        | none => some (w.1, ch, w.2.1, w.2.2)
        | some a => if w.1 < a.1 then some (w.1, ch, w.2.1, w.2.2) else some a) none).map (·.2)

/-- The elements of a write are written and its slot is free. -/
def Dev.wroteBurst (ch n : Nat) (bs : List Byte) (acks remote : Nat) (d : Dev) : Dev :=
  ((d.modHook ch fun x =>
    let b := x.desc.barrier
    { x with wrote := n + bs.length / x.desc.size, bursts := x.bursts.filter (fun c => c.first ≠ n),
             acks := x.acks + (if b then acks else 0), remote := x.remote + (if b then remote else 0) }).feedWaiting 16).hookAdvance ch

/-- A local write, with the failure it meets. -/
def Dev.writeHere (ch da : Nat) (bs : List Byte) (d : Dev) : Acc × Dev :=
  match d.runStop (0x10 + ch) true da bs.length with
  | some r => r
  | none => d.runWrite (0x10 + ch) da bs

/-- HOOK_BURST_WRITE: the write engine writes a burst that is fully in its slot. -/
def Dev.hookBurstWrite (d : Dev) : Dev :=
  match d.writePick with
  | none => d
  | some (ch, n, bs) =>
    let x := d.hookCh ch
    let dst := x.desc.dstOf n
    let last := x.lastWrite n bs
    let word := x.desc.lastWord n bs
    match d.hookTarget ch true dst with
    | .here da =>
      let sunk := decide (2 ^ 62 ≤ dst) && d.toSink ch && d.outsideSink da bs.length
      let r := if sunk then (Acc.deny, d.deny (0x10 + ch) true da) else d.writeHere ch da bs
      if r.1 = .ok then r.2.wroteBurst ch n bs 1 0 else r.2.hookFail ch 6 n dst
    | .host iova =>
      if d.hostGone then d.hookFail ch 8 n dst
      else match d.hostWrite iova false bs with
        | none => d
        | some y =>
          let z := if x.desc.barrier && last then
              y.requestRead (.hook ch barrierMark) word ((y.xlate word false).getD 0) 4 else y
          z.wroteBurst ch n bs 0 (if last then 1 else 0)
    | .peer p a sink =>
      let ps := piecesOf 512 bs.length a 0 bs.length
      let go := ps.foldl (fun (acc : Bool × Dev) q =>
        match acc.2.fabRequest p sink (.write ch n x.desc.barrier) (.write (a + q.1) ((bs.drop q.1).take q.2)) with
        | some (ok, y) => (acc.1 && ok, y)
        | none => (false, acc.2)) (true, d)
      if go.1 then go.2.wroteBurst ch n bs 0 ps.length else go.2.hookFail ch 8 n dst
    | .nowhere => (d.fabErr 8).hookFail ch 8 n dst

/-- HOOK_WRITE_ACK: the acknowledgement of a local barrier write (R492). -/
def Dev.hookWriteAck (ch : Nat) (d : Dev) : Dev :=
  if (d.hookCh ch).acks = 0 then d else (d.modHook ch fun x => { x with acks := x.acks - 1 }).hookAdvance ch

/-! The commands. -/

def execHookBurstRead (s : State) : Host.Outcome State Fault Refusal := s.run fun d => d.hookBurstRead

def execHookReadResponse (ch : Fin 16) (first : Nat) (s : State) : Host.Outcome State Fault Refusal :=
  s.run fun d => d.hookReadResponse ch first

def execHookBurstWrite (s : State) : Host.Outcome State Fault Refusal := s.run fun d => d.hookBurstWrite

def execHookWriteAck (ch : Fin 16) (s : State) : Host.Outcome State Fault Refusal := s.run fun d => d.hookWriteAck ch

end Sys2Proof.Machine
end

