-- ==== Sys2Proof/Machine/FabAccess.lean ====
section
/-! DEFINITION. Accesses that reach the device from fabric peers (R571 to R573, R575, R583) and from the test port's ACCESS register
(R611). -/

namespace Sys2Proof.Machine

/-! Requests from peers. -/

/-- The status code of an access (R572). -/
def Acc.status : Acc → Nat
  | .ok => 0
  | .deny => 1
  | .decode => 2
  | .ue => 3
  | .trip => 6

/-- The answer to a request. -/
def Dev.fabAnswer (q : FabPacket) (status : Nat) (data : List Byte) (d : Dev) : Dev :=
  (d.fabSend (d.fabPacket q.src false q.txid status (.response data))).2

/-- A rejection (R571): EPOCH, with FENCE to a source whose epoch is older, or SINK. -/
def Dev.fabReject (q : FabPacket) (status : Nat) (fence : Bool) (d : Dev) : Dev :=
  let d1 := (d.bump R.FAB_CNT0 F.FAB_CNT0_EPOCH_REJ_CNT 1).fabErr 3
  let d2 := d1.fabAnswer q status []
  if fence then (d2.fabSend (d2.fabPacket q.src false 0 0 .fence)).2 else d2

/-- The local DA that a peer's DA reaches: itself, or what a peer DA with the device's own address names (R572). -/
def Dev.servedDa (da : Nat) (d : Dev) : Nat :=
  match daDecode da with
  | .peer n a => if d.fab.addr = some n then a else da
  | _ => da

/-- A request that has arrived at its destination: rejected, or accepted and answered by `serve`. -/
def Dev.fabServe (q : FabPacket) (serve : Dev → Acc × List Byte × Dev) (d : Dev) : Dev :=
  if q.rootEp ≠ d.fab.rootEp then d.fabReject q 4 (epochNewer d.fab.rootEp q.rootEp)
  else if q.sink ∧ !(d.fab.sink && d.fab.sinkEp == q.sinkEp) then d.fabReject q 5 false
  else
    let r := serve d
    r.2.2.fabAnswer q r.1.status (if r.1 = .ok then r.2.1 else [])

/-- A request on port p: forwarded, or served at its destination. -/
def Dev.fabRequestIn (p : Nat) (q : FabPacket) (serve : Dev → Acc × List Byte × Dev) (d : Dev) : Dev :=
  let a := d.fabArrive p
  if !a.1 then a.2 else if d.fab.addr = some q.dst then a.2.fabServe q serve else a.2.fabForward p q

/-- FAB_READ_RX. -/
def Dev.fabReadIn (p : Nat) (q : FabPacket) (d : Dev) : Dev :=
  match q.msg with
  | .read da n => d.fabRequestIn p q fun y => y.runRead (0x40 + q.src) (y.servedDa da) n
  | _ => d

/-- FAB_WRITE_RX: a write with SINK set must lie within the sink's region (R575). -/
def Dev.fabWriteIn (p : Nat) (q : FabPacket) (d : Dev) : Dev :=
  match q.msg with
  | .write da bs => d.fabRequestIn p q fun y =>
      let a := y.servedDa da
      if q.sink && y.outsideSink a bs.length then (.deny, [], y.deny (0x40 + q.src) true a)
      else
        let r := y.runWrite (0x40 + q.src) a bs
        (r.1, [], r.2)
  | _ => d

/-! Responses (R573). -/

/-- A response completes what its request was for. -/
def Dev.fabComplete (u : FabUse) (status : Nat) (data : List Byte) (d : Dev) : Dev :=
  let refused := status == 1 || status == 2
  match u with
  | .read ch first pos =>
    if status = 0 then d.modHook ch fun x =>
      { x with bursts := x.bursts.map (fun b => if b.first = first then b.arrive pos data else b) }
    else d.hookReadFail ch (if refused then 6 else 7) first ((d.hookCh ch).readDa first + pos)
  | .write ch first barrier =>
    if status = 0 then
      if barrier then (d.modHook ch fun x => { x with remote := x.remote - 1 }).hookAdvance ch else d
    else d.hookFail ch (if refused then 6 else 8) first ((d.hookCh ch).desc.dstOf first)

/-- FAB_RESPONSE_RX. -/
def Dev.fabResponseIn (p : Nat) (q : FabPacket) (d : Dev) : Dev :=
  match q.msg with
  | .response data =>
    let a := d.fabArrive p
    if !a.1 then a.2
    else if d.fab.addr ≠ some q.dst then a.2.fabForward p q
    else match a.2.fab.reqs.find? (fun r => r.txid == q.txid) with
      | none => (a.2.bump R.FAB_CNT1 F.FAB_CNT1_LATE_RSP_CNT 1).fabErr 6
      | some r => (a.2.modFab fun f => { f with reqs := f.reqs.erase r }).fabComplete r.use q.status data
  | _ => d

/-! The ACCESS register of the test port (R611). -/

def Dev.modAcc (g : JtagAccess → JtagAccess) (d : Dev) : Dev := d.modStw fun x => { x with acc := g x.acc }

/-- JTAG_ACCESS_GO: Update-DR of ACCESS with the value shifted in. -/
def Dev.accessGo (v : BitVec 100) (d : Dev) : Dev :=
  let da := v.toNat % 2 ^ 64
  let write := bitOf v.toNat 98
  let refused := d.modAcc fun a => { a with da := da, status := 2 }
  if d.stw.ir ≠ .access ∨ !bitOf v.toNat 99 ∨ d.stw.acc.busy.isSome then d
  else if da % 4 ≠ 0 then refused
  else
    let start := (d.modAcc fun a => { a with
      da := da, status := 1, busy := some write, data := if write then v.extractLsb' 64 32 else a.data }).bump R.STW_TEST_STATUS ⟨0, 16⟩ 1
    match daDecode da with
    | .skein a => if d.skeinExists a 4 then start else (d.decodeError 2 write da).modAcc fun a => { a with da := da, status := 2 }
    | .bar _ => start
    | _ => refused

/-- JTAG_ACCESS_DONE: the access is made and its status and data are held; one to Skein waits while Skein serves none. -/
def Dev.accessDone (d : Dev) : Dev :=
  let a := d.stw.acc
  match a.busy with
  | none => d
  | some write =>
    if d.waitsForSkein a.da then d
    else if write then
      let r := d.daWrite 2 a.da (leBytes 4 a.data.toNat)
      r.2.modAcc fun x => { x with busy := none, status := if r.1 = .ok then 0 else 2 }
    else
      let r := d.daRead 2 a.da 4
      let f := r.2.2.fresh 32
      match r.1 with
      | .ok => r.2.2.modAcc fun x => { x with busy := none, status := 0, data := BitVec.ofNat 32 (leAt r.2.1 0 4) }
      | .ue => f.2.modAcc fun x => { x with busy := none, status := 0, data := f.1 }
      | _ => r.2.2.modAcc fun x => { x with busy := none, status := 2 }

/-! The commands. -/

def execFabReadRx (p : Fin 4) (q : FabPacket) (s : State) : Host.Outcome State Fault Refusal := s.run fun d => d.fabReadIn p q

def execFabWriteRx (p : Fin 4) (q : FabPacket) (s : State) : Host.Outcome State Fault Refusal := s.run fun d => d.fabWriteIn p q

def execFabResponseRx (p : Fin 4) (q : FabPacket) (s : State) : Host.Outcome State Fault Refusal := s.run fun d => d.fabResponseIn p q

def execJtagAccessGo (v : BitVec 100) (s : State) : Host.Outcome State Fault Refusal := s.run fun d => d.accessGo v

def execJtagAccessDone (s : State) : Host.Outcome State Fault Refusal := s.run fun d => d.accessDone

end Sys2Proof.Machine
end

