-- ==== Sys2Proof/Machine/Staging.lean ====
section
/-! DEFINITION. Staging a recipe package (R395 to R400): reading and checking it, and writing its entries. -/

namespace Sys2Proof.Machine

/-! The package (R395 to R398). -/

/-- An entry of a section. -/
inductive PkgEntry where
  | scale (axis num den : Nat)
  | trig (t : TrigEntry)
  | cam (c : CamEntry)
  | set (s : CamSet) (count : Nat)
  | blob (da : Nat) (zero : Bool) (len : Nat) (data : List Byte)
  | image (clusters : Nat) (half : List Byte)
deriving DecidableEq, Repr

/-- A TRIG_SET entry; `len` is LEN of its list. -/
def trigEntry (bs : List Byte) (len : Nat) : TrigEntry :=
  { unit := leAt bs 0 1, rel := bitOf (leAt bs 1 1) 0, listCfg := leAt bs 4 4, ofs := leIntAt bs 8 8, start := leIntAt bs 0x10 8,
    pitch := leAt bs 0x18 8, count := leAt bs 0x20 4, repeat_ := leIntAt bs 0x28 8,
    list := (List.range len).map (fun i => leIntAt bs (0x30 + 8 * i) 8) }

def camEntry (bs : List Byte) : CamEntry :=
  let flags := leAt bs 1 1
  { cam := leAt bs 0 1, swatch := bitOf flags 0, orgRel := bitOf flags 1, refRel := bitOf flags 2, swKernel := leAt bs 2 1,
    lines := leAt bs 4 4, org := leIntAt bs 8 8, len := leAt bs 0x10 8, width := leAt bs 0x18 2, fill := leAt bs 0x1A 2,
    latMin := leAt bs 0x1C 4, latMax := leAt bs 0x20 4, path := leAt bs 0x24 4, steCfg := leAt bs 0x28 4, steTile := leAt bs 0x2C 4,
    steBands := leAt bs 0x30 4, steParam := leAt bs 0x34 4, rate := leAt bs 0x38 4 }

/-- A CAMSET entry; each pair has the register address in its low word and the value in its high word (R396, CAR_SET_W). -/
def camSet (bs : List Byte) : CamSet :=
  { cam := leAt bs 0 1, cpb := leAt bs 8 8,
    writes := (List.range (leAt bs 1 1)).map (fun j => (leAt bs (0x10 + 8 * j) 4, leAt bs (0x14 + 8 * j) 4)) }

/-- The first entry of a section's rest: its length in bytes and what it says; none for an unknown type. -/
def pkgEntry (type : Nat) (bs : List Byte) : Option (Nat × PkgEntry) :=
  match type with
  | 1 => some (16, .scale (leAt bs 0 1) (leAt bs 4 4) (leAt bs 8 4))
  | 2 =>
    let len := fld (BitVec.ofNat 32 (leAt bs 4 4)) F.TRIG_CMP_LIST_CFG_LEN
    some (0x30 + 8 * len, .trig (trigEntry bs len))
  | 3 => some (64, .cam (camEntry bs))
  | 4 => some (0x10 + 8 * leAt bs 1 1, .set (camSet bs) (leAt bs 1 1))
  | 5 =>
    let len := leAt bs 8 4
    let zero := bitOf (leAt bs 0xC 4) 0
    some (if zero then 0x10 else 0x10 + len, .blob (leAt bs 0 8) zero len ((bs.drop 0x10).take (if zero then 0 else len)))
  | 6 => some (8 + 8192, .image (leAt bs 0 2) ((bs.drop 8).take 8192))
  | _ => none

/-- The entries of a section: none where its type is unknown or an entry passes its end. -/
def pkgEntries (type : Nat) : Nat → List Byte → Option (List PkgEntry)
  | 0, _ => none
  | fuel + 1, bs =>
    if bs = [] then some []
    else match pkgEntry type bs with
      | none => none
      | some (n, e) =>
        if bs.length < n then none else (pkgEntries type fuel (bs.drop (roundUp 8 n))).map (e :: ·)

/-- The directory: type, offset and size of each section (R396). -/
def pkgDirectory (pkg : List Byte) : List (Nat × Nat × Nat) :=
  (List.range (leAt pkg 0x10 2)).map (fun i =>
    let o := 0x40 + 16 * i
    (leAt pkg o 2, leAt pkg (o + 4) 4, leAt pkg (o + 8) 4))

/-- Whether the header's fixed fields are right (R395). -/
def headerOk (h : List Byte) : Bool :=
  leAt h 0 4 == 0x50544C54 && leAt h 4 2 == 1 && leAt h 6 2 == 64 && decide (1 ≤ leAt h 0x10 2) && decide (leAt h 0x10 2 ≤ 256) &&
    decide (0x40 + 16 * leAt h 0x10 2 ≤ leAt h 0x0C 4)

/-- The first section whose directory entry is bad: its offset, its bounds, its type or its entries. -/
def badSection (pkg : List Byte) : Option Nat :=
  let dir := pkgDirectory pkg
  (List.range dir.length).find? (fun i =>
    let s := dir.getD i (0, 0, 0)
    s.2.1 % 8 != 0 || decide (s.2.1 < 0x40 + 16 * dir.length) || decide (pkg.length < s.2.1 + s.2.2) ||
      (pkgEntries s.1 (s.2.2 + 1) ((pkg.drop s.2.1).take s.2.2)).isNone)

/-- The entries of a package with their sections, in directory order. -/
def pkgAll (pkg : List Byte) : List (Nat × PkgEntry) :=
  (pkgDirectory pkg).zipIdx.flatMap (fun p =>
    ((pkgEntries p.1.1 (p.1.2.2 + 1) ((pkg.drop p.1.2.1).take p.1.2.2)).getD []).map (p.2, ·))

/-! The checks (R399). A failure is a result code and a section. -/

/-- The first failure of the header, the directory and the CRCs. -/
def pkgFormat (da : Nat) (pkg : List Byte) (ue : Bool) : Option (Nat × Nat) :=
  if da % 64 ≠ 0 ∨ !headerOk pkg then some (1, 0)
  else match badSection pkg with
    | some i => some (1, i)
    | none =>
      if ue ∨ crc32c (pkg.take 0x24) ≠ leAt pkg 0x24 4 ∨ crc32c (pkg.drop 0x40) ≠ leAt pkg 0x20 4 then some (2, 0) else none

/-- Whether a camera's tile settings are ones that R358 refuses. -/
def tileRefused (c : CamEntry) : Bool :=
  let t := BitVec.ofNat 32 c.steTile
  let b := BitVec.ofNat 32 c.steBands
  let w := fld t F.STE_CAM_TILE_TILE_W
  let h := fld t F.STE_CAM_TILE_TILE_H
  let n := fld b F.STE_CAM_BANDS_BANDS
  bitOf c.steCfg 31 && (w % 32 != 0 || decide (w < 32) || decide (2048 < w) || decide (h < 8) || decide (512 < h) || decide (n < 2) ||
    decide (8 < n))

/-- The bytes of a Stash that the live job's band buffers and kernel parameters take: cluster, first offset, length. The width is that of
an open frame of the camera, else ASM_WIDTH (DESIGN CHOICE). -/
def Dev.liveStash (d : Dev) : List (Nat × Nat × Nat) :=
  if d.job.epoch = 0 then []
  else (List.range 48).flatMap (fun cam =>
    if !d.b (R.STE_CAM_CFG cam) F.STE_CAM_CFG_EN then []
    else
      let cfg := d.tileCfg cam
      let f : TileFrame := (d.ste.frames.find? (fun g => g.cam == cam && g.width != 0)).getD
        { cam := cam, seq := 0, job := 0, epoch := 0, psid := 0, axis := 0, format := 0, bpp := 1,
          width := d.f (R.ASM_WIDTH cam) ⟨0, 16⟩, expect := 0, edgeTop := false, straddle := false, cfg := cfg }
      cfg.homes.flatMap (fun c => [(c, cfg.base, cfg.bands * (f.strip c).size), (c, cfg.param, 0x60)]))

/-- Whether a range of device addresses meets what the live job uses in the Stash. -/
def Dev.meetsLive (da n : Nat) (d : Dev) : Bool :=
  match daDecode da with
  | .bar x => match barDecode (foldAlias x) with
    | .stash _ c off =>
      d.liveStash.any (fun r =>
        let lo := r.1 * stashSize + r.2.1
        let a := c * stashSize + off
        decide (a < lo + r.2.2) && decide (lo < a + n))
    | _ => false
  | _ => false

/-- The result of an entry's checks, 0 when all pass. -/
def Dev.entryCheck (e : PkgEntry) (d : Dev) : Nat :=
  match e with
  | .scale a _ _ => if 3 < a then 3 else 0
  | .trig t =>
    if 15 < t.unit ∨ 4096 < t.list.length then 3 else if (d.unit t.unit).set = d.job.target then 5 else 0
  | .cam c => if 47 < c.cam ∨ tileRefused c ∨ (c.swatch ∧ !d.b (R.ASM_CAM_CFG c.cam) F.ASM_CAM_CFG_SCAN) then 3 else 0
  | .set s n => if 47 < s.cam ∨ 16 < n then 3 else 0
  | .blob da _ len _ => if d.meetsLive da len then 5 else 0
  | .image cl _ => if cl = 0 then 3 else 0

/-- The path word and the declared rate of a camera under the new job (R399: a camera it does not name keeps its own). -/
def Dev.declared (cams : List CamEntry) (cam : Nat) (d : Dev) : Word × Nat :=
  match (cams.filter (fun c => c.cam == cam)).getLast? with
  | some c => (BitVec.ofNat 32 c.path, c.rate)
  | none => (d.rd (R.CAR_CAM_PATH cam), d.job.rates.get (fun _ => 0) cam)

/-- Whether the declared rates break R33: at most one in-line camera a Carriage, of at most 5,000 Mpixel/s, and at most 6,000 in all. -/
def Dev.overCapacity (cams : List CamEntry) (d : Dev) : Bool :=
  (List.range 4).any (fun k =>
    let mine := ((List.range 48).map (fun c => d.declared cams c)).filter (fun p => fld p.1 F.CAR_CAM_PATH_CARRIAGE == k)
    let inLine := mine.filter (fun p => fld p.1 F.CAR_CAM_PATH_PATH == 1)
    let mem := mine.filter (fun p => fld p.1 F.CAR_CAM_PATH_PATH == 2)
    decide (1 < inLine.length) || inLine.any (fun p => decide (5000 < p.2)) ||
      decide (6000 < (inLine.map (·.2)).sum + (mem.map (·.2)).sum))

/-- The first failure of the entries. -/
def Dev.pkgCheck (pkg : List Byte) (es : List (Nat × PkgEntry)) (d : Dev) : Option (Nat × Nat) :=
  if leAt pkg 8 4 = 0 then some (3, 0)
  else match es.find? (fun p => d.entryCheck p.2 != 0) with
    | some p => some (d.entryCheck p.2, p.1)
    | none =>
      let cams := es.filterMap (fun p => match p.2 with
        | .cam c => some (p.1, c)
        | _ => none)
      if d.overCapacity (cams.map (·.2)) then some (4, (cams.head?.map (·.1)).getD 0) else none

/-! The writes (R400). -/

/-- The compare set of the target slot takes a TRIG_SET. -/
def Dev.trigStage (t : TrigEntry) (h : Nat) (d : Dev) : Dev :=
  let d1 := ((((d.wr64 (R.TRIG_CMP_START t.unit h) (BitVec.ofInt 64 t.start)).wr64 (R.TRIG_CMP_PITCH t.unit h)
    (BitVec.ofNat 64 (t.pitch % 2 ^ 48))).wr (R.TRIG_CMP_COUNT t.unit h) (BitVec.ofNat 32 t.count)).wr (R.TRIG_CMP_LIST_CFG t.unit h)
    (BitVec.ofNat 32 t.listCfg &&& 0x80001FFF)).wr64 (R.TRIG_CMP_REPEAT t.unit h) (BitVec.ofInt 64 t.repeat_)
  t.list.zipIdx.foldl (fun (y : Dev) v =>
    { y with trig := { y.trig with lists := y.trig.lists.set (fun _ => 0) (t.unit * 8192 + h * 4096 + v.2) (BitVec.ofInt 64 v.1) } }) d1

/-- One half of the instruction memory of the named clusters. -/
def Dev.imageStage (clusters : Nat) (half : List Byte) (h : Nat) (d : Dev) : Dev :=
  (List.range 16).foldl (fun (y : Dev) c =>
    if bitOf clusters c then
      { y with ste := { y.ste with imem := y.ste.imem.setBytes zeroByte (c * 16384 + h * 8192) half } }
    else y) d

/-- The master of a BLOB: STE(c) in a cluster's Stash, STEWARD elsewhere. -/
def blobMaster (da : Nat) : Nat :=
  match daDecode da with
  | .bar x => match barDecode x with
    | .stash _ c _ => 0x30 + c
    | _ => 2
  | _ => 2

/-- Writes one entry: whether it was granted, and the device. -/
def Dev.entryStage (e : PkgEntry) (h : Nat) (d : Dev) : Bool × Dev :=
  match e with
  | .trig t => (true, d.trigStage t h)
  | .image cl half => (true, d.imageStage cl half h)
  | .blob da zero len data =>
    let r := d.runWrite (blobMaster da) da (if zero then zeros len else data)
    (r.1 == .ok, r.2)
  | .scale _ _ _ => (true, d)
  | .cam _ => (true, d)
  | .set _ _ => (true, d)

/-- Writes the entries in directory order, up to the first denial: its section. -/
def Dev.entriesStage (es : List (Nat × PkgEntry)) (h : Nat) (d : Dev) : Option Nat × Dev :=
  es.foldl (fun (acc : Option Nat × Dev) p =>
    if acc.1.isSome then acc
    else
      let r := acc.2.entryStage p.2 h
      (if r.1 then none else some p.1, r.2)) (none, d)

/-- The recipe that the slot holds: the header's numbers and the shadows. -/
def recipeOf (pkg : List Byte) (es : List (Nat × PkgEntry)) : Recipe :=
  let k := leAt pkg 0x14 1
  { jobId := leAt pkg 8 4, swatchK := if k = 0 then 8 else min k 64, extra := leAt pkg 0x15 1, deadline := leAt pkg 0x16 2,
    scales := es.filterMap (fun p => match p.2 with
      | .scale a n m => some (a, n, m)
      | _ => none),
    trigs := es.filterMap (fun p => match p.2 with
      | .trig t => some t
      | _ => none),
    cams := es.filterMap (fun p => match p.2 with
      | .cam c => some c
      | _ => none),
    sets := es.filterMap (fun p => match p.2 with
      | .set s _ => some s
      | _ => none) }

/-! The end of staging (R399). -/

/-- JOB_STAGE_STATUS reports the result and the slot takes its state. -/
def Dev.stageEnd (h result section_ : Nat) (r : Option Recipe) (d : Dev) : Dev :=
  let d1 := (((d.modJob fun j => { j.setSlot h (if result = 0 then .staged else .free) r with staging := none }).sb R.JOB_STAGE_STATUS
    F.JOB_STAGE_STATUS_BUSY false).sb R.JOB_STAGE_STATUS F.JOB_STAGE_STATUS_DONE true).sf R.JOB_STAGE_STATUS
    F.JOB_STAGE_STATUS_RESULT result
  let d2 := (d1.sf R.JOB_STAGE_STATUS F.JOB_STAGE_STATUS_SECTION section_).wr (jobIdReg h)
    (BitVec.ofNat 32 ((r.map (·.jobId)).getD 0))
  if result = 0 then d2 else (d2.bump R.JOB_CNT0 F.JOB_CNT0_STAGE_FAIL_CNT 1).jobErr 2

/-- The package at a Skein DA: its bytes, whether a block of it is uncorrectable, and the device; none where it does not lie in Skein. -/
def Dev.pkgRead (da : Nat) (d : Dev) : Option (List Byte × Bool × Dev) :=
  match daDecode da with
  | .skein a =>
    if !d.skeinExists a 64 then none
    else
      let size := leAt (d.skeinBytes a 64) 0x0C 4
      if d.skeinExists a size then some (d.skeinRead 2 a (max 64 size)) else none
  | _ => none

/-- STAGING_DONE: the package at JOB_STAGE_DA has passed its three passes, or fails. Staging pauses while Skein serves no access. -/
def Dev.stagingDone (d : Dev) : Dev :=
  match d.job.staging with
  | none => d
  | some da =>
    if !d.skeinServes ∨ d.pwr.state ≠ .active then d
    else
      let h := d.job.target
      match d.pkgRead da with
      | none => d.stageEnd h 1 0 none
      | some (pkg, ue, y) =>
        match pkgFormat da pkg ue with
        | some f => y.stageEnd h f.1 f.2 none
        | none =>
          let es := pkgAll pkg
          match y.pkgCheck pkg es with
          | some f => y.stageEnd h f.1 f.2 none
          | none =>
            let r := y.entriesStage es h
            match r.1 with
            | some s => r.2.stageEnd h 6 s none
            | none => r.2.stageEnd h 0 0 (some (recipeOf pkg es))

/-! The commands. -/

def execStagingDone (s : State) : Host.Outcome State Fault Refusal := s.run fun d => d.stagingDone

end Sys2Proof.Machine
end

