-- ==== Sys2Proof/Machine/Operands.lean ====
section
/-! DEFINITION. What an engine's operations read and write (spec/10): registers and predicates (R359, R360, R362), lanes, and the
engine address space (R367, R368). -/

namespace Sys2Proof.Machine

/-! Registers. -/

/-- A scalar register; s0 reads as 0 (R359). -/
def Engine.sreg (x : Engine) (i : Nat) : Word := if i = 0 then 0 else x.s.get (fun _ => 0) i

def Engine.vreg (x : Engine) (i : Nat) : VWord := x.v.get (fun _ => 0) i

/-- A predicate; p0 reads as all ones (R359). -/
def Engine.preg (x : Engine) (i : Nat) : Word := if i = 0 then 0xFFFFFFFF else x.p.get (fun _ => 0) i

/-- The pair of a register (R369). -/
def Engine.pair (x : Engine) (i : Nat) : DWord := dword (x.sreg (i + 1)) (x.sreg i)

/-- A write of a scalar register; one of s0 is discarded. -/
def Dev.setS (e i : Nat) (v : Word) (d : Dev) : Dev :=
  if i = 0 then d else d.modEng e fun x => { x with s := x.s.set (fun _ => 0) i v }

/-- A write of a pair. -/
def Dev.setPair (e i : Nat) (v : DWord) (d : Dev) : Dev := (d.setS e i v.lo).setS e (i + 1) v.hi

def Dev.setV (e i : Nat) (v : VWord) (d : Dev) : Dev := d.modEng e fun x => { x with v := x.v.set (fun _ => 0) i v }

/-- A write of a predicate; one of p0 is discarded. -/
def Dev.setP (e i : Nat) (v : Word) (d : Dev) : Dev :=
  if i = 0 then d else d.modEng e fun x => { x with p := x.p.set (fun _ => 0) i v }

/-! Lanes (R359, R360). -/

/-- The bits of a lane, and the lanes of a vector register: w = 1 selects 8-bit lanes (R359). -/
def laneBits (w : Bool) : Nat := if w then 8 else 16

def laneCount (w : Bool) : Nat := if w then 32 else 16

/-- A lane, unsigned. -/
def lane (w : Bool) (v : VWord) (i : Nat) : Nat := v.toNat / 2 ^ (laneBits w * i) % 2 ^ laneBits w

/-- A lane as a signed number: in 8-bit mode lanes are unsigned bytes (R370). -/
def laneInt (w : Bool) (v : VWord) (i : Nat) : Int :=
  let n := lane w v i
  if w = false ∧ 2 ^ 15 ≤ n then (n : Int) - 2 ^ 16 else n

/-- The register whose lanes are given. -/
def ofLanes (w : Bool) (f : Nat → Nat) : VWord :=
  BitVec.ofNat 256 (((List.range (laneCount w)).map (fun i => f i % 2 ^ laneBits w * 2 ^ (laneBits w * i))).sum)

/-- Whether a predicate enables a lane (R360). -/
def enabled (w : Bool) (p : Word) (i : Nat) : Bool := p.getLsbD (if w then i else 2 * i)

/-- The lanes a predicate enables, lowest first. -/
def enabledLanes (w : Bool) (p : Word) : List Nat := (List.range (laneCount w)).filter (enabled w p)

/-- A destination after an operation: enabled lanes take the result, the others keep their value (R365). -/
def mergeLanes (w : Bool) (p : Word) (old new : VWord) : VWord :=
  ofLanes w (fun i => if enabled w p i then lane w new i else lane w old i)

/-- Whether a predicate enables the 8-bit place `j` in a mode: in 16-bit mode bit 2i governs both places of lane i. -/
def enabledPlace (w : Bool) (p : Word) (j : Nat) : Bool := p.getLsbD (if w then j else 2 * (j / 2))

/-- The predicate whose bits are given. -/
def ofPlaces (f : Nat → Bool) : Word := BitVec.ofNat 32 (ofBits ((List.range 32).map (fun j => (f j, j))))

/-- A predicate destination: enabled places take the result, the others keep their value. -/
def mergePlaces (w : Bool) (p old new : Word) : Word :=
  ofPlaces fun j => if enabledPlace w p j then new.getLsbD j else old.getLsbD j

/-- The 32 bytes of a vector register, lowest first, and the register of 32 bytes. -/
def vbytes (v : VWord) : List Byte := leBytes 32 v.toNat

def ofBytes (bs : List Byte) : VWord := BitVec.ofNat 256 (leNat bs)

/-! The engine address space (R367). -/

/-- The BAR0 offset of `n` bytes at an engine address, for engine e and an item with home cluster `home`; none outside every range. -/
def engOffset (e home ea n : Nat) : Option Nat :=
  let within := fun (lo len : Nat) => decide (lo ≤ ea) && decide (ea + n ≤ lo + len)
  if within 0 scratchSize then some (0x4000000 + e * scratchSize + ea)
  else if within 0x200000 stashSize then some (0x5000000 + home * stashSize + (ea - 0x200000))
  else if [0, 0x4000000, 0x8000000].any (fun b =>
      within (0x4000000 + b + e * scratchSize) scratchSize || within (0x5000000 + b) (16 * stashSize)) then some ea
  else none

/-- Why an engine's access to a BAR0 offset is denied, if it is (R368, R435). -/
def Dev.ownStop (e : Nat) (write : Bool) (x n : Nat) (d : Dev) : Option Dev :=
  match barDecode x with
  | .stash _ c off =>
    if d.stashMay (0x30 + e / 16) 0 (c * stashSize + off) n then none
    else some (d.deny (0x30 + e / 16) write (denyAddr (0x30 + e / 16) x))
  | _ => none

/-- Bytes of engine memory at a BAR0 offset; a read through an alias changes nothing (R438). -/
def Dev.engBytes (x n : Nat) (d : Dev) : List Byte :=
  match barDecode x with
  | .scratch _ e off => d.scratchBytes e off n
  | .stash _ c off => d.stashBytes c off n
  | _ => zeros n

/-- A write of engine memory at a BAR0 offset, plain or through an alias. -/
def Dev.engPut (x : Nat) (bs : List Byte) (d : Dev) : Dev :=
  match barDecode x with
  | .scratch op e off => d.scratchStore op e off bs
  | .stash op c off => d.stashStore op c off bs
  | _ => d

/-- How a write at a BAR0 offset reaches its bytes. -/
def aliasOf (x : Nat) : BankOp :=
  match barDecode x with
  | .scratch op _ _ => op
  | .stash op _ _ => op
  | _ => .plain

end Sys2Proof.Machine
end

