-- ==== Sys2Proof/Machine/Flags.lean ====
section
/-! DEFINITION. Lane arithmetic, comparison and reduction of slot V (R365, R370). An engine has no flags; its comparisons write
predicates or decide branches. -/

namespace Sys2Proof.Machine

/-- A value clamped to an unsigned lane. -/
def saturate (w : Bool) (n : Int) : Nat := (max 0 (min n (2 ^ laneBits w - 1))).toNat

/-- A value wrapped to a lane. -/
def wrapLane (w : Bool) (n : Int) : Nat := (n % 2 ^ laneBits w).toNat

/-- A lane-wise operation on unsigned lanes. -/
def laneMap (w : Bool) (f : Nat → Nat → Nat) (a b : VWord) : VWord := ofLanes w fun i => f (lane w a i) (lane w b i)

/-- The absolute difference. -/
def absDiff (a b : Nat) : Nat := (a - b) + (b - a)

/-- An arithmetic right shift of a lane. -/
def sarLane (w : Bool) (v : VWord) (i k : Nat) : Nat := wrapLane w (laneInt w v i / 2 ^ k)

/-- A lane comparison: the bits of disabled lanes are 0, and a 16-bit lane writes two bits (R360, R365). -/
def compareLanes (w : Bool) (p : Word) (f : Nat → Bool) : Word :=
  ofPlaces fun j => enabledPlace w p j && f (if w then j else j / 2)

/-- The sum over the enabled lanes. -/
def laneSum (w : Bool) (p : Word) (f : Nat → Nat) : Nat := ((enabledLanes w p).map f).sum

/-- The sum of signed products over the enabled lanes. -/
def dotSum (w : Bool) (p : Word) (a b : VWord) : Int := ((enabledLanes w p).map (fun i => laneInt w a i * laneInt w b i)).sum

/-- VMULS of a lane: product with a 16-bit scalar, rounded, shifted, saturating. Without a shift nothing is rounded. -/
def mulScaled (w : Bool) (shift a s : Nat) : Nat :=
  let r := if shift = 0 then 0 else Config.mulsRound shift % 2 ^ shift
  saturate w (((a * s + r) / 2 ^ shift : Nat) : Int)

/-- Lane `j` of the concatenation of two registers, first register first; none beyond it. -/
def concatLane (w : Bool) (a b : VWord) (j : Nat) : Option Nat :=
  if j < laneCount w then some (lane w a j)
  else if j < 2 * laneCount w then some (lane w b (j - laneCount w))
  else none

/-- 16 bytes widened to 16-bit lanes. -/
def widen (v : VWord) (from_ : Nat) : VWord := ofLanes false fun i => lane true v (from_ + i)

/-- The 16-bit lanes of two registers narrowed to bytes, unsigned saturating. -/
def narrow (a b : VWord) : VWord :=
  ofLanes true fun i => saturate true (if i < 16 then lane false a i else lane false b (i - 16))

/-- A branch condition on a signed or unsigned comparison. -/
def signedLt (a b : Word) : Bool := decide (a.toInt < b.toInt)

def unsignedLt (a b : Word) : Bool := decide (a.toNat < b.toNat)

end Sys2Proof.Machine
end

