-- ==== Sys2Proof/Machine/Issue.lean ====
section
/-! DEFINITION. The issue of a bundle (R363, R366, R373, R374): both slots read the machine as it stood before the bundle; a stall in
either holds the bundle, a fault in either suppresses it. -/

namespace Sys2Proof.Machine

/-- The kernel that issues: engine, its registers before the bundle, the ownership epoch it runs under, and its item. -/
structure Ctx where
  e     : Nat
  x     : Engine
  epoch : Nat
  item  : Item

/-- What a slot's operation comes to: the bundle waits, it faults with a code, or it acts and may name the next bundle. -/
inductive Issue where
  | stall (d : Dev)
  | fault (code : Nat) (d : Dev)
  | go (act : Dev → Dev) (jump : Option Int)

/-- A slot's operation: whether its encoding is legal, the scalar registers it writes, and what it does. -/
structure SlotOp where
  legal : Bool
  dst   : List Nat
  run   : Ctx → Dev → Issue

/-- The operation, legal only where the bits of a slot that must be 0 are 0. -/
def SlotOp.zero (w mask : Word) (o : SlotOp) : SlotOp := { o with legal := o.legal && (w &&& mask == 0) }

/-- An operation with an effect and nothing to wait for. -/
def SlotOp.simple (dst : List Nat) (f : Ctx → Dev → Dev) : SlotOp :=
  { legal := true, dst := dst, run := fun k _ => .go (f k) none }

/-- The kernel an engine runs: that of its item, or one that a fence has cut off and no reset has yet stopped (R341, R382). -/
def Engine.kernel (x : Engine) : Option (Nat × Item) :=
  match x.state with
  | .run => x.item.map (fun i => (x.epoch, i))
  | .fenced => x.old
  | _ => none

/-- The bundle at an engine's PC (R361, R363): slot S, slot V. -/
def Dev.fetch (e : Nat) (d : Dev) : Option (Ctx × Word × Word) :=
  let x := d.eng e
  match x.kernel with
  | none => none
  | some (ep, i) =>
    if d.clusterOn (e / 16) && decide (x.pc < 1024) then
      let at_ := e / 16 * 16384 + i.epoch % 2 * 8192 + 8 * x.pc
      some ({ e := e, x := x, epoch := ep, item := i }, BitVec.ofNat 32 (leNat (d.ste.imem.bytes zeroByte (at_ + 4) 4)),
        BitVec.ofNat 32 (leNat (d.ste.imem.bytes zeroByte at_ 4)))
    else none

/-- The bundle's own end: the effects of both slots, the PC, and the fault of a PC that passes the last bundle (R373). -/
def Dev.bundleActs (k : Ctx) (f g : Dev → Dev) (jump : Option Int) (d : Dev) : Dev :=
  let next : Int := jump.getD ((k.x.pc : Int) + 1)
  if jump.isSome ∧ (next < 0 ∨ 1023 < next) then d.kernelFault k.e 5 0 0
  else
    let d1 := f (g (d.modEng k.e fun x => { x with pc := next.toNat }))
    if 1023 < next then (d1.modEng k.e fun x => { x with pc := k.x.pc }).kernelFault k.e 5 0 0 else d1

/-- A bundle issues (R363, R374). -/
def Dev.bundle (k : Ctx) (a b : SlotOp) (d : Dev) : Dev :=
  if !a.legal then d.kernelFault k.e 1 0 0
  else if !b.legal || a.dst.any (fun r => b.dst.contains r) then d.kernelFault k.e 1 1 0
  else match a.run k d, b.run k d with
    | .stall y, _ => y
    | .fault c y, _ => y.kernelFault k.e c 0 0
    | .go _ _, .stall y => y
    | .go _ _, .fault c y => y.kernelFault k.e c 1 0
    | .go f j, .go g _ => d.bundleActs k f g j

/-- An operation whose op or fn the tables do not give. -/
def opUndefined : SlotOp := { legal := false, dst := [], run := fun _ _ => .go id none }

/-! Access to engine memory. -/

/-- Where an access of `n` bytes goes, or the fault it makes (R367, R368). -/
def Ctx.access (k : Ctx) (write : Bool) (ea n : Nat) (d : Dev) : Except (Nat × Dev) Nat :=
  match engOffset k.e k.item.home ea n with
  | none => .error (2, d)
  | some x =>
    match d.ownStop k.e write x n with
    | some y => .error (4, y)
    | none => .ok x

/-- An operation that reaches engine memory: the effect at the place found, or the fault. -/
def Ctx.withAccess (k : Ctx) (write : Bool) (ea n : Nat) (d : Dev) (f : Nat → Issue) : Issue :=
  match k.access write ea n d with
  | .error p => .fault p.1 p.2
  | .ok x => f x

end Sys2Proof.Machine
end

