-- ==== Sys2Proof/Machine/ScalarOps.lean ====
section
/-! DEFINITION. The operations of slot S (R369): arithmetic, memory, branches and waits. Transfers, records and queue marks are in
Machine/EngineSys.lean. -/

namespace Sys2Proof.Machine

/-! Arithmetic. -/

/-- rd = f ra rb. -/
def opAlu (f : Word → Word → Word) (rd ra rb : BitVec 4) : SlotOp :=
  SlotOp.simple [rd.toNat] fun k d => d.setS k.e rd.toNat (f (k.x.sreg ra.toNat) (k.x.sreg rb.toNat))

/-- rd = f ra imm18, the immediate sign-extended (R364). -/
def opAluI (f : Word → Word → Word) (rd ra : BitVec 4) (imm : BitVec 18) : SlotOp :=
  SlotOp.simple [rd.toNat] fun k d => d.setS k.e rd.toNat (f (k.x.sreg ra.toNat) (imm.signExtend 32))

/-- Pair rd = f (pair ra) (pair rb); pairs name even registers. -/
def opPair (f : DWord → DWord → DWord) (rd ra rb : BitVec 4) : SlotOp :=
  { legal := !rd.getLsbD 0 && !ra.getLsbD 0 && !rb.getLsbD 0, dst := [rd.toNat, rd.toNat + 1],
    run := fun k _ => .go (fun d => d.setPair k.e rd.toNat (f (k.x.pair ra.toNat) (k.x.pair rb.toNat))) none }

def wordOf (b : Bool) : Word := if b then 1 else 0

/-- The high 32 bits of the signed product. -/
def mulHigh (a b : Word) : Word := BitVec.ofInt 32 (a.toInt * b.toInt / 2 ^ 32)

/-- A shift amount: the low 5 bits. -/
def shamt (b : Word) : Nat := b.toNat % 32

def opNop (w : Word) : SlotOp := { legal := w == 0, dst := [], run := fun _ _ => .go id none }
def opAdd := opAlu (· + ·)
def opSub := opAlu (· - ·)
def opAnd := opAlu (· &&& ·)
def opOr := opAlu (· ||| ·)
def opXor := opAlu (· ^^^ ·)
def opShl := opAlu fun a b => a <<< shamt b
def opShr := opAlu fun a b => a >>> shamt b
def opSar := opAlu fun a b => a.sshiftRight (shamt b)
def opMul := opAlu (· * ·)
def opMulh := opAlu mulHigh
def opSlt := opAlu fun a b => wordOf (signedLt a b)
def opSltu := opAlu fun a b => wordOf (unsignedLt a b)
def opMin := opAlu fun a b => if signedLt a b then a else b
def opMax := opAlu fun a b => if signedLt a b then b else a
def opAdd64 := opPair (· + ·)
def opSub64 := opPair (· - ·)
def opAddi := opAluI (· + ·)
def opAndi := opAluI (· &&& ·)
def opOri := opAluI (· ||| ·)
def opXori := opAluI (· ^^^ ·)
def opShli := opAluI fun a b => a <<< shamt b
def opShri := opAluI fun a b => a >>> shamt b
def opSari := opAluI fun a b => a.sshiftRight (shamt b)
def opSlti := opAluI fun a b => wordOf (signedLt a b)

def opLui (rd : BitVec 4) (imm : BitVec 22) : SlotOp :=
  SlotOp.simple [rd.toNat] fun k d => d.setS k.e rd.toNat (imm ++ 0#10)

/-! Loads and stores (R368). -/

/-- The engine address ra + imm18. -/
def Ctx.addr (k : Ctx) (ra : BitVec 4) (imm : BitVec 18) : Nat := (k.x.sreg ra.toNat + imm.signExtend 32).toNat

/-- A load of `n` bytes, zero-extended. -/
def opLoad (n : Nat) (rd ra : BitVec 4) (imm : BitVec 18) : SlotOp :=
  { legal := true, dst := [rd.toNat],
    run := fun k d =>
      let ea := k.addr ra imm
      if ea % n ≠ 0 then .fault 3 d
      else k.withAccess false ea n d fun x => .go (fun y => y.setS k.e rd.toNat (BitVec.ofNat 32 (leNat (d.engBytes x n)))) none }

/-- A store of the low `n` bytes of rd. -/
def opStore (n : Nat) (rd ra : BitVec 4) (imm : BitVec 18) : SlotOp :=
  { legal := true, dst := [],
    run := fun k d =>
      let ea := k.addr ra imm
      if ea % n ≠ 0 then .fault 3 d
      else k.withAccess true ea n d fun x => .go (fun y => y.engPut x (leBytes n (k.x.sreg rd.toNat).toNat)) none }

/-! Branches. -/

/-- A branch by off18 bundles from its own bundle where the condition holds. -/
def opBranch (c : Word → Word → Bool) (ra rb : BitVec 4) (off : BitVec 18) : SlotOp :=
  { legal := true, dst := [],
    run := fun k _ => .go id (if c (k.x.sreg ra.toNat) (k.x.sreg rb.toNat) then some (k.x.pc + off.toInt) else none) }

/-- A branch on whether a predicate has any bit set. -/
def opBranchP (any_ : Bool) (pa : BitVec 3) (off : BitVec 18) : SlotOp :=
  { legal := true, dst := [],
    run := fun k _ => .go id (if (k.x.preg pa.toNat != 0) == any_ then some (k.x.pc + off.toInt) else none) }

def opBeq := opBranch (· == ·)
def opBne := opBranch (· != ·)
def opBlt := opBranch signedLt
def opBge := opBranch fun a b => !signedLt a b
def opBltu := opBranch unsignedLt
def opBgeu := opBranch fun a b => !unsignedLt a b
def opBpany := opBranchP true
def opBpnone := opBranchP false

def opJal (rd : BitVec 4) (imm : BitVec 18) : SlotOp :=
  { legal := true, dst := [rd.toNat],
    run := fun k _ => .go (fun d => d.setS k.e rd.toNat (BitVec.ofNat 32 (k.x.pc + 1))) (some (k.x.pc + imm.toInt)) }

/-- PC = ra[9:0]; a target in the kernel table raises PC (R373). -/
def opJr (ra : BitVec 4) : SlotOp :=
  { legal := true, dst := [],
    run := fun k d =>
      let t := (k.x.sreg ra.toNat).toNat % 1024
      if t < 16 then .fault 5 d else .go id (some t) }

/-! Events, special values and ordering (R369, R383, R384). -/

/-- PUB: the hop count is 0 where no EVWAIT of the item has returned. -/
def opPub : SlotOp := SlotOp.simple [] fun k d => d.publish (Src.steUser (k.e / 16)) k.x.hop

/-- EVWAIT: waits until the cluster's event count differs from ra; PUB then carries the hop count of the last event plus 1. -/
def opEvwait (ra : BitVec 4) : SlotOp :=
  { legal := true, dst := [],
    run := fun k d =>
      let c := d.cluster (k.e / 16)
      if BitVec.ofNat 32 c.events = k.x.sreg ra.toNat then .stall d
      else .go (fun y => y.modEng k.e fun x => { x with hop := c.evHop + 1 }) none }

/-- RDSR: codes 3 and 4 read a cycle count, which the model leaves free. -/
def opRdsr (rd : BitVec 4) (code : BitVec 6) : SlotOp :=
  { legal := decide (code.toNat < 8), dst := [rd.toNat],
    run := fun k _ => .go (fun d =>
      let put := fun (n : Nat) => d.setS k.e rd.toNat (BitVec.ofNat 32 n)
      match code.toNat with
      | 0 => put k.e
      | 1 => put (k.e / 16)
      | 2 => put k.epoch
      | 5 => put (d.cluster (k.e / 16)).events
      | 6 => put k.item.home
      | 7 => put (d.clusterMHz (k.e / 16))
      | _ => (d.fresh 32).2.setS k.e rd.toNat (d.fresh 32).1) none }

/-- MSYNC: stores take effect as they issue, so it waits for XSTs. -/
def opMsync : SlotOp :=
  { legal := true, dst := [], run := fun k d => if k.x.xfers.any (·.store) then .stall d else .go id none }

end Sys2Proof.Machine
end

