-- ==== Sys2Proof/Machine/EngineSys.lean ====
section
/-! DEFINITION. The operations of slot S that reach other blocks: transfers to and from device addresses (R371, R372), snag records and
the end of an item (R375 to R380), and queue marks (R381, R382). -/

namespace Sys2Proof.Machine

/-! Transfers. -/

/-- Whether a device address is one a transfer may name: Skein, the BAR0 mirror, or no row of R54 at all, which is a decode error. -/
def xferDa (da : Nat) : Bool :=
  match daDecode da with
  | .host _ => false
  | .peer _ _ => false
  | _ => true

/-- The start of a transfer at a BAR0 offset. The destination bytes of an XLD are undefined from here to its XWAIT; behind an alias they
stand until the data combines with them. An XST takes its source bytes. -/
def Dev.xferStart (k : Ctx) (store : Bool) (tag da x n : Nat) (d : Dev) : Dev :=
  let plain := foldAlias x
  let op := aliasOf x
  let q : Xfer := { tag := tag, store := store, da := da, at_ := plain, op := op, len := n,
                    data := if store = true ∨ op ≠ .plain then d.engBytes x n else [], run := k.x.runs }
  let d1 := d.modEng k.e fun y => { y with xfers := y.xfers ++ [q] }
  if store = true ∨ op ≠ .plain then d1 else (d1.freshBytes n).2.plainPut plain (d1.freshBytes n).1

/-- XLD and XST: rd bytes between the DA in pair ra and engine address rb. -/
def opXfer (store : Bool) (rd ra rb : BitVec 4) (tag : BitVec 6) : SlotOp :=
  { legal := !ra.getLsbD 0 && decide (tag.toNat < 4), dst := [],
    run := fun k d =>
      let da := (k.x.pair ra.toNat).toNat
      let ea := (k.x.sreg rb.toNat).toNat
      let n := (k.x.sreg rd.toNat).toNat
      if k.x.xfers.any (fun q => q.tag == tag.toNat) then .stall d
      else if da % 32 ≠ 0 ∨ ea % 32 ≠ 0 ∨ n % 32 ≠ 0 ∨ n < 32 ∨ 32768 < n ∨ !xferDa da then .fault 3 d
      else k.withAccess (!store) ea n d fun x =>
        match d.runStop (0x30 + k.e / 16) store da n with
        | none => .go (Dev.xferStart k store tag.toNat da x n) none
        | some (.trip, _) => .stall d
        | some (_, y) => .fault 4 y }

def opXld := opXfer false
def opXst := opXfer true

/-- XWAIT: the data of the XLDs waited for stands from its return. -/
def opXwait (code : BitVec 6) : SlotOp :=
  let hit := fun (t : Nat) => code.getLsbD 2 || t == code.toNat % 4
  { legal := decide (code.toNat < 8), dst := [],
    run := fun k d => if k.x.xfers.any (fun q => hit q.tag) then .stall d else .go (fun y => y.land k.e hit) none }

/-! Snag records (R375 to R379). -/

/-- The flag bits a kernel sets (R377): POS_UNCERTAIN, EDGE, FILLED, SEL_FILLED, STRADDLE, TRUNCATED, CROP_CLIPPED. -/
def kernelFlags : Nat := 0x2BE

/-- The place of a crop of `len` bytes in a ring: after the last one, or at the start where the tail is too short; none where it does not
fit or meets a crop still held. -/
def Dev.cropPlace (cam base size len : Nat) (d : Dev) : Option Nat :=
  let n := d.ste.cropNext.get (fun _ => 0) cam
  let start := if n + len ≤ size then n else 0
  if size < start + len ∨ d.ste.crops.any (fun a => a.base == base && decide (start < a.start + a.len) && decide (a.start < start + len))
  then none else some start

/-- The record as the Talom completes it from a draft (R376, R377); `dropped` says that no ring space was found. -/
def snagRecord (i : Item) (draft : List Byte) (dropped : Bool) (cropDa : Nat) : List Byte :=
  let flags := (BitVec.ofNat 32 (leAt draft 0x34 4) &&& BitVec.ofNat 32 kernelFlags).toNat
    + ofBits [(i.deferred, 0), (dropped, 6), (i.reissue != 0, 8)] + i.axis % 4 * 2 ^ 10
  leBytes 2 1 ++ leBytes 1 i.cam ++ (draft.drop 3).take 1 ++ zeros 4 ++ leBytes 4 i.job ++ leBytes 2 i.epoch ++ (draft.drop 0x0E).take 2
    ++ (draft.drop 0x10).take 0x14 ++ (if dropped then zeros 4 else (draft.drop 0x24).take 4) ++ leBytes 8 cropDa ++ leBytes 4 i.frame
    ++ leBytes 4 flags ++ (draft.drop 0x38).take 8

/-- The rows of a crop, packed: engine addresses are those of its top-left pixel and its pitch; the first fault stops it. -/
def Ctx.cropRows (k : Ctx) (src pitch n rows : Nat) (d : Dev) : Except (Nat × Dev) (List Byte) :=
  (List.range rows).foldl (fun (acc : Except (Nat × Dev) (List Byte)) r => match acc with
    | .error p => .error p
    | .ok bs => match k.access false (src + r * pitch) n d with
      | .error p => .error p
      | .ok x => .ok (bs ++ d.engBytes x n)) (.ok [])

/-- A result leaves for the order stage, and the engine counts it; the time of a stall before it does not count as run time (R339). -/
def Dev.sendResult (k : Ctx) (record : List Byte) (crop : Option (CropAlloc × List Byte)) (d : Dev) : Dev :=
  let hdr := d.stashBytes k.item.home (k.item.param % stashSize) 0x40
  let r : Result := { record := record, snagRing := leAt hdr 0x3C 1, cropRing := leAt hdr 0x3D 1, crop := crop }
  let f : ResultFlight := { engine := k.e, epoch := k.epoch, cam := k.item.cam, defer := k.item.deferred, seq := k.item.seq, result := r }
  (d.modEng k.e fun x =>
    { x with emitted := x.emitted + 1, paused := x.paused + (match x.stall with
               | some t => d.now - t
               | none => 0), stall := none }).modSte fun y => { y with flights := y.flights ++ [f] }

/-- The order stage is full: the emit stalls (R347). -/
def Dev.emitStall (e : Nat) (d : Dev) : Dev :=
  if (d.eng e).stall.isSome then d else (d.modEng e fun x => { x with stall := some d.now }).steErr (e / 16) 9

/-- The crop is copied into the ring and its space taken (R379). -/
def Dev.cropStore (k : Ctx) (start len : Nat) (bs : List Byte) (d : Dev) : Dev :=
  let a : CropAlloc := { base := k.x.cropDa, start := start, len := len, cam := k.item.cam, snag := none }
  ((d.runWrite (0x30 + k.e / 16) (k.x.cropDa + start) bs).2).modSte fun y =>
    { y with crops := y.crops ++ [a], cropNext := y.cropNext.set (fun _ => 0) k.item.cam (start + len) }

/-- EMIT (R376 to R379). -/
def opEmit (rd ra : BitVec 4) : SlotOp :=
  { legal := true, dst := [rd.toNat],
    run := fun k d =>
      let ea := (k.x.sreg ra.toNat).toNat
      if ea % 8 ≠ 0 then .fault 3 d
      else k.withAccess false ea 64 d fun x =>
        let draft := d.engBytes x 64
        let cw := leAt draft 0x24 2
        let ch := leAt draft 0x26 2
        let send := fun (dropped : Bool) (da : Nat) (crop : Option (CropAlloc × List Byte)) (y : Dev) =>
          (y.sendResult k (snagRecord k.item draft dropped da) crop).setS k.e rd.toNat 0
        if k.x.maxSnag ≤ k.x.emitted then .go (fun y => y.setS k.e rd.toNat 1) none
        else if 8192 ≤ d.heldResults + d.ste.flights.length then .stall (d.emitStall k.e)
        else if cw = 0 ∨ ch = 0 then .go (send false 0 none) none
        else
          let n := cw * k.item.bpp
          let len := roundUp 64 (n * ch)
          match k.cropRows (leAt draft 0x28 4) (leAt draft 0x2C 2) n ch d with
          | .error p => .fault p.1 p.2
          | .ok bs => match d.cropPlace k.item.cam k.x.cropDa k.x.cropLen len with
            | none => .go (send true 0 none) none
            | some start =>
              let a : CropAlloc := { base := k.x.cropDa, start := start, len := len, cam := k.item.cam, snag := none }
              match d.runStop (0x30 + k.e / 16) true (k.x.cropDa + start) (n * ch) with
              | some (.trip, _) => .stall d
              | some (_, y) => .fault 4 y
              | none => .go (fun y => send false (k.x.cropDa + start) (some (a, bs)) (y.cropStore k start len bs)) none }

/-- END (R380). A kernel that a fence has cut off ends without effect on its item. -/
def opEnd : SlotOp :=
  SlotOp.simple [] fun k d =>
    if (d.eng k.e).state = .fenced then d.modEng k.e fun x => { x with old := none } else d.itemEnd k.e

/-! Queue marks (R239, R240, R381, R382). -/

/-- Whether a queue belongs to the camera group of the item. -/
def Ctx.ownsQueue (k : Ctx) (q : Nat) (d : Dev) : Bool := decide (q < 48) && (d.members (d.asmCam k.item.cam).conn).contains q

/-- The mark behind a handle that the engine received in its present item. -/
def Ctx.handle (k : Ctx) (h : Nat) : Option MarkHandle := k.x.marks.find? (fun m => m.queue * 4 + m.idx == h)

/-- Whether the kernel runs under an ownership epoch older than the engine's. -/
def Ctx.fenced (k : Ctx) : Bool := k.epoch != k.x.epoch

/-- The mark as its queue holds it, unless it is lost. -/
def Dev.heldMark (m : MarkHandle) (d : Dev) : Option Mark := (d.ply m.queue).live.find? (fun p => p.id == m.mark)

/-- A mark is gone from its queue and from the engine. -/
def Dev.forgetMark (e : Nat) (m : MarkHandle) (d : Dev) : Dev :=
  (d.markDrop m.queue m.mark).modEng e fun x => { x with marks := x.marks.filter (fun y => y ≠ m) }

/-- The frame whose line an entry holds. -/
def Ply.frameAt (p : Ply) (entry : Nat) : Nat :=
  match p.packets.find? (fun q => decide (q.start ≤ entry) && decide (entry < q.start + q.len)) with
  | some q => q.frame
  | none => 0

def markFail (code : Nat) : Word := BitVec.ofNat 32 (0x80000000 + code)

/-- QMARK: a handle, or 0x8000_0000 plus the status. -/
def opQmark (rd ra rb : BitVec 4) : SlotOp :=
  SlotOp.simple [rd.toNat] fun k d =>
    let q := (k.x.sreg ra.toNat).toNat
    let p := d.ply q
    let entry := p.read - (k.x.sreg rb.toNat).toNat
    if k.fenced then d.setS k.e rd.toNat (markFail 3)
    else if !k.ownsQueue q d then d.setS k.e rd.toNat (markFail 2)
    else match d.markRequest q entry (.engine k.e) k.epoch k.item.cam (p.frameAt (max p.release entry)) with
      | (none, y) => y.setS k.e rd.toNat (markFail 4)
      | (some (id_, slot), y) =>
        (y.modEng k.e fun x => { x with marks := { queue := q, idx := slot, mark := id_, cursor := none } :: x.marks }).setS k.e rd.toNat
          (BitVec.ofNat 32 (q * 4 + slot))

/-- QREW and QREL: the status, where the mark is held, by `f`. -/
def opMark (f : Nat → MarkHandle → Mark → Dev → Dev) (rd ra : BitVec 4) : SlotOp :=
  SlotOp.simple [rd.toNat] fun k d =>
    match k.handle (k.x.sreg ra.toNat).toNat with
    | none => d.setS k.e rd.toNat 2
    | some m =>
      if k.fenced then (d.forgetMark k.e m).setS k.e rd.toNat 3
      else match d.heldMark m with
        | none => (d.forgetMark k.e m).setS k.e rd.toNat 1
        | some p => (f k.e m p d).setS k.e rd.toNat 0

/-- The read cursor of a mark is set. -/
def Dev.setCursor (e : Nat) (m : MarkHandle) (c : Nat) (d : Dev) : Dev :=
  d.modEng e fun x => { x with marks := x.marks.map (fun y => if y = m then { y with cursor := some c } else y) }

def opQrew := opMark fun e m p d => d.setCursor e m p.entry
def opQrel := opMark fun e m _ d => d.forgetMark e m

/-- QCPY: the entries copied, or 0x8000_0000 plus the status. -/
def opQcpy (rd ra rb : BitVec 4) : SlotOp :=
  { legal := true, dst := [rd.toNat],
    run := fun k d =>
      let put := fun (v : Word) (y : Dev) => y.setS k.e rd.toNat v
      match k.handle (k.x.sreg ra.toNat).toNat with
      | none => .go (put (markFail 2)) none
      | some m =>
        if k.fenced then .go (fun y => put (markFail 3) (y.forgetMark k.e m)) none
        else match d.heldMark m, m.cursor with
          | none, _ => .go (fun y => put (markFail 1) (y.forgetMark k.e m)) none
          | some _, none => .go (put (markFail 2)) none
          | some _, some c =>
            let p := d.ply m.queue
            let n := min (k.x.sreg rd.toNat).toNat (p.read - c)
            if n = 0 then .go (put 0) none
            else k.withAccess true (k.x.sreg rb.toNat).toNat (32 * n) d fun x =>
              .go (fun y => put (BitVec.ofNat 32 n) ((y.engPut x (p.entryBytes c n)).setCursor k.e m (c + n))) none }

/-! The end of a transfer (R372, R477). -/

/-- The engine's item is given up for an uncorrectable block (R477): no reissue, and the notice carries the DA. -/
def Dev.itemLost (e da : Nat) (d : Dev) : Dev :=
  let x := d.eng e
  match x.item with
  | none => d
  | some i =>
    let c := e / 16
    (((d.landAll e).releaseMarks e).modEng e fun y => { y with item := none, state := x.rest, stall := none }).giveUpItem i c da

/-- The data of an XST as it is written: a source byte changed since the issue is open (R372). -/
def Dev.xstData (q : Xfer) (d : Dev) : List Byte × Dev :=
  let cur := d.engBytes q.at_ q.len
  if cur = q.data then (q.data, d)
  else
    let r := d.freshBytes q.len
    ((List.zip (List.zip q.data cur) r.1).map (fun p => if p.1.1 = p.1.2 then p.1.1 else p.2), r.2)

/-- A transfer completes: its tag is free. The bytes of an XLD wait for XWAIT while its run lasts, and stand at once after it. -/
def Dev.xferDone (e tag : Nat) (d : Dev) : Dev :=
  let x := d.eng e
  match x.xfers.find? (fun q => q.tag == tag) with
  | none => d
  | some q =>
    let live := x.kernel.isSome && q.run == x.runs
    let free := fun (y : Dev) => y.modEng e fun z => { z with xfers := z.xfers.filter (fun p => p ≠ q) }
    let m := 0x30 + e / 16
    if q.store then
      let s := d.xstData q
      let r := s.2.runWrite m q.da s.1
      if r.1 = .trip then d else free r.2
    else
      let r := d.runRead m q.da q.len
      match r.1 with
      | .trip => d
      | .ok =>
        let bs := aliasBytes q.op q.data r.2.1
        let y := free r.2.2
        if live then y.modEng e fun z => { z with landed := z.landed ++ [(tag, q.at_, bs)] } else y.plainPut q.at_ bs
      | .ue => if live then (free r.2.2).itemLost e q.da else free r.2.2
      | _ => free r.2.2

/-- An activation of STE_EVENT(c) (R384); none reaches a cluster whose clock is stopped (R161). -/
def Dev.steEvent (c : Nat) (d : Dev) : Dev :=
  if !d.clusterOn c then { d with chain := { d.chain with flight := d.chain.flight.filter (fun r => r.task ≠ Task.steEvent c) } }
  else match d.activate (Task.steEvent c) with
    | (none, y) => y
    | (some a, y) => y.modCluster c fun k => { k with events := (k.events + a.n) % 2 ^ 32, evHop := a.hop }

end Sys2Proof.Machine
end

