-- ==== Sys2Proof/Machine/VectorOps.lean ====
section
/-! DEFINITION. The operations of slot V (R365, R370). -/

namespace Sys2Proof.Machine

/-- A vector result under a predicate. -/
def opVec (vd : BitVec 5) (pm : BitVec 3) (w : Bool) (f : Ctx → VWord) : SlotOp :=
  SlotOp.simple [] fun k d =>
    d.setV k.e vd.toNat (mergeLanes w (k.x.preg pm.toNat) (k.x.vreg vd.toNat) (f k))

/-- A lane-wise operation of two registers. -/
def opLane (f : Bool → Nat → Nat → Nat) (vd va vb : BitVec 5) (pm : BitVec 3) (w : Bool) : SlotOp :=
  opVec vd pm w fun k => laneMap w (f w) (k.x.vreg va.toNat) (k.x.vreg vb.toNat)

/-- A bitwise operation of two registers. -/
def opBits (f : VWord → VWord → VWord) (vd va vb : BitVec 5) (pm : BitVec 3) (w : Bool) : SlotOp :=
  opVec vd pm w fun k => f (k.x.vreg va.toNat) (k.x.vreg vb.toNat)

def opVnop (v : Word) : SlotOp := { legal := v == 0, dst := [], run := fun _ _ => .go id none }
def opVadd := opLane fun w a b => wrapLane w (a + b)
def opVsub := opLane fun w a b => wrapLane w ((a : Int) - b)
def opVadds := opLane fun w a b => saturate w (a + b)
def opVsubs := opLane fun w a b => saturate w ((a : Int) - b)
def opVabsd := opLane fun _ a b => absDiff a b
def opVmin := opLane fun _ a b => min a b
def opVmax := opLane fun _ a b => max a b
def opVand := opBits (· &&& ·)
def opVor := opBits (· ||| ·)
def opVxor := opBits (· ^^^ ·)
def opVmul := opLane fun w a b => wrapLane w (a * b)
def opVmulh := opLane fun w a b => a * b / 2 ^ laneBits w
def opVavg := opLane fun _ a b => (a + b + 1) / 2
def opVshl := opLane fun w a b => wrapLane w (a * 2 ^ (b % 16))
def opVshr := opLane fun _ a b => a / 2 ^ (b % 16)

def opVsar (vd va vb : BitVec 5) (pm : BitVec 3) (w : Bool) : SlotOp :=
  opVec vd pm w fun k => ofLanes w fun i => sarLane w (k.x.vreg va.toNat) i (lane w (k.x.vreg vb.toNat) i % 16)

/-- A comparison into a predicate, of lanes as signed or as unsigned numbers. -/
def opCmp (f : Int → Int → Bool) (signed : Bool) (pd : BitVec 3) (va vb : BitVec 5) (pm : BitVec 3) (w : Bool) : SlotOp :=
  SlotOp.simple [] fun k d =>
    let get := fun (v : VWord) (i : Nat) => if signed then laneInt w v i else (lane w v i : Int)
    d.setP k.e pd.toNat (compareLanes w (k.x.preg pm.toNat) fun i => f (get (k.x.vreg va.toNat) i) (get (k.x.vreg vb.toNat) i))

def opVcmpeq := opCmp (fun a b => decide (a = b)) false
def opVcmplt := opCmp (fun a b => decide (a < b)) true
def opVcmpltu := opCmp (fun a b => decide (a < b)) false
def opVcmpge := opCmp (fun a b => decide (b ≤ a)) true
def opVcmpgeu := opCmp (fun a b => decide (b ≤ a)) false

/-- An operation of predicates. -/
def opPred (f : Word → Word → Word) (pd pa pb : BitVec 3) (pm : BitVec 3) (w : Bool) : SlotOp :=
  SlotOp.simple [] fun k d =>
    d.setP k.e pd.toNat (mergePlaces w (k.x.preg pm.toNat) (k.x.preg pd.toNat) (f (k.x.preg pa.toNat) (k.x.preg pb.toNat)))

def opPand := opPred (· &&& ·)
def opPor := opPred (· ||| ·)
def opPxor := opPred (· ^^^ ·)
def opPandn := opPred fun a b => a &&& ~~~ b
def opPset (pd : BitVec 3) (pm : BitVec 3) (w : Bool) : SlotOp := opPred (fun _ _ => 0xFFFFFFFF) pd 0 0 pm w
def opPclr (pd : BitVec 3) (pm : BitVec 3) (w : Bool) : SlotOp := opPred (fun _ _ => 0) pd 0 0 pm w

/-! Immediates. -/

/-- A lane-wise operation with the immediate. -/
def opVecI (f : Bool → VWord → Nat → BitVec 12 → Nat) (vd va : BitVec 5) (pm : BitVec 3) (w : Bool) (imm : BitVec 12) : SlotOp :=
  opVec vd pm w fun k => ofLanes w fun i => f w (k.x.vreg va.toNat) i imm

def opVaddi := opVecI fun w v i imm => wrapLane w (lane w v i + imm.toInt)
def opVshli := opVecI fun w v i imm => wrapLane w (lane w v i * 2 ^ (imm.toNat % 16))
def opVshri := opVecI fun w v i imm => lane w v i / 2 ^ (imm.toNat % 16)
def opVsari := opVecI fun w v i imm => sarLane w v i (imm.toNat % 16)
def opVsplati (vd : BitVec 5) (pm : BitVec 3) (w : Bool) (imm : BitVec 12) : SlotOp :=
  opVecI (fun w _ _ imm => wrapLane w imm.toInt) vd 0 pm w imm

/-! Selection, scalars and lanes. -/

/-- VSEL writes every lane. -/
def opVsel (vd va vb : BitVec 5) (pm : BitVec 3) (w : Bool) : SlotOp :=
  SlotOp.simple [] fun k d =>
    d.setV k.e vd.toNat (mergeLanes w (k.x.preg pm.toNat) (k.x.vreg vb.toNat) (k.x.vreg va.toNat))

def opVsplat (vd : BitVec 5) (sb : BitVec 4) (pm : BitVec 3) (w : Bool) : SlotOp :=
  opVec vd pm w fun k => ofLanes w fun _ => (k.x.sreg sb.toNat).toNat

def opVmuls (vd va : BitVec 5) (sb : BitVec 4) (pm : BitVec 3) (w : Bool) (fn : BitVec 8) : SlotOp :=
  { opVec vd pm w fun k => ofLanes w fun i =>
      mulScaled w fn.toNat (lane w (k.x.vreg va.toNat) i) ((k.x.sreg sb.toNat).toNat % 2 ^ 16) with
    legal := decide (fn.toNat < 32) }

def opVextr (sd : BitVec 4) (va : BitVec 5) (w : Bool) (fn : BitVec 8) : SlotOp :=
  { legal := decide (fn.toNat < laneCount w), dst := [sd.toNat],
    run := fun k _ => .go (fun d => d.setS k.e sd.toNat (BitVec.ofNat 32 (lane w (k.x.vreg va.toNat) fn.toNat))) none }

/-- VINS writes its lane where the predicate enables it. -/
def opVins (vd : BitVec 5) (sb : BitVec 4) (pm : BitVec 3) (w : Bool) (fn : BitVec 8) : SlotOp :=
  { opVec vd pm w fun k => ofLanes w fun i =>
      if i = fn.toNat then (k.x.sreg sb.toNat).toNat else lane w (k.x.vreg vd.toNat) i with
    legal := decide (fn.toNat < laneCount w) }

/-! Reductions: enabled lanes only (R365). -/

/-- A reduction into a scalar. -/
def opReduce (sd : BitVec 4) (f : Ctx → Word) : SlotOp := SlotOp.simple [sd.toNat] fun k d => d.setS k.e sd.toNat (f k)

def opVrsum (sd : BitVec 4) (va : BitVec 5) (pm : BitVec 3) (w : Bool) : SlotOp :=
  opReduce sd fun k => BitVec.ofNat 32 (laneSum w (k.x.preg pm.toNat) (lane w (k.x.vreg va.toNat)))

/-- The maximum of no lane at all is a free value. -/
def opVrmax (sd : BitVec 4) (va : BitVec 5) (pm : BitVec 3) (w : Bool) : SlotOp :=
  SlotOp.simple [sd.toNat] fun k d =>
    match enabledLanes w (k.x.preg pm.toNat) with
    | [] => (d.fresh 32).2.setS k.e sd.toNat (d.fresh 32).1
    | l => d.setS k.e sd.toNat (BitVec.ofNat 32 (l.foldl (fun m i => max m (lane w (k.x.vreg va.toNat) i)) 0))

def opVpcnt (sd : BitVec 4) (pm : BitVec 3) (w : Bool) : SlotOp :=
  opReduce sd fun k => BitVec.ofNat 32 (enabledLanes w (k.x.preg pm.toNat)).length

def opVpfirst (sd : BitVec 4) (pm : BitVec 3) (w : Bool) : SlotOp :=
  opReduce sd fun k => BitVec.ofNat 32 ((enabledLanes w (k.x.preg pm.toNat)).headD (laneCount w))

def opVsad (sd : BitVec 4) (va vb : BitVec 5) (pm : BitVec 3) (w : Bool) : SlotOp :=
  opReduce sd fun k => BitVec.ofNat 32 (laneSum w (k.x.preg pm.toNat) fun i =>
    absDiff (lane w (k.x.vreg va.toNat) i) (lane w (k.x.vreg vb.toNat) i))

/-- VDOT works on 16-bit lanes only. -/
def opVdot (sd : BitVec 4) (va vb : BitVec 5) (pm : BitVec 3) (w : Bool) : SlotOp :=
  { opReduce sd fun k =>
      k.x.sreg sd.toNat + BitVec.ofInt 32 (dotSum w (k.x.preg pm.toNat) (k.x.vreg va.toNat) (k.x.vreg vb.toNat)) with
    legal := !w }

/-! Slides, widening and narrowing. -/

/-- Lane i is lane i + n of the lanes given; one that is not given is a free value. -/
def opSlide (vd : BitVec 5) (pm : BitVec 3) (w : Bool) (from_ : Ctx → Nat → Option Nat) : SlotOp :=
  SlotOp.simple [] fun k d =>
    let r := d.fresh 256
    let known := (List.range (laneCount w)).all (fun i => (from_ k i).isSome)
    let new := ofLanes w fun i => (from_ k i).getD (lane w r.1 i)
    (if known then d else r.2).setV k.e vd.toNat (mergeLanes w (k.x.preg pm.toNat) (k.x.vreg vd.toNat) new)

/-- VSLIDE names no second register in its form, so the lanes past va are free values. -/
def opVslide (vd va : BitVec 5) (sb : BitVec 4) (pm : BitVec 3) (w : Bool) : SlotOp :=
  opSlide vd pm w fun k i =>
    let j := i + (k.x.sreg sb.toNat).toNat % 64
    if j < laneCount w then some (lane w (k.x.vreg va.toNat) j) else none

def opVslidei (vd va vb : BitVec 5) (pm : BitVec 3) (w : Bool) (fn : BitVec 7) : SlotOp :=
  { opSlide vd pm w fun k i => concatLane w (k.x.vreg va.toNat) (k.x.vreg vb.toNat) (i + fn.toNat % 64) with
    legal := decide (fn.toNat < 64) }

def opVwidel (vd va : BitVec 5) (pm : BitVec 3) (w : Bool) : SlotOp :=
  { opVec vd pm w fun k => widen (k.x.vreg va.toNat) 0 with legal := !w }

def opVwideh (vd va : BitVec 5) (pm : BitVec 3) (w : Bool) : SlotOp :=
  { opVec vd pm w fun k => widen (k.x.vreg va.toNat) 16 with legal := !w }

def opVnarrow (vd va vb : BitVec 5) (pm : BitVec 3) (w : Bool) : SlotOp :=
  { opVec vd pm w fun k => narrow (k.x.vreg va.toNat) (k.x.vreg vb.toNat) with legal := w }

/-! Vector memory. -/

/-- The address of a vector access, and s[sa] after it. -/
def Ctx.vaddr (k : Ctx) (sa : BitVec 4) (inc : Bool) (imm : BitVec 13) : Nat :=
  (if inc then k.x.sreg sa.toNat else k.x.sreg sa.toNat + imm.signExtend 32).toNat

def Dev.vinc (k : Ctx) (sa : BitVec 4) (inc : Bool) (imm : BitVec 13) (d : Dev) : Dev :=
  if inc then d.setS k.e sa.toNat (k.x.sreg sa.toNat + imm.signExtend 32) else d

def opVld (vd : BitVec 5) (sa : BitVec 4) (pm : BitVec 3) (inc : Bool) (imm : BitVec 13) : SlotOp :=
  { legal := true, dst := if inc then [sa.toNat] else [],
    run := fun k d => k.withAccess false (k.vaddr sa inc imm) 32 d fun x => .go (fun y =>
      (y.setV k.e vd.toNat (mergeLanes true (k.x.preg pm.toNat) (k.x.vreg vd.toNat) (ofBytes (d.engBytes x 32)))).vinc k sa inc imm)
      none }

/-- VST writes the enabled bytes; the others stay. -/
def opVst (vd : BitVec 5) (sa : BitVec 4) (pm : BitVec 3) (inc : Bool) (imm : BitVec 13) : SlotOp :=
  { legal := true, dst := if inc then [sa.toNat] else [],
    run := fun k d => k.withAccess true (k.vaddr sa inc imm) 32 d fun x => .go (fun y =>
      ((enabledLanes true (k.x.preg pm.toNat)).foldl (fun (z : Dev) j =>
        z.engPut (x + j) [BitVec.ofNat 8 (lane true (k.x.vreg vd.toNat) j)]) y).vinc k sa inc imm) none }

end Sys2Proof.Machine
end

