-- ==== Sys2Proof/Machine/Slots.lean ====
section
/-! DEFINITION. The formats of the two slots (R364) and what the tables of R369 and R370 make of a slot's word. A bit that must be 0
makes the operation illegal where it is not; a field that an operation does not use is ignored. -/

namespace Sys2Proof.Machine

/-! Slot S. -/

def encR (op : BitVec 6) (rd ra rb : BitVec 4) (fn : BitVec 6) : Word := op ++ rd ++ ra ++ rb ++ fn ++ 0#8
def encI (op : BitVec 6) (rd ra : BitVec 4) (imm : BitVec 18) : Word := op ++ rd ++ ra ++ imm
def encL (op : BitVec 6) (rd : BitVec 4) (imm : BitVec 22) : Word := op ++ rd ++ imm

/-- The operation of a word of slot S, where its op and fn are defined. -/
def slotS (w : Word) : Option SlotOp :=
  let rd := w.extractLsb' 22 4
  let ra := w.extractLsb' 18 4
  let rb := w.extractLsb' 14 4
  let fn := w.extractLsb' 8 6
  let imm := w.extractLsb' 0 18
  let r := fun (o : SlotOp) => some (o.zero w 0xFF)
  let r0 := fun (o : SlotOp) => if fn = 0 then some (o.zero w 0xFF) else none
  match (w.extractLsb' 26 6).toNat with
  | 0x00 => some (opNop w)
  | 0x01 => match fn.toNat with
    | 0 => r (opAdd rd ra rb)
    | 1 => r (opSub rd ra rb)
    | 2 => r (opAnd rd ra rb)
    | 3 => r (opOr rd ra rb)
    | 4 => r (opXor rd ra rb)
    | 5 => r (opShl rd ra rb)
    | 6 => r (opShr rd ra rb)
    | 7 => r (opSar rd ra rb)
    | 8 => r (opMul rd ra rb)
    | 9 => r (opMulh rd ra rb)
    | 10 => r (opSlt rd ra rb)
    | 11 => r (opSltu rd ra rb)
    | 12 => r (opMin rd ra rb)
    | 13 => r (opMax rd ra rb)
    | 14 => r (opAdd64 rd ra rb)
    | 15 => r (opSub64 rd ra rb)
    | _ => none
  | 0x02 => some (opAddi rd ra imm)
  | 0x03 => some (opAndi rd ra imm)
  | 0x04 => some (opOri rd ra imm)
  | 0x05 => some (opXori rd ra imm)
  | 0x06 => some ((opShli rd ra imm).zero w 0x3FFE0)
  | 0x07 => some ((opShri rd ra imm).zero w 0x3FFE0)
  | 0x08 => some ((opSari rd ra imm).zero w 0x3FFE0)
  | 0x09 => some (opSlti rd ra imm)
  | 0x0A => some (opLui rd (w.extractLsb' 0 22))
  | 0x10 => some (opLoad 4 rd ra imm)
  | 0x11 => some (opLoad 2 rd ra imm)
  | 0x12 => some (opLoad 1 rd ra imm)
  | 0x13 => some (opStore 4 rd ra imm)
  | 0x14 => some (opStore 2 rd ra imm)
  | 0x15 => some (opStore 1 rd ra imm)
  | 0x20 => some (opBeq rd ra imm)
  | 0x21 => some (opBne rd ra imm)
  | 0x22 => some (opBlt rd ra imm)
  | 0x23 => some (opBge rd ra imm)
  | 0x24 => some (opBltu rd ra imm)
  | 0x25 => some (opBgeu rd ra imm)
  | 0x26 => some (opJal rd imm)
  | 0x27 => r0 (opJr ra)
  | 0x28 => some ((opBpany (rd.extractLsb' 0 3) imm).zero w 0x23C0000)
  | 0x29 => some ((opBpnone (rd.extractLsb' 0 3) imm).zero w 0x23C0000)
  | 0x30 => r (opXld rd ra rb fn)
  | 0x31 => r (opXst rd ra rb fn)
  | 0x32 => r (opXwait fn)
  | 0x33 => r0 (opEmit rd ra)
  | 0x34 => r0 opEnd
  | 0x35 => r0 (opQmark rd ra rb)
  | 0x36 => r0 (opQrew rd ra)
  | 0x37 => r0 (opQcpy rd ra rb)
  | 0x38 => r0 (opQrel rd ra)
  | 0x39 => r0 opPub
  | 0x3A => r0 (opEvwait ra)
  | 0x3B => r (opRdsr rd fn)
  | 0x3C => r0 opMsync
  | _ => none

/-! Slot V. -/

def bitw (b : Bool) : BitVec 1 := if b then 1 else 0

def encVR (op : BitVec 6) (vd va vb : BitVec 5) (pm : BitVec 3) (w : Bool) (fn : BitVec 7) : Word :=
  op ++ vd ++ va ++ vb ++ pm ++ bitw w ++ fn
def encVI (op : BitVec 6) (vd va : BitVec 5) (pm : BitVec 3) (w : Bool) (imm : BitVec 12) : Word := op ++ vd ++ va ++ pm ++ bitw w ++ imm
def encVS (op : BitVec 6) (vd va : BitVec 5) (sb : BitVec 4) (pm : BitVec 3) (w : Bool) (fn : BitVec 8) : Word :=
  op ++ vd ++ va ++ sb ++ pm ++ bitw w ++ fn
def encVM (op : BitVec 6) (vd : BitVec 5) (sa : BitVec 4) (pm : BitVec 3) (inc : Bool) (imm : BitVec 13) : Word :=
  op ++ vd ++ sa ++ pm ++ bitw inc ++ imm

/-- A predicate's number in a 5-bit field, and a scalar's. -/
def predField (p : BitVec 3) : BitVec 5 := p.setWidth 5
def scalarField (s : BitVec 4) : BitVec 5 := s.setWidth 5

/-- The bits of a field that must be 0 where it names a predicate or a scalar: vd[25:24], vd[25], va and vb upper bits. -/
def vdPred : Word := 0x3000000
def vdScalar : Word := 0x2000000
def vaPred : Word := 0x180000
def vbPred : Word := 0xC000

/-- The operation of a word of slot V, where its op and fn are defined. -/
def slotV (v : Word) : Option SlotOp :=
  let vd := v.extractLsb' 21 5
  let va := v.extractLsb' 16 5
  let vb := v.extractLsb' 11 5
  let pd := v.extractLsb' 21 3
  let sd := v.extractLsb' 21 4
  let rpm := v.extractLsb' 8 3
  let rw := v.getLsbD 7
  let rfn := v.extractLsb' 0 7
  let ipm := v.extractLsb' 13 3
  let iw := v.getLsbD 12
  let imm := v.extractLsb' 0 12
  let sb := v.extractLsb' 12 4
  let spm := v.extractLsb' 9 3
  let sw := v.getLsbD 8
  let sfn := v.extractLsb' 0 8
  let r0 := fun (o : SlotOp) => if rfn = 0 then some o else none
  let s0 := fun (o : SlotOp) => if sfn = 0 then some o else none
  match (v.extractLsb' 26 6).toNat with
  | 0x00 => some (opVnop v)
  | 0x01 => match rfn.toNat with
    | 0 => some (opVadd vd va vb rpm rw)
    | 1 => some (opVsub vd va vb rpm rw)
    | 2 => some (opVadds vd va vb rpm rw)
    | 3 => some (opVsubs vd va vb rpm rw)
    | 4 => some (opVabsd vd va vb rpm rw)
    | 5 => some (opVmin vd va vb rpm rw)
    | 6 => some (opVmax vd va vb rpm rw)
    | 7 => some (opVand vd va vb rpm rw)
    | 8 => some (opVor vd va vb rpm rw)
    | 9 => some (opVxor vd va vb rpm rw)
    | 10 => some (opVmul vd va vb rpm rw)
    | 11 => some (opVmulh vd va vb rpm rw)
    | 12 => some (opVavg vd va vb rpm rw)
    | 13 => some (opVshl vd va vb rpm rw)
    | 14 => some (opVshr vd va vb rpm rw)
    | 15 => some (opVsar vd va vb rpm rw)
    | _ => none
  | 0x02 => match rfn.toNat with
    | 0 => some ((opVcmpeq pd va vb rpm rw).zero v vdPred)
    | 1 => some ((opVcmplt pd va vb rpm rw).zero v vdPred)
    | 2 => some ((opVcmpltu pd va vb rpm rw).zero v vdPred)
    | 3 => some ((opVcmpge pd va vb rpm rw).zero v vdPred)
    | 4 => some ((opVcmpgeu pd va vb rpm rw).zero v vdPred)
    | _ => none
  | 0x03 =>
    let pa := v.extractLsb' 16 3
    let pb := v.extractLsb' 11 3
    match rfn.toNat with
    | 0 => some ((opPand pd pa pb rpm rw).zero v (vdPred ||| vaPred ||| vbPred))
    | 1 => some ((opPor pd pa pb rpm rw).zero v (vdPred ||| vaPred ||| vbPred))
    | 2 => some ((opPxor pd pa pb rpm rw).zero v (vdPred ||| vaPred ||| vbPred))
    | 3 => some ((opPandn pd pa pb rpm rw).zero v (vdPred ||| vaPred ||| vbPred))
    | 4 => some ((opPset pd rpm rw).zero v vdPred)
    | 5 => some ((opPclr pd rpm rw).zero v vdPred)
    | _ => none
  | 0x04 => some (opVaddi vd va ipm iw imm)
  | 0x05 => some ((opVshli vd va ipm iw imm).zero v 0xFF0)
  | 0x06 => some ((opVshri vd va ipm iw imm).zero v 0xFF0)
  | 0x07 => some ((opVsari vd va ipm iw imm).zero v 0xFF0)
  | 0x08 => some ((opVsplati vd ipm iw imm).zero v 0x1F0000)
  | 0x09 => r0 (opVsel vd va vb rpm rw)
  | 0x0A => s0 (opVsplat vd sb spm sw)
  | 0x0B => some (opVmuls vd va sb spm sw sfn)
  | 0x0C => some ((opVextr sd va sw sfn).zero v vdScalar)
  | 0x0D => some (opVins vd sb spm sw sfn)
  | 0x0E => s0 ((opVrsum sd va spm sw).zero v vdScalar)
  | 0x0F => s0 ((opVrmax sd va spm sw).zero v vdScalar)
  | 0x10 => s0 ((opVpcnt sd spm sw).zero v vdScalar)
  | 0x11 => s0 ((opVpfirst sd spm sw).zero v vdScalar)
  | 0x12 => r0 ((opVsad sd va vb rpm rw).zero v vdScalar)
  | 0x13 => r0 ((opVdot sd va vb rpm rw).zero v vdScalar)
  | 0x14 => s0 (opVslide vd va sb spm sw)
  | 0x15 => some (opVslidei vd va vb rpm rw rfn)
  | 0x16 => r0 (opVwidel vd va rpm rw)
  | 0x17 => r0 (opVwideh vd va rpm rw)
  | 0x18 => r0 (opVnarrow vd va vb rpm rw)
  | 0x20 => some (opVld vd (v.extractLsb' 17 4) (v.extractLsb' 14 3) (v.getLsbD 13) (v.extractLsb' 0 13))
  | 0x21 => some (opVst vd (v.extractLsb' 17 4) (v.extractLsb' 14 3) (v.getLsbD 13) (v.extractLsb' 0 13))
  | _ => none

/-! Issue of a named operation: only where the bundle at the engine's PC holds it. -/

/-- The bundle at the engine's PC issues where slot S holds `word` in the bits of `care`; the bits of `zero` must be 0. -/
def Dev.issueS (e : Nat) (word care zero : Word) (o : SlotOp) (d : Dev) : Dev :=
  match d.fetch e with
  | none => d
  | some (k, s, v) => if s &&& care = word then d.bundle k (o.zero s zero) ((slotV v).getD opUndefined) else d

/-- The same by slot V. -/
def Dev.issueV (e : Nat) (word care zero : Word) (o : SlotOp) (d : Dev) : Dev :=
  match d.fetch e with
  | none => d
  | some (k, s, v) => if v &&& care = word then d.bundle k ((slotS s).getD opUndefined) (o.zero v zero) else d

/-- NOP stands for a slot S of op 0, and for one whose op or fn no row gives, which raises ILLEGAL (R363). -/
def Dev.issueNopS (e : Nat) (d : Dev) : Dev :=
  match d.fetch e with
  | none => d
  | some (k, s, v) =>
    if s.extractLsb' 26 6 = 0 ∨ (slotS s).isNone then d.bundle k ((slotS s).getD opUndefined) ((slotV v).getD opUndefined) else d

/-- The same of VNOP and slot V. -/
def Dev.issueNopV (e : Nat) (d : Dev) : Dev :=
  match d.fetch e with
  | none => d
  | some (k, s, v) =>
    if v.extractLsb' 26 6 = 0 ∨ (slotV v).isNone then d.bundle k ((slotS s).getD opUndefined) ((slotV v).getD opUndefined) else d

end Sys2Proof.Machine
end

