-- ==== Sys2Proof/Machine/Scalar.lean ====
section
/-! DEFINITION. The commands of slot S: engine e issues the bundle at its PC, whose slot S is the operation named. Operands are the
encoded fields; one that the operation does not use is no operand. -/

namespace Sys2Proof.Machine

/-- NOP, and the issue of a slot S that no other row names. -/
def execNop (e : Fin 256) (s : State) : Host.Outcome State Fault Refusal := s.run fun d => d.issueNopS e

def execAdd (e : Fin 256) (rd ra rb : BitVec 4) (s : State) : Host.Outcome State Fault Refusal :=
  s.run fun d => d.issueS e (encR 0x01 rd ra rb 0) 0xFFFFFF00 0xFF (opAdd rd ra rb)

def execSub (e : Fin 256) (rd ra rb : BitVec 4) (s : State) : Host.Outcome State Fault Refusal :=
  s.run fun d => d.issueS e (encR 0x01 rd ra rb 1) 0xFFFFFF00 0xFF (opSub rd ra rb)

def execAnd (e : Fin 256) (rd ra rb : BitVec 4) (s : State) : Host.Outcome State Fault Refusal :=
  s.run fun d => d.issueS e (encR 0x01 rd ra rb 2) 0xFFFFFF00 0xFF (opAnd rd ra rb)

def execOr (e : Fin 256) (rd ra rb : BitVec 4) (s : State) : Host.Outcome State Fault Refusal :=
  s.run fun d => d.issueS e (encR 0x01 rd ra rb 3) 0xFFFFFF00 0xFF (opOr rd ra rb)

def execXor (e : Fin 256) (rd ra rb : BitVec 4) (s : State) : Host.Outcome State Fault Refusal :=
  s.run fun d => d.issueS e (encR 0x01 rd ra rb 4) 0xFFFFFF00 0xFF (opXor rd ra rb)

def execShl (e : Fin 256) (rd ra rb : BitVec 4) (s : State) : Host.Outcome State Fault Refusal :=
  s.run fun d => d.issueS e (encR 0x01 rd ra rb 5) 0xFFFFFF00 0xFF (opShl rd ra rb)

def execShr (e : Fin 256) (rd ra rb : BitVec 4) (s : State) : Host.Outcome State Fault Refusal :=
  s.run fun d => d.issueS e (encR 0x01 rd ra rb 6) 0xFFFFFF00 0xFF (opShr rd ra rb)

def execSar (e : Fin 256) (rd ra rb : BitVec 4) (s : State) : Host.Outcome State Fault Refusal :=
  s.run fun d => d.issueS e (encR 0x01 rd ra rb 7) 0xFFFFFF00 0xFF (opSar rd ra rb)

def execMul (e : Fin 256) (rd ra rb : BitVec 4) (s : State) : Host.Outcome State Fault Refusal :=
  s.run fun d => d.issueS e (encR 0x01 rd ra rb 8) 0xFFFFFF00 0xFF (opMul rd ra rb)

def execMulh (e : Fin 256) (rd ra rb : BitVec 4) (s : State) : Host.Outcome State Fault Refusal :=
  s.run fun d => d.issueS e (encR 0x01 rd ra rb 9) 0xFFFFFF00 0xFF (opMulh rd ra rb)

def execSlt (e : Fin 256) (rd ra rb : BitVec 4) (s : State) : Host.Outcome State Fault Refusal :=
  s.run fun d => d.issueS e (encR 0x01 rd ra rb 10) 0xFFFFFF00 0xFF (opSlt rd ra rb)

def execSltu (e : Fin 256) (rd ra rb : BitVec 4) (s : State) : Host.Outcome State Fault Refusal :=
  s.run fun d => d.issueS e (encR 0x01 rd ra rb 11) 0xFFFFFF00 0xFF (opSltu rd ra rb)

def execMin (e : Fin 256) (rd ra rb : BitVec 4) (s : State) : Host.Outcome State Fault Refusal :=
  s.run fun d => d.issueS e (encR 0x01 rd ra rb 12) 0xFFFFFF00 0xFF (opMin rd ra rb)

def execMax (e : Fin 256) (rd ra rb : BitVec 4) (s : State) : Host.Outcome State Fault Refusal :=
  s.run fun d => d.issueS e (encR 0x01 rd ra rb 13) 0xFFFFFF00 0xFF (opMax rd ra rb)

def execAdd64 (e : Fin 256) (rd ra rb : BitVec 4) (s : State) : Host.Outcome State Fault Refusal :=
  s.run fun d => d.issueS e (encR 0x01 rd ra rb 14) 0xFFFFFF00 0xFF (opAdd64 rd ra rb)

def execSub64 (e : Fin 256) (rd ra rb : BitVec 4) (s : State) : Host.Outcome State Fault Refusal :=
  s.run fun d => d.issueS e (encR 0x01 rd ra rb 15) 0xFFFFFF00 0xFF (opSub64 rd ra rb)

def execAddi (e : Fin 256) (rd ra : BitVec 4) (imm : BitVec 18) (s : State) : Host.Outcome State Fault Refusal :=
  s.run fun d => d.issueS e (encI 0x02 rd ra imm) 0xFFFFFFFF 0 (opAddi rd ra imm)

def execAndi (e : Fin 256) (rd ra : BitVec 4) (imm : BitVec 18) (s : State) : Host.Outcome State Fault Refusal :=
  s.run fun d => d.issueS e (encI 0x03 rd ra imm) 0xFFFFFFFF 0 (opAndi rd ra imm)

def execOri (e : Fin 256) (rd ra : BitVec 4) (imm : BitVec 18) (s : State) : Host.Outcome State Fault Refusal :=
  s.run fun d => d.issueS e (encI 0x04 rd ra imm) 0xFFFFFFFF 0 (opOri rd ra imm)

def execXori (e : Fin 256) (rd ra : BitVec 4) (imm : BitVec 18) (s : State) : Host.Outcome State Fault Refusal :=
  s.run fun d => d.issueS e (encI 0x05 rd ra imm) 0xFFFFFFFF 0 (opXori rd ra imm)

def execShli (e : Fin 256) (rd ra : BitVec 4) (imm : BitVec 5) (s : State) : Host.Outcome State Fault Refusal :=
  s.run fun d => d.issueS e (encI 0x06 rd ra (imm.setWidth 18)) 0xFFFC001F 0x3FFE0 (opShli rd ra (imm.setWidth 18))

def execShri (e : Fin 256) (rd ra : BitVec 4) (imm : BitVec 5) (s : State) : Host.Outcome State Fault Refusal :=
  s.run fun d => d.issueS e (encI 0x07 rd ra (imm.setWidth 18)) 0xFFFC001F 0x3FFE0 (opShri rd ra (imm.setWidth 18))

def execSari (e : Fin 256) (rd ra : BitVec 4) (imm : BitVec 5) (s : State) : Host.Outcome State Fault Refusal :=
  s.run fun d => d.issueS e (encI 0x08 rd ra (imm.setWidth 18)) 0xFFFC001F 0x3FFE0 (opSari rd ra (imm.setWidth 18))

def execSlti (e : Fin 256) (rd ra : BitVec 4) (imm : BitVec 18) (s : State) : Host.Outcome State Fault Refusal :=
  s.run fun d => d.issueS e (encI 0x09 rd ra imm) 0xFFFFFFFF 0 (opSlti rd ra imm)

def execLui (e : Fin 256) (rd : BitVec 4) (imm : BitVec 22) (s : State) : Host.Outcome State Fault Refusal :=
  s.run fun d => d.issueS e (encL 0x0A rd imm) 0xFFFFFFFF 0 (opLui rd imm)

def execLdw (e : Fin 256) (rd ra : BitVec 4) (imm : BitVec 18) (s : State) : Host.Outcome State Fault Refusal :=
  s.run fun d => d.issueS e (encI 0x10 rd ra imm) 0xFFFFFFFF 0 (opLoad 4 rd ra imm)

def execLdh (e : Fin 256) (rd ra : BitVec 4) (imm : BitVec 18) (s : State) : Host.Outcome State Fault Refusal :=
  s.run fun d => d.issueS e (encI 0x11 rd ra imm) 0xFFFFFFFF 0 (opLoad 2 rd ra imm)

def execLdb (e : Fin 256) (rd ra : BitVec 4) (imm : BitVec 18) (s : State) : Host.Outcome State Fault Refusal :=
  s.run fun d => d.issueS e (encI 0x12 rd ra imm) 0xFFFFFFFF 0 (opLoad 1 rd ra imm)

def execStw (e : Fin 256) (rd ra : BitVec 4) (imm : BitVec 18) (s : State) : Host.Outcome State Fault Refusal :=
  s.run fun d => d.issueS e (encI 0x13 rd ra imm) 0xFFFFFFFF 0 (opStore 4 rd ra imm)

def execSth (e : Fin 256) (rd ra : BitVec 4) (imm : BitVec 18) (s : State) : Host.Outcome State Fault Refusal :=
  s.run fun d => d.issueS e (encI 0x14 rd ra imm) 0xFFFFFFFF 0 (opStore 2 rd ra imm)

def execStb (e : Fin 256) (rd ra : BitVec 4) (imm : BitVec 18) (s : State) : Host.Outcome State Fault Refusal :=
  s.run fun d => d.issueS e (encI 0x15 rd ra imm) 0xFFFFFFFF 0 (opStore 1 rd ra imm)

def execBeq (e : Fin 256) (ra rb : BitVec 4) (off : BitVec 18) (s : State) : Host.Outcome State Fault Refusal :=
  s.run fun d => d.issueS e (encI 0x20 ra rb off) 0xFFFFFFFF 0 (opBeq ra rb off)

def execBne (e : Fin 256) (ra rb : BitVec 4) (off : BitVec 18) (s : State) : Host.Outcome State Fault Refusal :=
  s.run fun d => d.issueS e (encI 0x21 ra rb off) 0xFFFFFFFF 0 (opBne ra rb off)

def execBlt (e : Fin 256) (ra rb : BitVec 4) (off : BitVec 18) (s : State) : Host.Outcome State Fault Refusal :=
  s.run fun d => d.issueS e (encI 0x22 ra rb off) 0xFFFFFFFF 0 (opBlt ra rb off)

def execBge (e : Fin 256) (ra rb : BitVec 4) (off : BitVec 18) (s : State) : Host.Outcome State Fault Refusal :=
  s.run fun d => d.issueS e (encI 0x23 ra rb off) 0xFFFFFFFF 0 (opBge ra rb off)

def execBltu (e : Fin 256) (ra rb : BitVec 4) (off : BitVec 18) (s : State) : Host.Outcome State Fault Refusal :=
  s.run fun d => d.issueS e (encI 0x24 ra rb off) 0xFFFFFFFF 0 (opBltu ra rb off)

def execBgeu (e : Fin 256) (ra rb : BitVec 4) (off : BitVec 18) (s : State) : Host.Outcome State Fault Refusal :=
  s.run fun d => d.issueS e (encI 0x25 ra rb off) 0xFFFFFFFF 0 (opBgeu ra rb off)

def execJal (e : Fin 256) (rd : BitVec 4) (imm : BitVec 18) (s : State) : Host.Outcome State Fault Refusal :=
  s.run fun d => d.issueS e (encI 0x26 rd 0 imm) 0xFFC3FFFF 0 (opJal rd imm)

def execJr (e : Fin 256) (ra : BitVec 4) (s : State) : Host.Outcome State Fault Refusal :=
  s.run fun d => d.issueS e (encR 0x27 0 ra 0 0) 0xFC3C3F00 0xFF (opJr ra)

def execBpany (e : Fin 256) (pa : BitVec 3) (off : BitVec 18) (s : State) : Host.Outcome State Fault Refusal :=
  s.run fun d => d.issueS e (encI 0x28 (pa.setWidth 4) 0 off) 0xFDC3FFFF 0x23C0000 (opBpany pa off)

def execBpnone (e : Fin 256) (pa : BitVec 3) (off : BitVec 18) (s : State) : Host.Outcome State Fault Refusal :=
  s.run fun d => d.issueS e (encI 0x29 (pa.setWidth 4) 0 off) 0xFDC3FFFF 0x23C0000 (opBpnone pa off)

def execXld (e : Fin 256) (rd ra rb : BitVec 4) (tag : BitVec 6) (s : State) : Host.Outcome State Fault Refusal :=
  s.run fun d => d.issueS e (encR 0x30 rd ra rb tag) 0xFFFFFF00 0xFF (opXld rd ra rb tag)

def execXst (e : Fin 256) (rd ra rb : BitVec 4) (tag : BitVec 6) (s : State) : Host.Outcome State Fault Refusal :=
  s.run fun d => d.issueS e (encR 0x31 rd ra rb tag) 0xFFFFFF00 0xFF (opXst rd ra rb tag)

def execXwait (e : Fin 256) (code : BitVec 6) (s : State) : Host.Outcome State Fault Refusal :=
  s.run fun d => d.issueS e (encR 0x32 0 0 0 code) 0xFC003F00 0xFF (opXwait code)

def execEmit (e : Fin 256) (rd ra : BitVec 4) (s : State) : Host.Outcome State Fault Refusal :=
  s.run fun d => d.issueS e (encR 0x33 rd ra 0 0) 0xFFFC3F00 0xFF (opEmit rd ra)

def execEnd (e : Fin 256) (s : State) : Host.Outcome State Fault Refusal :=
  s.run fun d => d.issueS e (encR 0x34 0 0 0 0) 0xFC003F00 0xFF (opEnd)

def execQmark (e : Fin 256) (rd ra rb : BitVec 4) (s : State) : Host.Outcome State Fault Refusal :=
  s.run fun d => d.issueS e (encR 0x35 rd ra rb 0) 0xFFFFFF00 0xFF (opQmark rd ra rb)

def execQrew (e : Fin 256) (rd ra : BitVec 4) (s : State) : Host.Outcome State Fault Refusal :=
  s.run fun d => d.issueS e (encR 0x36 rd ra 0 0) 0xFFFC3F00 0xFF (opQrew rd ra)

def execQcpy (e : Fin 256) (rd ra rb : BitVec 4) (s : State) : Host.Outcome State Fault Refusal :=
  s.run fun d => d.issueS e (encR 0x37 rd ra rb 0) 0xFFFFFF00 0xFF (opQcpy rd ra rb)

def execQrel (e : Fin 256) (rd ra : BitVec 4) (s : State) : Host.Outcome State Fault Refusal :=
  s.run fun d => d.issueS e (encR 0x38 rd ra 0 0) 0xFFFC3F00 0xFF (opQrel rd ra)

def execPub (e : Fin 256) (s : State) : Host.Outcome State Fault Refusal :=
  s.run fun d => d.issueS e (encR 0x39 0 0 0 0) 0xFC003F00 0xFF (opPub)

def execEvwait (e : Fin 256) (ra : BitVec 4) (s : State) : Host.Outcome State Fault Refusal :=
  s.run fun d => d.issueS e (encR 0x3A 0 ra 0 0) 0xFC3C3F00 0xFF (opEvwait ra)

def execRdsr (e : Fin 256) (rd : BitVec 4) (code : BitVec 6) (s : State) : Host.Outcome State Fault Refusal :=
  s.run fun d => d.issueS e (encR 0x3B rd 0 0 code) 0xFFC03F00 0xFF (opRdsr rd code)

def execMsync (e : Fin 256) (s : State) : Host.Outcome State Fault Refusal :=
  s.run fun d => d.issueS e (encR 0x3C 0 0 0 0) 0xFC003F00 0xFF (opMsync)

/-- XFER_COMPLETE (R372): the transfer of a tag of engine e completes. -/
def execXferComplete (e : Fin 256) (tag : Fin 4) (s : State) : Host.Outcome State Fault Refusal := s.run fun d => d.xferDone e tag

/-- STE_EVENT(c): the activation in flight towards the count input acts. -/
def execSteEvent (c : Fin 16) (s : State) : Host.Outcome State Fault Refusal := s.run fun d => d.steEvent c

end Sys2Proof.Machine
end

