-- ==== Sys2Proof/Machine/Vector.lean ====
section
/-! DEFINITION. The commands of slot V: engine e issues the bundle at its PC, whose slot V is the operation named. -/

namespace Sys2Proof.Machine

/-- VNOP, and the issue of a slot V that no other row names. -/
def execVnop (e : Fin 256) (s : State) : Host.Outcome State Fault Refusal := s.run fun d => d.issueNopV e

def execVadd (e : Fin 256) (vd va vb : BitVec 5) (pm : BitVec 3) (w : Bool) (s : State) : Host.Outcome State Fault Refusal :=
  s.run fun d => d.issueV e (encVR 0x01 vd va vb pm w 0) 0xFFFFFFFF 0 (opVadd vd va vb pm w)

def execVsub (e : Fin 256) (vd va vb : BitVec 5) (pm : BitVec 3) (w : Bool) (s : State) : Host.Outcome State Fault Refusal :=
  s.run fun d => d.issueV e (encVR 0x01 vd va vb pm w 1) 0xFFFFFFFF 0 (opVsub vd va vb pm w)

def execVadds (e : Fin 256) (vd va vb : BitVec 5) (pm : BitVec 3) (w : Bool) (s : State) : Host.Outcome State Fault Refusal :=
  s.run fun d => d.issueV e (encVR 0x01 vd va vb pm w 2) 0xFFFFFFFF 0 (opVadds vd va vb pm w)

def execVsubs (e : Fin 256) (vd va vb : BitVec 5) (pm : BitVec 3) (w : Bool) (s : State) : Host.Outcome State Fault Refusal :=
  s.run fun d => d.issueV e (encVR 0x01 vd va vb pm w 3) 0xFFFFFFFF 0 (opVsubs vd va vb pm w)

def execVabsd (e : Fin 256) (vd va vb : BitVec 5) (pm : BitVec 3) (w : Bool) (s : State) : Host.Outcome State Fault Refusal :=
  s.run fun d => d.issueV e (encVR 0x01 vd va vb pm w 4) 0xFFFFFFFF 0 (opVabsd vd va vb pm w)

def execVmin (e : Fin 256) (vd va vb : BitVec 5) (pm : BitVec 3) (w : Bool) (s : State) : Host.Outcome State Fault Refusal :=
  s.run fun d => d.issueV e (encVR 0x01 vd va vb pm w 5) 0xFFFFFFFF 0 (opVmin vd va vb pm w)

def execVmax (e : Fin 256) (vd va vb : BitVec 5) (pm : BitVec 3) (w : Bool) (s : State) : Host.Outcome State Fault Refusal :=
  s.run fun d => d.issueV e (encVR 0x01 vd va vb pm w 6) 0xFFFFFFFF 0 (opVmax vd va vb pm w)

def execVand (e : Fin 256) (vd va vb : BitVec 5) (pm : BitVec 3) (w : Bool) (s : State) : Host.Outcome State Fault Refusal :=
  s.run fun d => d.issueV e (encVR 0x01 vd va vb pm w 7) 0xFFFFFFFF 0 (opVand vd va vb pm w)

def execVor (e : Fin 256) (vd va vb : BitVec 5) (pm : BitVec 3) (w : Bool) (s : State) : Host.Outcome State Fault Refusal :=
  s.run fun d => d.issueV e (encVR 0x01 vd va vb pm w 8) 0xFFFFFFFF 0 (opVor vd va vb pm w)

def execVxor (e : Fin 256) (vd va vb : BitVec 5) (pm : BitVec 3) (w : Bool) (s : State) : Host.Outcome State Fault Refusal :=
  s.run fun d => d.issueV e (encVR 0x01 vd va vb pm w 9) 0xFFFFFFFF 0 (opVxor vd va vb pm w)

def execVmul (e : Fin 256) (vd va vb : BitVec 5) (pm : BitVec 3) (w : Bool) (s : State) : Host.Outcome State Fault Refusal :=
  s.run fun d => d.issueV e (encVR 0x01 vd va vb pm w 10) 0xFFFFFFFF 0 (opVmul vd va vb pm w)

def execVmulh (e : Fin 256) (vd va vb : BitVec 5) (pm : BitVec 3) (w : Bool) (s : State) : Host.Outcome State Fault Refusal :=
  s.run fun d => d.issueV e (encVR 0x01 vd va vb pm w 11) 0xFFFFFFFF 0 (opVmulh vd va vb pm w)

def execVavg (e : Fin 256) (vd va vb : BitVec 5) (pm : BitVec 3) (w : Bool) (s : State) : Host.Outcome State Fault Refusal :=
  s.run fun d => d.issueV e (encVR 0x01 vd va vb pm w 12) 0xFFFFFFFF 0 (opVavg vd va vb pm w)

def execVshl (e : Fin 256) (vd va vb : BitVec 5) (pm : BitVec 3) (w : Bool) (s : State) : Host.Outcome State Fault Refusal :=
  s.run fun d => d.issueV e (encVR 0x01 vd va vb pm w 13) 0xFFFFFFFF 0 (opVshl vd va vb pm w)

def execVshr (e : Fin 256) (vd va vb : BitVec 5) (pm : BitVec 3) (w : Bool) (s : State) : Host.Outcome State Fault Refusal :=
  s.run fun d => d.issueV e (encVR 0x01 vd va vb pm w 14) 0xFFFFFFFF 0 (opVshr vd va vb pm w)

def execVsar (e : Fin 256) (vd va vb : BitVec 5) (pm : BitVec 3) (w : Bool) (s : State) : Host.Outcome State Fault Refusal :=
  s.run fun d => d.issueV e (encVR 0x01 vd va vb pm w 15) 0xFFFFFFFF 0 (opVsar vd va vb pm w)

def execVcmpeq (e : Fin 256) (pd : BitVec 3) (va vb : BitVec 5) (pm : BitVec 3) (w : Bool) (s : State) : Host.Outcome State Fault Refusal :=
  s.run fun d => d.issueV e (encVR 0x02 (predField pd) va vb pm w 0) 0xFCFFFFFF vdPred (opVcmpeq pd va vb pm w)

def execVcmplt (e : Fin 256) (pd : BitVec 3) (va vb : BitVec 5) (pm : BitVec 3) (w : Bool) (s : State) : Host.Outcome State Fault Refusal :=
  s.run fun d => d.issueV e (encVR 0x02 (predField pd) va vb pm w 1) 0xFCFFFFFF vdPred (opVcmplt pd va vb pm w)

def execVcmpltu (e : Fin 256) (pd : BitVec 3) (va vb : BitVec 5) (pm : BitVec 3) (w : Bool) (s : State) : Host.Outcome State Fault Refusal :=
  s.run fun d => d.issueV e (encVR 0x02 (predField pd) va vb pm w 2) 0xFCFFFFFF vdPred (opVcmpltu pd va vb pm w)

def execVcmpge (e : Fin 256) (pd : BitVec 3) (va vb : BitVec 5) (pm : BitVec 3) (w : Bool) (s : State) : Host.Outcome State Fault Refusal :=
  s.run fun d => d.issueV e (encVR 0x02 (predField pd) va vb pm w 3) 0xFCFFFFFF vdPred (opVcmpge pd va vb pm w)

def execVcmpgeu (e : Fin 256) (pd : BitVec 3) (va vb : BitVec 5) (pm : BitVec 3) (w : Bool) (s : State) : Host.Outcome State Fault Refusal :=
  s.run fun d => d.issueV e (encVR 0x02 (predField pd) va vb pm w 4) 0xFCFFFFFF vdPred (opVcmpgeu pd va vb pm w)

def execPand (e : Fin 256) (pd pa pb pm : BitVec 3) (w : Bool) (s : State) : Host.Outcome State Fault Refusal :=
  s.run fun d => d.issueV e (encVR 0x03 (predField pd) (predField pa) (predField pb) pm w 0) 0xFCE73FFF (vdPred ||| vaPred ||| vbPred) (opPand pd pa pb pm w)

def execPor (e : Fin 256) (pd pa pb pm : BitVec 3) (w : Bool) (s : State) : Host.Outcome State Fault Refusal :=
  s.run fun d => d.issueV e (encVR 0x03 (predField pd) (predField pa) (predField pb) pm w 1) 0xFCE73FFF (vdPred ||| vaPred ||| vbPred) (opPor pd pa pb pm w)

def execPxor (e : Fin 256) (pd pa pb pm : BitVec 3) (w : Bool) (s : State) : Host.Outcome State Fault Refusal :=
  s.run fun d => d.issueV e (encVR 0x03 (predField pd) (predField pa) (predField pb) pm w 2) 0xFCE73FFF (vdPred ||| vaPred ||| vbPred) (opPxor pd pa pb pm w)

def execPandn (e : Fin 256) (pd pa pb pm : BitVec 3) (w : Bool) (s : State) : Host.Outcome State Fault Refusal :=
  s.run fun d => d.issueV e (encVR 0x03 (predField pd) (predField pa) (predField pb) pm w 3) 0xFCE73FFF (vdPred ||| vaPred ||| vbPred) (opPandn pd pa pb pm w)

def execPset (e : Fin 256) (pd pm : BitVec 3) (w : Bool) (s : State) : Host.Outcome State Fault Refusal :=
  s.run fun d => d.issueV e (encVR 0x03 (predField pd) 0 0 pm w 4) 0xFCE007FF vdPred (opPset pd pm w)

def execPclr (e : Fin 256) (pd pm : BitVec 3) (w : Bool) (s : State) : Host.Outcome State Fault Refusal :=
  s.run fun d => d.issueV e (encVR 0x03 (predField pd) 0 0 pm w 5) 0xFCE007FF vdPred (opPclr pd pm w)

def execVaddi (e : Fin 256) (vd va : BitVec 5) (pm : BitVec 3) (w : Bool) (imm : BitVec 12) (s : State) : Host.Outcome State Fault Refusal :=
  s.run fun d => d.issueV e (encVI 0x04 vd va pm w imm) 0xFFFFFFFF 0 (opVaddi vd va pm w imm)

def execVshli (e : Fin 256) (vd va : BitVec 5) (pm : BitVec 3) (w : Bool) (imm : BitVec 4) (s : State) : Host.Outcome State Fault Refusal :=
  s.run fun d => d.issueV e (encVI 0x05 vd va pm w (imm.setWidth 12)) 0xFFFFF00F 0xFF0 (opVshli vd va pm w (imm.setWidth 12))

def execVshri (e : Fin 256) (vd va : BitVec 5) (pm : BitVec 3) (w : Bool) (imm : BitVec 4) (s : State) : Host.Outcome State Fault Refusal :=
  s.run fun d => d.issueV e (encVI 0x06 vd va pm w (imm.setWidth 12)) 0xFFFFF00F 0xFF0 (opVshri vd va pm w (imm.setWidth 12))

def execVsari (e : Fin 256) (vd va : BitVec 5) (pm : BitVec 3) (w : Bool) (imm : BitVec 4) (s : State) : Host.Outcome State Fault Refusal :=
  s.run fun d => d.issueV e (encVI 0x07 vd va pm w (imm.setWidth 12)) 0xFFFFF00F 0xFF0 (opVsari vd va pm w (imm.setWidth 12))

def execVsplati (e : Fin 256) (vd : BitVec 5) (pm : BitVec 3) (w : Bool) (imm : BitVec 12) (s : State) : Host.Outcome State Fault Refusal :=
  s.run fun d => d.issueV e (encVI 0x08 vd 0 pm w imm) 0xFFE0FFFF 0x1F0000 (opVsplati vd pm w imm)

def execVsel (e : Fin 256) (vd va vb : BitVec 5) (pm : BitVec 3) (w : Bool) (s : State) : Host.Outcome State Fault Refusal :=
  s.run fun d => d.issueV e (encVR 0x09 vd va vb pm w 0) 0xFFFFFFFF 0 (opVsel vd va vb pm w)

def execVsplat (e : Fin 256) (vd : BitVec 5) (sb : BitVec 4) (pm : BitVec 3) (w : Bool) (s : State) : Host.Outcome State Fault Refusal :=
  s.run fun d => d.issueV e (encVS 0x0A vd 0 sb pm w 0) 0xFFE0FFFF 0 (opVsplat vd sb pm w)

def execVmuls (e : Fin 256) (vd va : BitVec 5) (sb : BitVec 4) (pm : BitVec 3) (w : Bool) (fn : BitVec 8) (s : State) : Host.Outcome State Fault Refusal :=
  s.run fun d => d.issueV e (encVS 0x0B vd va sb pm w fn) 0xFFFFFFFF 0 (opVmuls vd va sb pm w fn)

def execVextr (e : Fin 256) (sd : BitVec 4) (va : BitVec 5) (w : Bool) (fn : BitVec 8) (s : State) : Host.Outcome State Fault Refusal :=
  s.run fun d => d.issueV e (encVS 0x0C (scalarField sd) va 0 0 w fn) 0xFDFF01FF vdScalar (opVextr sd va w fn)

def execVins (e : Fin 256) (vd : BitVec 5) (sb : BitVec 4) (pm : BitVec 3) (w : Bool) (fn : BitVec 8) (s : State) : Host.Outcome State Fault Refusal :=
  s.run fun d => d.issueV e (encVS 0x0D vd 0 sb pm w fn) 0xFFE0FFFF 0 (opVins vd sb pm w fn)

def execVrsum (e : Fin 256) (sd : BitVec 4) (va : BitVec 5) (pm : BitVec 3) (w : Bool) (s : State) : Host.Outcome State Fault Refusal :=
  s.run fun d => d.issueV e (encVS 0x0E (scalarField sd) va 0 pm w 0) 0xFDFF0FFF vdScalar (opVrsum sd va pm w)

def execVrmax (e : Fin 256) (sd : BitVec 4) (va : BitVec 5) (pm : BitVec 3) (w : Bool) (s : State) : Host.Outcome State Fault Refusal :=
  s.run fun d => d.issueV e (encVS 0x0F (scalarField sd) va 0 pm w 0) 0xFDFF0FFF vdScalar (opVrmax sd va pm w)

def execVpcnt (e : Fin 256) (sd : BitVec 4) (pm : BitVec 3) (w : Bool) (s : State) : Host.Outcome State Fault Refusal :=
  s.run fun d => d.issueV e (encVS 0x10 (scalarField sd) 0 0 pm w 0) 0xFDE00FFF vdScalar (opVpcnt sd pm w)

def execVpfirst (e : Fin 256) (sd : BitVec 4) (pm : BitVec 3) (w : Bool) (s : State) : Host.Outcome State Fault Refusal :=
  s.run fun d => d.issueV e (encVS 0x11 (scalarField sd) 0 0 pm w 0) 0xFDE00FFF vdScalar (opVpfirst sd pm w)

def execVsad (e : Fin 256) (sd : BitVec 4) (va vb : BitVec 5) (pm : BitVec 3) (w : Bool) (s : State) : Host.Outcome State Fault Refusal :=
  s.run fun d => d.issueV e (encVR 0x12 (scalarField sd) va vb pm w 0) 0xFDFFFFFF vdScalar (opVsad sd va vb pm w)

def execVdot (e : Fin 256) (sd : BitVec 4) (va vb : BitVec 5) (pm : BitVec 3) (w : Bool) (s : State) : Host.Outcome State Fault Refusal :=
  s.run fun d => d.issueV e (encVR 0x13 (scalarField sd) va vb pm w 0) 0xFDFFFFFF vdScalar (opVdot sd va vb pm w)

def execVslide (e : Fin 256) (vd va : BitVec 5) (sb : BitVec 4) (pm : BitVec 3) (w : Bool) (s : State) : Host.Outcome State Fault Refusal :=
  s.run fun d => d.issueV e (encVS 0x14 vd va sb pm w 0) 0xFFFFFFFF 0 (opVslide vd va sb pm w)

def execVslidei (e : Fin 256) (vd va vb : BitVec 5) (pm : BitVec 3) (w : Bool) (fn : BitVec 7) (s : State) : Host.Outcome State Fault Refusal :=
  s.run fun d => d.issueV e (encVR 0x15 vd va vb pm w fn) 0xFFFFFFFF 0 (opVslidei vd va vb pm w fn)

def execVwidel (e : Fin 256) (vd va : BitVec 5) (pm : BitVec 3) (w : Bool) (s : State) : Host.Outcome State Fault Refusal :=
  s.run fun d => d.issueV e (encVR 0x16 vd va 0 pm w 0) 0xFFFF07FF 0 (opVwidel vd va pm w)

def execVwideh (e : Fin 256) (vd va : BitVec 5) (pm : BitVec 3) (w : Bool) (s : State) : Host.Outcome State Fault Refusal :=
  s.run fun d => d.issueV e (encVR 0x17 vd va 0 pm w 0) 0xFFFF07FF 0 (opVwideh vd va pm w)

def execVnarrow (e : Fin 256) (vd va vb : BitVec 5) (pm : BitVec 3) (w : Bool) (s : State) : Host.Outcome State Fault Refusal :=
  s.run fun d => d.issueV e (encVR 0x18 vd va vb pm w 0) 0xFFFFFFFF 0 (opVnarrow vd va vb pm w)

def execVld (e : Fin 256) (vd : BitVec 5) (sa : BitVec 4) (pm : BitVec 3) (inc : Bool) (imm : BitVec 13) (s : State) : Host.Outcome State Fault Refusal :=
  s.run fun d => d.issueV e (encVM 0x20 vd sa pm inc imm) 0xFFFFFFFF 0 (opVld vd sa pm inc imm)

def execVst (e : Fin 256) (vd : BitVec 5) (sa : BitVec 4) (pm : BitVec 3) (inc : Bool) (imm : BitVec 13) (s : State) : Host.Outcome State Fault Refusal :=
  s.run fun d => d.issueV e (encVM 0x21 vd sa pm inc imm) 0xFFFFFFFF 0 (opVst vd sa pm inc imm)

end Sys2Proof.Machine
end

