-- ==== Sys2Proof/Machine/Clock.lean ====
section
/-! DEFINITION. The passage of time: what one nanosecond without a command does. -/

namespace Sys2Proof.Machine

/-- The nanoseconds by which ts advances in one nanosecond of the reference, and the remainder of the rate correction (R9, R576):
`rate` is in parts per 10^9. -/
def tsAdvance (rate frac : Int) : Nat × Int :=
  let f := frac + rate
  if (10 : Int) ^ 9 ≤ f then (2, f - 10 ^ 9) else if f ≤ -(10 : Int) ^ 9 then (0, f + 10 ^ 9) else (1, f)

/-- One nanosecond passes: the clock and ts advance, pressure signals whose release condition holds are clear (R43), and a
window change that is due is reported (R518). -/
def Dev.tick (d : Dev) : Dev :=
  let a := tsAdvance d.fab.rate d.fab.frac
  (({ d with now := d.now + 1, ts := d.ts + a.1, fab := { d.fab with frac := a.2 } } : Dev).pressureDown).winDone

end Sys2Proof.Machine
end

