-- ==== Sys2Proof/Machine/Dispatch.lean ====
section
/-! DEFINITION. The meaning of each command: one arm per constructor, each one direct call. -/

namespace Sys2Proof.Machine

def exec (i : Instr) (s : State) : Host.Outcome State Fault Refusal :=
  match i with
  | .regWrite m off v => Sys2Proof.Machine.execRegWrite m off v s
  | .reg64LowWordRead off => Sys2Proof.Machine.execReg64LowWordRead off s
  | .reg64LowWordWrite off v => Sys2Proof.Machine.execReg64LowWordWrite off v s
  | .rcFieldRead off => Sys2Proof.Machine.execRcFieldRead off s
  | .shedRaise p => Sys2Proof.Machine.execShedRaise p s
  | .shedRaiseIntervalExpiry => Sys2Proof.Machine.execShedRaiseIntervalExpiry s
  | .shedLowerExpiry => Sys2Proof.Machine.execShedLowerExpiry s
  | .engineBacklogDeadline => Sys2Proof.Machine.execEngineBacklogDeadline s
  | .skeinPressureWindow => Sys2Proof.Machine.execSkeinPressureWindow s
  | .serviceModeRequest v => Sys2Proof.Machine.execServiceModeRequest v s
  | .bindoffStart => Sys2Proof.Machine.execBindoffStart s
  | .bindoffComplete => Sys2Proof.Machine.execBindoffComplete s
  | .glbIntWrite en v => Sys2Proof.Machine.execGlbIntWrite en v s
  | .gaugeSample a smp => Sys2Proof.Machine.execGaugeSample a smp s
  | .ampLowDetect a => Sys2Proof.Machine.execAmpLowDetect a s
  | .corrEstimate a => Sys2Proof.Machine.execCorrEstimate a s
  | .corrLoad a => Sys2Proof.Machine.execCorrLoad a s
  | .scaleApply a => Sys2Proof.Machine.execScaleApply a s
  | .gaugeAxisZero a => Sys2Proof.Machine.execGaugeAxisZero a s
  | .gaugeZero a => Sys2Proof.Machine.execGaugeZero a s
  | .snapTake => Sys2Proof.Machine.execSnapTake s
  | .gaugeSnap => Sys2Proof.Machine.execGaugeSnap s
  | .gaugeWpLowRead a => Sys2Proof.Machine.execGaugeWpLowRead a s
  | .refCfgWrite a v => Sys2Proof.Machine.execRefCfgWrite a v s
  | .positionRecord a => Sys2Proof.Machine.execPositionRecord a s
  | .axisEnable a v => Sys2Proof.Machine.execAxisEnable a v s
  | .axisDisable a v => Sys2Proof.Machine.execAxisDisable a v s
  | .settleEnd a smp => Sys2Proof.Machine.execSettleEnd a smp s
  | .watchCountEdge a forward illegal => Sys2Proof.Machine.execWatchCountEdge a forward illegal s
  | .convCheckStep devLow devHigh => Sys2Proof.Machine.execConvCheckStep devLow devHigh s
  | .convCheckCfgWrite v => Sys2Proof.Machine.execConvCheckCfgWrite v s
  | .cmpCycle u => Sys2Proof.Machine.execCmpCycle u s
  | .trigCmpCtlArm u set => Sys2Proof.Machine.execTrigCmpCtlArm u set s
  | .trigCmpCtlStop u => Sys2Proof.Machine.execTrigCmpCtlStop u s
  | .trigCmpArm u => Sys2Proof.Machine.execTrigCmpArm u s
  | .trigCmpStop u => Sys2Proof.Machine.execTrigCmpStop u s
  | .trigListWrite idx hiWord v => Sys2Proof.Machine.execTrigListWrite idx hiWord v s
  | .trigOut p => Sys2Proof.Machine.execTrigOut p s
  | .trigOutPulseEnd p => Sys2Proof.Machine.execTrigOutPulseEnd p s
  | .trigOutModeWrite p v => Sys2Proof.Machine.execTrigOutModeWrite p v s
  | .bankSupplyChange b sup => Sys2Proof.Machine.execBankSupplyChange b sup s
  | .trigInEdge k level => Sys2Proof.Machine.execTrigInEdge k level s
  | .trigInAccept k => Sys2Proof.Machine.execTrigInAccept k s
  | .trigPkt n => Sys2Proof.Machine.execTrigPkt n s
  | .trigPktStart n ref => Sys2Proof.Machine.execTrigPktStart n ref s
  | .trigPktFall n ref => Sys2Proof.Machine.execTrigPktFall n ref s
  | .chainFire master ch => Sys2Proof.Machine.execChainFire master ch s
  | .chainFireMulti master hi => Sys2Proof.Machine.execChainFireMulti master hi s
  | .chainHeldPublish ch => Sys2Proof.Machine.execChainHeldPublish ch s
  | .chainIrqWrite en hiWord v => Sys2Proof.Machine.execChainIrqWrite en hiWord v s
  | .chainConfigWrite master off v => Sys2Proof.Machine.execChainConfigWrite master off v s
  | .chainCtrInc k => Sys2Proof.Machine.execChainCtrInc k s
  | .chainCtrClr k => Sys2Proof.Machine.execChainCtrClr k s
  | .chainCtrValWrite k v => Sys2Proof.Machine.execChainCtrValWrite k v s
  | .chainCtrWindowEnd k => Sys2Proof.Machine.execChainCtrWindowEnd k s
  | .cllEnable n v => Sys2Proof.Machine.execCllEnable n v s
  | .cllDisable n v => Sys2Proof.Machine.execCllDisable n v s
  | .discoveryTick => Sys2Proof.Machine.execDiscoveryTick s
  | .rateDetectDone n rate => Sys2Proof.Machine.execRateDetectDone n rate s
  | .alignAcquire n => Sys2Proof.Machine.execAlignAcquire n s
  | .commaRealign n => Sys2Proof.Machine.execCommaRealign n s
  | .losAssert n => Sys2Proof.Machine.execLosAssert n s
  | .losDeassert n => Sys2Proof.Machine.execLosDeassert n s
  | .lossOfLock n => Sys2Proof.Machine.execLossOfLock n s
  | .lossTimeout n => Sys2Proof.Machine.execLossTimeout n s
  | .rxCodeError n disparity => Sys2Proof.Machine.execRxCodeError n disparity s
  | .ctrlCommandStart n => Sys2Proof.Machine.execCtrlCommandStart n s
  | .ctrlAckReceive n ack => Sys2Proof.Machine.execCtrlAckReceive n ack s
  | .ctrlTimeout n => Sys2Proof.Machine.execCtrlTimeout n s
  | .groupJoinWaitEnd n => Sys2Proof.Machine.execGroupJoinWaitEnd n s
  | .discoverTimeout n => Sys2Proof.Machine.execDiscoverTimeout n s
  | .trainTimeout n => Sys2Proof.Machine.execTrainTimeout n s
  | .standby n => Sys2Proof.Machine.execStandby n s
  | .park n => Sys2Proof.Machine.execPark n s
  | .wake n => Sys2Proof.Machine.execWake n s
  | .retrain n => Sys2Proof.Machine.execRetrain n s
  | .pwrReset n => Sys2Proof.Machine.execPwrReset n s
  | .mailboxGo n v => Sys2Proof.Machine.execMailboxGo n v s
  | .heartbeatReceive n crcOk time => Sys2Proof.Machine.execHeartbeatReceive n crcOk time s
  | .hbLost n => Sys2Proof.Machine.execHbLost n s
  | .eventPacketReceive n crcOk data => Sys2Proof.Machine.execEventPacketReceive n crcOk data s
  | .pocxpFaultPin n => Sys2Proof.Machine.execPocxpFaultPin n s
  | .pocxpRetry n => Sys2Proof.Machine.execPocxpRetry n s
  | .pocxpRetryReset n => Sys2Proof.Machine.execPocxpRetryReset n s
  | .pocxpEnWrite n v => Sys2Proof.Machine.execPocxpEnWrite n v s
  | .panelFrame buttons => Sys2Proof.Machine.execPanelFrame buttons s
  | .plyPacketCommit q k crcOk cut span => Sys2Proof.Machine.execPlyPacketCommit q k crcOk cut span s
  | .ptrFault q room => Sys2Proof.Machine.execPtrFault q room s
  | .queueResetEnd q => Sys2Proof.Machine.execQueueResetEnd q s
  | .qreset q room => Sys2Proof.Machine.execQreset q room s
  | .close cam => Sys2Proof.Machine.execClose cam s
  | .flush cam => Sys2Proof.Machine.execFlush cam s
  | .asmClose cam => Sys2Proof.Machine.execAsmClose cam s
  | .asmCamEnable cam v => Sys2Proof.Machine.execAsmCamEnable cam v s
  | .asmCamDisable cam v room => Sys2Proof.Machine.execAsmCamDisable cam v room s
  | .asmPacketVisible q room => Sys2Proof.Machine.execAsmPacketVisible q room s
  | .mergeSkewExpire cam room => Sys2Proof.Machine.execMergeSkewExpire cam room s
  | .carLineIn k drained => Sys2Proof.Machine.execCarLineIn k drained s
  | .carMemFrameStart k => Sys2Proof.Machine.execCarMemFrameStart k s
  | .carFrameEnd k => Sys2Proof.Machine.execCarFrameEnd k s
  | .carStatsDone k => Sys2Proof.Machine.execCarStatsDone k s
  | .cpbPreloadDone k => Sys2Proof.Machine.execCpbPreloadDone k s
  | .carReset k v => Sys2Proof.Machine.execCarReset k v s
  | .carSetGo cam v => Sys2Proof.Machine.execCarSetGo cam v s
  | .setIssueStart cam late => Sys2Proof.Machine.execSetIssueStart cam late s
  | .tileWriteLine cam => Sys2Proof.Machine.execTileWriteLine cam s
  | .dispatchQueuePush c => Sys2Proof.Machine.execDispatchQueuePush c s
  | .selvedgeRewind cam => Sys2Proof.Machine.execSelvedgeRewind cam s
  | .deferredBandLoad => Sys2Proof.Machine.execDeferredBandLoad s
  | .engineTake e => Sys2Proof.Machine.execEngineTake e s
  | .stealSearch c => Sys2Proof.Machine.execStealSearch c s
  | .stealProbeAnswer c => Sys2Proof.Machine.execStealProbeAnswer c s
  | .stealRetry e => Sys2Proof.Machine.execStealRetry e s
  | .watchdogExpire e => Sys2Proof.Machine.execWatchdogExpire e s
  | .steFence c j => Sys2Proof.Machine.execSteFence c j s
  | .steReset c v => Sys2Proof.Machine.execSteReset c v s
  | .engineResetDone e => Sys2Proof.Machine.execEngineResetDone e s
  | .engineResetTimeout e => Sys2Proof.Machine.execEngineResetTimeout e s
  | .engineDisable c v => Sys2Proof.Machine.execEngineDisable c v s
  | .resultArrive e => Sys2Proof.Machine.execResultArrive e s
  | .nop e => Sys2Proof.Machine.execNop e s
  | .add e rd ra rb => Sys2Proof.Machine.execAdd e rd ra rb s
  | .sub e rd ra rb => Sys2Proof.Machine.execSub e rd ra rb s
  | .and e rd ra rb => Sys2Proof.Machine.execAnd e rd ra rb s
  | .or e rd ra rb => Sys2Proof.Machine.execOr e rd ra rb s
  | .xor e rd ra rb => Sys2Proof.Machine.execXor e rd ra rb s
  | .shl e rd ra rb => Sys2Proof.Machine.execShl e rd ra rb s
  | .shr e rd ra rb => Sys2Proof.Machine.execShr e rd ra rb s
  | .sar e rd ra rb => Sys2Proof.Machine.execSar e rd ra rb s
  | .mul e rd ra rb => Sys2Proof.Machine.execMul e rd ra rb s
  | .mulh e rd ra rb => Sys2Proof.Machine.execMulh e rd ra rb s
  | .slt e rd ra rb => Sys2Proof.Machine.execSlt e rd ra rb s
  | .sltu e rd ra rb => Sys2Proof.Machine.execSltu e rd ra rb s
  | .min e rd ra rb => Sys2Proof.Machine.execMin e rd ra rb s
  | .max e rd ra rb => Sys2Proof.Machine.execMax e rd ra rb s
  | .add64 e rd ra rb => Sys2Proof.Machine.execAdd64 e rd ra rb s
  | .sub64 e rd ra rb => Sys2Proof.Machine.execSub64 e rd ra rb s
  | .addi e rd ra imm => Sys2Proof.Machine.execAddi e rd ra imm s
  | .andi e rd ra imm => Sys2Proof.Machine.execAndi e rd ra imm s
  | .ori e rd ra imm => Sys2Proof.Machine.execOri e rd ra imm s
  | .xori e rd ra imm => Sys2Proof.Machine.execXori e rd ra imm s
  | .shli e rd ra imm => Sys2Proof.Machine.execShli e rd ra imm s
  | .shri e rd ra imm => Sys2Proof.Machine.execShri e rd ra imm s
  | .sari e rd ra imm => Sys2Proof.Machine.execSari e rd ra imm s
  | .slti e rd ra imm => Sys2Proof.Machine.execSlti e rd ra imm s
  | .lui e rd imm => Sys2Proof.Machine.execLui e rd imm s
  | .ldw e rd ra imm => Sys2Proof.Machine.execLdw e rd ra imm s
  | .ldh e rd ra imm => Sys2Proof.Machine.execLdh e rd ra imm s
  | .ldb e rd ra imm => Sys2Proof.Machine.execLdb e rd ra imm s
  | .stw e rd ra imm => Sys2Proof.Machine.execStw e rd ra imm s
  | .sth e rd ra imm => Sys2Proof.Machine.execSth e rd ra imm s
  | .stb e rd ra imm => Sys2Proof.Machine.execStb e rd ra imm s
  | .beq e ra rb off => Sys2Proof.Machine.execBeq e ra rb off s
  | .bne e ra rb off => Sys2Proof.Machine.execBne e ra rb off s
  | .blt e ra rb off => Sys2Proof.Machine.execBlt e ra rb off s
  | .bge e ra rb off => Sys2Proof.Machine.execBge e ra rb off s
  | .bltu e ra rb off => Sys2Proof.Machine.execBltu e ra rb off s
  | .bgeu e ra rb off => Sys2Proof.Machine.execBgeu e ra rb off s
  | .jal e rd imm => Sys2Proof.Machine.execJal e rd imm s
  | .jr e ra => Sys2Proof.Machine.execJr e ra s
  | .bpany e pa off => Sys2Proof.Machine.execBpany e pa off s
  | .bpnone e pa off => Sys2Proof.Machine.execBpnone e pa off s
  | .xld e rd ra rb tag => Sys2Proof.Machine.execXld e rd ra rb tag s
  | .xst e rd ra rb tag => Sys2Proof.Machine.execXst e rd ra rb tag s
  | .xwait e code => Sys2Proof.Machine.execXwait e code s
  | .xferComplete e tag => Sys2Proof.Machine.execXferComplete e tag s
  | .emit e rd ra => Sys2Proof.Machine.execEmit e rd ra s
  | .endItem e => Sys2Proof.Machine.execEnd e s
  | .qmark e rd ra rb => Sys2Proof.Machine.execQmark e rd ra rb s
  | .qrew e rd ra => Sys2Proof.Machine.execQrew e rd ra s
  | .qcpy e rd ra rb => Sys2Proof.Machine.execQcpy e rd ra rb s
  | .qrel e rd ra => Sys2Proof.Machine.execQrel e rd ra s
  | .pub e => Sys2Proof.Machine.execPub e s
  | .evwait e ra => Sys2Proof.Machine.execEvwait e ra s
  | .rdsr e rd code => Sys2Proof.Machine.execRdsr e rd code s
  | .msync e => Sys2Proof.Machine.execMsync e s
  | .vnop e => Sys2Proof.Machine.execVnop e s
  | .vadd e vd va vb pm w => Sys2Proof.Machine.execVadd e vd va vb pm w s
  | .vsub e vd va vb pm w => Sys2Proof.Machine.execVsub e vd va vb pm w s
  | .vadds e vd va vb pm w => Sys2Proof.Machine.execVadds e vd va vb pm w s
  | .vsubs e vd va vb pm w => Sys2Proof.Machine.execVsubs e vd va vb pm w s
  | .vabsd e vd va vb pm w => Sys2Proof.Machine.execVabsd e vd va vb pm w s
  | .vmin e vd va vb pm w => Sys2Proof.Machine.execVmin e vd va vb pm w s
  | .vmax e vd va vb pm w => Sys2Proof.Machine.execVmax e vd va vb pm w s
  | .vand e vd va vb pm w => Sys2Proof.Machine.execVand e vd va vb pm w s
  | .vor e vd va vb pm w => Sys2Proof.Machine.execVor e vd va vb pm w s
  | .vxor e vd va vb pm w => Sys2Proof.Machine.execVxor e vd va vb pm w s
  | .vmul e vd va vb pm w => Sys2Proof.Machine.execVmul e vd va vb pm w s
  | .vmulh e vd va vb pm w => Sys2Proof.Machine.execVmulh e vd va vb pm w s
  | .vavg e vd va vb pm w => Sys2Proof.Machine.execVavg e vd va vb pm w s
  | .vshl e vd va vb pm w => Sys2Proof.Machine.execVshl e vd va vb pm w s
  | .vshr e vd va vb pm w => Sys2Proof.Machine.execVshr e vd va vb pm w s
  | .vsar e vd va vb pm w => Sys2Proof.Machine.execVsar e vd va vb pm w s
  | .vcmpeq e pd va vb pm w => Sys2Proof.Machine.execVcmpeq e pd va vb pm w s
  | .vcmplt e pd va vb pm w => Sys2Proof.Machine.execVcmplt e pd va vb pm w s
  | .vcmpltu e pd va vb pm w => Sys2Proof.Machine.execVcmpltu e pd va vb pm w s
  | .vcmpge e pd va vb pm w => Sys2Proof.Machine.execVcmpge e pd va vb pm w s
  | .vcmpgeu e pd va vb pm w => Sys2Proof.Machine.execVcmpgeu e pd va vb pm w s
  | .pand e pd pa pb pm w => Sys2Proof.Machine.execPand e pd pa pb pm w s
  | .por e pd pa pb pm w => Sys2Proof.Machine.execPor e pd pa pb pm w s
  | .pxor e pd pa pb pm w => Sys2Proof.Machine.execPxor e pd pa pb pm w s
  | .pandn e pd pa pb pm w => Sys2Proof.Machine.execPandn e pd pa pb pm w s
  | .pset e pd pm w => Sys2Proof.Machine.execPset e pd pm w s
  | .pclr e pd pm w => Sys2Proof.Machine.execPclr e pd pm w s
  | .vaddi e vd va pm w imm => Sys2Proof.Machine.execVaddi e vd va pm w imm s
  | .vshli e vd va pm w imm => Sys2Proof.Machine.execVshli e vd va pm w imm s
  | .vshri e vd va pm w imm => Sys2Proof.Machine.execVshri e vd va pm w imm s
  | .vsari e vd va pm w imm => Sys2Proof.Machine.execVsari e vd va pm w imm s
  | .vsplati e vd pm w imm => Sys2Proof.Machine.execVsplati e vd pm w imm s
  | .vsel e vd va vb pm w => Sys2Proof.Machine.execVsel e vd va vb pm w s
  | .vsplat e vd sb pm w => Sys2Proof.Machine.execVsplat e vd sb pm w s
  | .vmuls e vd va sb pm w fn => Sys2Proof.Machine.execVmuls e vd va sb pm w fn s
  | .vextr e sd va w fn => Sys2Proof.Machine.execVextr e sd va w fn s
  | .vins e vd sb pm w fn => Sys2Proof.Machine.execVins e vd sb pm w fn s
  | .vrsum e sd va pm w => Sys2Proof.Machine.execVrsum e sd va pm w s
  | .vrmax e sd va pm w => Sys2Proof.Machine.execVrmax e sd va pm w s
  | .vpcnt e sd pm w => Sys2Proof.Machine.execVpcnt e sd pm w s
  | .vpfirst e sd pm w => Sys2Proof.Machine.execVpfirst e sd pm w s
  | .vsad e sd va vb pm w => Sys2Proof.Machine.execVsad e sd va vb pm w s
  | .vdot e sd va vb pm w => Sys2Proof.Machine.execVdot e sd va vb pm w s
  | .vslide e vd va sb pm w => Sys2Proof.Machine.execVslide e vd va sb pm w s
  | .vslidei e vd va vb pm w fn => Sys2Proof.Machine.execVslidei e vd va vb pm w fn s
  | .vwidel e vd va pm w => Sys2Proof.Machine.execVwidel e vd va pm w s
  | .vwideh e vd va pm w => Sys2Proof.Machine.execVwideh e vd va pm w s
  | .vnarrow e vd va vb pm w => Sys2Proof.Machine.execVnarrow e vd va vb pm w s
  | .vld e vd sa pm inc imm => Sys2Proof.Machine.execVld e vd sa pm inc imm s
  | .vst e vd sa pm inc imm => Sys2Proof.Machine.execVst e vd sa pm inc imm s
  | .steEvent c => Sys2Proof.Machine.execSteEvent c s
  | .jobStage => Sys2Proof.Machine.execJobStage s
  | .stagingDone => Sys2Proof.Machine.execStagingDone s
  | .jobStart => Sys2Proof.Machine.execJobStart s
  | .jobCtlArm => Sys2Proof.Machine.execJobCtlArm s
  | .jobArm => Sys2Proof.Machine.execJobArm s
  | .spliceSwitch => Sys2Proof.Machine.execSpliceSwitch s
  | .jobRelease => Sys2Proof.Machine.execJobRelease s
  | .slotDrained => Sys2Proof.Machine.execSlotDrained s
  | .jobCtlAbort => Sys2Proof.Machine.execJobCtlAbort s
  | .jobAbort => Sys2Proof.Machine.execJobAbort s
  | .swatchRestart => Sys2Proof.Machine.execSwatchRestart s
  | .jobReset => Sys2Proof.Machine.execJobReset s
  | .swatchRepeatEnd cam => Sys2Proof.Machine.execSwatchRepeatEnd cam s
  | .bankHandover c b v => Sys2Proof.Machine.execBankHandover c b v s
  | .handoverDone c b => Sys2Proof.Machine.execHandoverDone c b s
  | .stashBankGrant c b new => Sys2Proof.Machine.execStashBankGrant c b new s
  | .urgentPromote c b => Sys2Proof.Machine.execUrgentPromote c b s
  | .stashTestStep c fails => Sys2Proof.Machine.execStashTestStep c fails s
  | .stashTestEnable v => Sys2Proof.Machine.execStashTestEnable v s
  | .skeinInitDone => Sys2Proof.Machine.execSkeinInitDone s
  | .skeinReadComplete m block o refused => Sys2Proof.Machine.execSkeinReadComplete m block o refused s
  | .skeinRefresh ch => Sys2Proof.Machine.execSkeinRefresh ch s
  | .skeinFlush => Sys2Proof.Machine.execSkeinFlush s
  | .scrubRead o => Sys2Proof.Machine.execScrubRead o s
  | .histEnable v => Sys2Proof.Machine.execHistEnable v s
  | .retroGo v => Sys2Proof.Machine.execRetroGo v s
  | .retroScanDone => Sys2Proof.Machine.execRetroScanDone s
  | .hookGo master ch abort => Sys2Proof.Machine.execHookGo master ch abort s
  | .hookAbort master ch => Sys2Proof.Machine.execHookAbort master ch s
  | .hookCheckDone ch => Sys2Proof.Machine.execHookCheckDone ch s
  | .hookSlotsGranted ch => Sys2Proof.Machine.execHookSlotsGranted ch s
  | .hookBurstRead => Sys2Proof.Machine.execHookBurstRead s
  | .hookBurstWrite => Sys2Proof.Machine.execHookBurstWrite s
  | .hookReadResponse ch first => Sys2Proof.Machine.execHookReadResponse ch first s
  | .hookWriteAck ch => Sys2Proof.Machine.execHookWriteAck ch s
  | .hookReset v => Sys2Proof.Machine.execHookReset v s
  | .hookIrqWrite en v => Sys2Proof.Machine.execHookIrqWrite en v s
  | .hostMemRead rid bar off n hdr => Sys2Proof.Machine.execHostMemRead rid bar off n hdr s
  | .hostMemWrite rid bar off bs poisoned hdr => Sys2Proof.Machine.execHostMemWrite rid bar off bs poisoned hdr s
  | .configWrite item => Sys2Proof.Machine.execConfigWrite item s
  | .winApply v => Sys2Proof.Machine.execWinApply v s
  | .completionReceive tag c hdr => Sys2Proof.Machine.execCompletionReceive tag c hdr s
  | .completionTimeout tag => Sys2Proof.Machine.execCompletionTimeout tag s
  | .tagQuarantineEnd tag => Sys2Proof.Machine.execTagQuarantineEnd tag s
  | .atsTranslationMiss user iova write => Sys2Proof.Machine.execAtsTranslationMiss user iova write s
  | .atsInvalidateRequest itag base size => Sys2Proof.Machine.execAtsInvalidateRequest itag base size s
  | .atsInvalidateDone itag => Sys2Proof.Machine.execAtsInvalidateDone itag s
  | .ringEnable r v => Sys2Proof.Machine.execRingEnable r v s
  | .ringDisable r v issued => Sys2Proof.Machine.execRingDisable r v issued s
  | .ringDtailWrite r v => Sys2Proof.Machine.execRingDtailWrite r v s
  | .ringCheadWrite r v => Sys2Proof.Machine.execRingCheadWrite r v s
  | .revoke r issued => Sys2Proof.Machine.execRevoke r issued s
  | .descFetch r => Sys2Proof.Machine.execDescFetch r s
  | .descFetchDone r bytes => Sys2Proof.Machine.execDescFetchDone r bytes s
  | .parcelStart r => Sys2Proof.Machine.execParcelStart r s
  | .pieceComplete r => Sys2Proof.Machine.execPieceComplete r s
  | .parcelStage src => Sys2Proof.Machine.execParcelStage src s
  | .ringIrqTimeExpire r => Sys2Proof.Machine.execRingIrqTimeExpire r s
  | .msixUnmask v => Sys2Proof.Machine.execMsixUnmask v s
  | .intxPendWrite n v => Sys2Proof.Machine.execIntxPendWrite n v s
  | .linkEnterL0 rate width flit => Sys2Proof.Machine.execLinkEnterL0 rate width flit s
  | .linkRecoveryTimeout => Sys2Proof.Machine.execLinkRecoveryTimeout s
  | .dataLinkDown => Sys2Proof.Machine.execDataLinkDown s
  | .functionLevelReset => Sys2Proof.Machine.execFunctionLevelReset s
  | .flrDone => Sys2Proof.Machine.execFlrDone s
  | .dStateChange d3 => Sys2Proof.Machine.execDStateChange d3 s
  | .perstAssert => Sys2Proof.Machine.execPerstAssert s
  | .perstDeassert => Sys2Proof.Machine.execPerstDeassert s
  | .fabEnable v => Sys2Proof.Machine.execFabEnable v s
  | .fabPortEnable p v => Sys2Proof.Machine.execFabPortEnable p v s
  | .fabTrainPhaseDone p => Sys2Proof.Machine.execFabTrainPhaseDone p s
  | .fabTrainTimeout p => Sys2Proof.Machine.execFabTrainTimeout p s
  | .fabBackoffEnd p => Sys2Proof.Machine.execFabBackoffEnd p s
  | .fabLockLoss p => Sys2Proof.Machine.execFabLockLoss p s
  | .fabTapRequest p lane pre post preset => Sys2Proof.Machine.execFabTapRequest p lane pre post preset s
  | .fabMarker p bip deskewed arrive leave => Sys2Proof.Machine.execFabMarker p bip deskewed arrive leave s
  | .fabControlUnitRx p good ack nak credit => Sys2Proof.Machine.execFabControlUnitRx p good ack nak credit s
  | .fabReadRx p q => Sys2Proof.Machine.execFabReadRx p q s
  | .fabWriteRx p q => Sys2Proof.Machine.execFabWriteRx p q s
  | .fabResponseRx p q => Sys2Proof.Machine.execFabResponseRx p q s
  | .fabHelloRx p h => Sys2Proof.Machine.execFabHelloRx p h s
  | .fabRootRx p src hops r => Sys2Proof.Machine.execFabRootRx p src hops r s
  | .fabClaimRx p src hops c => Sys2Proof.Machine.execFabClaimRx p src hops c s
  | .fabAssignRx p src hops a => Sys2Proof.Machine.execFabAssignRx p src hops a s
  | .fabKeepaliveRx p src hops dst k => Sys2Proof.Machine.execFabKeepaliveRx p src hops dst k s
  | .fabSyncRx p t2 t3 => Sys2Proof.Machine.execFabSyncRx p t2 t3 s
  | .fabMarkRx p src hops m => Sys2Proof.Machine.execFabMarkRx p src hops m s
  | .fabFenceRx p src hops dst => Sys2Proof.Machine.execFabFenceRx p src hops dst s
  | .fabRootAnnounce => Sys2Proof.Machine.execFabRootAnnounce s
  | .fabKeepaliveSend => Sys2Proof.Machine.execFabKeepaliveSend s
  | .fabClaimStart => Sys2Proof.Machine.execFabClaimStart s
  | .fabElectionEnd => Sys2Proof.Machine.execFabElectionEnd s
  | .fabRootTimeout => Sys2Proof.Machine.execFabRootTimeout s
  | .fabMemberTimeout addr => Sys2Proof.Machine.execFabMemberTimeout addr s
  | .fabReqTimeout txid => Sys2Proof.Machine.execFabReqTimeout txid s
  | .fabTxidQuarantineEnd txid => Sys2Proof.Machine.execFabTxidQuarantineEnd txid s
  | .fabTimeSync t1 t4 => Sys2Proof.Machine.execFabTimeSync t1 t4 s
  | .fabTimePulse => Sys2Proof.Machine.execFabTimePulse s
  | .clearSpare => Sys2Proof.Machine.execClearSpare s
  | .markTx => Sys2Proof.Machine.execMarkTx s
  | .timeCap => Sys2Proof.Machine.execTimeCap s
  | .fabMarkTx => Sys2Proof.Machine.execFabMarkTx s
  | .fabTimeCap => Sys2Proof.Machine.execFabTimeCap s
  | .coldReset c done => Sys2Proof.Machine.execColdReset c done s
  | .deviceReset done => Sys2Proof.Machine.execDeviceReset done s
  | .stwReset v done => Sys2Proof.Machine.execStwReset v done s
  | .stewardWdogExpire done => Sys2Proof.Machine.execStewardWdogExpire done s
  | .resetRelease => Sys2Proof.Machine.execResetRelease s
  | .castonComplete rep => Sys2Proof.Machine.execCastonComplete rep s
  | .nvmRead => Sys2Proof.Machine.execNvmRead s
  | .nvmBegin => Sys2Proof.Machine.execNvmBegin s
  | .nvmProgram => Sys2Proof.Machine.execNvmProgram s
  | .nvmVerify => Sys2Proof.Machine.execNvmVerify s
  | .nvmCommit => Sys2Proof.Machine.execNvmCommit s
  | .nvmBoard => Sys2Proof.Machine.execNvmBoard s
  | .nvmAbort => Sys2Proof.Machine.execNvmAbort s
  | .nvmOpComplete done fails => Sys2Proof.Machine.execNvmOpComplete done fails s
  | .logPageWrite fails => Sys2Proof.Machine.execLogPageWrite fails s
  | .logFlush => Sys2Proof.Machine.execLogFlush s
  | .jtagReset => Sys2Proof.Machine.execJtagReset s
  | .extest => Sys2Proof.Machine.execExtest s
  | .idcode => Sys2Proof.Machine.execIdcode s
  | .samplePreload pins => Sys2Proof.Machine.execSamplePreload pins s
  | .clamp => Sys2Proof.Machine.execClamp s
  | .highz => Sys2Proof.Machine.execHighz s
  | .bypass => Sys2Proof.Machine.execBypass s
  | .access => Sys2Proof.Machine.execAccess s
  | .jtagAccessGo v => Sys2Proof.Machine.execJtagAccessGo v s
  | .jtagAccessDone => Sys2Proof.Machine.execJtagAccessDone s
  | .pwrCtlWatch => Sys2Proof.Machine.execPwrCtlWatch s
  | .pwrCtlExit => Sys2Proof.Machine.execPwrCtlExit s
  | .pwrWake => Sys2Proof.Machine.execPwrWake s
  | .watchEntryStart => Sys2Proof.Machine.execWatchEntryStart s
  | .watchEntryDone => Sys2Proof.Machine.execWatchEntryDone s
  | .watchExitStart => Sys2Proof.Machine.execWatchExitStart s
  | .watchExitDone => Sys2Proof.Machine.execWatchExitDone s
  | .hkConversion raw => Sys2Proof.Machine.execHkConversion raw s
  | .hkUrgent v => Sys2Proof.Machine.execHkUrgent v s
  | .hkResultRead => Sys2Proof.Machine.execHkResultRead s
  | .governorEval => Sys2Proof.Machine.execGovernorEval s
  | .throttleCapStep => Sys2Proof.Machine.execThrottleCapStep s
  | .thermalTrip => Sys2Proof.Machine.execThermalTrip s
  | .tripEnd => Sys2Proof.Machine.execTripEnd s
  | .ilimHalve => Sys2Proof.Machine.execIlimHalve s
  | .ilimRelease => Sys2Proof.Machine.execIlimRelease s
  | .standbyPacketWake n => Sys2Proof.Machine.execStandbyPacketWake n s
  | .cdrLock n => Sys2Proof.Machine.execCdrLock n s
  | .linkRecoveryStart => Sys2Proof.Machine.execLinkRecoveryStart s

end Sys2Proof.Machine
end

