-- ==== Sys2Proof/Safety.lean ====
section
/-! DEFINITION. The words in which claims speak of the machine: what a command makes of the device, what a run of the queue makes of it,
what is well-formed, and that no step stops. -/

namespace Sys2Proof.Machine

/-- Command `c` takes the device from `d` to `t`, whatever waits in the queue, and leaves the queue as it is. -/
def Runs (c : Instr) (d t : Dev) : Prop :=
  ∀ q : List Instr, exec c { dev := d, pending := q } = .next { dev := t, pending := q }

/-- Command `c` takes the device from `d` to a device of which `P` holds, and leaves the queue as it is. -/
def RunsTo (c : Instr) (d : Dev) (P : Dev → Prop) : Prop := ∃ t : Dev, Runs c d t ∧ P t

/-- A step that does not stop: it answers a next state. -/
def Goes (s : State) : Prop := ∃ t : State, step s = .next t

/-- What a command makes of the device; a command that stopped would leave it. -/
def effect (c : Instr) (d : Dev) : Dev :=
  match exec c { dev := d, pending := [] } with
  | .next t => t.dev
  | _ => d

/-- Every command that waits is well-formed. -/
def QueueWf (s : State) : Prop := ∀ c ∈ s.pending, c.wf = true

/-- The memories of the block are in canonical form: registers, Stash, engine scratch, Skein, instruction memory. -/
def MemWf (d : Dev) : Prop :=
  d.regs.wf regDefault = true ∧ d.stash.mem.wf zeroByte = true ∧ d.stash.scr.wf zeroByte = true ∧ d.skein.mem.wf zeroByte = true ∧
    d.ste.imem.wf zeroByte = true

/-- A bundle of engine e that issues alone in slot S: its kernel, slot S as given, and VNOP in slot V. -/
def IssuesS (e : Nat) (k : Ctx) (w : Word) (d : Dev) : Prop := d.fetch e = some (k, w, 0) ∧ k.x.pc < 1023

/-- A bundle of engine e that issues alone in slot V, with NOP in slot S. -/
def IssuesV (e : Nat) (k : Ctx) (v : Word) (d : Dev) : Prop := d.fetch e = some (k, 0, v) ∧ k.x.pc < 1023

/-- The device with an engine's PC at the bundle after its present one. -/
def Dev.advance (k : Ctx) (d : Dev) : Dev := d.modEng k.e fun x => { x with pc := k.x.pc + 1 }

end Sys2Proof.Machine
end

