-- ==== Sys2Proof/Certificates/Slice0/Obligations.lean ====
section
/-! DEFINITION. The statements for the provers. `Runs c d t` says that command c answers a next state in which the device d has become
t and the queue is as before (Sys2Proof/Safety.lean). -/

open Sys2Proof Sys2Proof.Machine

/-- With command c at the front of the queue, a step is exec of c on the state with the rest of the queue; on an empty queue one nanosecond passes and the queue stays empty. The idle nanosecond is the model's choice (log entry 1). -/
def Obligations.StepTakesFrontCommand : Prop :=
  (∀ (d : Dev) (c : Instr) (rest : List Instr),
    step { dev := d, pending := c :: rest } = exec c { dev := d, pending := rest }) ∧
  (∀ d : Dev, step { dev := d, pending := [] } = .next { dev := d.tick, pending := [] })

/-- Every step of every state answers a next state: no command of the block faults and none is refused. -/
def Obligations.StepNeverStops : Prop :=
  ∀ s : State, Goes s

/-- For every command c and device d there is one device t such that c takes d to t whatever waits in the queue, and the queue is left as it is. -/
def Obligations.CommandIgnoresQueue : Prop :=
  ∀ (c : Instr) (d : Dev), Runs c d (effect c d)

/-- Running as many steps as the queue holds commands answers the state in which the commands have taken effect one after the other, oldest first, and the queue is empty; and with more commands behind them, those still wait, in their order. -/
def Obligations.QueueRunsInOrder : Prop :=
  ∀ (cs rest : List Instr) (d : Dev),
    Sys2Proof.core.run cs.length { dev := d, pending := cs ++ rest }
      = .next { dev := cs.foldl (fun x c => effect c x) d, pending := rest }

/-- If every command that waits is well-formed and a step answers a next state, every command that waits there is well-formed. -/
def Obligations.StepKeepsQueueWellFormed : Prop :=
  ∀ s t : State, QueueWf s → step s = .next t → QueueWf t

/-- Reset leaves an empty queue, canonical memories, and every register at the reset value its register map gives (R21), but for STW_RESET_CAUSE, which records POWER_ON; ts is 0, the Chain holds nothing, and Cast-on has started. -/
def Obligations.ResetState : Prop :=
  State.reset.pending = [] ∧ QueueWf State.reset ∧ MemWf State.reset.dev ∧ State.reset.dev.ts = 0 ∧ State.reset.dev.stw.boot = .caston ∧
  (∀ off : Nat, off ≠ R.STW_RESET_CAUSE → State.reset.dev.rd off = regDefault off) ∧
  State.reset.dev.f R.STW_RESET_CAUSE (bitF 5) = 1

/-- CHAIN_FIRE by a master that may fire the enabled channel counts the event, starts the spacing of R156 and delivers it from source 511 at hop 0 when the channel is idle, is held when the channel is busy, and merges into the held event otherwise; CHAIN_FIRE_MULTI that names one permitted channel does the same; a fire that is not permitted is denied and publishes nothing. -/
def Obligations.ChainFiresChannel : Prop :=
  (∀ (d : Dev) (m : Nat) (ch : Fin 64), d.mayFire m ch = true → d.f (R.CHAIN_CH_CFG ch) F.CHAIN_CH_CFG_EN ≠ 0 → (d.chan ch).held = none →
    ((d.chan ch).used = false ∨ (d.chan ch).lastAt ≠ d.now ∧ (d.chan ch).freeAt ≤ d.now) →
    Runs (.chainFire m ch) d (((d.bump (R.CHAIN_CH_CNT ch) whole 1).setChan ch
      { used := true, lastAt := d.now, freeAt := d.now + d.spacing ch, held := none }).deliver ch 511 0)) ∧
  (∀ (d : Dev) (m : Nat) (ch : Fin 64), d.mayFire m ch = true → d.f (R.CHAIN_CH_CFG ch) F.CHAIN_CH_CFG_EN ≠ 0 → (d.chan ch).held = none →
    (d.chan ch).used = true → (d.chan ch).lastAt ≠ d.now → d.now < (d.chan ch).freeAt →
    Runs (.chainFire m ch) d (d.setChan ch { d.chan ch with held := some (511, 0) })) ∧
  (∀ (d : Dev) (m : Nat) (ch : Fin 64) (src hop : Nat), d.mayFire m ch = true → d.f (R.CHAIN_CH_CFG ch) F.CHAIN_CH_CFG_EN ≠ 0 →
    (d.chan ch).held = some (src, hop) →
    Runs (.chainFire m ch) d (((d.setChan ch { d.chan ch with held := some (min src 511, max hop 0) }).bump (R.CHAIN_CH_CNT2 ch)
      F.CHAIN_CH_CNT2_MERGE_CNT 1).err 3 R.CHAIN_ERR 1)) ∧
  (∀ (d : Dev) (m : Nat) (ch : Fin 64), d.mayFire m ch = false → Runs (.chainFire m ch) d (d.deny m true (denyAddr m R.CHAIN_FIRE))) ∧
  (∀ (d : Dev) (m : Nat) (k : Fin 32), d.heldLow R.CHAIN_FIRE_MULTI = none → d.mayFire m (32 + k) = true →
    Runs (.chainFireMulti m (BitVec.ofNat 32 (2 ^ k.val))) d ((d.publishCh (32 + k) 511 0).unhold R.CHAIN_FIRE_MULTI)) ∧
  (∀ (d : Dev) (m : Nat) (k : Fin 32), d.heldLow R.CHAIN_FIRE_MULTI = none → d.mayFire m (32 + k) = false →
    Runs (.chainFireMulti m (BitVec.ofNat 32 (2 ^ k.val))) d
      ((d.deny m true (denyAddr m R.CHAIN_FIRE_MULTI)).unhold R.CHAIN_FIRE_MULTI))

/-- A held event is published when its spacing ends; a write of CHAIN_IRQ_STATUS or CHAIN_IRQ_EN takes effect with its high word and sends the vectors of the bits still set in both again; a configuration write outside SERVICE by the owner of the channels concerned is written and by another master is denied; an enabled counter adds the events of an activation, clamped at 0xFFFFFF, and judges them after 1 ns; a clear and a software write set the count. -/
def Obligations.ChainRunsCommands : Prop :=
  (∀ (d : Dev) (ch : Fin 64) (src hop : Nat), (d.chan ch).held = some (src, hop) → (d.chan ch).freeAt ≤ d.now →
    Runs (.chainHeldPublish ch) d (d.publishNow ch src hop)) ∧
  (∀ (d : Dev) (v : Word), Runs (.chainIrqWrite false false v) d (d.hold R.CHAIN_IRQ_STATUS v) ∧
    Runs (.chainIrqWrite true false v) d (d.hold R.CHAIN_IRQ_EN v)) ∧
  (∀ (d : Dev) (v : Word), Runs (.chainIrqWrite false true v) d (d.plainWrite (R.CHAIN_IRQ_STATUS + 4) v).irqResend ∧
    Runs (.chainIrqWrite true true v) d (d.plainWrite (R.CHAIN_IRQ_EN + 4) v).irqResend) ∧
  (∀ (d : Dev) (m off : Nat) (v : Word), isChainConfig off = true → d.glb.mode ≠ .service →
    (∀ ch ∈ d.configNeeds off v, d.ownsCh m ch = true) → Runs (.chainConfigWrite m off v) d (d.plainWrite off v)) ∧
  (∀ (d : Dev) (m off : Nat) (v : Word) (ch : Nat), isChainConfig off = true → d.glb.mode ≠ .service →
    ch ∈ d.configNeeds off v → d.ownsCh m ch = false → Runs (.chainConfigWrite m off v) d (d.deny m true (denyAddr m off))) ∧
  (∀ (d d1 : Dev) (k : Fin 16) (a : Act), d.activate (Task.ctrInc k) = (some a, d1) →
    d1.f (R.CHAIN_CTR_CFG k) F.CHAIN_CTR_CFG_EN ≠ 0 → (d1.ctr k).window = false →
    Runs (.chainCtrInc k) d ((d1.sf (R.CHAIN_CTR_VAL k) ⟨0, 24⟩ (min (d1.f (R.CHAIN_CTR_VAL k) ⟨0, 24⟩ + a.n) 0xFFFFFF)).setCtr k
      { d1.ctr k with window := true, winAt := d1.now, winHop := a.hop, winCnt := a.n })) ∧
  (∀ (d d1 : Dev) (k : Fin 16) (a : Act), d.activate (Task.ctrClr k) = (some a, d1) → (d1.ctr k).window = false →
    Runs (.chainCtrClr k) d ((d1.sf (R.CHAIN_CTR_VAL k) ⟨0, 24⟩ 0).setCtr k { d1.ctr k with fired := false })) ∧
  (∀ (d : Dev) (k : Fin 16) (v : Word), (d.ctr k).window = false →
    Runs (.chainCtrValWrite k v) d ((d.sf (R.CHAIN_CTR_VAL k) ⟨0, 24⟩ (v.toNat % 2 ^ 24)).setCtr k { d.ctr k with fired := false })) ∧
  (∀ (d : Dev) (k : Fin 16), (d.ctr k).window = true → (d.ctr k).winAt + 1 ≤ d.now →
    max 1 (d.f (R.CHAIN_CTR_CFG k) F.CHAIN_CTR_CFG_THRESH) ≤ d.f (R.CHAIN_CTR_VAL k) ⟨0, 24⟩ →
    d.b (R.CHAIN_CTR_CFG k) F.CHAIN_CTR_CFG_RELOAD = false → (d.ctr k).fired = false →
    Runs (.chainCtrWindowEnd k) d (((d.setCtr k { d.ctr k with window := false }).setCtr k { d.ctr k with window := false, fired := true }).publish (Src.chainCtr k)
      ((d.ctr k).winHop + 1)))

/-- For every sample the step from the old phase to the new one is at most half a period either way and leads to the new phase; a step of exactly half a period goes forward while DIR_REV is 0 and backward while it is 1. -/
def Obligations.GaugeStepIsShorterWay : Prop :=
  ∀ (rev : Bool) (old new : Nat), old < 4096 → new < 4096 →
    -2048 ≤ phaseStep rev old new ∧ phaseStep rev old new ≤ 2048 ∧ ((old : Int) + phaseStep rev old new) % 4096 = (new : Int) ∧
    ((new + 4096 - old) % 4096 = 2048 → phaseStep rev old new = if rev then -2048 else 2048)

/-- A sample of an axis in RUN takes its count to the count that the phase or the edges give, whatever else the sample brings (marks, re-zeroes, scales, errors), leaves the axis in RUN, leaves the counts and states of the other axes, and leaves the Stash, the engines, the assembler, the camera connections and the rings alone. -/
def Obligations.GaugeSampleMovesCount : Prop :=
  ∀ (d : Dev) (a : Fin 4) (smp : EncSample), (d.axis a).state = .run →
    RunsTo (.gaugeSample a smp) d fun t => (t.axis a).c = ((d.axis a).advance smp).c ∧ (t.axis a).state = .run ∧
      (∀ b : Nat, b ≠ a → (t.axis b).c = (d.axis b).c ∧ (t.axis b).state = (d.axis b).state) ∧
      t.stash = d.stash ∧ t.ste = d.ste ∧ t.asm = d.asm ∧ t.cll = d.cll ∧ t.ts = d.ts

/-- A request to re-zero or to apply the scale is held for the next sample of an axis that is not OFF and a re-zero request is discarded in OFF; a snapshot request reaches every axis in RUN, and with none in RUN only the sequence counts; a load makes the written corrections those in use; a write of GAUGE_REF_CFG(a) re-arms ONCE. -/
def Obligations.GaugeReZeroAndScale : Prop :=
  (∀ (d : Dev) (a : Fin 4), (d.axis a).state ≠ .off → Runs (.gaugeAxisZero a) d (d.setAxis a { d.axis a with reqZero := true })) ∧
  (∀ (d : Dev) (a : Fin 4), (d.axis a).state = .off → Runs (.gaugeAxisZero a) d d) ∧
  (∀ (d d1 : Dev) (a : Fin 4) (x : Act), d.activate (Task.gaugeZero a) = (some x, d1) → (d1.axis a).state ≠ .off →
    Runs (.gaugeZero a) d (d1.setAxis a { d1.axis a with reqZero := true })) ∧
  (∀ (d : Dev) (a : Fin 4), (d.axis a).state ≠ .off → Runs (.scaleApply a) d (d.setAxis a { d.axis a with reqScale := true })) ∧
  (∀ (d : Dev), (∀ a : Nat, a < 4 → (d.axis a).state ≠ .run) → Runs .snapTake d (d.count R.GAUGE_SNAP_SEQ whole 1)) ∧
  (∀ (d : Dev) (a : Nat), a < 4 → (d.axis a).state = .run → (∀ b : Nat, b < 4 → b ≠ a → (d.axis b).state ≠ .run) →
    Runs .snapTake d (d.setAxis a { d.axis a with reqSnap := true })) ∧
  (∀ (d d1 : Dev) (x : Act), d.activate Task.gaugeSnap = (some x, d1) → (∀ a : Nat, a < 4 → (d1.axis a).state ≠ .run) →
    Runs .gaugeSnap d (d1.count R.GAUGE_SNAP_SEQ whole 1)) ∧
  (∀ (d : Dev) (a : Fin 4), Runs (.corrLoad a) d (d.setAxis a { d.axis a with corr :=
      { sinOfs := ((d.rd (R.GAUGE_CORR_OFS a)).extractLsb' 0 16).toInt, cosOfs := ((d.rd (R.GAUGE_CORR_OFS a)).extractLsb' 16 16).toInt,
        gain := ((d.rd (R.GAUGE_CORR_GP a)).extractLsb' 16 16).toNat,
        phase := ((d.rd (R.GAUGE_CORR_GP a)).extractLsb' 0 16).toInt } })) ∧
  (∀ (d : Dev) (a : Fin 4) (v : Word), Runs (.refCfgWrite a v) d ((d.plainWrite (R.GAUGE_REF_CFG a) v).modAxis a
      fun x => { x with refDone := false })) ∧
  (∀ (d : Dev) (a : Fin 4) (s : Smp) (l : List Smp), (d.axis a).smps = s :: l →
    Runs (.gaugeWpLowRead a) d
      { d.wr64 (R.GAUGE_WP_TS a) (wpWord s.ts) with
        latch := (d.latch.filter (fun p => p.1 ≠ R.GAUGE_WP a)) ++ [(R.GAUGE_WP a, (wpWord (d.axis a).wp).hi)],
        rdata := (wpWord (d.axis a).wp).lo })

/-- An axis that settles enters RUN when its time has come; an estimate of the corrections within their limits moves each by an eighth of the difference and one outside sets CORR_LIMIT; a run of 64 low samples is reported once with AMP_LOW and POS_UNCERTAIN; a position record hands the latest sample over; a quarter period moves the watch counter by one and an illegal transition sets WATCH_QERR; a step of the converter check goes on to the next and reports a deviation above the limit; a rise of EN starts SETTLE and a fall leads to OFF. -/
def Obligations.GaugeAxisLife : Prop :=
  (∀ (d : Dev) (a : Fin 4), (d.axis a).state = .run → 64 ≤ (d.axis a).lowRun → (d.axis a).lowSeen = false →
    Runs (.ampLowDetect a) d ((if d.b (R.GAUGE_ERR_MASK a) (bitF 2) then (d.setAxis a { d.axis a with lowSeen := true }).err 4 (R.GAUGE_ERR a) 2
      else ((d.setAxis a { d.axis a with lowSeen := true }).err 4 (R.GAUGE_ERR a) 2).publish (Src.gaugeErr a) 0).setUnc a)) ∧
  (∀ (d : Dev) (a : Fin 4) (e : Extremes) (est : Nat → Int), (d.axis a).ext = some e → 256 ≤ e.periods →
    d.b (R.GAUGE_AXIS_CFG a) F.GAUGE_AXIS_CFG_AUTOCORR = true → (d.axis a).state = .run → est = Config.corrEstimate e.sinMin e.sinMax e.cosMin e.cosMax →
    Runs (.corrEstimate a) d (if (est 0).natAbs ≤ 1024 ∧ (est 1).natAbs ≤ 1024 ∧ 26215 ≤ est 2 ∧ est 2 ≤ 40960 ∧ (est 3).natAbs ≤ 5719
      then (d.setAxis a { d.axis a with ext := none }).modAxis a fun y => { y with corr :=
        { sinOfs := (d.axis a).corr.sinOfs + (est 0 - (d.axis a).corr.sinOfs).tdiv 8, cosOfs := (d.axis a).corr.cosOfs + (est 1 - (d.axis a).corr.cosOfs).tdiv 8,
          gain := ((d.axis a).corr.gain + (est 2 - (d.axis a).corr.gain).tdiv 8).toNat, phase := (d.axis a).corr.phase + (est 3 - (d.axis a).corr.phase).tdiv 8 } }
      else (d.setAxis a { d.axis a with ext := none }).gaugeErr a 8)) ∧
  (∀ (d : Dev) (a : Fin 4) (s : Smp) (l : List Smp), (d.axis a).state = .run → (d.axis a).smps = s :: l →
    Runs (.positionRecord a) d (d.setAxis a { d.axis a with posRecs := { s with unc := (d.axis a).unc } :: (d.axis a).posRecs })) ∧
  (∀ (d : Dev) (a : Fin 4) (smp : EncSample), (d.axis a).state = .settle → d.due (.settle a) = true →
    RunsTo (.settleEnd a smp) d fun t => (t.axis a).state = .run ∧ (t.axis a).dirRev = false ∧ (t.axis a).still = false ∧
      (t.axis a).runAt = d.now ∧ (t.axis a).smps.length = 1) ∧
  (∀ (d : Dev) (a : Fin 4) (fwd : Bool), (d.axis a).state = .watch → d.b (R.GAUGE_WATCH a) F.GAUGE_WATCH_EN = true →
    (d.axis a).watchPub = true → Runs (.watchCountEdge a fwd false) d
      (d.wr (R.GAUGE_WATCH_CNT a) (BitVec.ofInt 32 ((d.rd (R.GAUGE_WATCH_CNT a)).toInt + if fwd then 1 else -1)))) ∧
  (∀ (d : Dev) (a : Fin 4) (fwd : Bool), (d.axis a).state = .watch → d.b (R.GAUGE_WATCH a) F.GAUGE_WATCH_EN = true →
    Runs (.watchCountEdge a fwd true) d ((d.setAxis a { d.axis a with watchErr := true }).gaugeErr a 6)) ∧
  (∀ (d : Dev) (lo hi : Int), d.gauge.checkOn = true → d.gauge.checkStep < 2 →
    Runs (.convCheckStep lo hi) d { d with gauge := { d.gauge with checkStep := d.gauge.checkStep + 1 } }) ∧
  (∀ (d : Dev) (v : Word), d.b R.GAUGE_CHECK_CFG F.GAUGE_CHECK_CFG_EN = false →
    (d.plainWrite R.GAUGE_CHECK_CFG v).b R.GAUGE_CHECK_CFG F.GAUGE_CHECK_CFG_EN = true →
    (d.plainWrite R.GAUGE_CHECK_CFG v).pwr.state = .active →
    Runs (.convCheckCfgWrite v) d { d.plainWrite R.GAUGE_CHECK_CFG v with
      gauge := { (d.plainWrite R.GAUGE_CHECK_CFG v).gauge with checkOn := true, checkStep := 0 } }) ∧
  (∀ (d : Dev) (a : Fin 4) (v : Word), d.b (R.GAUGE_AXIS_CFG a) F.GAUGE_AXIS_CFG_EN = false →
    fld ((d.plainWrite (R.GAUGE_AXIS_CFG a) v).rd (R.GAUGE_AXIS_CFG a)) F.GAUGE_AXIS_CFG_EN = 1 →
    fld ((d.plainWrite (R.GAUGE_AXIS_CFG a) v).rd (R.GAUGE_AXIS_CFG a)) F.GAUGE_AXIS_CFG_MODE = 1 →
    Runs (.axisEnable a v) d ((((d.plainWrite (R.GAUGE_AXIS_CFG a) v).setAxis a
      { (d.plainWrite (R.GAUGE_AXIS_CFG a) v).axis a with
        state := .settle, digital := true, wasWatch := false,
        rev := fld ((d.plainWrite (R.GAUGE_AXIS_CFG a) v).rd (R.GAUGE_AXIS_CFG a)) F.GAUGE_AXIS_CFG_DIR = 1 }).corrLoad a).arm
      (.settle a) (d.now + 1000))) ∧
  (∀ (d : Dev) (a : Fin 4) (v : Word), d.b (R.GAUGE_AXIS_CFG a) F.GAUGE_AXIS_CFG_EN = true →
    fld ((d.plainWrite (R.GAUGE_AXIS_CFG a) v).rd (R.GAUGE_AXIS_CFG a)) F.GAUGE_AXIS_CFG_EN = 0 →
    Runs (.axisDisable a v) d (((d.plainWrite (R.GAUGE_AXIS_CFG a) v).modAxis a
      fun x => { Axis.init with corr := x.corr, refDone := x.refDone }).disarm (.settle a)))

/-- A compare unit armed while no hold cause is present becomes ARMED at the start of its set, with AXIS and MODE sampled; STOP takes it to IDLE; an ARMED unit with a hold cause goes to HOLD; in IDLE and DONE a cycle changes nothing; in a cycle whose predicted position has reached the pending target and no earlier target waits, it fires. -/
def Obligations.CompareUnitsArmAndFire : Prop :=
  (∀ (d : Dev) (u : Fin 16) (set : Fin 2), (d.unit u).stopAt ≠ some d.now →
    (d.axis (fld (d.rd (R.TRIG_CMP_CFG u)) F.TRIG_CMP_CFG_AXIS)).state = .run →
    (d.axis (fld (d.rd (R.TRIG_CMP_CFG u)) F.TRIG_CMP_CFG_AXIS)).unc = false → d.pwr.state = .active →
    Runs (.trigCmpCtlArm u set) d (d.setUnit u { d.unit u with
      state := .armed, idx := 0, n := 0, wrap := 0, set := set, axis := fld (d.rd (R.TRIG_CMP_CFG u)) F.TRIG_CMP_CFG_AXIS,
      pitch := fld (d.rd (R.TRIG_CMP_CFG u)) F.TRIG_CMP_CFG_MODE = 1, hasHwm := false, first := true, armAt := none })) ∧
  (∀ (d d1 : Dev) (u : Fin 16) (a : Act), d.activate (Task.cmpArm u) = (some a, d1) → (d1.unit u).stopAt ≠ some d1.now →
    (d1.axis (fld (d1.rd (R.TRIG_CMP_CFG u)) F.TRIG_CMP_CFG_AXIS)).state = .run →
    (d1.axis (fld (d1.rd (R.TRIG_CMP_CFG u)) F.TRIG_CMP_CFG_AXIS)).unc = false → d1.pwr.state = .active →
    Runs (.trigCmpArm u) d (d1.setUnit u { d1.unit u with
      state := .armed, idx := 0, n := 0, wrap := 0, axis := fld (d1.rd (R.TRIG_CMP_CFG u)) F.TRIG_CMP_CFG_AXIS,
      pitch := fld (d1.rd (R.TRIG_CMP_CFG u)) F.TRIG_CMP_CFG_MODE = 1, hasHwm := false, first := true,
      armAt := some (d1.now, a.hop) })) ∧
  (∀ (d : Dev) (u : Fin 16), Runs (.trigCmpCtlStop u) d (d.setUnit u { d.unit u with state := .idle, stopAt := some d.now })) ∧
  (∀ (d d1 : Dev) (u : Fin 16) (a : Act), d.activate (Task.cmpStop u) = (some a, d1) →
    Runs (.trigCmpStop u) d (d1.setUnit u { d1.unit u with state := .idle, stopAt := some d1.now })) ∧
  (∀ (d : Dev) (u : Fin 16), (d.unit u).state = .idle ∨ (d.unit u).state = .done → Runs (.cmpCycle u) d d) ∧
  (∀ (d : Dev) (u : Fin 16), (d.unit u).state = .armed → (d.axis (d.unit u).axis).state ≠ .run →
    Runs (.cmpCycle u) d (d.setUnit u { d.unit u with state := .hold })) ∧
  (∀ (d : Dev) (u : Fin 16) (smp : Smp) (t : Int), (d.unit u).state = .armed → d.holdCause u (d.unit u) = false →
    d.sampleNow (d.unit u).axis = some smp → d.job.swaps = [] → (d.unit u).first = false → d.target u (d.unit u) = some t →
    (d.unit u).hwm < t → t ≤ smp.predict ((d.ts : Int) + 7 + d.lead u) →
    Runs (.cmpCycle u) d (let p := smp.predict ((d.ts : Int) + 7 + d.lead u)
      let d1 := Dev.cycleTargets u smp (d.unit u).hwm p 17 16 true (d.fire u smp p false)
      (d1.setUnit u { d1.unit u with hwm := max (d.unit u).hwm p, hasHwm := true, first := false }).doneCheck u))

/-- An activation of an enabled pulse output that is at rest raises the pin 4 ns later for its width and writes the ledgers of its cameras; the pulse ends with the pin inactive; an edge at an enabled input starts the filter, a return is a glitch, and an edge that has held FILTER nanoseconds is captured, counted and published; the high word of a list entry makes the entry take effect in the list that the window selects. -/
def Obligations.TriggerPinsAndInputs : Prop :=
  (∀ (d d1 : Dev) (p : Fin 32) (a : Act), d.activate (Task.trigOut p) = (some a, d1) → d1.outHighZ p = false →
    fld (d1.rd (R.TRIG_OUT_CFG p)) F.TRIG_OUT_CFG_MODE = 0 → (d1.pin p).pulse = false →
    d1.pwr.state ≠ .watch → Runs (.trigOut p) d (((d1.setPin p { d1.pin p with pulse := true, endAt := d1.now + 4 + width (d1.rd (R.TRIG_OUT_CFG p)) }).emit
      (.trigPin p (d1.outLevel p true) (d1.now + 4))).ledgerAll 1 p (d1.fireOf a) ((d1.ts : Int) + 4))) ∧
  (∀ (d : Dev) (p : Fin 32), (d.pin p).pulse = true → (d.pin p).endAt ≤ d.now → d.outHighZ p = false →
    Runs (.trigOutPulseEnd p) d ((d.setPin p { d.pin p with pulse := false }).emit
      (.trigPin p ((d.setPin p { d.pin p with pulse := false }).outLevel p false) d.now))) ∧
  (∀ (d : Dev) (p : Fin 32) (v : Word),
    fld (d.rd (R.TRIG_OUT_CFG p)) F.TRIG_OUT_CFG_MODE ≠ fld ((d.plainWrite (R.TRIG_OUT_CFG p) v).rd (R.TRIG_OUT_CFG p)) F.TRIG_OUT_CFG_MODE →
    ((d.plainWrite (R.TRIG_OUT_CFG p) v).setPin p TrigPin.init).outHighZ p = true →
    Runs (.trigOutModeWrite p v) d ((d.plainWrite (R.TRIG_OUT_CFG p) v).setPin p TrigPin.init)) ∧
  (∀ (d : Dev) (b : Fin 6) (sup : BankSupply),
    (∀ k : Nat, k < 6 → ({ d with trig := { d.trig with supply := d.trig.supply.set (fun _ => BankSupply.absent) b sup } } : Dev).bankMismatch k = false) →
    Runs (.bankSupplyChange b sup) d
      { d with trig := { d.trig with supply := d.trig.supply.set (fun _ => BankSupply.absent) b sup } }) ∧
  (∀ (d : Dev) (k : Fin 16) (level : Bool), (d.trigInput k).level = !level → d.b (R.TRIG_IN_CFG k) F.TRIG_IN_CFG_EN = true →
    d.bankMismatch (4 + k / 8) = false → (d.trigInput k).accepted = !level →
    Runs (.trigInEdge k level) d (d.setTrigInput k { d.trigInput k with level := level, since := some (d.now, d.ts) })) ∧
  (∀ (d : Dev) (k : Fin 16) (t0 ts0 : Nat), (d.trigInput k).since = some (t0, ts0) →
    t0 + fld (d.rd (R.TRIG_IN_CFG k)) F.TRIG_IN_CFG_FILTER ≤ d.now → edgeWanted (d.rd (R.TRIG_IN_CFG k)) (d.trigInput k).level = false →
    Runs (.trigInAccept k) d (d.setTrigInput k { d.trigInput k with accepted := (d.trigInput k).level, since := none })) ∧
  (∀ (d t : Dev) (k : Fin 16) (t0 ts0 : Nat), (d.trigInput k).since = some (t0, ts0) →
    t0 + fld (d.rd (R.TRIG_IN_CFG k)) F.TRIG_IN_CFG_FILTER ≤ d.now → edgeWanted (d.rd (R.TRIG_IN_CFG k)) (d.trigInput k).level = true →
    t = ((((d.setTrigInput k { d.trigInput k with accepted := (d.trigInput k).level, since := none }).wr64 (R.TRIG_IN_CAP_WP k)
        (wpWord ((d.extrapolate (fld (d.rd (R.TRIG_IN_CFG k)) F.TRIG_IN_CFG_AXIS) ts0).1 / 65536))).wr64 (R.TRIG_IN_CAP_TS k)
        (wpWord ts0)).bump (R.TRIG_IN_CNT k) F.TRIG_IN_CNT_EDGE_CNT 1).publish (Src.trigIn k) 0 →
    t.ledgerCams 3 k = [] → fld (d.rd (R.TRIG_IN_CFG k)) F.TRIG_IN_CFG_EN ≠ 0 → d.bankMismatch (4 + k / 8) = false → Runs (.trigInAccept k) d t) ∧
  (∀ (d : Dev) (i : Fin 4096) (v : Word), Runs (.trigListWrite i false v) d (d.hold (R.TRIG_LIST i) v)) ∧
  (∀ (d : Dev) (i : Fin 4096) (lo v : Word), d.heldLow (R.TRIG_LIST i) = some lo →
    Runs (.trigListWrite i true v) d (let key := d.f R.TRIG_LIST_SEL F.TRIG_LIST_SEL_UNIT * 8192 + d.f R.TRIG_LIST_SEL F.TRIG_LIST_SEL_SET * 4096 + i.val
      { d.unhold (R.TRIG_LIST i) with trig := { d.trig with lists := d.trig.lists.set (fun _ => 0) key (dword v lo) } }))

/-- An activation of an enabled packet input whose connection may send schedules a rising-edge packet at the placement instant; where the connection may not send it is dropped and counted; a scheduled packet starts with the delay that reaches its placement instant and writes the ledgers; a falling packet likewise, without the ledger. -/
def Obligations.TriggerPackets : Prop :=
  (∀ (d d1 : Dev) (n : Fin 48) (a : Act) (u : Nat) (f : Fire), d.activate (Task.trigPkt n) = (some a, d1) →
    d1.b (R.TRIG_PKT_CFG n) F.TRIG_PKT_CFG_EN = true → d1.packetAllowed n = true → d1.fireOf a = some (u, f) →
    Runs (.trigPkt n) d (d1.setPkt n { d1.pkt n with rising := (d1.pkt n).rising ++ [{ place := f.ts, fire := some (u, f) }] })) ∧
  (∀ (d d1 : Dev) (n : Fin 48) (a : Act), d.activate (Task.trigPkt n) = (some a, d1) →
    d1.b (R.TRIG_PKT_CFG n) F.TRIG_PKT_CFG_EN = true → d1.packetAllowed n = false →
    Runs (.trigPkt n) d ((d1.bump (R.TRIG_PKT_CNT n) F.TRIG_PKT_CNT_DROP_CNT 1).trigErr 4)) ∧
  (∀ (d : Dev) (n : Fin 48) (ref : Int) (p : PktDue) (rest : List PktDue), (d.pkt n).rising = p :: rest → d.packetAllowed n = true →
    ref ≤ p.place → delayField (p.place - ref) ≤ Config.trigDelayMax → fld (d.rd (R.TRIG_PKT_CFG n)) F.TRIG_PKT_CFG_POL_EDGES = 0 →
    Runs (.trigPktStart n ref) d (((d.setPkt n { rising := rest, falling := (d.pkt n).falling }).emit
      (.trigPacket n true (delayField (p.place - ref)))).ledgerAll 2 n p.fire p.place)) ∧
  (∀ (d : Dev) (n : Fin 48) (ref place : Int) (rest : List Int), (d.pkt n).falling = place :: rest → d.packetAllowed n = true →
    ref ≤ place → delayField (place - ref) ≤ Config.trigDelayMax →
    Runs (.trigPktFall n ref) d ((d.setPkt n { d.pkt n with falling := rest }).emit (.trigPacket n false (delayField (place - ref)))))

/-- Writing an entry into a ledger of at most 1,024 entries leaves at most 1,024: the new entry, with the next sequence number, stands last, the others keep their order, and the oldest is discarded, and the new entry marked, exactly when the ledger was full; the ledgers of other cameras are unchanged. -/
def Obligations.LedgerKeepsNewestEntries : Prop :=
  ∀ (d : Dev) (cam : Nat) (e : LedgerEntry), (d.ledger cam).entries.length ≤ 1024 →
    ((d.ledgerWrite cam e).ledger cam).entries.length ≤ 1024 ∧
    ((d.ledgerWrite cam e).ledger cam).entries =
      (if (d.ledger cam).entries.length = 1024 then (d.ledger cam).entries.drop 1 else (d.ledger cam).entries) ++
        [{ e with seq := (d.ledger cam).seq, lost := (d.ledger cam).lost || decide ((d.ledger cam).entries.length = 1024) }] ∧
    ((d.ledgerWrite cam e).ledger cam).seq = ((d.ledger cam).seq + 1) % 2 ^ 32 ∧
    ∀ k : Nat, k ≠ cam → (d.ledgerWrite cam e).ledger k = d.ledger k

/-- A rise of EN leads from OFF to ABSENT, a fall to OFF; a tick takes ABSENT connections with signal to DISCOVER; a detected rate is taken, none is a loss of lock; commas align, in DISCOVER starting the first step of discovery and in UP ending a loss; LOS in UP is counted and timed and takes a discovering connection to ABSENT; a loss of 1 ms leads to ABSENT or DISCOVER; a discovery of 1 s without a group and a training of 100 ms fail. -/
def Obligations.ConnectionStatesChange : Prop :=
  (∀ (d : Dev) (n : Fin 48) (v : Word), d.b (R.CLL_CFG n) F.CLL_CFG_EN = false →
    (d.plainWrite (R.CLL_CFG n) v).b (R.CLL_CFG n) F.CLL_CFG_EN = true →
    ((d.plainWrite (R.CLL_CFG n) v).toState .absent n).ts % 250000000 ≠ 0 →
    Runs (.cllEnable n v) d ((d.plainWrite (R.CLL_CFG n) v).toState .absent n)) ∧
  (∀ (d : Dev) (n : Fin 48) (v : Word), d.b (R.CLL_CFG n) F.CLL_CFG_EN = true →
    (d.plainWrite (R.CLL_CFG n) v).b (R.CLL_CFG n) F.CLL_CFG_EN = false →
    Runs (.cllDisable n v) d ((d.plainWrite (R.CLL_CFG n) v).withPresent n fun y => y.toState .off n)) ∧
  (∀ (d : Dev), d.ts % 250000000 = 0 → d.pwr.state = .active →
    Runs .discoveryTick d ((List.range 48).foldl (fun (x : Dev) n =>
      if (x.conn n).state = .absent ∧ !(x.conn n).los then x.toState .discover n else x) d)) ∧
  (∀ (d : Dev) (n : Fin 48) (r : Fin 7), (d.conn n).state = .discover → (d.conn n).los = false →
    Runs (.rateDetectDone n (some r)) d (d.setConn n { d.conn n with rate := r })) ∧
  (∀ (d : Dev) (n : Fin 48), (d.conn n).state = .discover → (d.conn n).los = false →
    Runs (.rateDetectDone n none) d (d.setConn n { d.conn n with locked := false, aligned := false, lolAt := some d.now })) ∧
  (∀ (d : Dev) (n : Fin 48), (d.conn n).state = .discover → (d.conn n).los = false → Runs (.cdrLock n) d (d.setConn n { d.conn n with locked := true })) ∧
  (∀ (d : Dev) (n : Fin 48), (d.conn n).state = .discover → (d.conn n).locked = true → (d.conn n).los = false →
    (d.conn n).disc = none → (d.conn n).cmd = none → (d.conn n).joined = false →
    Runs (.alignAcquire n) d ((d.setConn n { d.conn n with aligned := true }).modConn n fun y => { y with disc := some .standard })) ∧
  (∀ (d : Dev) (n : Fin 48), (d.conn n).state = .up → (d.conn n).locked = true → (d.conn n).los = false →
    Runs (.alignAcquire n) d ((d.setConn n { d.conn n with aligned := true }).lossEnd n)) ∧
  (∀ (d : Dev) (n : Fin 48), (d.conn n).aligned = true → (d.conn n).state = .up →
    Runs (.commaRealign n) d ((((d.setConn n { d.conn n with aligned := false }).bump (R.CLL_CNT2 n) F.CLL_CNT2_ALIGN_LOSS_CNT 1).cllErr n 2).lossStart n)) ∧
  (∀ (d : Dev) (n : Fin 48), (d.conn n).state = .up → (d.conn n).los = false →
    Runs (.losAssert n) d (d.withPresent n fun d => (((d.setConn n { d.conn n with los := true, locked := false, aligned := false }).bump
      (R.CLL_CNT1 n) F.CLL_CNT1_LOS_CNT 1).cllErr n 0).lossStart n)) ∧
  (∀ (d : Dev) (n : Fin 48), (d.conn n).state = .discover → (d.conn n).los = false →
    Runs (.losAssert n) d (d.withPresent n fun d =>
      (d.setConn n { d.conn n with los := true, locked := false, aligned := false }).toState .absent n)) ∧
  (∀ (d : Dev) (n : Fin 48), (d.conn n).state = .absent →
    Runs (.losDeassert n) d (d.withPresent n fun d => d.setConn n { d.conn n with los := false })) ∧
  (∀ (d : Dev) (n : Fin 48), (d.conn n).state = .up →
    Runs (.lossOfLock n) d ((((d.setConn n { d.conn n with locked := false, aligned := false, lolAt := some d.now }).bump
      (R.CLL_CNT1 n) F.CLL_CNT1_LOL_CNT 1).cllErr n 1).lossStart n)) ∧
  (∀ (d : Dev) (n : Fin 48), d.due (.loss n) = true → (d.conn n).state = .up → (d.conn n).los = true →
    (d.disarm (.loss n)).members (d.conn n).master = [n.val] →
    Runs (.lossTimeout n) d ((d.disarm (.loss n)).toState .absent n)) ∧
  (∀ (d : Dev) (n : Fin 48), (d.conn n).state = .up →
    Runs (.rxCodeError n true) d ((d.bump (R.CLL_CNT0 n) F.CLL_CNT0_DISP_ERR_CNT 1).cllErr n 3)) ∧
  (∀ (d : Dev) (n : Fin 48), (d.conn n).state = .up →
    Runs (.rxCodeError n false) d ((d.bump (R.CLL_CNT0 n) F.CLL_CNT0_CODE_ERR_CNT 1).cllErr n 3)) ∧
  (∀ (d : Dev) (n : Fin 48), (d.conn n).state = .discover → (d.conn n).joined = false → d.due (.discover n) = true →
    Runs (.discoverTimeout n) d (((d.bump (R.CLL_CNT2 n) F.CLL_CNT2_DISC_FAIL_CNT 1).cllErr n 4).toState .absent n)) ∧
  (∀ (d : Dev) (n : Fin 48), (d.conn n).state = .train → d.due (.train n) = true → d.members (d.conn n).master = [n.val] →
    Runs (.trainTimeout n) d (((d.bump (R.CLL_CNT2 n) F.CLL_CNT2_DISC_FAIL_CNT 1).cllErr n 4).toState .absent n)) ∧
  (∀ (d : Dev) (n : Fin 48), (d.conn n).state = .standby → Runs (.standbyPacketWake n) d (d.toState .up n))

/-- When the master has waited, the connection count is the largest of 1, 2, 4 and 8 that has joined within the camera limit and the Connection Config write is due; STANDBY, PARK, WAKE and RETRAIN act on the whole group of a master and are refused to others; a power fault, its retries and their reset follow R210 and R211; a heartbeat is recorded and its absence reported; an event packet is staged, counted and published; a panel frame is sent. -/
def Obligations.ConnectionRequestsPowerEvents : Prop :=
  (∀ (d : Dev) (n : Fin 48), d.due (.joinWait n) = true → (d.conn n).state = .discover → d.isMaster n = true → d.members n = [n.val] →
    (d.conn n).cap = 1 → fld (d.rd (R.CLL_CFG n)) F.CLL_CFG_CHK = 0 → (d.conn n).devId = 0 →
    Runs (.groupJoinWaitEnd n) d ((((d.disarm (.joinWait n)).setConn n { d.conn n with count := 1, cap := 1 }).wr (R.CLL_GROUP n)
      (BitVec.ofNat 32 (2 ^ 31 + n * 2 ^ 24 + 1 * 2 ^ 12 + 1 * 2 ^ 8))).modConn n
      fun y => { y with disc := some .cfgWrite, maxRate := min (d.rateMax n) (d.conn n).maxRate })) ∧
  (∀ (d : Dev) (n : Fin 48), d.isMaster n = true → (d.conn n).state = .up →
    Runs (.standby n) d ((d.usedMembers n).foldl (fun (x : Dev) k => if (x.conn k).state = .up then x.toState .standby k else x) d)) ∧
  (∀ (d : Dev) (n : Fin 48), d.isMaster n = false → Runs (.standby n) d (d.cllErr n 10) ∧ Runs (.park n) d (d.cllErr n 10) ∧
    Runs (.wake n) d (d.cllErr n 10) ∧ Runs (.retrain n) d (d.cllErr n 10)) ∧
  (∀ (d : Dev) (n : Fin 48), d.isMaster n = true → (d.conn n).state = .up →
    Runs (.park n) d ((d.usedMembers n).foldl (fun (x : Dev) k => if (x.conn k).state.live then x.toState .park k else x) d)) ∧
  (∀ (d : Dev) (n : Fin 48), d.isMaster n = true → (d.conn n).state = .standby →
    Runs (.wake n) d ((d.usedMembers n).foldl (fun (x : Dev) k => if (x.conn k).state = .standby then x.toState .up k else x) d)) ∧
  (∀ (d : Dev) (n : Fin 48), d.isMaster n = true → (d.conn n).state = .park →
    Runs (.wake n) d ((d.usedMembers n).foldl (fun (x : Dev) k => if (x.conn k).state = .park then
      (x.modConn k fun y => { y with waking := true }).arm (.loss k) (x.now + 1000000) else x) d)) ∧
  (∀ (d : Dev) (n : Fin 48), d.isMaster n = true → (d.conn n).state = .up →
    Runs (.retrain n) d ((d.members n).foldl (fun (x : Dev) k => x.toState .discover k) d)) ∧
  (∀ (d : Dev) (n : Fin 48), Runs (.pwrReset n) d ((((d.modConn n fun x => { x with fault := false, fltPin := false, retries := 0 }).disarm
      (.pwrRetry n)).disarm (.pwrClear n)).powerUpdate n)) ∧
  (∀ (d : Dev) (n : Fin 48) (v : Word), d.b (R.CLL_PWR n) F.CLL_PWR_EN = true → Runs (.pocxpEnWrite n v) d ((d.plainWrite (R.CLL_PWR n) v).powerUpdate n)) ∧
  (∀ (d : Dev) (n : Fin 48) (v : Word), d.b (R.CLL_PWR n) F.CLL_PWR_EN = false → (d.plainWrite (R.CLL_PWR n) v).b (R.CLL_PWR n) F.CLL_PWR_EN = true →
    Runs (.pocxpEnWrite n v) d ((d.plainWrite (R.CLL_PWR n) v).powerClear n)) ∧
  (∀ (d : Dev) (n : Fin 48), (d.conn n).pwrOn = true → Runs (.pocxpFaultPin n) d ((d.modConn n fun x => { x with fltPin := true }).powerFault n false)) ∧
  (∀ (d : Dev) (n : Fin 48), (d.conn n).fault = true → d.due (.pwrRetry n) = true → fld (d.rd (R.CLL_PWR n)) F.CLL_PWR_AUTO_RETRY = 1 →
    (d.conn n).retries < fld (d.rd (R.CLL_PWR n)) F.CLL_PWR_RETRY_MAX →
    Runs (.pocxpRetry n) d (((d.setConn n { d.conn n with fault := false, fltPin := false, retries := (d.conn n).retries + 1 }).disarm
      (.pwrRetry n)).powerUpdate n)) ∧
  (∀ (d : Dev) (n : Fin 48), d.due (.pwrClear n) = true → (d.conn n).fault = false →
    Runs (.pocxpRetryReset n) d ((d.modConn n fun x => { x with retries := 0 }).disarm (.pwrClear n))) ∧
  (∀ (d : Dev) (n : Fin 48) (time : DWord), (d.conn n).state = .up →
    Runs (.heartbeatReceive n true time) d (((d.wr64 (R.CLL_HB_TIME n) time).wr64 (R.CLL_HB_TS n) (BitVec.ofNat 64 d.ts)).arm (.hb n) d.now)) ∧
  (∀ (d : Dev) (n : Fin 48) (t0 : Nat), d.timer (.hb n) = some t0 → d.f (R.CLL_CFG n) F.CLL_CFG_HB_TMO ≠ 0 → (d.conn n).state = .up →
    t0 + d.f (R.CLL_CFG n) F.CLL_CFG_HB_TMO * 1000000 ≤ d.now → Runs (.hbLost n) d ((d.cllErr n 7).arm (.hb n) d.now)) ∧
  (∀ (d : Dev) (n : Fin 48) (data : List Byte), (d.conn n).state = .up →
    ((d.conn n).events.map (fun e => e.2.length)).sum + data.length ≤ 2048 →
    Runs (.eventPacketReceive n true data) d (((d.setConn n { d.conn n with events := (d.conn n).events ++ [(d.ts, data)] }).count
      (R.CLL_EVT_CNT n) whole 1).publish (Src.cllEvent n) 0)) ∧
  (∀ (d : Dev) (b : BitVec 48), d.b R.CLL_PNL_CFG F.CLL_PNL_CFG_EN = true → d.pwr.state = .active →
    Runs (.panelFrame b) d ((List.range 48).foldl (fun (x : Dev) n => x.buttonFrame n (b.getLsbD n == d.b R.CLL_PNL_CFG F.CLL_PNL_CFG_BTN_POL))
      (d.emit (.panel ((List.range 48).map (fun n => d.indicatorBits n * 4 ^ n)).sum))))

/-- A waiting mailbox command of a live master starts when nothing is outstanding, with 200 ms for its acknowledgement and 10 s in all; a final acknowledgement of a write ends it with result 0 and a timeout with result 1; GO captures the command and sets BUSY, and on a connection that is no live master ends with result 3. -/
def Obligations.ControlCommandsRun : Prop :=
  (∀ (d : Dev) (n : Fin 48) (m : MailCmd), (d.conn n).cmd = none → d.pwr.state = .active → (d.conn n).setQ = [] → (d.conn n).disc = none →
    (d.conn n).mailbox = some m → (d.conn n).state = .up → d.isMaster n = true →
    Runs (.ctrlCommandStart n) d ((((d.modConn n fun x => { x with cmd := some .mailbox, cmdAt := d.now }).arm (.ctrl n) (d.now + 200000000)).arm
      (.ctrlEnd n) (d.now + 10000000000)).emit (.control n m.write m.addr m.size m.data))) ∧
  (∀ (d : Dev) (n : Fin 48) (m : MailCmd) (a : ControlAck), (d.conn n).cmd = some .mailbox → (d.conn n).mailbox = some m → m.write = true →
    a.crcOk = true → a.wait = false → a.fits = true → a.code = 0 →
    Runs (.ctrlAckReceive n a) d (((d.ctrlDone n).sf (R.CLL_CTRL_STATUS n) F.CLL_CTRL_STATUS_ACK_CODE 0).mailboxEnd n 0)) ∧
  (∀ (d : Dev) (n : Fin 48), (d.conn n).cmd = some .mailbox → d.due (.ctrl n) = true →
    Runs (.ctrlTimeout n) d (((d.ctrlDone n).bump (R.CLL_CNT3 n) F.CLL_CNT3_CTRL_TMO_CNT 1).mailboxEnd n 1)) ∧
  (∀ (d : Dev) (n : Fin 48) (v w : Word), v ||| 0x80000000 = w → fld w F.CLL_CTRL_CMD_GO = 1 →
    d.b (R.CLL_CTRL_STATUS n) F.CLL_CTRL_STATUS_BUSY = false →
    d.isMaster n = false → Runs (.mailboxGo n v) d ((d.plainWrite (R.CLL_CTRL_CMD n) w).mailboxEnd n 3)) ∧
  (∀ (d d1 : Dev) (n : Fin 48) (v w : Word), v ||| 0x80000000 = w → d.plainWrite (R.CLL_CTRL_CMD n) w = d1 →
    fld w F.CLL_CTRL_CMD_GO = 1 → d.b (R.CLL_CTRL_STATUS n) F.CLL_CTRL_STATUS_BUSY = false →
    d.isMaster n = true → (d.conn n).state = .up → fld w F.CLL_CTRL_CMD_SIZE = 4 → fld w F.CLL_CTRL_CMD_WRITE = 1 →
    Runs (.mailboxGo n v) d ((((d1.modConn n fun x => { x with mailbox := some (MailCmd.mk true (d1.rd (R.CLL_CTRL_ADDR n)).toNat 4
          (leBytes 4 (d1.rd (R.CLL_CTRL_BUF n 0)).toNat)) }).sb (R.CLL_CTRL_STATUS n) F.CLL_CTRL_STATUS_BUSY true).sf
      (R.CLL_CTRL_STATUS n) F.CLL_CTRL_STATUS_ACK_CODE 0).sf (R.CLL_CTRL_STATUS n) F.CLL_CTRL_STATUS_WAITS 0))

/-- If the event packets staged on every connection take at most 2,048 bytes, they still do after any event packet, whatever its size, its CRC and the state of its connection. -/
def Obligations.EventBufferNeverOverflows : Prop :=
  ∀ (d : Dev) (n : Fin 48) (ok : Bool) (data : List Byte),
    (∀ k : Nat, ((d.conn k).events.map (fun e => e.2.length)).sum ≤ 2048) →
    RunsTo (.eventPacketReceive n ok data) d fun t => ∀ k : Nat, ((t.conn k).events.map (fun e => e.2.length)).sum ≤ 2048

/-- A good packet with space is committed as one unit behind those that stand there and one with a bad CRC is frogged and counted; the packet that becomes visible to an enabled camera with no packet waiting is taken at once; when the merge wait ends the missing tag is given up and the waiting packets go on; a pointer fault and QRESET reset the queue, and the reset ends; a close request marks the open frame, FLUSH empties the ledger; EN starts and stops a camera. -/
def Obligations.PlyAndAssemblerRun : Prop :=
  (∀ (d d0 : Dev) (q : Fin 48) (k : StreamPacket) (span : Nat), (d.conn q).state = .up → (d.ply q).resetting = false →
    d0 = d.modConn q (fun y => { y with streamAt := some d.now }) →
    max 4 (d0.f (R.ASM_Q_CFG q) F.ASM_Q_CFG_FORFEIT) * 32 + packetEntries k ≤ (d.ply q).free → k.bytes ≤ 16384 →
    Runs (.plyPacketCommit q k true false span) d ((d0.setPly q { d.ply q with
      commit := (d.ply q).commit + packetEntries k,
      packets := (d.ply q).packets ++ [PlyPacket.mk (d.ply q).commit (packetEntries k) ((d.ts : Int) - span) 0 false k] }).plyHwm q)) ∧
  (∀ (d d0 : Dev) (q : Fin 48) (k : StreamPacket) (cut : Bool) (span : Nat), (d.conn q).state = .up → (d.ply q).resetting = false →
    d0 = d.modConn q (fun y => { y with streamAt := some d.now }) →
    max 4 (d0.f (R.ASM_Q_CFG q) F.ASM_Q_CFG_FORFEIT) * 32 + packetEntries k ≤ (d.ply q).free →
    Runs (.plyPacketCommit q k false cut span) d ((d0.bump (R.ASM_CNT0 q) F.ASM_CNT0_FROG_CNT 1).asmErr q 10)) ∧
  (∀ (d : Dev) (q : Fin 48) (room : Bool) (cam : Nat) (p : PlyPacket), d.camOfQueue q = some cam → p.pkt.imageId = true →
    (d.asmCam cam).waiting = [] → (d.asmCam cam).expected = none → (d.ply q).packets.find? (fun k => !k.taken) = some p →
    Runs (.asmPacketVisible q room) d ((((d.setAsmCam cam { d.asmCam cam with waiting := [(q.val, d.now, p)], expected := some (p.pkt.tag % 256) }).setAsmCam
      cam { d.asmCam cam with waiting := [], expected := some ((p.pkt.tag % 256 + 1) % 256) }).takePacket cam q p room).taken q p.start (some cam)
        |>.mergeTimer cam)) ∧
  (∀ (d : Dev) (cam : Fin 48) (room : Bool) (e : Nat) (w : Nat × Nat × PlyPacket), (d.asmCam cam).expected = some e → (d.asmCam cam).waiting = [w] →
    d.due (.mergeSkew cam) = true → tagAfter w.2.2.pkt.tag e = 1 →
    Runs (.mergeSkewExpire cam room) d ((((d.missPacket cam w.2.2.ts room).modAsmCam cam fun y =>
      { y with expected := some ((e + 1) % 256) }).mergeReady cam room 1).mergeTimer cam)) ∧
  (∀ (d : Dev) (q : Fin 48) (room : Bool), Runs (.ptrFault q room) d (((d.plyReset q room).bump (R.ASM_CNT1 q) F.ASM_CNT1_PTR_RESET_CNT 1).asmErr q 1)) ∧
  (∀ (d : Dev) (q : Fin 48), Runs (.queueResetEnd q) d (d.setPly q { d.ply q with resetting := false })) ∧
  (∀ (d : Dev) (q : Fin 48) (room : Bool), Runs (.qreset q room) d (d.plyReset q room)) ∧
  (∀ (d : Dev) (cam : Fin 48), Runs (.close cam) d (d.setAsmCam cam { d.asmCam cam with closeReq := (d.asmCam cam).openF.isSome })) ∧
  (∀ (d : Dev) (cam : Fin 48), Runs (.flush cam) d ((d.setLedger cam { d.ledger cam with entries := [] }).modAsmCam cam
      fun x => { x with orderUnc := false })) ∧
  (∀ (d d1 : Dev) (cam : Fin 48) (a : Act), d.activate (Task.asmClose cam) = (some a, d1) →
    Runs (.asmClose cam) d (d1.setAsmCam cam { d1.asmCam cam with closeReq := (d1.asmCam cam).openF.isSome })) ∧
  (∀ (d d1 : Dev) (cam : Fin 48) (v : Word), d1 = d.plainWrite (R.ASM_CAM_CFG cam) (v ||| 0x80000000) → d.b (R.ASM_CAM_CFG cam) F.ASM_CAM_CFG_EN = false →
    d1.b (R.ASM_CAM_CFG cam) F.ASM_CAM_CFG_EN = true → Runs (.asmCamEnable cam v) d (d1.camEnable cam)) ∧
  (∀ (d d1 : Dev) (cam : Fin 48) (v : Word) (room : Bool), d1 = d.plainWrite (R.ASM_CAM_CFG cam) (v &&& 0x7FFFFFFF) →
    d.b (R.ASM_CAM_CFG cam) F.ASM_CAM_CFG_EN = true → d1.b (R.ASM_CAM_CFG cam) F.ASM_CAM_CFG_EN = false →
    Runs (.asmCamDisable cam v room) d (d1.camDisable cam room))

/-- The entries that the loop of R255 skips, the one it takes, if any, and those it leaves are together the ledger in its order; it skips only entries more than LAT_MAX before the arrival, and the one it takes is at least LAT_MIN and, where LAT_MAX is not 0, at most LAT_MAX before it. -/
def Obligations.LedgerMatchLosesNothing : Prop :=
  ∀ (lo hi : Nat) (t : Int) (es : List LedgerEntry),
    (matchLoop lo hi t es).1 ++ (matchLoop lo hi t es).2.1.toList ++ (matchLoop lo hi t es).2.2 = es ∧
    (∀ e ∈ (matchLoop lo hi t es).1, hi ≠ 0 ∧ e.ts + hi < t) ∧
    (∀ e : LedgerEntry, (matchLoop lo hi t es).2.1 = some e → e.ts ≤ t - lo ∧ (hi ≠ 0 → t ≤ e.ts + hi))

/-- A set that R299 refuses changes only its RESULT and an accepted one is pending with the next PSID; a pending set whose window is open starts; a Carriage takes the next line that crossed, a closed frame ends with its outputs, statistics are handed over; a memory-mode Carriage takes the oldest frame; the newest parameter block is preloaded; a reset drops the frame and the counters; at the end of a usable repeat a swatching camera has one more good repeat. -/
def Obligations.ParameterSetsAndCarriages : Prop :=
  (∀ (d d1 : Dev) (cam : Fin 48) (v w : Word), v ||| 0x80000000 = w → d1 = d.plainWrite (R.CAR_SET_CTL cam) w → fld w F.CAR_SET_CTL_GO = 1 →
    fld (d1.rd (R.CAR_MDL_CFG cam)) F.CAR_MDL_CFG_EN = 0 → Runs (.carSetGo cam v) d (d1.sf (R.CAR_SET_STATUS cam) F.CAR_SET_STATUS_RESULT 3)) ∧
  (∀ (d d1 : Dev) (cam : Fin 48) (v w : Word), v ||| 0x80000000 = w → d1 = d.plainWrite (R.CAR_SET_CTL cam) w → fld w F.CAR_SET_CTL_GO = 1 →
    fld w F.CAR_SET_CTL_COUNT = 0 → fld (d1.rd (R.CAR_MDL_CFG cam)) F.CAR_MDL_CFG_EN = 1 → fld (d1.rd (R.CAR_MDL_CFG cam)) F.CAR_MDL_CFG_UNIT = 1 →
    (d1.conn (d1.masterConn cam)).state = .up → (d1.carCam cam).pending = none →
    RunsTo (.carSetGo cam v) d fun t => (t.carCam cam).psid = ((d1.carCam cam).psid + 1) % 65536 ∧
      (t.carCam cam).pending.map (·.psid) = some (((d1.carCam cam).psid + 1) % 65536) ∧ t.cll = d1.cll ∧ t.asm = d1.asm) ∧
  (∀ (d : Dev) (cam : Fin 48) (late : Bool) (q : SetRec) (f : Nat × Int × Int × Nat), (d.carCam cam).pending = some q → (d.carCam cam).issuing = none →
    d.pwr.state = .active → d.openWindow cam q = some f → d.setTarget cam q f = (true, false) → q.lines = false → q.cmds ≠ [] →
    Runs (.setIssueStart cam late) d ((((d.setCarCam cam { d.carCam cam with pending := none, issuing := some q, done := 0, first := none }).setConn
      (d.masterConn cam) { d.conn (d.masterConn cam) with setQ := (d.conn (d.masterConn cam)).setQ ++ q.cmds.map (fun c => (cam.val, c.1, c.2)) }).sb
        (R.CAR_SET_STATUS cam) F.CAR_SET_STATUS_PENDING false).sb (R.CAR_SET_STATUS cam) F.CAR_SET_STATUS_ISSUING true)) ∧
  (∀ (d : Dev) (k : Fin 4) (drained : Nat) (l : LineRec) (rest : List CarIn), (d.carriage k).cross = .line l :: rest → (d.carriage k).closed = none →
    (d.carriage k).abandon ≠ some (l.cam, l.frame) → (d.carriage k).fill - drained + lineBytes l ≤ 256 * 1024 →
    (d.carriage k).cur.filter (fun m => m.cam == l.cam && m.frame == l.frame) ≠ [] →
    Runs (.carLineIn k drained) d ((d.setCarriage k { d.carriage k with cross := rest, abandon := none, fill := (d.carriage k).fill - drained + lineBytes l
      }).modCarriage k fun z => { z with cur := (d.carriage k).cur.filter (fun m => m.cam == l.cam && m.frame == l.frame) ++ [l] })) ∧
  (∀ (d : Dev) (k : Fin 4) (drained : Nat) (t : FrameTag) (rest : List CarIn), (d.carriage k).cross = .close t :: rest → (d.carriage k).closed = none →
    (d.carriage k).abandon ≠ some (t.cam, t.seq) →
    Runs (.carLineIn k drained) d (d.setCarriage k { d.carriage k with cross := rest, fill := (d.carriage k).fill - drained, closed := some t })) ∧
  (∀ (d : Dev) (k : Fin 4) (cam : Nat) (f : MemFrame) (q : CpbCopy) (a : Nat), fld (d.rd (R.CAR_CFG k)) F.CAR_CFG_EN = 1 →
    fld (d.rd (R.CAR_CFG k)) F.CAR_CFG_MEM_EN = 1 → (d.carriage k).mem = none → d.carRuns = true → d.memNext k = some (cam, f) →
    d.carBarred k f.da f.size = none → d.badBlocks f.da f.size = [] → d.cpbOf cam f.tag.psid = (a, false) → a ≠ 0 →
    (d.cpbLoad k f.tag.psid a).1 = q → (d.cpbLoad k f.tag.psid a).2.1 = false → q.bytes ≠ [] →
    Runs (.carMemFrameStart k) d (((d.cpbLoad k f.tag.psid a).2.2.modCarCam cam fun z => { z with used := q.bytes }).modCarriage k
      fun z => { z with mem := some (cam, f, q, false) })) ∧
  (∀ (d : Dev) (k : Fin 4) (t : FrameTag), d.carRuns = true → (d.carriage k).closed = some t →
    Runs (.carFrameEnd k) d ((d.setCarriage k { d.carriage k with closed := none, cur := [], mismatch := false }).carFrame k t (d.carriage k).cur
      (((d.carriage k).work.map (·.bytes)).getD []) (d.carriage k).mismatch)) ∧
  (∀ (d : Dev) (k : Fin 4) (p : Parcel) (rest : List Parcel), (d.carriage k).stats = p :: rest →
    Runs (.carStatsDone k) d (((d.setCarriage k { d.carriage k with stats := rest }).offer p).publish (Src.carStats k) 0)) ∧
  (∀ (d : Dev) (k : Fin 4) (cam : Nat) (p : Nat × Nat) (rest : List (Nat × Nat)), d.boundCam k = some cam → (d.carCam cam).cpbs = p :: rest → p.2 ≠ 0 →
    (d.carriage k).work = none → (d.carriage k).shadow = none → d.carRuns = true → (d.cpbLoad k p.1 p.2).2.1 = false →
    Runs (.cpbPreloadDone k) d ((d.cpbLoad k p.1 p.2).2.2.modCarriage k fun y => { y with shadow := some (d.cpbLoad k p.1 p.2).1 })) ∧
  (∀ (d : Dev) (k : Fin 4) (v : Word), fld v F.CAR_CTL_RESET = 1 → (d.carriage k).cur = [] → (d.carriage k).closed = none → (d.carriage k).mem = none →
    Runs (.carReset k v) d (([R.CAR_ERR k, R.CAR_CNT0 k, R.CAR_CNT1 k, R.CAR_CNT2 k, R.CAR_FRAMES k].foldl (fun (y : Dev) r => y.wr r 0)
      (((List.range 48).foldl (fun (y : Dev) c => if (y.carCam c).car = k then y.modCarCam c fun z => { z with used := [] } else y)
        (d.carAbandon k)).modCarriage k fun z => { Carriage.init with abandon := z.cutFrame })).wr64 (R.CAR_CPB_IN_USE k) 0)) ∧
  (∀ (d : Dev) (cam : Fin 48), d.swatching cam = true → d.ste.order = [] → (d.swatchOf cam).phase = .accumulate →
    (d.swatchOf cam).bad.contains (d.swatchOf cam).rep = false → (d.swatchOf cam).good + 1 < (d.swatchOf cam).k → d.skein.hist.recs = [] →
    (d.swatchOf cam).rep + 1 - (d.swatchOf cam).from_ < (d.swatchOf cam).k + (d.swatchOf cam).extra → d.pwr.trip = false →
    RunsTo (.swatchRepeatEnd cam) d fun t => (t.swatchOf cam).good = (d.swatchOf cam).good + 1 ∧ (t.swatchOf cam).rep = (d.swatchOf cam).rep + 1 ∧
      (t.swatchOf cam).phase = .accumulate ∧ t.regs = d.regs ∧ t.skein = d.skein)

/-- A bundle of a running engine whose slot S is an arithmetic operation and whose slot V is VNOP takes its operands as they stood, writes the result of R369 modulo 2^32 to rd and the PC to the next bundle, and changes nothing else; a shift uses the low 5 bits of its amount, an immediate is sign-extended, a pair operation with an odd register raises ILLEGAL. A write of s0 is discarded by the register write itself (statement ConstantRegisters). -/
def Obligations.ScalarArithmetic : Prop :=
  (∀ (d : Dev) (k : Ctx) (e : Fin 256) (rd ra rb : BitVec 4), IssuesS e k (encR 0x01 rd ra rb 0) d →
    Runs (.add e rd ra rb) d ((d.advance k).setS k.e rd.toNat (k.x.sreg ra.toNat + k.x.sreg rb.toNat))) ∧
  (∀ (d : Dev) (k : Ctx) (e : Fin 256) (rd ra rb : BitVec 4), IssuesS e k (encR 0x01 rd ra rb 1) d →
    Runs (.sub e rd ra rb) d ((d.advance k).setS k.e rd.toNat (k.x.sreg ra.toNat - k.x.sreg rb.toNat))) ∧
  (∀ (d : Dev) (k : Ctx) (e : Fin 256) (rd ra rb : BitVec 4), IssuesS e k (encR 0x01 rd ra rb 2) d →
    Runs (.and e rd ra rb) d ((d.advance k).setS k.e rd.toNat (k.x.sreg ra.toNat &&& k.x.sreg rb.toNat))) ∧
  (∀ (d : Dev) (k : Ctx) (e : Fin 256) (rd ra rb : BitVec 4), IssuesS e k (encR 0x01 rd ra rb 3) d →
    Runs (.or e rd ra rb) d ((d.advance k).setS k.e rd.toNat (k.x.sreg ra.toNat ||| k.x.sreg rb.toNat))) ∧
  (∀ (d : Dev) (k : Ctx) (e : Fin 256) (rd ra rb : BitVec 4), IssuesS e k (encR 0x01 rd ra rb 4) d →
    Runs (.xor e rd ra rb) d ((d.advance k).setS k.e rd.toNat (k.x.sreg ra.toNat ^^^ k.x.sreg rb.toNat))) ∧
  (∀ (d : Dev) (k : Ctx) (e : Fin 256) (rd ra rb : BitVec 4), IssuesS e k (encR 0x01 rd ra rb 5) d →
    Runs (.shl e rd ra rb) d ((d.advance k).setS k.e rd.toNat (k.x.sreg ra.toNat <<< ((k.x.sreg rb.toNat).toNat % 32)))) ∧
  (∀ (d : Dev) (k : Ctx) (e : Fin 256) (rd ra rb : BitVec 4), IssuesS e k (encR 0x01 rd ra rb 6) d →
    Runs (.shr e rd ra rb) d ((d.advance k).setS k.e rd.toNat (k.x.sreg ra.toNat >>> ((k.x.sreg rb.toNat).toNat % 32)))) ∧
  (∀ (d : Dev) (k : Ctx) (e : Fin 256) (rd ra rb : BitVec 4), IssuesS e k (encR 0x01 rd ra rb 7) d →
    Runs (.sar e rd ra rb) d ((d.advance k).setS k.e rd.toNat ((k.x.sreg ra.toNat).sshiftRight ((k.x.sreg rb.toNat).toNat % 32)))) ∧
  (∀ (d : Dev) (k : Ctx) (e : Fin 256) (rd ra rb : BitVec 4), IssuesS e k (encR 0x01 rd ra rb 8) d →
    Runs (.mul e rd ra rb) d ((d.advance k).setS k.e rd.toNat (k.x.sreg ra.toNat * k.x.sreg rb.toNat))) ∧
  (∀ (d : Dev) (k : Ctx) (e : Fin 256) (rd ra rb : BitVec 4), IssuesS e k (encR 0x01 rd ra rb 9) d →
    Runs (.mulh e rd ra rb) d ((d.advance k).setS k.e rd.toNat (BitVec.ofInt 32 ((k.x.sreg ra.toNat).toInt * (k.x.sreg rb.toNat).toInt / 2 ^ 32)))) ∧
  (∀ (d : Dev) (k : Ctx) (e : Fin 256) (rd ra rb : BitVec 4), IssuesS e k (encR 0x01 rd ra rb 10) d →
    Runs (.slt e rd ra rb) d ((d.advance k).setS k.e rd.toNat (if (k.x.sreg ra.toNat).toInt < (k.x.sreg rb.toNat).toInt then 1 else 0))) ∧
  (∀ (d : Dev) (k : Ctx) (e : Fin 256) (rd ra rb : BitVec 4), IssuesS e k (encR 0x01 rd ra rb 11) d →
    Runs (.sltu e rd ra rb) d ((d.advance k).setS k.e rd.toNat (if (k.x.sreg ra.toNat).toNat < (k.x.sreg rb.toNat).toNat then 1 else 0))) ∧
  (∀ (d : Dev) (k : Ctx) (e : Fin 256) (rd ra rb : BitVec 4), IssuesS e k (encR 0x01 rd ra rb 12) d →
    Runs (.min e rd ra rb) d ((d.advance k).setS k.e rd.toNat (if (k.x.sreg ra.toNat).toInt < (k.x.sreg rb.toNat).toInt then k.x.sreg ra.toNat else k.x.sreg rb.toNat))) ∧
  (∀ (d : Dev) (k : Ctx) (e : Fin 256) (rd ra rb : BitVec 4), IssuesS e k (encR 0x01 rd ra rb 13) d →
    Runs (.max e rd ra rb) d ((d.advance k).setS k.e rd.toNat (if (k.x.sreg ra.toNat).toInt < (k.x.sreg rb.toNat).toInt then k.x.sreg rb.toNat else k.x.sreg ra.toNat))) ∧
  (∀ (d : Dev) (k : Ctx) (e : Fin 256) (rd ra rb : BitVec 4), IssuesS e k (encR 0x01 rd ra rb 14) d →
    rd.getLsbD 0 = false → ra.getLsbD 0 = false → rb.getLsbD 0 = false → Runs (.add64 e rd ra rb) d ((d.advance k).setPair k.e rd.toNat (k.x.pair ra.toNat + k.x.pair rb.toNat))) ∧
  (∀ (d : Dev) (k : Ctx) (e : Fin 256) (rd ra rb : BitVec 4), IssuesS e k (encR 0x01 rd ra rb 14) d →
    (rd.getLsbD 0 || ra.getLsbD 0 || rb.getLsbD 0) = true → Runs (.add64 e rd ra rb) d (d.kernelFault k.e 1 0 0)) ∧
  (∀ (d : Dev) (k : Ctx) (e : Fin 256) (rd ra rb : BitVec 4), IssuesS e k (encR 0x01 rd ra rb 15) d →
    rd.getLsbD 0 = false → ra.getLsbD 0 = false → rb.getLsbD 0 = false → Runs (.sub64 e rd ra rb) d ((d.advance k).setPair k.e rd.toNat (k.x.pair ra.toNat - k.x.pair rb.toNat))) ∧
  (∀ (d : Dev) (k : Ctx) (e : Fin 256) (rd ra rb : BitVec 4), IssuesS e k (encR 0x01 rd ra rb 15) d →
    (rd.getLsbD 0 || ra.getLsbD 0 || rb.getLsbD 0) = true → Runs (.sub64 e rd ra rb) d (d.kernelFault k.e 1 0 0)) ∧
  (∀ (d : Dev) (k : Ctx) (e : Fin 256) (rd ra : BitVec 4) (imm : BitVec 18), IssuesS e k (encI 0x02 rd ra imm) d →
    Runs (.addi e rd ra imm) d ((d.advance k).setS k.e rd.toNat (k.x.sreg ra.toNat + imm.signExtend 32))) ∧
  (∀ (d : Dev) (k : Ctx) (e : Fin 256) (rd ra : BitVec 4) (imm : BitVec 18), IssuesS e k (encI 0x03 rd ra imm) d →
    Runs (.andi e rd ra imm) d ((d.advance k).setS k.e rd.toNat (k.x.sreg ra.toNat &&& imm.signExtend 32))) ∧
  (∀ (d : Dev) (k : Ctx) (e : Fin 256) (rd ra : BitVec 4) (imm : BitVec 18), IssuesS e k (encI 0x04 rd ra imm) d →
    Runs (.ori e rd ra imm) d ((d.advance k).setS k.e rd.toNat (k.x.sreg ra.toNat ||| imm.signExtend 32))) ∧
  (∀ (d : Dev) (k : Ctx) (e : Fin 256) (rd ra : BitVec 4) (imm : BitVec 18), IssuesS e k (encI 0x05 rd ra imm) d →
    Runs (.xori e rd ra imm) d ((d.advance k).setS k.e rd.toNat (k.x.sreg ra.toNat ^^^ imm.signExtend 32))) ∧
  (∀ (d : Dev) (k : Ctx) (e : Fin 256) (rd ra : BitVec 4) (imm : BitVec 18), IssuesS e k (encI 0x09 rd ra imm) d →
    Runs (.slti e rd ra imm) d ((d.advance k).setS k.e rd.toNat (if (k.x.sreg ra.toNat).toInt < (imm.signExtend 32).toInt then 1 else 0))) ∧
  (∀ (d : Dev) (k : Ctx) (e : Fin 256) (rd ra : BitVec 4) (imm : BitVec 5), IssuesS e k (encI 0x06 rd ra (imm.setWidth 18)) d →
    Runs (.shli e rd ra imm) d ((d.advance k).setS k.e rd.toNat (k.x.sreg ra.toNat <<< imm.toNat))) ∧
  (∀ (d : Dev) (k : Ctx) (e : Fin 256) (rd ra : BitVec 4) (imm : BitVec 5), IssuesS e k (encI 0x07 rd ra (imm.setWidth 18)) d →
    Runs (.shri e rd ra imm) d ((d.advance k).setS k.e rd.toNat (k.x.sreg ra.toNat >>> imm.toNat))) ∧
  (∀ (d : Dev) (k : Ctx) (e : Fin 256) (rd ra : BitVec 4) (imm : BitVec 5), IssuesS e k (encI 0x08 rd ra (imm.setWidth 18)) d →
    Runs (.sari e rd ra imm) d ((d.advance k).setS k.e rd.toNat ((k.x.sreg ra.toNat).sshiftRight imm.toNat))) ∧
  (∀ (d : Dev) (k : Ctx) (e : Fin 256) (rd : BitVec 4) (imm : BitVec 22), IssuesS e k (encL 0x0A rd imm) d →
    Runs (.lui e rd imm) d ((d.advance k).setS k.e rd.toNat (imm.setWidth 32 <<< 10)))

/-- A load whose address ra + imm18 is aligned and stands in a range that the engine may read writes the bytes there, zero-extended, to rd; a store writes the low bytes of rd there, lowest first; a misaligned access raises ALIGN and one outside every range raises ADDR. -/
def Obligations.ScalarLoadsAndStores : Prop :=
  (∀ (d : Dev) (k : Ctx) (e : Fin 256) (rd ra : BitVec 4) (imm : BitVec 18) (x : Nat), IssuesS e k (encI 0x10 rd ra imm) d →
    (k.addr ra imm) % 4 = 0 → k.access false (k.addr ra imm) 4 d = .ok x → Runs (.ldw e rd ra imm) d ((d.advance k).setS k.e rd.toNat (BitVec.ofNat 32 (leNat (d.engBytes x 4))))) ∧
  (∀ (d : Dev) (k : Ctx) (e : Fin 256) (rd ra : BitVec 4) (imm : BitVec 18), IssuesS e k (encI 0x10 rd ra imm) d →
    (k.addr ra imm) % 4 ≠ 0 → Runs (.ldw e rd ra imm) d (d.kernelFault k.e 3 0 0)) ∧
  (∀ (d : Dev) (k : Ctx) (e : Fin 256) (rd ra : BitVec 4) (imm : BitVec 18), IssuesS e k (encI 0x10 rd ra imm) d →
    (k.addr ra imm) % 4 = 0 → engOffset k.e k.item.home (k.addr ra imm) 4 = none → Runs (.ldw e rd ra imm) d (d.kernelFault k.e 2 0 0)) ∧
  (∀ (d : Dev) (k : Ctx) (e : Fin 256) (rd ra : BitVec 4) (imm : BitVec 18) (x : Nat), IssuesS e k (encI 0x11 rd ra imm) d →
    (k.addr ra imm) % 2 = 0 → k.access false (k.addr ra imm) 2 d = .ok x → Runs (.ldh e rd ra imm) d ((d.advance k).setS k.e rd.toNat (BitVec.ofNat 32 (leNat (d.engBytes x 2))))) ∧
  (∀ (d : Dev) (k : Ctx) (e : Fin 256) (rd ra : BitVec 4) (imm : BitVec 18), IssuesS e k (encI 0x11 rd ra imm) d →
    (k.addr ra imm) % 2 ≠ 0 → Runs (.ldh e rd ra imm) d (d.kernelFault k.e 3 0 0)) ∧
  (∀ (d : Dev) (k : Ctx) (e : Fin 256) (rd ra : BitVec 4) (imm : BitVec 18), IssuesS e k (encI 0x11 rd ra imm) d →
    (k.addr ra imm) % 2 = 0 → engOffset k.e k.item.home (k.addr ra imm) 2 = none → Runs (.ldh e rd ra imm) d (d.kernelFault k.e 2 0 0)) ∧
  (∀ (d : Dev) (k : Ctx) (e : Fin 256) (rd ra : BitVec 4) (imm : BitVec 18) (x : Nat), IssuesS e k (encI 0x12 rd ra imm) d →
    k.access false (k.addr ra imm) 1 d = .ok x → Runs (.ldb e rd ra imm) d ((d.advance k).setS k.e rd.toNat (BitVec.ofNat 32 (leNat (d.engBytes x 1))))) ∧
  (∀ (d : Dev) (k : Ctx) (e : Fin 256) (rd ra : BitVec 4) (imm : BitVec 18), IssuesS e k (encI 0x12 rd ra imm) d →
    engOffset k.e k.item.home (k.addr ra imm) 1 = none → Runs (.ldb e rd ra imm) d (d.kernelFault k.e 2 0 0)) ∧
  (∀ (d : Dev) (k : Ctx) (e : Fin 256) (rd ra : BitVec 4) (imm : BitVec 18) (x : Nat), IssuesS e k (encI 0x13 rd ra imm) d →
    (k.addr ra imm) % 4 = 0 → k.access true (k.addr ra imm) 4 d = .ok x → Runs (.stw e rd ra imm) d ((d.advance k).engPut x (leBytes 4 (k.x.sreg rd.toNat).toNat))) ∧
  (∀ (d : Dev) (k : Ctx) (e : Fin 256) (rd ra : BitVec 4) (imm : BitVec 18), IssuesS e k (encI 0x13 rd ra imm) d →
    (k.addr ra imm) % 4 ≠ 0 → Runs (.stw e rd ra imm) d (d.kernelFault k.e 3 0 0)) ∧
  (∀ (d : Dev) (k : Ctx) (e : Fin 256) (rd ra : BitVec 4) (imm : BitVec 18), IssuesS e k (encI 0x13 rd ra imm) d →
    (k.addr ra imm) % 4 = 0 → engOffset k.e k.item.home (k.addr ra imm) 4 = none → Runs (.stw e rd ra imm) d (d.kernelFault k.e 2 0 0)) ∧
  (∀ (d : Dev) (k : Ctx) (e : Fin 256) (rd ra : BitVec 4) (imm : BitVec 18) (x : Nat), IssuesS e k (encI 0x14 rd ra imm) d →
    (k.addr ra imm) % 2 = 0 → k.access true (k.addr ra imm) 2 d = .ok x → Runs (.sth e rd ra imm) d ((d.advance k).engPut x (leBytes 2 (k.x.sreg rd.toNat).toNat))) ∧
  (∀ (d : Dev) (k : Ctx) (e : Fin 256) (rd ra : BitVec 4) (imm : BitVec 18), IssuesS e k (encI 0x14 rd ra imm) d →
    (k.addr ra imm) % 2 ≠ 0 → Runs (.sth e rd ra imm) d (d.kernelFault k.e 3 0 0)) ∧
  (∀ (d : Dev) (k : Ctx) (e : Fin 256) (rd ra : BitVec 4) (imm : BitVec 18), IssuesS e k (encI 0x14 rd ra imm) d →
    (k.addr ra imm) % 2 = 0 → engOffset k.e k.item.home (k.addr ra imm) 2 = none → Runs (.sth e rd ra imm) d (d.kernelFault k.e 2 0 0)) ∧
  (∀ (d : Dev) (k : Ctx) (e : Fin 256) (rd ra : BitVec 4) (imm : BitVec 18) (x : Nat), IssuesS e k (encI 0x15 rd ra imm) d →
    k.access true (k.addr ra imm) 1 d = .ok x → Runs (.stb e rd ra imm) d ((d.advance k).engPut x (leBytes 1 (k.x.sreg rd.toNat).toNat))) ∧
  (∀ (d : Dev) (k : Ctx) (e : Fin 256) (rd ra : BitVec 4) (imm : BitVec 18), IssuesS e k (encI 0x15 rd ra imm) d →
    engOffset k.e k.item.home (k.addr ra imm) 1 = none → Runs (.stb e rd ra imm) d (d.kernelFault k.e 2 0 0))

/-- A branch whose condition holds sets the PC to its own bundle plus off18, one whose condition does not hold goes on to the next bundle; JAL also writes the next bundle number to rd, JR takes the low 10 bits of ra; a target outside the instruction memory, or of JR in the kernel table, raises PC. -/
def Obligations.BranchesAndJumps : Prop :=
  (∀ (d : Dev) (k : Ctx) (e : Fin 256) (ra rb : BitVec 4) (off : BitVec 18), IssuesS e k (encI 0x20 ra rb off) d →
    k.x.sreg ra.toNat = k.x.sreg rb.toNat → 0 ≤ k.x.pc + off.toInt → k.x.pc + off.toInt ≤ 1023 → Runs (.beq e ra rb off) d (d.modEng k.e fun x => { x with pc := (k.x.pc + off.toInt).toNat })) ∧
  (∀ (d : Dev) (k : Ctx) (e : Fin 256) (ra rb : BitVec 4) (off : BitVec 18), IssuesS e k (encI 0x20 ra rb off) d →
    ¬ (k.x.sreg ra.toNat = k.x.sreg rb.toNat) → Runs (.beq e ra rb off) d (d.advance k)) ∧
  (∀ (d : Dev) (k : Ctx) (e : Fin 256) (ra rb : BitVec 4) (off : BitVec 18), IssuesS e k (encI 0x20 ra rb off) d →
    k.x.sreg ra.toNat = k.x.sreg rb.toNat → (k.x.pc + off.toInt < 0 ∨ 1023 < k.x.pc + off.toInt) → Runs (.beq e ra rb off) d (d.kernelFault k.e 5 0 0)) ∧
  (∀ (d : Dev) (k : Ctx) (e : Fin 256) (ra rb : BitVec 4) (off : BitVec 18), IssuesS e k (encI 0x21 ra rb off) d →
    k.x.sreg ra.toNat ≠ k.x.sreg rb.toNat → 0 ≤ k.x.pc + off.toInt → k.x.pc + off.toInt ≤ 1023 → Runs (.bne e ra rb off) d (d.modEng k.e fun x => { x with pc := (k.x.pc + off.toInt).toNat })) ∧
  (∀ (d : Dev) (k : Ctx) (e : Fin 256) (ra rb : BitVec 4) (off : BitVec 18), IssuesS e k (encI 0x21 ra rb off) d →
    ¬ (k.x.sreg ra.toNat ≠ k.x.sreg rb.toNat) → Runs (.bne e ra rb off) d (d.advance k)) ∧
  (∀ (d : Dev) (k : Ctx) (e : Fin 256) (ra rb : BitVec 4) (off : BitVec 18), IssuesS e k (encI 0x21 ra rb off) d →
    k.x.sreg ra.toNat ≠ k.x.sreg rb.toNat → (k.x.pc + off.toInt < 0 ∨ 1023 < k.x.pc + off.toInt) → Runs (.bne e ra rb off) d (d.kernelFault k.e 5 0 0)) ∧
  (∀ (d : Dev) (k : Ctx) (e : Fin 256) (ra rb : BitVec 4) (off : BitVec 18), IssuesS e k (encI 0x22 ra rb off) d →
    (k.x.sreg ra.toNat).toInt < (k.x.sreg rb.toNat).toInt → 0 ≤ k.x.pc + off.toInt → k.x.pc + off.toInt ≤ 1023 → Runs (.blt e ra rb off) d (d.modEng k.e fun x => { x with pc := (k.x.pc + off.toInt).toNat })) ∧
  (∀ (d : Dev) (k : Ctx) (e : Fin 256) (ra rb : BitVec 4) (off : BitVec 18), IssuesS e k (encI 0x22 ra rb off) d →
    ¬ ((k.x.sreg ra.toNat).toInt < (k.x.sreg rb.toNat).toInt) → Runs (.blt e ra rb off) d (d.advance k)) ∧
  (∀ (d : Dev) (k : Ctx) (e : Fin 256) (ra rb : BitVec 4) (off : BitVec 18), IssuesS e k (encI 0x22 ra rb off) d →
    (k.x.sreg ra.toNat).toInt < (k.x.sreg rb.toNat).toInt → (k.x.pc + off.toInt < 0 ∨ 1023 < k.x.pc + off.toInt) → Runs (.blt e ra rb off) d (d.kernelFault k.e 5 0 0)) ∧
  (∀ (d : Dev) (k : Ctx) (e : Fin 256) (ra rb : BitVec 4) (off : BitVec 18), IssuesS e k (encI 0x23 ra rb off) d →
    (k.x.sreg rb.toNat).toInt ≤ (k.x.sreg ra.toNat).toInt → 0 ≤ k.x.pc + off.toInt → k.x.pc + off.toInt ≤ 1023 → Runs (.bge e ra rb off) d (d.modEng k.e fun x => { x with pc := (k.x.pc + off.toInt).toNat })) ∧
  (∀ (d : Dev) (k : Ctx) (e : Fin 256) (ra rb : BitVec 4) (off : BitVec 18), IssuesS e k (encI 0x23 ra rb off) d →
    ¬ ((k.x.sreg rb.toNat).toInt ≤ (k.x.sreg ra.toNat).toInt) → Runs (.bge e ra rb off) d (d.advance k)) ∧
  (∀ (d : Dev) (k : Ctx) (e : Fin 256) (ra rb : BitVec 4) (off : BitVec 18), IssuesS e k (encI 0x23 ra rb off) d →
    (k.x.sreg rb.toNat).toInt ≤ (k.x.sreg ra.toNat).toInt → (k.x.pc + off.toInt < 0 ∨ 1023 < k.x.pc + off.toInt) → Runs (.bge e ra rb off) d (d.kernelFault k.e 5 0 0)) ∧
  (∀ (d : Dev) (k : Ctx) (e : Fin 256) (ra rb : BitVec 4) (off : BitVec 18), IssuesS e k (encI 0x24 ra rb off) d →
    (k.x.sreg ra.toNat).toNat < (k.x.sreg rb.toNat).toNat → 0 ≤ k.x.pc + off.toInt → k.x.pc + off.toInt ≤ 1023 → Runs (.bltu e ra rb off) d (d.modEng k.e fun x => { x with pc := (k.x.pc + off.toInt).toNat })) ∧
  (∀ (d : Dev) (k : Ctx) (e : Fin 256) (ra rb : BitVec 4) (off : BitVec 18), IssuesS e k (encI 0x24 ra rb off) d →
    ¬ ((k.x.sreg ra.toNat).toNat < (k.x.sreg rb.toNat).toNat) → Runs (.bltu e ra rb off) d (d.advance k)) ∧
  (∀ (d : Dev) (k : Ctx) (e : Fin 256) (ra rb : BitVec 4) (off : BitVec 18), IssuesS e k (encI 0x24 ra rb off) d →
    (k.x.sreg ra.toNat).toNat < (k.x.sreg rb.toNat).toNat → (k.x.pc + off.toInt < 0 ∨ 1023 < k.x.pc + off.toInt) → Runs (.bltu e ra rb off) d (d.kernelFault k.e 5 0 0)) ∧
  (∀ (d : Dev) (k : Ctx) (e : Fin 256) (ra rb : BitVec 4) (off : BitVec 18), IssuesS e k (encI 0x25 ra rb off) d →
    (k.x.sreg rb.toNat).toNat ≤ (k.x.sreg ra.toNat).toNat → 0 ≤ k.x.pc + off.toInt → k.x.pc + off.toInt ≤ 1023 → Runs (.bgeu e ra rb off) d (d.modEng k.e fun x => { x with pc := (k.x.pc + off.toInt).toNat })) ∧
  (∀ (d : Dev) (k : Ctx) (e : Fin 256) (ra rb : BitVec 4) (off : BitVec 18), IssuesS e k (encI 0x25 ra rb off) d →
    ¬ ((k.x.sreg rb.toNat).toNat ≤ (k.x.sreg ra.toNat).toNat) → Runs (.bgeu e ra rb off) d (d.advance k)) ∧
  (∀ (d : Dev) (k : Ctx) (e : Fin 256) (ra rb : BitVec 4) (off : BitVec 18), IssuesS e k (encI 0x25 ra rb off) d →
    (k.x.sreg rb.toNat).toNat ≤ (k.x.sreg ra.toNat).toNat → (k.x.pc + off.toInt < 0 ∨ 1023 < k.x.pc + off.toInt) → Runs (.bgeu e ra rb off) d (d.kernelFault k.e 5 0 0)) ∧
  (∀ (d : Dev) (k : Ctx) (e : Fin 256) (pa : BitVec 3) (off : BitVec 18), IssuesS e k (encI 0x28 (pa.setWidth 4) 0 off) d →
    k.x.preg pa.toNat ≠ 0 → 0 ≤ k.x.pc + off.toInt → k.x.pc + off.toInt ≤ 1023 → Runs (.bpany e pa off) d (d.modEng k.e fun x => { x with pc := (k.x.pc + off.toInt).toNat })) ∧
  (∀ (d : Dev) (k : Ctx) (e : Fin 256) (pa : BitVec 3) (off : BitVec 18), IssuesS e k (encI 0x28 (pa.setWidth 4) 0 off) d →
    ¬ (k.x.preg pa.toNat ≠ 0) → Runs (.bpany e pa off) d (d.advance k)) ∧
  (∀ (d : Dev) (k : Ctx) (e : Fin 256) (pa : BitVec 3) (off : BitVec 18), IssuesS e k (encI 0x29 (pa.setWidth 4) 0 off) d →
    k.x.preg pa.toNat = 0 → 0 ≤ k.x.pc + off.toInt → k.x.pc + off.toInt ≤ 1023 → Runs (.bpnone e pa off) d (d.modEng k.e fun x => { x with pc := (k.x.pc + off.toInt).toNat })) ∧
  (∀ (d : Dev) (k : Ctx) (e : Fin 256) (pa : BitVec 3) (off : BitVec 18), IssuesS e k (encI 0x29 (pa.setWidth 4) 0 off) d →
    ¬ (k.x.preg pa.toNat = 0) → Runs (.bpnone e pa off) d (d.advance k)) ∧
  (∀ (d : Dev) (k : Ctx) (e : Fin 256) (rd : BitVec 4) (imm : BitVec 18) (w : Word), w &&& 0xFFC3FFFF = encI 0x26 rd 0 imm → IssuesS e k w d →
    0 ≤ k.x.pc + imm.toInt → k.x.pc + imm.toInt ≤ 1023 → Runs (.jal e rd imm) d ((d.modEng k.e fun x => { x with pc := (k.x.pc + imm.toInt).toNat }).setS k.e rd.toNat (BitVec.ofNat 32 (k.x.pc + 1)))) ∧
  (∀ (d : Dev) (k : Ctx) (e : Fin 256) (rd : BitVec 4) (imm : BitVec 18) (w : Word), w &&& 0xFFC3FFFF = encI 0x26 rd 0 imm → IssuesS e k w d →
    (k.x.pc + imm.toInt < 0 ∨ 1023 < k.x.pc + imm.toInt) → Runs (.jal e rd imm) d (d.kernelFault k.e 5 0 0)) ∧
  (∀ (d : Dev) (k : Ctx) (e : Fin 256) (ra : BitVec 4) (w : Word), w &&& 0xFC3C3F00 = encR 0x27 0 ra 0 0 → w &&& 0xFF = 0 → IssuesS e k w d →
    16 ≤ (k.x.sreg ra.toNat).toNat % 1024 → Runs (.jr e ra) d (d.modEng k.e fun x => { x with pc := (k.x.sreg ra.toNat).toNat % 1024 })) ∧
  (∀ (d : Dev) (k : Ctx) (e : Fin 256) (ra : BitVec 4) (w : Word), w &&& 0xFC3C3F00 = encR 0x27 0 ra 0 0 → w &&& 0xFF = 0 → IssuesS e k w d →
    (k.x.sreg ra.toNat).toNat % 1024 < 16 → Runs (.jr e ra) d (d.kernelFault k.e 5 0 0))

/-- NOP only goes on, and a slot S that no row names raises ILLEGAL; XWAIT waits for its transfers and then their data stands; XLD and XST start a transfer where tag, alignment and access allow it and raise ALIGN on a size that is no multiple of 32; EMIT sends the completed record and answers OK, or answers OVERFLOW beyond the limit; END ends the item; QMARK, QREW, QREL and QCPY do what R381 says and answer INVALID for a handle that was not given; PUB publishes the cluster event, EVWAIT waits for a change of the event count, RDSR reads the special values (its cycle count is a free value of the model) and MSYNC waits for every XST. -/
def Obligations.EngineSystemOperations : Prop :=
  (∀ (d : Dev) (k : Ctx) (e : Fin 256), IssuesS e k 0 d → Runs (.nop e) d (d.advance k)) ∧
  (∀ (d : Dev) (k : Ctx) (e : Fin 256) (s v : Word), d.fetch e = some (k, s, v) → slotS s = none → Runs (.nop e) d (d.kernelFault k.e 1 0 0)) ∧
  (∀ (d : Dev) (k : Ctx) (e : Fin 256) (code : BitVec 6) (w : Word), w &&& 0xFC003F00 = encR 0x32 0 0 0 code → w &&& 0xFF = 0 → IssuesS e k w d →
    code.toNat < 8 → k.x.xfers.any (fun q => code.getLsbD 2 || q.tag == code.toNat % 4) = false → Runs (.xwait e code) d ((d.advance k).land k.e (fun t => code.getLsbD 2 || t == code.toNat % 4))) ∧
  (∀ (d : Dev) (k : Ctx) (e : Fin 256) (code : BitVec 6) (w : Word), w &&& 0xFC003F00 = encR 0x32 0 0 0 code → w &&& 0xFF = 0 → IssuesS e k w d →
    code.toNat < 8 → k.x.xfers.any (fun q => code.getLsbD 2 || q.tag == code.toNat % 4) = true → Runs (.xwait e code) d (d)) ∧
  (∀ (d : Dev) (k : Ctx) (e : Fin 256) (rd ra rb : BitVec 4) (t : Fin 4) (x da ea n : Nat), IssuesS e k (encR 0x30 rd ra rb (BitVec.ofNat 6 t)) d →
    ra.getLsbD 0 = false → (k.x.pair ra.toNat).toNat = da → (k.x.sreg rb.toNat).toNat = ea → (k.x.sreg rd.toNat).toNat = n →
    k.x.xfers.any (fun q => q.tag == t.val) = false → da % 32 = 0 → ea % 32 = 0 → n % 32 = 0 → 32 ≤ n → n ≤ 32768 → xferDa da = true →
    k.access true ea n d = .ok x → d.runStop (0x30 + k.e / 16) false da n = none → Runs (.xld e rd ra rb (BitVec.ofNat 6 t)) d ((d.advance k).xferStart k false t da x n)) ∧
  (∀ (d : Dev) (k : Ctx) (e : Fin 256) (rd ra rb : BitVec 4) (t : Fin 4), IssuesS e k (encR 0x30 rd ra rb (BitVec.ofNat 6 t)) d →
    ra.getLsbD 0 = false → k.x.xfers.any (fun q => q.tag == t.val) = false → (k.x.sreg rd.toNat).toNat % 32 ≠ 0 → Runs (.xld e rd ra rb (BitVec.ofNat 6 t)) d (d.kernelFault k.e 3 0 0)) ∧
  (∀ (d : Dev) (k : Ctx) (e : Fin 256) (rd ra rb : BitVec 4) (t : Fin 4) (x da ea n : Nat), IssuesS e k (encR 0x31 rd ra rb (BitVec.ofNat 6 t)) d →
    ra.getLsbD 0 = false → (k.x.pair ra.toNat).toNat = da → (k.x.sreg rb.toNat).toNat = ea → (k.x.sreg rd.toNat).toNat = n →
    k.x.xfers.any (fun q => q.tag == t.val) = false → da % 32 = 0 → ea % 32 = 0 → n % 32 = 0 → 32 ≤ n → n ≤ 32768 → xferDa da = true →
    k.access false ea n d = .ok x → d.runStop (0x30 + k.e / 16) true da n = none → Runs (.xst e rd ra rb (BitVec.ofNat 6 t)) d ((d.advance k).xferStart k true t da x n)) ∧
  (∀ (d : Dev) (k : Ctx) (e : Fin 256) (rd ra rb : BitVec 4) (t : Fin 4), IssuesS e k (encR 0x31 rd ra rb (BitVec.ofNat 6 t)) d →
    ra.getLsbD 0 = false → k.x.xfers.any (fun q => q.tag == t.val) = false → (k.x.sreg rd.toNat).toNat % 32 ≠ 0 → Runs (.xst e rd ra rb (BitVec.ofNat 6 t)) d (d.kernelFault k.e 3 0 0)) ∧
  (∀ (d : Dev) (k : Ctx) (e : Fin 256) (rd ra : BitVec 4) (x : Nat) (w : Word), w &&& 0xFFFC3F00 = encR 0x33 rd ra 0 0 → w &&& 0xFF = 0 → IssuesS e k w d →
    (k.x.sreg ra.toNat).toNat % 8 = 0 → k.access false (k.x.sreg ra.toNat).toNat 64 d = .ok x → k.x.emitted < k.x.maxSnag →
    d.heldResults + d.ste.flights.length < 8192 → leAt (d.engBytes x 64) 0x24 2 = 0 → Runs (.emit e rd ra) d (((d.advance k).sendResult k (snagRecord k.item (d.engBytes x 64) false 0) none).setS k.e rd.toNat 0)) ∧
  (∀ (d : Dev) (k : Ctx) (e : Fin 256) (rd ra : BitVec 4) (x : Nat) (w : Word), w &&& 0xFFFC3F00 = encR 0x33 rd ra 0 0 → w &&& 0xFF = 0 → IssuesS e k w d →
    (k.x.sreg ra.toNat).toNat % 8 = 0 → k.access false (k.x.sreg ra.toNat).toNat 64 d = .ok x → k.x.maxSnag ≤ k.x.emitted → Runs (.emit e rd ra) d ((d.advance k).setS k.e rd.toNat 1)) ∧
  (∀ (d : Dev) (k : Ctx) (e : Fin 256) (rd ra : BitVec 4) (w : Word), w &&& 0xFFFC3F00 = encR 0x33 rd ra 0 0 → w &&& 0xFF = 0 → IssuesS e k w d →
    (k.x.sreg ra.toNat).toNat % 8 ≠ 0 → Runs (.emit e rd ra) d (d.kernelFault k.e 3 0 0)) ∧
  (∀ (d : Dev) (k : Ctx) (e : Fin 256) (w : Word), w &&& 0xFC003F00 = encR 0x34 0 0 0 0 → w &&& 0xFF = 0 → IssuesS e k w d →
    ((d.advance k).eng k.e).state ≠ .fenced → Runs (.endItem e) d ((d.advance k).itemEnd k.e)) ∧
  (∀ (d : Dev) (k : Ctx) (e : Fin 256) (rd ra rb : BitVec 4) (i s : Nat) (y : Dev), IssuesS e k (encR 0x35 rd ra rb 0) d →
    k.fenced = false → k.ownsQueue (k.x.sreg ra.toNat).toNat (d.advance k) = true →
    (d.advance k).markRequest (k.x.sreg ra.toNat).toNat (((d.advance k).ply (k.x.sreg ra.toNat).toNat).read - (k.x.sreg rb.toNat).toNat) (.engine k.e) k.epoch k.item.cam
      (((d.advance k).ply (k.x.sreg ra.toNat).toNat).frameAt (max ((d.advance k).ply (k.x.sreg ra.toNat).toNat).release (((d.advance k).ply (k.x.sreg ra.toNat).toNat).read - (k.x.sreg rb.toNat).toNat))) =
        (some (i, s), y) →
    Runs (.qmark e rd ra rb) d ((y.modEng k.e fun z => { z with marks := MarkHandle.mk (k.x.sreg ra.toNat).toNat s i none :: z.marks }).setS k.e rd.toNat
      (BitVec.ofNat 32 ((k.x.sreg ra.toNat).toNat * 4 + s)))) ∧
  (∀ (d : Dev) (k : Ctx) (e : Fin 256) (rd ra rb : BitVec 4), IssuesS e k (encR 0x35 rd ra rb 0) d →
    k.fenced = false → k.ownsQueue (k.x.sreg ra.toNat).toNat (d.advance k) = false → Runs (.qmark e rd ra rb) d ((d.advance k).setS k.e rd.toNat 0x80000002)) ∧
  (∀ (d : Dev) (k : Ctx) (e : Fin 256) (rd ra : BitVec 4) (m : MarkHandle) (p : Mark) (w : Word), w &&& 0xFFFC3F00 = encR 0x36 rd ra 0 0 → w &&& 0xFF = 0 → IssuesS e k w d →
    k.handle (k.x.sreg ra.toNat).toNat = some m → k.fenced = false → (d.advance k).heldMark m = some p → Runs (.qrew e rd ra) d (((d.advance k).setCursor k.e m p.entry).setS k.e rd.toNat 0)) ∧
  (∀ (d : Dev) (k : Ctx) (e : Fin 256) (rd ra : BitVec 4) (w : Word), w &&& 0xFFFC3F00 = encR 0x36 rd ra 0 0 → w &&& 0xFF = 0 → IssuesS e k w d →
    k.handle (k.x.sreg ra.toNat).toNat = none → Runs (.qrew e rd ra) d ((d.advance k).setS k.e rd.toNat 2)) ∧
  (∀ (d : Dev) (k : Ctx) (e : Fin 256) (rd ra : BitVec 4) (m : MarkHandle) (p : Mark) (w : Word), w &&& 0xFFFC3F00 = encR 0x38 rd ra 0 0 → w &&& 0xFF = 0 → IssuesS e k w d →
    k.handle (k.x.sreg ra.toNat).toNat = some m → k.fenced = false → (d.advance k).heldMark m = some p → Runs (.qrel e rd ra) d (((d.advance k).forgetMark k.e m).setS k.e rd.toNat 0)) ∧
  (∀ (d : Dev) (k : Ctx) (e : Fin 256) (rd ra : BitVec 4) (w : Word), w &&& 0xFFFC3F00 = encR 0x38 rd ra 0 0 → w &&& 0xFF = 0 → IssuesS e k w d →
    k.handle (k.x.sreg ra.toNat).toNat = none → Runs (.qrel e rd ra) d ((d.advance k).setS k.e rd.toNat 2)) ∧
  (∀ (d : Dev) (k : Ctx) (e : Fin 256) (rd ra rb : BitVec 4) (m : MarkHandle) (p : Mark) (cur n x : Nat), IssuesS e k (encR 0x37 rd ra rb 0) d →
    k.handle (k.x.sreg ra.toNat).toNat = some m → k.fenced = false → d.heldMark m = some p → m.cursor = some cur →
    n = min (k.x.sreg rd.toNat).toNat ((d.ply m.queue).read - cur) → n ≠ 0 → k.access true (k.x.sreg rb.toNat).toNat (32 * n) d = .ok x → Runs (.qcpy e rd ra rb) d ((((d.advance k).engPut x ((d.ply m.queue).entryBytes cur n)).setCursor k.e m (cur + n)).setS k.e rd.toNat (BitVec.ofNat 32 n))) ∧
  (∀ (d : Dev) (k : Ctx) (e : Fin 256) (rd ra rb : BitVec 4), IssuesS e k (encR 0x37 rd ra rb 0) d →
    k.handle (k.x.sreg ra.toNat).toNat = none → Runs (.qcpy e rd ra rb) d ((d.advance k).setS k.e rd.toNat 0x80000002)) ∧
  (∀ (d : Dev) (k : Ctx) (e : Fin 256) (w : Word), w &&& 0xFC003F00 = encR 0x39 0 0 0 0 → w &&& 0xFF = 0 → IssuesS e k w d →
    Runs (.pub e) d ((d.advance k).publish (Src.steUser (k.e / 16)) k.x.hop)) ∧
  (∀ (d : Dev) (k : Ctx) (e : Fin 256) (ra : BitVec 4) (w : Word), w &&& 0xFC3C3F00 = encR 0x3A 0 ra 0 0 → w &&& 0xFF = 0 → IssuesS e k w d →
    BitVec.ofNat 32 (d.cluster (k.e / 16)).events ≠ k.x.sreg ra.toNat → Runs (.evwait e ra) d ((d.advance k).modEng k.e fun x => { x with hop := (d.cluster (k.e / 16)).evHop + 1 })) ∧
  (∀ (d : Dev) (k : Ctx) (e : Fin 256) (ra : BitVec 4) (w : Word), w &&& 0xFC3C3F00 = encR 0x3A 0 ra 0 0 → w &&& 0xFF = 0 → IssuesS e k w d →
    BitVec.ofNat 32 (d.cluster (k.e / 16)).events = k.x.sreg ra.toNat → Runs (.evwait e ra) d (d)) ∧
  (∀ (d : Dev) (k : Ctx) (e : Fin 256) (rd : BitVec 4) (w : Word), w &&& 0xFFC03F00 = encR 0x3B rd 0 0 0 → w &&& 0xFF = 0 → IssuesS e k w d →
    Runs (.rdsr e rd 0) d ((d.advance k).setS k.e rd.toNat (BitVec.ofNat 32 (k.e)))) ∧
  (∀ (d : Dev) (k : Ctx) (e : Fin 256) (rd : BitVec 4) (w : Word), w &&& 0xFFC03F00 = encR 0x3B rd 0 0 1 → w &&& 0xFF = 0 → IssuesS e k w d →
    Runs (.rdsr e rd 1) d ((d.advance k).setS k.e rd.toNat (BitVec.ofNat 32 (k.e / 16)))) ∧
  (∀ (d : Dev) (k : Ctx) (e : Fin 256) (rd : BitVec 4) (w : Word), w &&& 0xFFC03F00 = encR 0x3B rd 0 0 2 → w &&& 0xFF = 0 → IssuesS e k w d →
    Runs (.rdsr e rd 2) d ((d.advance k).setS k.e rd.toNat (BitVec.ofNat 32 (k.epoch)))) ∧
  (∀ (d : Dev) (k : Ctx) (e : Fin 256) (rd : BitVec 4) (w : Word), w &&& 0xFFC03F00 = encR 0x3B rd 0 0 5 → w &&& 0xFF = 0 → IssuesS e k w d →
    Runs (.rdsr e rd 5) d ((d.advance k).setS k.e rd.toNat (BitVec.ofNat 32 (((d.advance k).cluster (k.e / 16)).events)))) ∧
  (∀ (d : Dev) (k : Ctx) (e : Fin 256) (rd : BitVec 4) (w : Word), w &&& 0xFFC03F00 = encR 0x3B rd 0 0 6 → w &&& 0xFF = 0 → IssuesS e k w d →
    Runs (.rdsr e rd 6) d ((d.advance k).setS k.e rd.toNat (BitVec.ofNat 32 (k.item.home)))) ∧
  (∀ (d : Dev) (k : Ctx) (e : Fin 256) (rd : BitVec 4) (w : Word), w &&& 0xFFC03F00 = encR 0x3B rd 0 0 7 → w &&& 0xFF = 0 → IssuesS e k w d →
    Runs (.rdsr e rd 7) d ((d.advance k).setS k.e rd.toNat (BitVec.ofNat 32 ((d.advance k).clusterMHz (k.e / 16))))) ∧
  (∀ (d : Dev) (k : Ctx) (e : Fin 256) (rd : BitVec 4) (w : Word), w &&& 0xFFC03F00 = encR 0x3B rd 0 0 3 → w &&& 0xFF = 0 → IssuesS e k w d →
    RunsTo (.rdsr e rd 3) d fun t => ∃ v, t = ((d.advance k).fresh 32).2.setS k.e rd.toNat v) ∧
  (∀ (d : Dev) (k : Ctx) (e : Fin 256) (rd : BitVec 4) (w : Word), w &&& 0xFFC03F00 = encR 0x3B rd 0 0 4 → w &&& 0xFF = 0 → IssuesS e k w d →
    RunsTo (.rdsr e rd 4) d fun t => ∃ v, t = ((d.advance k).fresh 32).2.setS k.e rd.toNat v) ∧
  (∀ (d : Dev) (k : Ctx) (e : Fin 256) (w : Word), w &&& 0xFC003F00 = encR 0x3C 0 0 0 0 → w &&& 0xFF = 0 → IssuesS e k w d →
    k.x.xfers.any (·.store) = false → Runs (.msync e) d (d.advance k)) ∧
  (∀ (d : Dev) (k : Ctx) (e : Fin 256) (w : Word), w &&& 0xFC003F00 = encR 0x3C 0 0 0 0 → w &&& 0xFF = 0 → IssuesS e k w d →
    k.x.xfers.any (·.store) = true → Runs (.msync e) d (d))

/-- A bundle of a running engine whose slot V is a lane operation and whose slot S is NOP takes its operands as they stood and writes to the lanes of vd that pm enables the lane results of R370 (wrapping, saturating, absolute difference, minimum, maximum, bitwise, products, rounded average, shifts, immediates); the other lanes keep their value, the PC goes on and nothing else changes. VNOP only goes on, and a slot V that no row names raises ILLEGAL. Lanes of w = 1 are 8 bits wide, of w = 0 16 bits. -/
def Obligations.VectorArithmetic : Prop :=
  (∀ (d : Dev) (k : Ctx) (e : Fin 256), IssuesV e k 0 d → Runs (.vnop e) d (d.advance k)) ∧
  (∀ (d : Dev) (k : Ctx) (e : Fin 256) (v : Word), d.fetch e = some (k, 0, v) → slotV v = none → Runs (.vnop e) d (d.kernelFault k.e 1 1 0)) ∧
  (∀ (d : Dev) (k : Ctx) (e : Fin 256) (vd va vb : BitVec 5) (pm : BitVec 3) (w : Bool), IssuesV e k (encVR 0x01 vd va vb pm w 0) d →
    Runs (.vadd e vd va vb pm w) d ((d.advance k).setV k.e vd.toNat (mergeLanes w (k.x.preg pm.toNat) (k.x.vreg vd.toNat) (laneMap w (fun a b => (a + b) % 2 ^ laneBits w) (k.x.vreg va.toNat) (k.x.vreg vb.toNat))))) ∧
  (∀ (d : Dev) (k : Ctx) (e : Fin 256) (vd va vb : BitVec 5) (pm : BitVec 3) (w : Bool), IssuesV e k (encVR 0x01 vd va vb pm w 1) d →
    Runs (.vsub e vd va vb pm w) d ((d.advance k).setV k.e vd.toNat (mergeLanes w (k.x.preg pm.toNat) (k.x.vreg vd.toNat) (laneMap w (fun a b => ((a : Int) - b) % 2 ^ laneBits w |>.toNat) (k.x.vreg va.toNat) (k.x.vreg vb.toNat))))) ∧
  (∀ (d : Dev) (k : Ctx) (e : Fin 256) (vd va vb : BitVec 5) (pm : BitVec 3) (w : Bool), IssuesV e k (encVR 0x01 vd va vb pm w 2) d →
    Runs (.vadds e vd va vb pm w) d ((d.advance k).setV k.e vd.toNat (mergeLanes w (k.x.preg pm.toNat) (k.x.vreg vd.toNat) (laneMap w (fun a b => min (a + b) (2 ^ laneBits w - 1)) (k.x.vreg va.toNat) (k.x.vreg vb.toNat))))) ∧
  (∀ (d : Dev) (k : Ctx) (e : Fin 256) (vd va vb : BitVec 5) (pm : BitVec 3) (w : Bool), IssuesV e k (encVR 0x01 vd va vb pm w 3) d →
    Runs (.vsubs e vd va vb pm w) d ((d.advance k).setV k.e vd.toNat (mergeLanes w (k.x.preg pm.toNat) (k.x.vreg vd.toNat) (laneMap w (fun a b => a - b) (k.x.vreg va.toNat) (k.x.vreg vb.toNat))))) ∧
  (∀ (d : Dev) (k : Ctx) (e : Fin 256) (vd va vb : BitVec 5) (pm : BitVec 3) (w : Bool), IssuesV e k (encVR 0x01 vd va vb pm w 4) d →
    Runs (.vabsd e vd va vb pm w) d ((d.advance k).setV k.e vd.toNat (mergeLanes w (k.x.preg pm.toNat) (k.x.vreg vd.toNat) (laneMap w (fun a b => max a b - min a b) (k.x.vreg va.toNat) (k.x.vreg vb.toNat))))) ∧
  (∀ (d : Dev) (k : Ctx) (e : Fin 256) (vd va vb : BitVec 5) (pm : BitVec 3) (w : Bool), IssuesV e k (encVR 0x01 vd va vb pm w 5) d →
    Runs (.vmin e vd va vb pm w) d ((d.advance k).setV k.e vd.toNat (mergeLanes w (k.x.preg pm.toNat) (k.x.vreg vd.toNat) (laneMap w (fun a b => min a b) (k.x.vreg va.toNat) (k.x.vreg vb.toNat))))) ∧
  (∀ (d : Dev) (k : Ctx) (e : Fin 256) (vd va vb : BitVec 5) (pm : BitVec 3) (w : Bool), IssuesV e k (encVR 0x01 vd va vb pm w 6) d →
    Runs (.vmax e vd va vb pm w) d ((d.advance k).setV k.e vd.toNat (mergeLanes w (k.x.preg pm.toNat) (k.x.vreg vd.toNat) (laneMap w (fun a b => max a b) (k.x.vreg va.toNat) (k.x.vreg vb.toNat))))) ∧
  (∀ (d : Dev) (k : Ctx) (e : Fin 256) (vd va vb : BitVec 5) (pm : BitVec 3) (w : Bool), IssuesV e k (encVR 0x01 vd va vb pm w 7) d →
    Runs (.vand e vd va vb pm w) d ((d.advance k).setV k.e vd.toNat (mergeLanes w (k.x.preg pm.toNat) (k.x.vreg vd.toNat) (k.x.vreg va.toNat &&& k.x.vreg vb.toNat)))) ∧
  (∀ (d : Dev) (k : Ctx) (e : Fin 256) (vd va vb : BitVec 5) (pm : BitVec 3) (w : Bool), IssuesV e k (encVR 0x01 vd va vb pm w 8) d →
    Runs (.vor e vd va vb pm w) d ((d.advance k).setV k.e vd.toNat (mergeLanes w (k.x.preg pm.toNat) (k.x.vreg vd.toNat) (k.x.vreg va.toNat ||| k.x.vreg vb.toNat)))) ∧
  (∀ (d : Dev) (k : Ctx) (e : Fin 256) (vd va vb : BitVec 5) (pm : BitVec 3) (w : Bool), IssuesV e k (encVR 0x01 vd va vb pm w 9) d →
    Runs (.vxor e vd va vb pm w) d ((d.advance k).setV k.e vd.toNat (mergeLanes w (k.x.preg pm.toNat) (k.x.vreg vd.toNat) (k.x.vreg va.toNat ^^^ k.x.vreg vb.toNat)))) ∧
  (∀ (d : Dev) (k : Ctx) (e : Fin 256) (vd va vb : BitVec 5) (pm : BitVec 3) (w : Bool), IssuesV e k (encVR 0x01 vd va vb pm w 10) d →
    Runs (.vmul e vd va vb pm w) d ((d.advance k).setV k.e vd.toNat (mergeLanes w (k.x.preg pm.toNat) (k.x.vreg vd.toNat) (laneMap w (fun a b => a * b % 2 ^ laneBits w) (k.x.vreg va.toNat) (k.x.vreg vb.toNat))))) ∧
  (∀ (d : Dev) (k : Ctx) (e : Fin 256) (vd va vb : BitVec 5) (pm : BitVec 3) (w : Bool), IssuesV e k (encVR 0x01 vd va vb pm w 11) d →
    Runs (.vmulh e vd va vb pm w) d ((d.advance k).setV k.e vd.toNat (mergeLanes w (k.x.preg pm.toNat) (k.x.vreg vd.toNat) (laneMap w (fun a b => a * b / 2 ^ laneBits w) (k.x.vreg va.toNat) (k.x.vreg vb.toNat))))) ∧
  (∀ (d : Dev) (k : Ctx) (e : Fin 256) (vd va vb : BitVec 5) (pm : BitVec 3) (w : Bool), IssuesV e k (encVR 0x01 vd va vb pm w 12) d →
    Runs (.vavg e vd va vb pm w) d ((d.advance k).setV k.e vd.toNat (mergeLanes w (k.x.preg pm.toNat) (k.x.vreg vd.toNat) (laneMap w (fun a b => (a + b + 1) / 2) (k.x.vreg va.toNat) (k.x.vreg vb.toNat))))) ∧
  (∀ (d : Dev) (k : Ctx) (e : Fin 256) (vd va vb : BitVec 5) (pm : BitVec 3) (w : Bool), IssuesV e k (encVR 0x01 vd va vb pm w 13) d →
    Runs (.vshl e vd va vb pm w) d ((d.advance k).setV k.e vd.toNat (mergeLanes w (k.x.preg pm.toNat) (k.x.vreg vd.toNat) (laneMap w (fun a b => a * 2 ^ (b % 16) % 2 ^ laneBits w) (k.x.vreg va.toNat) (k.x.vreg vb.toNat))))) ∧
  (∀ (d : Dev) (k : Ctx) (e : Fin 256) (vd va vb : BitVec 5) (pm : BitVec 3) (w : Bool), IssuesV e k (encVR 0x01 vd va vb pm w 14) d →
    Runs (.vshr e vd va vb pm w) d ((d.advance k).setV k.e vd.toNat (mergeLanes w (k.x.preg pm.toNat) (k.x.vreg vd.toNat) (laneMap w (fun a b => a / 2 ^ (b % 16)) (k.x.vreg va.toNat) (k.x.vreg vb.toNat))))) ∧
  (∀ (d : Dev) (k : Ctx) (e : Fin 256) (vd va vb : BitVec 5) (pm : BitVec 3) (w : Bool), IssuesV e k (encVR 0x01 vd va vb pm w 15) d →
    Runs (.vsar e vd va vb pm w) d ((d.advance k).setV k.e vd.toNat (mergeLanes w (k.x.preg pm.toNat) (k.x.vreg vd.toNat) (ofLanes w fun i => wrapLane w (laneInt w (k.x.vreg va.toNat) i / 2 ^ (lane w (k.x.vreg vb.toNat) i % 16)))))) ∧
  (∀ (d : Dev) (k : Ctx) (e : Fin 256) (vd va : BitVec 5) (pm : BitVec 3) (w : Bool) (imm : BitVec 12), IssuesV e k (encVI 0x04 vd va pm w imm) d →
    Runs (.vaddi e vd va pm w imm) d ((d.advance k).setV k.e vd.toNat (mergeLanes w (k.x.preg pm.toNat) (k.x.vreg vd.toNat) (ofLanes w fun i => wrapLane w (lane w (k.x.vreg va.toNat) i + imm.toInt))))) ∧
  (∀ (d : Dev) (k : Ctx) (e : Fin 256) (vd va : BitVec 5) (pm : BitVec 3) (w : Bool) (imm : BitVec 4), IssuesV e k (encVI 0x05 vd va pm w (imm.setWidth 12)) d →
    Runs (.vshli e vd va pm w imm) d ((d.advance k).setV k.e vd.toNat (mergeLanes w (k.x.preg pm.toNat) (k.x.vreg vd.toNat) (ofLanes w fun i => lane w (k.x.vreg va.toNat) i * 2 ^ imm.toNat % 2 ^ laneBits w)))) ∧
  (∀ (d : Dev) (k : Ctx) (e : Fin 256) (vd va : BitVec 5) (pm : BitVec 3) (w : Bool) (imm : BitVec 4), IssuesV e k (encVI 0x06 vd va pm w (imm.setWidth 12)) d →
    Runs (.vshri e vd va pm w imm) d ((d.advance k).setV k.e vd.toNat (mergeLanes w (k.x.preg pm.toNat) (k.x.vreg vd.toNat) (ofLanes w fun i => lane w (k.x.vreg va.toNat) i / 2 ^ imm.toNat)))) ∧
  (∀ (d : Dev) (k : Ctx) (e : Fin 256) (vd va : BitVec 5) (pm : BitVec 3) (w : Bool) (imm : BitVec 4), IssuesV e k (encVI 0x07 vd va pm w (imm.setWidth 12)) d →
    Runs (.vsari e vd va pm w imm) d ((d.advance k).setV k.e vd.toNat (mergeLanes w (k.x.preg pm.toNat) (k.x.vreg vd.toNat) (ofLanes w fun i => wrapLane w (laneInt w (k.x.vreg va.toNat) i / 2 ^ imm.toNat))))) ∧
  (∀ (d : Dev) (k : Ctx) (e : Fin 256) (vd : BitVec 5) (pm : BitVec 3) (w : Bool) (imm : BitVec 12) (u : Word), u &&& 0xFFE0FFFF = encVI 0x08 vd 0 pm w imm → u &&& 0x1F0000 = 0 → IssuesV e k u d →
    Runs (.vsplati e vd pm w imm) d ((d.advance k).setV k.e vd.toNat (mergeLanes w (k.x.preg pm.toNat) (k.x.vreg vd.toNat) (ofLanes w fun _ => wrapLane w imm.toInt))))

/-- Comparisons write one predicate bit per 8-bit place and 0 for disabled lanes; predicate operations act on the places that pm enables; VSEL takes va where pm enables a lane and vb elsewhere; splat, extract and insert move scalars; reductions count the enabled lanes only (the maximum of no lane is a free value of the model); a slide moves the lanes of one register or of the concatenation of two, and a lane the spec names no source for is free; VWIDEL and VWIDEH widen 16 bytes, VNARROW narrows with saturation; VDOT of 8-bit lanes raises ILLEGAL. -/
def Obligations.VectorSelectionAndReduction : Prop :=
  (∀ (d : Dev) (k : Ctx) (e : Fin 256) (pd : BitVec 3) (va vb : BitVec 5) (pm : BitVec 3) (w : Bool), IssuesV e k (encVR 0x02 (predField pd) va vb pm w 0) d →
    Runs (.vcmpeq e pd va vb pm w) d ((d.advance k).setP k.e pd.toNat (compareLanes w (k.x.preg pm.toNat) fun i => decide (lane w (k.x.vreg va.toNat) i = lane w (k.x.vreg vb.toNat) i)))) ∧
  (∀ (d : Dev) (k : Ctx) (e : Fin 256) (pd : BitVec 3) (va vb : BitVec 5) (pm : BitVec 3) (w : Bool), IssuesV e k (encVR 0x02 (predField pd) va vb pm w 1) d →
    Runs (.vcmplt e pd va vb pm w) d ((d.advance k).setP k.e pd.toNat (compareLanes w (k.x.preg pm.toNat) fun i => decide (laneInt w (k.x.vreg va.toNat) i < laneInt w (k.x.vreg vb.toNat) i)))) ∧
  (∀ (d : Dev) (k : Ctx) (e : Fin 256) (pd : BitVec 3) (va vb : BitVec 5) (pm : BitVec 3) (w : Bool), IssuesV e k (encVR 0x02 (predField pd) va vb pm w 2) d →
    Runs (.vcmpltu e pd va vb pm w) d ((d.advance k).setP k.e pd.toNat (compareLanes w (k.x.preg pm.toNat) fun i => decide (lane w (k.x.vreg va.toNat) i < lane w (k.x.vreg vb.toNat) i)))) ∧
  (∀ (d : Dev) (k : Ctx) (e : Fin 256) (pd : BitVec 3) (va vb : BitVec 5) (pm : BitVec 3) (w : Bool), IssuesV e k (encVR 0x02 (predField pd) va vb pm w 3) d →
    Runs (.vcmpge e pd va vb pm w) d ((d.advance k).setP k.e pd.toNat (compareLanes w (k.x.preg pm.toNat) fun i => decide (laneInt w (k.x.vreg va.toNat) i ≥ laneInt w (k.x.vreg vb.toNat) i)))) ∧
  (∀ (d : Dev) (k : Ctx) (e : Fin 256) (pd : BitVec 3) (va vb : BitVec 5) (pm : BitVec 3) (w : Bool), IssuesV e k (encVR 0x02 (predField pd) va vb pm w 4) d →
    Runs (.vcmpgeu e pd va vb pm w) d ((d.advance k).setP k.e pd.toNat (compareLanes w (k.x.preg pm.toNat) fun i => decide (lane w (k.x.vreg va.toNat) i ≥ lane w (k.x.vreg vb.toNat) i)))) ∧
  (∀ (d : Dev) (k : Ctx) (e : Fin 256) (pd pa pb pm : BitVec 3) (w : Bool), IssuesV e k (encVR 0x03 (predField pd) (predField pa) (predField pb) pm w 0) d →
    Runs (.pand e pd pa pb pm w) d ((d.advance k).setP k.e pd.toNat (mergePlaces w (k.x.preg pm.toNat) (k.x.preg pd.toNat) (k.x.preg pa.toNat &&& k.x.preg pb.toNat)))) ∧
  (∀ (d : Dev) (k : Ctx) (e : Fin 256) (pd pa pb pm : BitVec 3) (w : Bool), IssuesV e k (encVR 0x03 (predField pd) (predField pa) (predField pb) pm w 1) d →
    Runs (.por e pd pa pb pm w) d ((d.advance k).setP k.e pd.toNat (mergePlaces w (k.x.preg pm.toNat) (k.x.preg pd.toNat) (k.x.preg pa.toNat ||| k.x.preg pb.toNat)))) ∧
  (∀ (d : Dev) (k : Ctx) (e : Fin 256) (pd pa pb pm : BitVec 3) (w : Bool), IssuesV e k (encVR 0x03 (predField pd) (predField pa) (predField pb) pm w 2) d →
    Runs (.pxor e pd pa pb pm w) d ((d.advance k).setP k.e pd.toNat (mergePlaces w (k.x.preg pm.toNat) (k.x.preg pd.toNat) (k.x.preg pa.toNat ^^^ k.x.preg pb.toNat)))) ∧
  (∀ (d : Dev) (k : Ctx) (e : Fin 256) (pd pa pb pm : BitVec 3) (w : Bool), IssuesV e k (encVR 0x03 (predField pd) (predField pa) (predField pb) pm w 3) d →
    Runs (.pandn e pd pa pb pm w) d ((d.advance k).setP k.e pd.toNat (mergePlaces w (k.x.preg pm.toNat) (k.x.preg pd.toNat) (k.x.preg pa.toNat &&& ~~~ k.x.preg pb.toNat)))) ∧
  (∀ (d : Dev) (k : Ctx) (e : Fin 256) (pd pm : BitVec 3) (w : Bool) (u : Word), u &&& 0xFCE007FF = encVR 0x03 (predField pd) 0 0 pm w 4 → u &&& 0x3000000 = 0 → IssuesV e k u d →
    Runs (.pset e pd pm w) d ((d.advance k).setP k.e pd.toNat (mergePlaces w (k.x.preg pm.toNat) (k.x.preg pd.toNat) (0xFFFFFFFF)))) ∧
  (∀ (d : Dev) (k : Ctx) (e : Fin 256) (pd pm : BitVec 3) (w : Bool) (u : Word), u &&& 0xFCE007FF = encVR 0x03 (predField pd) 0 0 pm w 5 → u &&& 0x3000000 = 0 → IssuesV e k u d →
    Runs (.pclr e pd pm w) d ((d.advance k).setP k.e pd.toNat (mergePlaces w (k.x.preg pm.toNat) (k.x.preg pd.toNat) (0)))) ∧
  (∀ (d : Dev) (k : Ctx) (e : Fin 256) (vd va vb : BitVec 5) (pm : BitVec 3) (w : Bool), IssuesV e k (encVR 0x09 vd va vb pm w 0) d →
    Runs (.vsel e vd va vb pm w) d ((d.advance k).setV k.e vd.toNat (mergeLanes w (k.x.preg pm.toNat) (k.x.vreg vb.toNat) (k.x.vreg va.toNat)))) ∧
  (∀ (d : Dev) (k : Ctx) (e : Fin 256) (vd : BitVec 5) (sb : BitVec 4) (pm : BitVec 3) (w : Bool) (u : Word), u &&& 0xFFE0FFFF = encVS 0x0A vd 0 sb pm w 0 → IssuesV e k u d →
    Runs (.vsplat e vd sb pm w) d ((d.advance k).setV k.e vd.toNat (mergeLanes w (k.x.preg pm.toNat) (k.x.vreg vd.toNat) (ofLanes w fun _ => (k.x.sreg sb.toNat).toNat)))) ∧
  (∀ (d : Dev) (k : Ctx) (e : Fin 256) (vd va : BitVec 5) (sb : BitVec 4) (pm : BitVec 3) (w : Bool) (fn : BitVec 8), IssuesV e k (encVS 0x0B vd va sb pm w fn) d →
    fn.toNat < 32 → Runs (.vmuls e vd va sb pm w fn) d ((d.advance k).setV k.e vd.toNat (mergeLanes w (k.x.preg pm.toNat) (k.x.vreg vd.toNat) (ofLanes w fun i => mulScaled w fn.toNat (lane w (k.x.vreg va.toNat) i) ((k.x.sreg sb.toNat).toNat % 2 ^ 16))))) ∧
  (∀ (d : Dev) (k : Ctx) (e : Fin 256) (sd : BitVec 4) (va : BitVec 5) (w : Bool) (fn : BitVec 8) (u : Word), u &&& 0xFDFF01FF = encVS 0x0C (scalarField sd) va 0 0 w fn → u &&& 0x2000000 = 0 → IssuesV e k u d →
    fn.toNat < laneCount w → Runs (.vextr e sd va w fn) d ((d.advance k).setS k.e sd.toNat (BitVec.ofNat 32 (lane w (k.x.vreg va.toNat) fn.toNat)))) ∧
  (∀ (d : Dev) (k : Ctx) (e : Fin 256) (vd : BitVec 5) (sb : BitVec 4) (pm : BitVec 3) (w : Bool) (fn : BitVec 8) (u : Word), u &&& 0xFFE0FFFF = encVS 0x0D vd 0 sb pm w fn → IssuesV e k u d →
    fn.toNat < laneCount w → Runs (.vins e vd sb pm w fn) d ((d.advance k).setV k.e vd.toNat (mergeLanes w (k.x.preg pm.toNat) (k.x.vreg vd.toNat) (ofLanes w fun i => if i = fn.toNat then (k.x.sreg sb.toNat).toNat else lane w (k.x.vreg vd.toNat) i)))) ∧
  (∀ (d : Dev) (k : Ctx) (e : Fin 256) (sd : BitVec 4) (va : BitVec 5) (pm : BitVec 3) (w : Bool) (u : Word), u &&& 0xFDFF0FFF = encVS 0x0E (scalarField sd) va 0 pm w 0 → u &&& 0x2000000 = 0 → IssuesV e k u d →
    Runs (.vrsum e sd va pm w) d ((d.advance k).setS k.e sd.toNat (BitVec.ofNat 32 (laneSum w (k.x.preg pm.toNat) (lane w (k.x.vreg va.toNat)))))) ∧
  (∀ (d : Dev) (k : Ctx) (e : Fin 256) (sd : BitVec 4) (va : BitVec 5) (pm : BitVec 3) (w : Bool) (u : Word), u &&& 0xFDFF0FFF = encVS 0x0F (scalarField sd) va 0 pm w 0 → u &&& 0x2000000 = 0 → IssuesV e k u d →
    enabledLanes w (k.x.preg pm.toNat) ≠ [] → Runs (.vrmax e sd va pm w) d ((d.advance k).setS k.e sd.toNat (BitVec.ofNat 32 ((enabledLanes w (k.x.preg pm.toNat)).foldl (fun m i => max m (lane w (k.x.vreg va.toNat) i)) 0)))) ∧
  (∀ (d : Dev) (k : Ctx) (e : Fin 256) (sd : BitVec 4) (va : BitVec 5) (pm : BitVec 3) (w : Bool) (u : Word), u &&& 0xFDFF0FFF = encVS 0x0F (scalarField sd) va 0 pm w 0 → u &&& 0x2000000 = 0 → IssuesV e k u d →
    enabledLanes w (k.x.preg pm.toNat) = [] → RunsTo (.vrmax e sd va pm w) d fun t => ∃ x, t = ((d.advance k).fresh 32).2.setS k.e sd.toNat x) ∧
  (∀ (d : Dev) (k : Ctx) (e : Fin 256) (sd : BitVec 4) (pm : BitVec 3) (w : Bool) (u : Word), u &&& 0xFDE00FFF = encVS 0x10 (scalarField sd) 0 0 pm w 0 → u &&& 0x2000000 = 0 → IssuesV e k u d →
    Runs (.vpcnt e sd pm w) d ((d.advance k).setS k.e sd.toNat (BitVec.ofNat 32 (enabledLanes w (k.x.preg pm.toNat)).length))) ∧
  (∀ (d : Dev) (k : Ctx) (e : Fin 256) (sd : BitVec 4) (pm : BitVec 3) (w : Bool) (u : Word), u &&& 0xFDE00FFF = encVS 0x11 (scalarField sd) 0 0 pm w 0 → u &&& 0x2000000 = 0 → IssuesV e k u d →
    Runs (.vpfirst e sd pm w) d ((d.advance k).setS k.e sd.toNat (BitVec.ofNat 32 ((enabledLanes w (k.x.preg pm.toNat)).headD (laneCount w))))) ∧
  (∀ (d : Dev) (k : Ctx) (e : Fin 256) (sd : BitVec 4) (va vb : BitVec 5) (pm : BitVec 3) (w : Bool), IssuesV e k (encVR 0x12 (scalarField sd) va vb pm w 0) d →
    Runs (.vsad e sd va vb pm w) d ((d.advance k).setS k.e sd.toNat (BitVec.ofNat 32 (laneSum w (k.x.preg pm.toNat) fun i => absDiff (lane w (k.x.vreg va.toNat) i) (lane w (k.x.vreg vb.toNat) i))))) ∧
  (∀ (d : Dev) (k : Ctx) (e : Fin 256) (sd : BitVec 4) (va vb : BitVec 5) (pm : BitVec 3), IssuesV e k (encVR 0x13 (scalarField sd) va vb pm false 0) d →
    Runs (.vdot e sd va vb pm false) d ((d.advance k).setS k.e sd.toNat (k.x.sreg sd.toNat + BitVec.ofInt 32 (((enabledLanes false (k.x.preg pm.toNat)).map fun i => laneInt false (k.x.vreg va.toNat) i * laneInt false (k.x.vreg vb.toNat) i).sum)))) ∧
  (∀ (d : Dev) (k : Ctx) (e : Fin 256) (sd : BitVec 4) (va vb : BitVec 5) (pm : BitVec 3), IssuesV e k (encVR 0x13 (scalarField sd) va vb pm true 0) d →
    Runs (.vdot e sd va vb pm true) d (d.kernelFault k.e 1 1 0)) ∧
  (∀ (d : Dev) (k : Ctx) (e : Fin 256) (vd va : BitVec 5) (sb : BitVec 4) (pm : BitVec 3) (w : Bool), IssuesV e k (encVS 0x14 vd va sb pm w 0) d →
    RunsTo (.vslide e vd va sb pm w) d fun t => ∃ new : VWord,
      (t = (d.advance k).setV k.e vd.toNat (mergeLanes w (k.x.preg pm.toNat) (k.x.vreg vd.toNat) new) ∨
        t = ((d.advance k).fresh 256).2.setV k.e vd.toNat (mergeLanes w (k.x.preg pm.toNat) (k.x.vreg vd.toNat) new)) ∧
      ∀ i, i < laneCount w → i + (k.x.sreg sb.toNat).toNat % 64 < laneCount w → lane w new i = lane w (k.x.vreg va.toNat) (i + (k.x.sreg sb.toNat).toNat % 64)) ∧
  (∀ (d : Dev) (k : Ctx) (e : Fin 256) (vd va vb : BitVec 5) (pm : BitVec 3) (w : Bool) (fn : BitVec 7), IssuesV e k (encVR 0x15 vd va vb pm w fn) d →
    fn.toNat < 64 → RunsTo (.vslidei e vd va vb pm w fn) d fun t => ∃ new : VWord,
      (t = (d.advance k).setV k.e vd.toNat (mergeLanes w (k.x.preg pm.toNat) (k.x.vreg vd.toNat) new) ∨
        t = ((d.advance k).fresh 256).2.setV k.e vd.toNat (mergeLanes w (k.x.preg pm.toNat) (k.x.vreg vd.toNat) new)) ∧
      ∀ i, i < laneCount w → i + fn.toNat < 2 * laneCount w → lane w new i = if i + fn.toNat < laneCount w then lane w (k.x.vreg va.toNat) (i + fn.toNat) else lane w (k.x.vreg vb.toNat) (i + fn.toNat - laneCount w)) ∧
  (∀ (d : Dev) (k : Ctx) (e : Fin 256) (vd va : BitVec 5) (pm : BitVec 3) (u : Word), u &&& 0xFFFF07FF = encVR 0x16 vd va 0 pm false 0 → IssuesV e k u d →
    Runs (.vwidel e vd va pm false) d ((d.advance k).setV k.e vd.toNat (mergeLanes false (k.x.preg pm.toNat) (k.x.vreg vd.toNat) (ofLanes false fun i => lane true (k.x.vreg va.toNat) (0 + i))))) ∧
  (∀ (d : Dev) (k : Ctx) (e : Fin 256) (vd va : BitVec 5) (pm : BitVec 3) (u : Word), u &&& 0xFFFF07FF = encVR 0x17 vd va 0 pm false 0 → IssuesV e k u d →
    Runs (.vwideh e vd va pm false) d ((d.advance k).setV k.e vd.toNat (mergeLanes false (k.x.preg pm.toNat) (k.x.vreg vd.toNat) (ofLanes false fun i => lane true (k.x.vreg va.toNat) (16 + i))))) ∧
  (∀ (d : Dev) (k : Ctx) (e : Fin 256) (vd va vb : BitVec 5) (pm : BitVec 3), IssuesV e k (encVR 0x18 vd va vb pm true 0) d →
    Runs (.vnarrow e vd va vb pm true) d ((d.advance k).setV k.e vd.toNat (mergeLanes true (k.x.preg pm.toNat) (k.x.vreg vd.toNat) (ofLanes true fun i => min (if i < 16 then lane false (k.x.vreg va.toNat) i else lane false (k.x.vreg vb.toNat) (i - 16)) 255))))

/-- VLD loads the bytes of a vector whose lanes pm enables and VST stores those bytes, at s[sa] + imm13, or at s[sa] with s[sa] then increased by imm13; an address outside every range raises ADDR. A completed XLD frees its tag and its bytes wait for XWAIT, a completed XST has written its data; an activation of STE_EVENT counts its events modulo 2^32. -/
def Obligations.VectorMemoryAndCompletions : Prop :=
  (∀ (d : Dev) (k : Ctx) (e : Fin 256) (vd : BitVec 5) (sa : BitVec 4) (pm : BitVec 3) (imm : BitVec 13) (x : Nat), IssuesV e k (encVM 0x20 vd sa pm false imm) d →
    k.access false ((k.x.sreg sa.toNat + imm.signExtend 32).toNat) 32 d = .ok x → Runs (.vld e vd sa pm false imm) d ((d.advance k).setV k.e vd.toNat (mergeLanes true (k.x.preg pm.toNat) (k.x.vreg vd.toNat) (ofBytes (d.engBytes x 32))))) ∧
  (∀ (d : Dev) (k : Ctx) (e : Fin 256) (vd : BitVec 5) (sa : BitVec 4) (pm : BitVec 3) (imm : BitVec 13), IssuesV e k (encVM 0x20 vd sa pm false imm) d →
    engOffset k.e k.item.home ((k.x.sreg sa.toNat + imm.signExtend 32).toNat) 32 = none → Runs (.vld e vd sa pm false imm) d (d.kernelFault k.e 2 1 0)) ∧
  (∀ (d : Dev) (k : Ctx) (e : Fin 256) (vd : BitVec 5) (sa : BitVec 4) (pm : BitVec 3) (imm : BitVec 13) (x : Nat), IssuesV e k (encVM 0x21 vd sa pm false imm) d →
    k.access true ((k.x.sreg sa.toNat + imm.signExtend 32).toNat) 32 d = .ok x → Runs (.vst e vd sa pm false imm) d ((enabledLanes true (k.x.preg pm.toNat)).foldl (fun (z : Dev) j => z.engPut (x + j) [BitVec.ofNat 8 (lane true (k.x.vreg vd.toNat) j)]) (d.advance k))) ∧
  (∀ (d : Dev) (k : Ctx) (e : Fin 256) (vd : BitVec 5) (sa : BitVec 4) (pm : BitVec 3) (imm : BitVec 13), IssuesV e k (encVM 0x21 vd sa pm false imm) d →
    engOffset k.e k.item.home ((k.x.sreg sa.toNat + imm.signExtend 32).toNat) 32 = none → Runs (.vst e vd sa pm false imm) d (d.kernelFault k.e 2 1 0)) ∧
  (∀ (d : Dev) (k : Ctx) (e : Fin 256) (vd : BitVec 5) (sa : BitVec 4) (pm : BitVec 3) (imm : BitVec 13) (x : Nat), IssuesV e k (encVM 0x20 vd sa pm true imm) d →
    k.access false ((k.x.sreg sa.toNat).toNat) 32 d = .ok x → Runs (.vld e vd sa pm true imm) d (((d.advance k).setV k.e vd.toNat (mergeLanes true (k.x.preg pm.toNat) (k.x.vreg vd.toNat) (ofBytes (d.engBytes x 32)))).setS k.e sa.toNat (k.x.sreg sa.toNat + imm.signExtend 32))) ∧
  (∀ (d : Dev) (k : Ctx) (e : Fin 256) (vd : BitVec 5) (sa : BitVec 4) (pm : BitVec 3) (imm : BitVec 13), IssuesV e k (encVM 0x20 vd sa pm true imm) d →
    engOffset k.e k.item.home ((k.x.sreg sa.toNat).toNat) 32 = none → Runs (.vld e vd sa pm true imm) d (d.kernelFault k.e 2 1 0)) ∧
  (∀ (d : Dev) (k : Ctx) (e : Fin 256) (vd : BitVec 5) (sa : BitVec 4) (pm : BitVec 3) (imm : BitVec 13) (x : Nat), IssuesV e k (encVM 0x21 vd sa pm true imm) d →
    k.access true ((k.x.sreg sa.toNat).toNat) 32 d = .ok x → Runs (.vst e vd sa pm true imm) d (((enabledLanes true (k.x.preg pm.toNat)).foldl (fun (z : Dev) j => z.engPut (x + j) [BitVec.ofNat 8 (lane true (k.x.vreg vd.toNat) j)]) (d.advance k)).setS k.e sa.toNat (k.x.sreg sa.toNat + imm.signExtend 32))) ∧
  (∀ (d : Dev) (k : Ctx) (e : Fin 256) (vd : BitVec 5) (sa : BitVec 4) (pm : BitVec 3) (imm : BitVec 13), IssuesV e k (encVM 0x21 vd sa pm true imm) d →
    engOffset k.e k.item.home ((k.x.sreg sa.toNat).toNat) 32 = none → Runs (.vst e vd sa pm true imm) d (d.kernelFault k.e 2 1 0)) ∧
  (∀ (d : Dev) (e : Fin 256) (t : Fin 4) (q : Xfer), (d.eng e).xfers.find? (fun p => p.tag == t.val) = some q → q.store = false →
    (d.eng e).kernel.isSome = true → q.run = (d.eng e).runs → ∀ (bs : List Byte) (y : Dev), d.runRead (0x30 + e / 16) q.da q.len = (.ok, bs, y) →
    Runs (.xferComplete e t) d ((y.modEng e fun z => { z with xfers := z.xfers.filter (fun p => p ≠ q) }).modEng e
      fun z => { z with landed := z.landed ++ [(t.val, q.at_, aliasBytes q.op q.data bs)] })) ∧
  (∀ (d : Dev) (e : Fin 256) (t : Fin 4) (q : Xfer), (d.eng e).xfers.find? (fun p => p.tag == t.val) = some q → q.store = true →
    d.engBytes q.at_ q.len = q.data → ∀ (y : Dev), d.runWrite (0x30 + e / 16) q.da q.data = (.ok, y) →
    Runs (.xferComplete e t) d (y.modEng e fun z => { z with xfers := z.xfers.filter (fun p => p ≠ q) })) ∧
  (∀ (d d1 : Dev) (c : Fin 16) (a : Act), d.clusterOn c = true → d.activate (Task.steEvent c) = (some a, d1) →
    Runs (.steEvent c) d (d1.modCluster c fun k => { k with events := (k.events + a.n) % 2 ^ 32, evHop := a.hop }))

/-- The first item of a dispatch queue that may be pushed goes to the engine with the least items; an idle engine takes the head of its deque and starts it; a search takes the tail item of the fullest deque of its cluster, and a probed cluster gives an item or refuses; a retry ends the wait; the watchdog fences an engine whose time on its item has passed the limit and does nothing before; a software fence of an active engine fences it; a cluster reset fences every engine; a reset that ends clears the registers and the engine is IDLE or OFF, one that takes 1 us makes it FAULT; a write of STE_CFG turns engines without work on and off; a result that its item still awaits is held, a late one is discarded and counted. -/
def Obligations.EnginesTakeStealAndFence : Prop :=
  (∀ (d : Dev) (k : Fin 16) (i : Item) (rest : List Item) (e : Nat), (d.cluster k).queue = i :: rest → d.mayPush i = true → d.pushTarget k none = some e →
    d.clusterOn k = true → (∀ j ∈ i :: rest, j.cam = i.cam → j.deferred = i.deferred → 0 < (i.seq + 2 ^ 32 - j.seq) % 2 ^ 32 →
      2 ^ 31 ≤ (i.seq + 2 ^ 32 - j.seq) % 2 ^ 32) → Runs (.dispatchQueuePush k) d ((d.modCluster k fun x => { x with queue := x.queue.erase i }).pushTo e false i)) ∧
  (∀ (d : Dev) (k : Fin 16), (d.cluster k).queue = [] → Runs (.dispatchQueuePush k) d d) ∧
  (∀ (d : Dev) (e : Fin 256) (i : Item) (rest : List Item), (d.eng e).deque = i :: rest → ((d.eng e).state = .idle ∨ (d.eng e).state = .steal) →
    d.clusterOn (e / 16) = true → d.rowsFinal i = true → (d.cluster (e / 16)).probe = none → (d.cluster (e / 16)).retry = [] →
    Runs (.engineTake e) d (((d.modCluster (e / 16) fun x => { x with
      probe := (match x.probe with | some p => if p.1 = e.val then none else some p | none => none), retry := x.retry.filter (fun p => p.1 ≠ e.val) }).setEng e
        { d.eng e with deque := rest }).startItem e i)) ∧
  (∀ (d : Dev) (k : Fin 16) (e v : Nat), (d.cluster k).probe = none → d.clusterOn k = true →
    ((List.range 16).map (fun i => 16 * k.val + i)).find? (fun e => (d.eng e).state == .steal && (d.eng e).deque.isEmpty) = some e →
    d.victim k e d.stealable = some v →
    Runs (.stealSearch k) d ((d.bump (R.STE_CNT2 k) F.STE_CNT2_STEAL_LOCAL_CNT 1).stealFrom v e)) ∧
  (∀ (d : Dev) (k : Fin 16) (e p : Nat) (rest : List Nat), (d.cluster k).probe = some (e, p :: rest) → rest ≠ [] →
    (d.clusterOn p && d.b (R.STE_CFG p) F.STE_CFG_STEAL_IN) = false →
    Runs (.stealProbeAnswer k) d (d.modCluster k fun x => { x with probe := some (e, rest) })) ∧
  (∀ (d : Dev) (k : Fin 16) (e p v : Nat) (rest : List Nat) (ok : Engine → Bool), (d.cluster k).probe = some (e, p :: rest) →
    (d.clusterOn p && d.b (R.STE_CFG p) F.STE_CFG_STEAL_IN) = true →
    (∀ (x : Engine) (i : Item), x.deque.getLast? = some i → ok x = (i.kind == 0 && bitOf (d.kmask k) i.kernel && d.rowsFinal i)) →
    (∀ x : Engine, x.deque.getLast? = none → ok x = false) → d.victim p e ok = some v →
    Runs (.stealProbeAnswer k) d (((d.modCluster k fun x => { x with probe := none }).bump (R.STE_CNT2 k) F.STE_CNT2_STEAL_REMOTE_CNT 1).stealFrom v e)) ∧
  (∀ (d : Dev) (e : Fin 256), (d.cluster (e / 16)).retry.any (fun p => p.1 == e.val && decide (p.2 ≤ d.now)) = true → (d.eng e).state = .idle →
    Runs (.stealRetry e) d ((d.modEng e fun x => { x with state := x.rest }).modCluster (e / 16) fun k => { k with retry := k.retry.filter (fun p => p.1 ≠ e.val) })) ∧
  (∀ (d : Dev) (e : Fin 256), (d.eng e).state = .run → (d.eng e).item.isSome = true → d.f (R.STE_WDOG (e / 16)) F.STE_WDOG_LIMIT ≠ 0 →
    d.f (R.STE_WDOG (e / 16)) F.STE_WDOG_LIMIT * 1000 ≤ d.runTime e → d.pwr.trip = false →
    Runs (.watchdogExpire e) d (((d.bump (R.STE_CNT0 (e / 16)) F.STE_CNT0_WDOG_CNT 1).steBit (e / 16) 0).fence e)) ∧
  (∀ (d : Dev) (e : Fin 256), (d.f (R.STE_WDOG (e / 16)) F.STE_WDOG_LIMIT = 0 ∨ d.runTime e < d.f (R.STE_WDOG (e / 16)) F.STE_WDOG_LIMIT * 1000) →
    Runs (.watchdogExpire e) d d) ∧
  (∀ (d : Dev) (k i : Fin 16), (d.eng (16 * k + i)).state.active = true → Runs (.steFence k i) d ((d.steBit k 1).fence (16 * k + i))) ∧
  (∀ (d : Dev) (k i : Fin 16), (d.eng (16 * k + i)).state.active = false → Runs (.steFence k i) d d) ∧
  (∀ (d : Dev) (k : Fin 16) (v : Word), Runs (.steReset k v) d (d.clusterReset k)) ∧
  (∀ (d : Dev) (e : Fin 256), (d.eng e).state = .fenced →
    Runs (.engineResetDone e) d (((d.landAll e).releaseMarks e).modEng e fun y =>
      { y with state := if d.engEnabled e then .idle else .off, old := none, s := [], v := [], p := [], pc := 0, landed := [] })) ∧
  (∀ (d : Dev) (e : Fin 256), (d.eng e).state = .fenced → (d.eng e).fenceAt + 1000 ≤ d.now →
    Runs (.engineResetTimeout e) d ((d.modEng e fun x => { x with state := .fault }).steErr (e / 16) 5)) ∧
  (∀ (d : Dev) (k : Fin 16) (v : Word), (∀ i : Fin 16, ((d.plainWrite (R.STE_CFG k) v).eng (16 * k + i)).item = none ∧
      ((d.plainWrite (R.STE_CFG k) v).eng (16 * k + i)).deque = []) →
    RunsTo (.engineDisable k v) d fun t => ∀ i : Fin 16, (t.eng (16 * k + i)).state =
      if (d.plainWrite (R.STE_CFG k) v).engEnabled (16 * k + i) then
        (if ((d.plainWrite (R.STE_CFG k) v).eng (16 * k + i)).state = .off then .idle else ((d.plainWrite (R.STE_CFG k) v).eng (16 * k + i)).state)
      else if ((d.plainWrite (R.STE_CFG k) v).eng (16 * k + i)).state.active then .off
      else ((d.plainWrite (R.STE_CFG k) v).eng (16 * k + i)).state) ∧
  (∀ (d : Dev) (e : Fin 256) (f : ResultFlight) (mine : OrderItem → Bool), d.ste.flights.find? (fun f => f.engine == e.val) = some f →
    mine = (fun o => o.item.cam == f.cam && o.item.deferred == f.defer && o.item.seq == f.seq && o.holder == some (f.engine, f.epoch) && !o.ended) → d.ste.order.any mine = true →
    Runs (.resultArrive e) d ((d.modSte fun y => { y with flights := y.flights.erase f }).modSte fun y =>
      { y with order := y.order.map fun o => if mine o then { o with results := o.results ++ [f.result] } else o })) ∧
  (∀ (d : Dev) (e : Fin 256) (f : ResultFlight) (mine : OrderItem → Bool), d.ste.flights.find? (fun f => f.engine == e.val) = some f →
    mine = (fun o => o.item.cam == f.cam && o.item.deferred == f.defer && o.item.seq == f.seq && o.holder == some (f.engine, f.epoch) && !o.ended) → d.ste.order.any mine = false →
    Runs (.resultArrive e) d ((((d.modSte fun y => { y with flights := y.flights.erase f }).dropResult f.result).bump (R.STE_CNT0 (e / 16))
      F.STE_CNT0_LATE_RESULT_CNT 1).steErr (e / 16) 2))

/-- The tile writer takes the oldest entry of its camera: a gap ends the waiting bands at an edge, a frame opens, a row goes into the frame in progress; when a buffer becomes free for late shared rows they are read again if every mark stands; the loader takes the oldest loadable deferred band into a free buffer and its items join the deferred lists, and it loads nothing above shedding level 2. -/
def Obligations.TileWriterAndDeferredLoader : Prop :=
  (∀ (d : Dev) (cam : Fin 48) (rest : List TileIn), (d.tiles cam).queue = .gap :: rest →
    Runs (.tileWriteLine cam) d ((((d.setTiles cam { d.tiles cam with queue := rest }).bandsEdge cam).tileRelease cam).modTiles cam fun y => { y with last := [] })) ∧
  (∀ (d : Dev) (cam : Fin 48) (rest : List TileIn) (f : TileFrame), (d.tiles cam).queue = .frame f :: rest → f.edgeTop = false → (d.tiles cam).bands = [] →
    Runs (.tileWriteLine cam) d ((d.setTiles cam { d.tiles cam with queue := rest }).modTiles cam fun y => { y with frame := some f, count := 0 })) ∧
  (∀ (d : Dev) (cam : Fin 48) (rest : List TileIn) (f : TileFrame) (r : TileRow), (d.tiles cam).queue = .row r :: rest → (d.tiles cam).frame = some f →
    Runs (.tileWriteLine cam) d ((d.setTiles cam { d.tiles cam with queue := rest }).tileRow cam f r)) ∧
  (∀ (d : Dev) (cam : Fin 48) (f : TileFrame) (b : Nat) (ok : Bool), (d.tiles cam).frame = some f → (d.tiles cam).late = true → (d.tiles cam).next = none →
    d.freeBuf cam f.cfg.bands = some b →
    ok = ((d.tiles cam).marks != [] && (d.tiles cam).marks.all fun m => (d.ply m.1).live.any (fun k => k.id == m.2)) →
    Runs (.selvedgeRewind cam) d ((d.tileUnmark cam).modTiles cam fun y => { y with next := some b, rewound := ok })) ∧
  (∀ (d d0 d2 : Dev) (w : Dev) (q : Deferred) (rows : List TileRow) (top bot : Bool) (buf : Nat) (b : Band), d.retroList = d0 → d0.level ≤ 2 → d0.glb.bindoff = .none →
    d0.pwr.trip = false → d0.skeinServes = true → d0.ste.deferred = [q] → d0.mayDefer q = true → d0.deferRead q = d2 → d2.deferRegion q = some (rows, top, bot) →
    d2.freeBuf q.cam q.frame.cfg.bands = some buf → q.cols ≠ [] →
    b = { id := ((d2.modSte fun y => { y with deferred := y.deferred.erase q }).tiles q.cam).nextId, buf := buf, frame := q.frame, kind := 1, y0 := q.y0,
          coreH := q.coreH, rows := rows, full := true, edgeT := top, edgeB := bot, selFill := false, made := true, left := q.cols.length,
          last := decide (q.y0 + q.coreH = q.frame.expect) } →
    ((d2.modSte fun y => { y with deferred := y.deferred.erase q }).modTiles q.cam fun y => { y with bands := y.bands ++ [b], nextId := y.nextId + 1 }).bandRows
      q.frame buf 0 rows = (true, w) →
    Runs .deferredBandLoad d (w.deferItems b q.cols)) ∧
  (∀ (d : Dev), 2 < d.retroList.level → Runs .deferredBandLoad d d.retroList)

/-- A handover whose EXPECT names the owner (or FFh) is accepted and takes effect when it is done, one with another EXPECT is refused and counted; a read of the owner alone at a bank delivers its line and a request of a master that the bank does not grant is denied with the memory as before; requests older than 8 cycles become URGENT; the background test saves a line, reports a compare that fails, and starts a new pass when it is enabled. -/
def Obligations.StashBanksServeAndChangeHands : Prop :=
  (∀ (d : Dev) (k b : Fin 16) (v : Word), d.stash.bad.contains (16 * k.val + b.val) = false → fld v F.STASH_BANK_OWN_OWNER ≠ 0xFF →
    (fld v F.STASH_BANK_OWN_EXPECT = 0xFF ∨ fld v F.STASH_BANK_OWN_EXPECT = d.lastOwner (16 * k + b)) →
    d.stash.waits.get (fun _ => []) (16 * k.val + b.val) = [] →
    Runs (.bankHandover k b v) d (d.modStash fun x => { x with hand := x.hand ++ [(16 * k.val + b.val, fld v F.STASH_BANK_OWN_OWNER)], waits := x.waits.set (fun _ => []) (16 * k + b) [] })) ∧
  (∀ (d : Dev) (k b : Fin 16) (v : Word), fld v F.STASH_BANK_OWN_EXPECT ≠ 0xFF → fld v F.STASH_BANK_OWN_EXPECT ≠ d.lastOwner (16 * k + b) →
    Runs (.bankHandover k b v) d ((d.bump R.STASH_CNT0 F.STASH_CNT0_HANDOVER_REF_CNT 1).stashErr 1)) ∧
  (∀ (d : Dev) (k b : Fin 16) (p : Nat × Nat), d.stash.hand.find? (fun q => q.1 == 16 * k.val + b.val) = some p →
    Runs (.handoverDone k b) d ((d.modStash fun x => { x with hand := x.hand.erase p }).sf (R.STASH_BANK_OWN k b) F.STASH_BANK_OWN_OWNER p.2)) ∧
  (∀ (d : Dev) (k b : Fin 16) (q : BankReq), d.stash.waits.get (fun _ => []) (16 * k.val + b.val) = [] →
    d.bankGrants (16 * k + b) (portMaster k q.port) = true → q.op = .read →
    RunsTo (.stashBankGrant k b [q]) d fun t => ∃ y : Dev, t = y.emit (.bankData (16 * k + b) (d.bankLine (16 * k + b) q.line)) ∧
      y.stash.mem = d.stash.mem ∧ y.regs = d.regs ∧ y.outbox = d.outbox ∧ y.stash.waits.get (fun _ => []) (16 * k.val + b.val) = []) ∧
  (∀ (d : Dev) (k b : Fin 16) (q : BankReq), d.stash.waits.get (fun _ => []) (16 * k.val + b.val) = [] →
    d.bankGrants (16 * k + b) (portMaster k q.port) = false →
    RunsTo (.stashBankGrant k b [q]) d fun t => ∃ y : Dev, y = d.denyReq (16 * k + b) q ∧ t.stash.mem = y.stash.mem ∧ t.regs = y.regs ∧ t.outbox = y.outbox) ∧
  (∀ (d : Dev) (k b : Fin 16) (old : BankWait → Bool),
    old = BankWait.aged (d.bankCycle (16 * k + b)) →
    Runs (.urgentPromote k b) d ((d.bump R.STASH_CNT1 F.STASH_CNT1_URGENT_CNT ((d.stash.waits.get (fun _ => []) (16 * k + b)).countP old)).modStash fun x =>
      { x with waits := x.waits.set (fun _ => []) (16 * k + b) ((d.stash.waits.get (fun _ => []) (16 * k + b)).map fun w => if old w then { w with urgent := true } else w) })) ∧
  (∀ (d : Dev) (k : Fin 16) (x : TestSt), d.stash.tests.get (fun _ => TestSt.init) k = x → d.pwr.state = .active → x.line < testLines → x.step = 2 →
    Runs (.stashTestStep k true) d ((d.testFail k x.line).modStash fun z => { z with tests := z.tests.set (fun _ => TestSt.init) k { x with step := 3 } })) ∧
  (∀ (d : Dev) (k : Fin 16) (x : TestSt) (fails : Bool), d.stash.tests.get (fun _ => TestSt.init) k = x → d.pwr.state = .active → x.line < testLines → x.step = 0 →
    d.b R.STASH_TEST_CFG F.STASH_TEST_CFG_EN = true →
    Runs (.stashTestStep k fails) d (d.modStash fun z => { z with tests := z.tests.set (fun _ => TestSt.init) k { x with step := 1, save := d.testLine k x.line } })) ∧
  (∀ (d d1 : Dev) (v : Word), d1 = d.plainWrite R.STASH_TEST_CFG v → d.b R.STASH_TEST_CFG F.STASH_TEST_CFG_EN = false →
    d1.b R.STASH_TEST_CFG F.STASH_TEST_CFG_EN = true → Runs (.stashTestEnable v) d (d1.modStash fun x => { x with tests := [] }))

/-- Initialisation ends; a corrected read is counted and an uncorrectable one is counted and its block remembered; a refresh is noted, a flush writes every cached check block back; a clean scrub read goes on to the next block; enabling the history ring samples its region, and a region too small is a CFG error; a retro request starts a scan unless one runs, and the scan ends with BUSY 0. -/
def Obligations.SkeinReadsScrubsAndRetro : Prop :=
  (∀ (d : Dev), d.skein.cap ≠ 0 → d.skeinServes = true → Runs .skeinInitDone d (d.modSkein fun x => { x with inited := true })) ∧
  (∀ (d : Dev) (m a : Nat), d.skeinServes = true → d.skeinExists (a * 64) 64 = true → a ∉ d.skein.bad →
    Runs (.skeinReadComplete m a .corrected false) d (d.skeinCe m a)) ∧
  (∀ (d : Dev) (m a : Nat), d.skeinServes = true → d.skeinExists (a * 64) 64 = true → a ∉ d.skein.bad →
    Runs (.skeinReadComplete m a .uncorrectable false) d ((d.skeinUe m a).modSkein fun x => { x with bad := if x.bad.contains a then x.bad else x.bad ++ [a] })) ∧
  (∀ (d : Dev) (ch : Fin 16), Runs (.skeinRefresh ch) d (d.modSkein fun x => { x with refreshed := x.refreshed.set (fun _ => 0) ch d.now })) ∧
  (∀ (d : Dev), Runs .skeinFlush d (d.modSkein fun x => { x with cached := [] })) ∧
  (∀ (d : Dev), d.b R.SKEIN_SCRUB_CFG F.SKEIN_SCRUB_CFG_EN = true → d.skeinServes = true → d.skein.cap ≠ 0 → d.skein.scrub ∉ d.skein.bad →
    (d.skein.scrub + 1) % (d.skein.cap / 64) ≠ 0 →
    Runs (.scrubRead .clean) d ((d.modSkein fun x => { x with scrub := (d.skein.scrub + 1) % (d.skein.cap / 64) }).sf R.SKEIN_SCRUB_STATUS ⟨0, 10⟩
      ((d.skein.scrub + 1) % (d.skein.cap / 64) * 1000 / (d.skein.cap / 64)))) ∧
  (∀ (d d1 : Dev) (v : Word) (r : Nat), d1 = d.plainWrite R.SKEIN_HIST_CFG v → d.b R.SKEIN_HIST_CFG F.SKEIN_HIST_CFG_EN = false →
    fld (d1.rd R.SKEIN_HIST_CFG) F.SKEIN_HIST_CFG_EN = 1 → r = fld (d1.rd R.SKEIN_HIST_CFG) F.SKEIN_HIST_CFG_REGION →
    d1.f (R.SKEIN_RGN_SIZE r) ⟨0, 17⟩ * 2 ^ 20 < max 1 (fld (d1.rd R.SKEIN_HIST_CFG) F.SKEIN_HIST_CFG_INDEX) * 2 ^ 20 + 64 * 2 ^ 20 →
    Runs (.histEnable v) d (d1.skeinErr 6)) ∧
  (∀ (d d1 : Dev) (v : Word) (r base size index : Nat), d1 = d.plainWrite R.SKEIN_HIST_CFG v → d.b R.SKEIN_HIST_CFG F.SKEIN_HIST_CFG_EN = false →
    fld (d1.rd R.SKEIN_HIST_CFG) F.SKEIN_HIST_CFG_EN = 1 → r = fld (d1.rd R.SKEIN_HIST_CFG) F.SKEIN_HIST_CFG_REGION →
    index = max 1 (fld (d1.rd R.SKEIN_HIST_CFG) F.SKEIN_HIST_CFG_INDEX) * 2 ^ 20 → base = (d1.rd64 (R.SKEIN_RGN_BASE r)).toNat / 2 ^ 20 * 2 ^ 20 →
    size = d1.f (R.SKEIN_RGN_SIZE r) ⟨0, 17⟩ * 2 ^ 20 → index + 64 * 2 ^ 20 ≤ size →
    Runs (.histEnable v) d (d1.modHist fun _ => { HistSt.init with on := true, base := base, next := base, dataEnd := base + size - index, slots := index / 128 })) ∧
  (∀ (d d1 : Dev) (v : Word) (q : Retro), d1 = d.plainWrite R.SKEIN_RETRO_CTL v → fld v F.SKEIN_RETRO_CTL_GO ≠ 0 →
    d1.b R.SKEIN_RETRO_STATUS F.SKEIN_RETRO_STATUS_BUSY = false →
    q = { cams := (d1.rd64 R.SKEIN_RETRO_CAM).toNat, lo := d1.int64 R.SKEIN_RETRO_WP_LO, hi := d1.int64 R.SKEIN_RETRO_WP_HI,
          axis := d1.f R.SKEIN_RETRO_CTL F.SKEIN_RETRO_CTL_AXIS } →
    Runs (.retroGo v) d ((d1.sb R.SKEIN_RETRO_STATUS F.SKEIN_RETRO_STATUS_BUSY true).modSkein fun x => { x with retro := some q })) ∧
  (∀ (d d1 : Dev) (v : Word), d1 = d.plainWrite R.SKEIN_RETRO_CTL v → fld v F.SKEIN_RETRO_CTL_GO ≠ 0 →
    d1.b R.SKEIN_RETRO_STATUS F.SKEIN_RETRO_STATUS_BUSY = true → Runs (.retroGo v) d (d1.skeinErr 8)) ∧
  (∀ (d : Dev) (q : Retro), d.skein.retro = some q →
    RunsTo .retroScanDone d fun t => t.skein.retro = none ∧ t.b R.SKEIN_RETRO_STATUS F.SKEIN_RETRO_STATUS_BUSY = false)

/-- GO on an idle channel takes its descriptor and checks it, on a busy channel it is refused, together with ABORT it is refused, and from a Hook channel it is denied; ABORT ends a channel in check as aborted and is late in flush; the checks start the transfer or end it with their RESULT; a staged channel runs once it holds 16 slots; a burst to a local target takes its slot, its data arrives, it is written and its acknowledgement is counted; a reset leaves every channel idle; a write that leaves an enabled interrupt bit set sends its vector, and one that leaves none sends nothing. -/
def Obligations.HookChannelsRun : Prop :=
  (∀ (d : Dev) (m : Nat) (ch : Fin 16), (m < 0x10 ∨ 0x1F < m) → (d.hookCh ch).state = .idle → d.glb.bindoff ≠ .inProgress → d.pwr.state = .active →
    Runs (.hookGo m ch false) d (([F.HOOK_CH_STATUS_DONE, F.HOOK_CH_STATUS_ABORT_LATE, F.HOOK_CH_STATUS_STAGED, F.HOOK_CH_STATUS_COLLIDE].foldl
      (fun (y : Dev) f => y.sb (R.HOOK_CH_STATUS ch) f false) d).setHook ch { HookCh.init with state := .check, desc := d.hookDesc ch })) ∧
  (∀ (d : Dev) (m : Nat) (ch : Fin 16), (m < 0x10 ∨ 0x1F < m) → (d.hookCh ch).state ≠ .idle → Runs (.hookGo m ch false) d d.hookRefused) ∧
  (∀ (d : Dev) (m : Nat) (ch : Fin 16), 0x10 ≤ m → m ≤ 0x1F → Runs (.hookGo m ch false) d (d.deny m true (denyAddr m (R.HOOK_CH_CTL ch)))) ∧
  (∀ (d : Dev) (m : Nat) (ch : Fin 16), (m < 0x10 ∨ 0x1F < m) → Runs (.hookGo m ch true) d d.hookRefused) ∧
  (∀ (d : Dev) (m : Nat) (ch : Fin 16), (m < 0x10 ∨ 0x1F < m) → (d.hookCh ch).state = .check → Runs (.hookAbort m ch) d (d.hookEnd ch 1 0 0)) ∧
  (∀ (d : Dev) (m : Nat) (ch : Fin 16), (m < 0x10 ∨ 0x1F < m) → (d.hookCh ch).state = .flush →
    Runs (.hookAbort m ch) d (d.sb (R.HOOK_CH_STATUS ch) F.HOOK_CH_STATUS_ABORT_LATE true)) ∧
  (∀ (d : Dev) (m : Nat) (ch : Fin 16), (m < 0x10 ∨ 0x1F < m) → (d.hookCh ch).state = .idle → d.b (R.HOOK_CH_STATUS ch) F.HOOK_CH_STATUS_DONE = false →
    Runs (.hookAbort m ch) d d.hookRefused) ∧
  (∀ (d : Dev) (ch : Fin 16), (d.hookCh ch).state = .check → d.hookCheck (d.hookCh ch).desc = 0 → (d.hookCh ch).desc.overlaps = false →
    Runs (.hookCheckDone ch) d (d.setHook ch { d.hookCh ch with state := .run })) ∧
  (∀ (d : Dev) (ch : Fin 16), (d.hookCh ch).state = .check → d.hookCheck (d.hookCh ch).desc ≠ 0 →
    Runs (.hookCheckDone ch) d (d.hookEnd ch (d.hookCheck (d.hookCh ch).desc) 0 0)) ∧
  (∀ (d : Dev) (ch : Fin 16), (d.hookCh ch).state = .waitBuf → 16 ≤ (d.hookCh ch).slots →
    Runs (.hookSlotsGranted ch) d (d.setHook ch { d.hookCh ch with state := .run })) ∧
  (∀ (d : Dev) (v : Word), fld v F.HOOK_CTL_RESET = 1 →
    RunsTo (.hookReset v) d fun t => ∀ ch : Fin 16, (t.hookCh ch).state = .idle ∧
      ((d.hookCh ch).state = .idle → t.hookCh ch = d.hookCh ch) ∧ ((d.hookCh ch).state ≠ .idle → t.hookCh ch = { HookCh.init with desc := (d.hookCh ch).desc })) ∧
  (∀ (d d1 : Dev) (en : Bool) (v : Word), d1 = d.plainWrite (if en then R.HOOK_IRQ_EN else R.HOOK_IRQ_STATUS) v →
    (∀ ch < 16, ¬ (d1.f R.HOOK_IRQ_STATUS (bitF ch) = 1 ∧ d1.f R.HOOK_IRQ_EN (bitF ch) = 1)) → Runs (.hookIrqWrite en v) d d1) ∧
  (∀ (d d1 : Dev) (en : Bool) (v : Word), d1 = d.plainWrite (if en then R.HOOK_IRQ_EN else R.HOOK_IRQ_STATUS) v →
    (∀ ch < 15, ¬ (d1.f R.HOOK_IRQ_STATUS (bitF ch) = 1 ∧ d1.f R.HOOK_IRQ_EN (bitF ch) = 1)) →
    d1.f R.HOOK_IRQ_STATUS (bitF 15) = 1 → d1.f R.HOOK_IRQ_EN (bitF 15) = 1 → Runs (.hookIrqWrite en v) d (d1.message 80)) ∧
  (∀ (d : Dev) (ch da : Nat), d.readPick = some ch → d.hookTarget ch false (d.hookCh ch).nextRead.2.1 = .here da →
    ({ d with hook := { d.hook with last := ch } } : Dev).runStop (0x10 + ch) false da (d.hookCh ch).nextRead.2.2 = none →
    Runs .hookBurstRead d (({ d with hook := { d.hook with last := ch } } : Dev).takeSlot ch (d.hookCh ch).nextRead.1 (d.hookCh ch).nextRead.2.2)) ∧
  (∀ (d y : Dev) (ch : Fin 16) (first da : Nat) (b : HookBurst) (bs : List Byte),
    (d.hookCh ch).bursts.find? (fun b => decide (b.first = first) && b.data.isNone) = some b →
    d.hookTarget ch false ((d.hookCh ch).readDa first) = .here da → d.waitsForSkein da = false → d.runRead (0x10 + ch) da b.len = (.ok, bs, y) →
    Runs (.hookReadResponse ch first) d (y.slotFull ch b bs)) ∧
  (∀ (d y : Dev) (ch n da : Nat) (bs : List Byte), d.writePick = some (ch, n, bs) → d.hookTarget ch true ((d.hookCh ch).desc.dstOf n) = .here da →
    (d.hookCh ch).desc.dstOf n < 2 ^ 62 → d.writeHere ch da bs = (.ok, y) → Runs .hookBurstWrite d (y.wroteBurst ch n bs 1 0)) ∧
  (∀ (d : Dev) (ch : Fin 16), (d.hookCh ch).acks ≠ 0 →
    Runs (.hookWriteAck ch) d ((d.modHook ch fun x => { x with acks := x.acks - 1 }).hookAdvance ch))

/-- JOB_STAGE begins to stage a target slot that is FREE or STAGED and not armed, and is refused with BUSY while one stages; START switches to a staged slot at once; an arm that passes every check is accepted, by software and by a Chain event, and one that fails on axis, mark or distance is refused with its result; an armed splice switches when the predicted position reaches the mark and not before; a draining slot is released by RELEASE, and by itself once nothing of its epoch remains; an abort before the switch aborts, after it is late, with nothing armed is refused; a failed swatch starts again; a reset aborts and stops staging; a mark from the fabric is counted and published and arms where it is accepted; a mark is sent to the peers for an armed splice. -/
def Obligations.JobsStageArmAndSwitch : Prop :=
  (∀ (d : Dev), d.job.staging = none → (d.job.slot d.job.target = .free ∨ d.job.slot d.job.target = .staged ∧ d.job.armed = false) →
    Runs .jobStage d (((d.modJob fun k => { k.setSlot d.job.target .staging none with staging := some (d.rd64 R.JOB_STAGE_DA).toNat }).sb R.JOB_STAGE_STATUS
      F.JOB_STAGE_STATUS_BUSY true).wr (jobIdReg d.job.target) 0)) ∧
  (∀ (d : Dev), d.job.staging.isSome = true → Runs .jobStage d (d.sf R.JOB_STAGE_STATUS F.JOB_STAGE_STATUS_RESULT 7).jobRefused) ∧
  (∀ (d : Dev) (r : Recipe), d.job.slot d.job.target = .staged → d.job.armed = false → d.job.recipe d.job.target = some r →
    Runs .jobStart d ((d.modJob fun k =>
      { k with axis := d.f R.JOB_SPLICE_CFG F.JOB_SPLICE_CFG_AXIS, mark := (d.axisNow (d.f R.JOB_SPLICE_CFG F.JOB_SPLICE_CFG_AXIS)).1, swaps := r.swaps, swapSet := k.target, psids := [], lateCams := [], refused := [], fab := false, hop := 0 }).switchNow
        (d.axisNow (d.f R.JOB_SPLICE_CFG F.JOB_SPLICE_CFG_AXIS)).1 (d.axisNow (d.f R.JOB_SPLICE_CFG F.JOB_SPLICE_CFG_AXIS)).2.1 true false false)) ∧
  (∀ (d : Dev), d.job.slot d.job.target ≠ .staged → Runs .jobStart d (d.armRefused 1).jobRefused) ∧
  (∀ (d : Dev) (r : Recipe), d.armCheck (d.f R.JOB_SPLICE_CFG F.JOB_SPLICE_CFG_AXIS) (d.int64 R.JOB_MARK) false = 0 → d.job.recipe d.job.target = some r →
    Runs .jobCtlArm d (d.armAccept (d.f R.JOB_SPLICE_CFG F.JOB_SPLICE_CFG_AXIS) (d.int64 R.JOB_MARK) 0 false r)) ∧
  (∀ (d : Dev) (n : Nat), d.armCheck (d.f R.JOB_SPLICE_CFG F.JOB_SPLICE_CFG_AXIS) (d.int64 R.JOB_MARK) false = n + 3 →
    Runs .jobCtlArm d (d.armRefused (n + 3))) ∧
  (∀ (d d1 : Dev) (a : Act) (r : Recipe), d.activate Task.jobArm = (some a, d1) → d1.armCheck (d1.f R.JOB_SPLICE_CFG F.JOB_SPLICE_CFG_AXIS) (d1.int64 R.JOB_MARK) false = 0 → d1.job.recipe d1.job.target = some r →
    Runs .jobArm d (d1.armAccept (d1.f R.JOB_SPLICE_CFG F.JOB_SPLICE_CFG_AXIS) (d1.int64 R.JOB_MARK) (a.hop + 1) false r)) ∧
  (∀ (d d1 : Dev) (a : Act) (n : Nat), d.activate Task.jobArm = (some a, d1) → d1.armCheck (d1.f R.JOB_SPLICE_CFG F.JOB_SPLICE_CFG_AXIS) (d1.int64 R.JOB_MARK) false = n + 3 →
    Runs .jobArm d (d1.armRefused (n + 3))) ∧
  (∀ (d : Dev) (p : Int), d.job.armed = true → d.splicePos = some p → d.job.mark * 65536 ≤ p →
    Runs .spliceSwitch d (d.switchNow (p / 65536) ((d.ts : Int) + 7) false false false)) ∧
  (∀ (d : Dev) (p : Int), d.job.armed = true → d.splicePos = some p → p < d.job.mark * 65536 → Runs .spliceSwitch d d) ∧
  (∀ (d : Dev) (h : Nat), d.job.draining = some h →
    Runs .jobRelease d (((((d.epochFrames d.job.prev).epochItems d.job.prev).epochCarFrames d.job.prev).jobErr 1).slotFree h (d.releaseCams d.job.prev))) ∧
  (∀ (d : Dev), d.job.draining = none → Runs .jobRelease d d.jobRefused) ∧
  (∀ (d : Dev) (h : Nat), d.job.draining = some h → d.epochRemains d.job.prev = false → Runs .slotDrained d (d.slotFree h [])) ∧
  (∀ (d : Dev) (h : Nat), d.job.draining = some h → d.epochRemains d.job.prev = true → Runs .slotDrained d d) ∧
  (∀ (d : Dev), d.job.armed = true → d.switchDue = none → Runs .jobCtlAbort d d.abortArmed) ∧
  (∀ (d : Dev), d.job.armed = false → d.job.hit = true → Runs .jobCtlAbort d d.abortLate) ∧
  (∀ (d : Dev), d.job.armed = false → d.job.hit = false → Runs .jobCtlAbort d d.jobRefused) ∧
  (∀ (d d1 : Dev) (a : Act), d.activate Task.jobAbort = (some a, d1) → d1.job.armed = true → d1.switchDue = none → Runs .jobAbort d d1.abortArmed) ∧
  (∀ (d d1 : Dev) (a : Act), d.activate Task.jobAbort = (some a, d1) → d1.job.armed = false → d1.job.hit = true → Runs .jobAbort d d1.abortLate) ∧
  (∀ (d d1 : Dev) (a : Act), d.activate Task.jobAbort = (some a, d1) → d1.job.armed = false → d1.job.hit = false → Runs .jobAbort d d1.jobRefused) ∧
  (∀ (d : Dev), RunsTo .swatchRestart d fun t => ∀ k : Fin 48,
      ((d.swatchOf k).phase = .failed ∧ (d.swatchOf k).len ≠ 0 ∧ d.swatching k = false → t.swatching k = true ∧
        t.swatchOf k = { d.swatchOf k with phase := .seekBase, from_ := (d.swatchOf k).rep + 1, good := 0, final := [], bad := [(d.swatchOf k).rep] }) ∧
      (¬ ((d.swatchOf k).phase = .failed ∧ (d.swatchOf k).len ≠ 0 ∧ d.swatching k = false) → t.swatchOf k = d.swatchOf k)) ∧
  (∀ (d : Dev) (a : Nat), d.job.armed = false → d.job.staging = some a → d.job.swatching = [] →
    Runs .jobReset d ((d.modJob fun j => { j.setSlot j.target .free none with staging := none }).sb R.JOB_STAGE_STATUS F.JOB_STAGE_STATUS_BUSY false)) ∧
  (∀ (d : Dev), d.job.armed = true → d.abortArmed.job.staging = none → d.abortArmed.job.swatching = [] → Runs .jobReset d d.abortArmed) ∧
  (∀ (d y z : Dev) (p : Fin 4) (src hops : Nat) (m : FabMark), d.fabArrive p = (true, y) → z = y.fabForward p (headOf src hops true 0 (.mark m)) →
    (m.origin, m.seq) ∉ z.fab.marks → m.origin ≠ z.fabAddr → ∀ w : Dev, w = ((z.modFab fun f => { f with marks := ((m.origin, m.seq) :: f.marks).take 64 }).bump R.FAB_CNT2
        F.FAB_CNT2_MARK_RX_CNT 1).publish Src.fabMark 0 → w.b R.JOB_SPLICE_CFG F.JOB_SPLICE_CFG_FAB_ACCEPT = false → Runs (.fabMarkRx p src hops m) d w) ∧
  (∀ (d y z : Dev) (p : Fin 4) (src hops : Nat) (m : FabMark), d.fabArrive p = (true, y) → z = y.fabForward p (headOf src hops true 0 (.mark m)) →
    (m.origin, m.seq) ∉ z.fab.marks → m.origin ≠ z.fabAddr → ∀ w : Dev, w = ((z.modFab fun f => { f with marks := ((m.origin, m.seq) :: f.marks).take 64 }).bump R.FAB_CNT2
        F.FAB_CNT2_MARK_RX_CNT 1).publish Src.fabMark 0 → w.b R.JOB_SPLICE_CFG F.JOB_SPLICE_CFG_FAB_ACCEPT = true → m.abort = false → Runs (.fabMarkRx p src hops m) d (w.fabArm m)) ∧
  (∀ (d : Dev), d.job.armed = true → Runs .markTx d (d.sendMark false (((d.job.recipe (nextEpoch d.job.epoch)).map (·.jobId)).getD 0) (nextEpoch d.job.epoch) d.job.mark)) ∧
  (∀ (d : Dev), d.job.armed = false → Runs .markTx d (d.fabErr 11)) ∧
  (∀ (d d1 : Dev) (a : Act), d.activate Task.fabMarkTx = (some a, d1) → d1.job.armed = true → Runs .fabMarkTx d (d1.sendMark false (((d1.job.recipe (nextEpoch d1.job.epoch)).map (·.jobId)).getD 0) (nextEpoch d1.job.epoch) d1.job.mark)) ∧
  (∀ (d d1 : Dev) (a : Act), d.activate Task.fabMarkTx = (some a, d1) → d1.job.armed = false → Runs .fabMarkTx d (d1.fabErr 11))

/-- A rise of EN samples a ring and zeroes its counters and a fall revokes it; DTAIL and CHEAD writes within their bounds are taken, others are errors; a revoke of a ring at rest returns its buffers; a descriptor fetch asks for up to 8 descriptors and their data enters the ring; the next parcel that can be placed begins, a piece whose buffer and completion slot stand is written and completed, and nothing is written without a completion slot or while requests cannot leave; parcels and camera events are staged or discarded; the oldest completion signals after TIME; a quarantined tag is free once its time has passed; a missing translation is asked for once, an invalidation removes matching entries and completes when no request uses one. -/
def Obligations.HostRingsDeliver : Prop :=
  (∀ (d : Dev) (tag : Nat), Runs (.tagQuarantineEnd tag) d (d.modHost fun x => { x with quar := x.quar.filter (fun q => !(q.1 == tag && decide (q.2 ≤ d.now))) })) ∧
  (∀ (d : Dev) (u : AtsUser) (iova t : Nat) (w : Bool), d.host.cfg.atsEn = true → d.canRequest = true → d.xlate iova w = none → d.host.reqs = [] → d.freeTag = some t →
    Runs (.atsTranslationMiss u iova w) d ((d.modHost fun x => { x with reqs := x.reqs ++ [{ tag := t, kind := .xlate iova w u, addr := iova, len := 0, sent := d.now }] }).emit
      (.xlateRequest t (iova / 2 ^ (12 + d.host.cfg.stu) * 2 ^ (12 + d.host.cfg.stu))))) ∧
  (∀ (d : Dev) (t base size : Nat), d.host.invals.length < 32 → d.host.reqs = [] →
    Runs (.atsInvalidateRequest t base size) d ((d.bump R.HOST_CNT4 F.HOST_CNT4_INVAL_CNT 1).modHost fun x =>
      { x with ats := x.ats.filter (fun e => !(decide (e.base < base + size) && decide (base < e.base + e.size))), invals := x.invals ++ [(t, [])] })) ∧
  (∀ (d : Dev) (t : Nat) (p : Nat × List Nat), d.host.invals.find? (fun q => q.1 == t) = some p →
    p.2.any (fun t => d.host.reqs.any (fun q => q.tag == t)) = false →
    Runs (.atsInvalidateDone t) d ((d.modHost fun x => { x with invals := x.invals.filter (fun q => q.1 ≠ t) }).emit (.invalidateDone t))) ∧
  (∀ (d : Dev) (t : Nat) (p : Nat × List Nat), d.host.invals.find? (fun q => q.1 == t) = some p →
    p.2.any (fun t => d.host.reqs.any (fun q => q.tag == t)) = true → Runs (.atsInvalidateDone t) d d) ∧
  (∀ (d d1 : Dev) (r : Fin 64) (v : Word), d1 = d.plainWrite (R.HOST_RING_CFG r) v → d.b (R.HOST_RING_CFG r) F.HOST_RING_CFG_EN = false →
    fld (d1.rd (R.HOST_RING_CFG r)) F.HOST_RING_CFG_EN = 1 →
    Runs (.ringEnable r v) d (((((d1.wr (R.HOST_RING_DHEAD r) 0).wr (R.HOST_RING_DTAIL r) 0).wr (R.HOST_RING_CHEAD r) 0).wr (R.HOST_RING_CSEQ r) 0).setRing r
      { Ring.init with state := .run, dlog := max 4 (min 16 (fld (d1.rd (R.HOST_RING_CFG r)) F.HOST_RING_CFG_DLOG)), clog := max 4 (min 20 (fld (d1.rd (R.HOST_RING_CFG r)) F.HOST_RING_CFG_CLOG)), dbase := (d1.rd64 (R.HOST_RING_DBASE r)).toNat / 4096 * 4096, cbase := (d1.rd64 (R.HOST_RING_CBASE r)).toNat / 4096 * 4096 })) ∧
  (∀ (d d1 : Dev) (r : Fin 64) (v : Word) (n : Nat), d1 = d.plainWrite (R.HOST_RING_CFG r) v → d.b (R.HOST_RING_CFG r) F.HOST_RING_CFG_EN = true →
    fld (d1.rd (R.HOST_RING_CFG r)) F.HOST_RING_CFG_EN = 0 → (d1.ring r).state ≠ .error → Runs (.ringDisable r v n) d (d1.revoke r n)) ∧
  (∀ (d : Dev) (r : Fin 64) (v : Word), (v - d.rd (R.HOST_RING_DHEAD r)).toNat ≤ 2 ^ (d.ring r).dlog →
    Runs (.ringDtailWrite r v) d (d.plainWrite (R.HOST_RING_DTAIL r) v)) ∧
  (∀ (d : Dev) (r : Fin 64) (v : Word), 2 ^ (d.ring r).dlog < (v - d.rd (R.HOST_RING_DHEAD r)).toNat →
    Runs (.ringDtailWrite r v) d (d.hostErr 7)) ∧
  (∀ (d : Dev) (r : Fin 64) (v : Word), 0 ≤ (d.rd (R.HOST_RING_CSEQ r) - v).toInt →
    Runs (.ringCheadWrite r v) d (((d.plainWrite (R.HOST_RING_CHEAD r) v).flushReturns r).revokeEnd r)) ∧
  (∀ (d : Dev) (r : Fin 64) (v : Word), (d.rd (R.HOST_RING_CSEQ r) - v).toInt < 0 → Runs (.ringCheadWrite r v) d (d.hostErr 7)) ∧
  (∀ (d : Dev) (r : Fin 64) (n : Nat), (d.ring r).state = .run → (d.ring r).piece = none → (d.ring r).rest = none → Runs (.revoke r n) d (d.returnAll r)) ∧
  (∀ (d : Dev) (r : Fin 64) (n : Nat), (d.ring r).state = .off → Runs (.revoke r n) d d) ∧
  (∀ (d : Dev) (r : Fin 64) (a t n tg : Nat), (d.ring r).state = .run → (d.ring r).unbegun.length < 2 → d.delivers = true → (d.ring r).fetching = 0 →
    (d.rd (R.HOST_RING_DTAIL r) - BitVec.ofNat 32 (d.ring r).fetched).toNat ≠ 0 →
    n = min (min 8 (d.rd (R.HOST_RING_DTAIL r) - BitVec.ofNat 32 (d.ring r).fetched).toNat) (2 ^ (d.ring r).dlog - (d.ring r).fetched % 2 ^ (d.ring r).dlog) →
    a = (d.ring r).dbase + 32 * ((d.ring r).fetched % 2 ^ (d.ring r).dlog) → d.xlate a false = some t → d.freeTag = some tg →
    Runs (.descFetch r) d ((d.setRing r { d.ring r with fetching := n }).requestRead (.desc r n) a t (32 * n))) ∧
  (∀ (d d1 : Dev) (r : Fin 64) (bytes : List Byte) (q : OutReq) (n : Nat), d.host.reqs = [q] → q.kind = .desc r n →
    d1 = (d.modHost fun x => { x with reqs := x.reqs.filter (fun y => y.tag ≠ q.tag) }) → Runs (.descFetchDone r bytes) d (d1.descData r n bytes)) ∧
  (∀ (d : Dev) (r : Fin 64) (p : Parcel), (d.ring r).piece = none → d.delivers = true → (d.ring r).state = .run → (d.ring r).rest = none →
    d.headRaw r = none → d.headStaged r = some p → d.cropBefore p = false → (d.place r p 0 0).1 = true →
    Runs (.parcelStart r) d ((d.place r p 0 0).2.modHost fun y => { y with staged := y.staged.filter (fun q => q.number ≠ p.number) })) ∧
  (∀ (d : Dev) (r : Fin 64) (p : Parcel) (pos no : Nat), (d.ring r).piece = none → d.delivers = true → (d.ring r).state = .run → (d.ring r).rest = some (p, pos, no) →
    (d.place r p pos no).1 = true → Runs (.parcelStart r) d (d.place r p pos no).2) ∧
  (∀ (d d1 d2 : Dev) (r : Fin 64) (p : Piece) (b : Desc) (used : Nat), (d.ring r).piece = some p → (d.ring r).buf = some (b, used) → d.canRequest = true →
    (d.ring r).state ≠ .error → d.cqFree r ≠ 0 → d.b (R.HOST_RING_CFG r) F.HOST_RING_CFG_PACK = false → p.pos + p.len = p.parcel.bytes.length →
    p.parcel.kind = .snag → d.hostWrite (b.addr + p.offset) (d.b (R.HOST_RING_CFG r) F.HOST_RING_CFG_RO) ((p.parcel.bytes.drop p.pos).take p.len) = some d1 →
    d1.complete r (pieceCqe b p p.len 0 true true) = some d2 →
    Runs (.pieceComplete r) d (d2.modRing r fun y => { y with piece := none, buf := none, rest := none })) ∧
  (∀ (d : Dev) (r : Fin 64), (d.cqFree r = 0 ∨ d.canRequest = false) → Runs (.pieceComplete r) d d) ∧
  (∀ (d : Dev) (p : Parcel), d.host.offers = [p] → d.ringDiscards p.ring = false → d.stageRoom p = true → p.kind = .snag →
    Runs (.parcelStage .offered) d ((d.takeOffer p).modHost fun x => { x with staged := x.staged ++ [p] })) ∧
  (∀ (d : Dev) (p : Parcel), d.host.offers = [p] → d.ringDiscards p.ring = true → Runs (.parcelStage .offered) d ((d.takeOffer p).discardParcel p)) ∧
  (∀ (d : Dev) (n : Fin 48) (p : Parcel), d.eventParcel n = some p → d.b R.HOST_DLV_CFG F.HOST_DLV_CFG_EVT_EN = true → d.ringDiscards p.ring = false →
    d.stageRoom p = true →
    RunsTo (.parcelStage (.event n)) d fun t => t.host.staged = d.host.staged ++ [{ p with number := d.host.nextNo }] ∧ t.host.nextNo = d.host.nextNo + 1 ∧
      (t.conn n).events = (d.conn n).events.drop 1) ∧
  (∀ (d : Dev) (r : Fin 64) (t : Nat), (d.ring r).oldest = some t → fld (d.rd (R.HOST_RING_IRQ r)) F.HOST_RING_IRQ_EN = 1 →
    fld (d.rd (R.HOST_RING_IRQ r)) F.HOST_RING_IRQ_TIME ≠ 0 → t + fld (d.rd (R.HOST_RING_IRQ r)) F.HOST_RING_IRQ_TIME * 1000 ≤ d.now →
    Runs (.ringIrqTimeExpire r) d ((d.modRing r fun x => { x with unsig := 0, oldest := none }).message (1 + r))) ∧
  (∀ (d : Dev) (r : Fin 64), (d.ring r).oldest = none → Runs (.ringIrqTimeExpire r) d d)

/-- A configuration write takes effect and is answered with retry during a function-level reset; applying the windows copies every shadow and reports the boundary later; a completion of no request is late, descriptor data goes to its ring; a request times out after T, not before, and its tag is quarantined for 2 T; a vector unmasked sends what waits; the link enters L0, leaves it 1 ms into recovery, goes down with its function reset; a function-level reset, PERST# and the D states act as R544 to R547 say. -/
def Obligations.HostLinkAndFunction : Prop :=
  (∀ (d : Dev) (i : CfgItem), d.host.perst = false → d.host.dlUp = true → d.host.flrBusy = false → Runs (.configWrite i) d (d.cfgItem i)) ∧
  (∀ (d : Dev) (i : CfgItem), d.host.perst = false → d.host.dlUp = true → d.host.flrBusy = true → Runs (.configWrite i) d (d.emit (.completionError true))) ∧
  (∀ (d : Dev) (v : Word), fld v ⟨0, 1⟩ = 1 → d.host.winPend = none →
    RunsTo (.winApply v) d fun t => t.host.winPend = some d.now ∧ t.host.applySeq = ((d.rd R.HOST_RX_SEQ).toNat + 1) % 2 ^ 32 ∧
      ∀ w : Fin 16, t.rd (R.HOST_WIN w) = d.rd (R.HOST_WIN_SHADOW w)) ∧
  (∀ (d : Dev) (tag : Nat) (co : Completion) (hdr : List Byte), d.host.reqs.find? (fun q => q.tag == tag) = none →
    Runs (.completionReceive tag co hdr) d ((((d.bump R.HOST_CNT0 F.HOST_CNT0_LATE_CPL_CNT 1).hostErr 1).errorMessage 0).logHeader hdr)) ∧
  (∀ (d : Dev) (tag : Nat) (q : OutReq) (r n : Nat) (bytes hdr : List Byte), d.host.reqs.find? (fun q => q.tag == tag) = some q → q.kind = .desc r n →
    bytes.length = q.len → Runs (.completionReceive tag (.data bytes) hdr) d ((d.dropReq tag).descData r n bytes)) ∧
  (∀ (d : Dev) (tag : Nat) (q : OutReq), d.host.reqs.find? (fun q => q.tag == tag) = some q → d.host.cfg.ctoOff = false →
    q.sent + ctoNs d.host.cfg.ctoSub ≤ d.now →
    Runs (.completionTimeout tag) d ((((((d.dropReq tag).errorMessage 1).bump R.HOST_CNT0 F.HOST_CNT0_CTO_CNT 1).hostErr 0).modHost fun x =>
      { x with quar := x.quar ++ [(tag, d.now + 2 * ctoNs d.host.cfg.ctoSub)] }).failReq q)) ∧
  (∀ (d : Dev) (tag : Nat) (q : OutReq), d.host.reqs.find? (fun q => q.tag == tag) = some q → d.now < q.sent + ctoNs d.host.cfg.ctoSub →
    Runs (.completionTimeout tag) d d) ∧
  (∀ (d : Dev) (v : Fin 256) (g : Nat → Word), g = (fun i => if i % 4 = 3 then 1 else 0) →
    Runs (.msixUnmask v) d (d.modHost fun x => { x with msix := x.msix.set g (4 * v.val + 3) (x.msix.get g (4 * v.val + 3) &&& 0xFFFFFFFE#32) }).msixRelease) ∧
  (∀ (d : Dev) (i : Fin 8) (v : Word), Runs (.intxPendWrite i v) d (d.plainWrite (R.HOST_INTX_PEND i) v).intxUpdate) ∧
  (∀ (d : Dev) (rate : Fin 7) (width : Fin 17) (flit : Bool), d.host.perst = false → d.host.l0 = true →
    Runs (.linkEnterL0 rate width flit) d ((d.modHost fun x => { x with ltssm := true, l1 := false, dlUp := true, l0 := true, rate := rate, width := width, flit := flit }).disarm .recovery)) ∧
  (∀ (d : Dev) (rate : Fin 7) (width : Fin 17) (flit : Bool), d.host.perst = false → d.host.l0 = false →
    Runs (.linkEnterL0 rate width flit) d (((d.modHost fun x => { x with ltssm := true, l1 := false, dlUp := true, l0 := true, rate := rate, width := width, flit := flit }).disarm
      .recovery).linkEvent.hostResume)) ∧
  (∀ (d : Dev), d.host.dlUp = true → (d.host.ltssm = true ∨ d.host.l1 = true) →
    Runs .linkRecoveryStart d (((d.modHost fun x => { x with ltssm := false, l1 := false }).bump R.HOST_CNT2 F.HOST_CNT2_RECOVERY_CNT 1).arm .recovery (d.now + 1000000))) ∧
  (∀ (d : Dev), d.due .recovery = true → d.host.l0 = true →
    Runs .linkRecoveryTimeout d ((d.disarm .recovery).modHost fun x => { x with l0 := false }).linkEvent) ∧
  (∀ (d : Dev), d.due .recovery = false → Runs .linkRecoveryTimeout d d) ∧
  (∀ (d : Dev), d.host.dlUp = true → Runs .dataLinkDown d d.linkDown.toD0) ∧
  (∀ (d : Dev), d.host.dlUp = false → Runs .dataLinkDown d d) ∧
  (∀ (d d1 : Dev), d.host.perst = false → d.host.dlUp = true → d.host.flrBusy = false → d.host.reqs = [] →
    d1 = (d.modHost fun x => { x with reqs := [], flrBusy := true }) → Runs .functionLevelReset d ((d1.functionReset.hostErr 11).toD0)) ∧
  (∀ (d : Dev), Runs .flrDone d (d.modHost fun x => { x with flrBusy := false })) ∧
  (∀ (d : Dev), d.host.perst = false → d.host.dlUp = true → d.host.flrBusy = false → d.host.d0 = true →
    Runs (.dStateChange true) d ((d.toD3.leaveL0.modHost fun x => { x with ltssm := false, l1 := true }).disarm .recovery)) ∧
  (∀ (d : Dev), d.host.perst = false → d.host.dlUp = true → d.host.flrBusy = false → d.host.d0 = false →
    Runs (.dStateChange false) d d.toD0.hostResume) ∧
  (∀ (d : Dev), d.host.perst = false → Runs .perstAssert d (d.linkDown.toD3.modHost fun x => { x with perst := true, ltssm := false, l1 := false, flrBusy := false })) ∧
  (∀ (d : Dev), d.host.perst = true → Runs .perstDeassert d ((d.modHost fun x => { x with perst := false }).functionReset).toD0)

/-- EN of FAB_CFG takes the device to ALONE and puts its enabled ports into training, and a port without EN goes to OFF; the training phases follow one another and after the fourth the port is UP with its initial credit and the device in JOINING; 100 ms without completion ends in DOWN with its errors, and training begins again after 100 ms doubled per back-off step; lock loss in UP retrains and counts; taps answer requests within their limits; markers are counted and a failed deskew retrains; a control unit returns credit and a NAK counts a replay. -/
def Obligations.FabricPortsTrainAndReplay : Prop :=
  (∀ (d d1 : Dev) (v : Word), d1 = d.plainWrite R.FAB_CFG v → d.b R.FAB_CFG F.FAB_CFG_EN = false → d1.b R.FAB_CFG F.FAB_CFG_EN = true →
    Runs (.fabEnable v) d ((List.range 4).foldl (fun (y : Dev) p => y.portEnable p) (d1.modFab fun f => { f with state := .alone, stateAt := d.now, lostAt := some d.now }))) ∧
  (∀ (d d1 : Dev) (v : Word), d1 = d.plainWrite R.FAB_CFG v → d.b R.FAB_CFG F.FAB_CFG_EN = d1.b R.FAB_CFG F.FAB_CFG_EN →
    Runs (.fabEnable v) d ((List.range 4).foldl (fun (y : Dev) p => y.portEnable p) d1)) ∧
  (∀ (d d1 : Dev) (p : Fin 4) (v : Word), d1 = d.plainWrite (R.FAB_PORT_CFG p) v → d1.b R.FAB_CFG F.FAB_CFG_EN = true →
    d1.b (R.FAB_PORT_CFG p) F.FAB_PORT_CFG_EN = true → d1.pwr.state = .active → (d1.fport p).state = .off → Runs (.fabPortEnable p v) d (d1.portTrain p)) ∧
  (∀ (d d1 : Dev) (p : Fin 4) (v : Word), d1 = d.plainWrite (R.FAB_PORT_CFG p) v →
    d1.b (R.FAB_PORT_CFG p) F.FAB_PORT_CFG_EN = false → (d1.fport p).state ≠ .off → Runs (.fabPortEnable p v) d (d1.portOff p)) ∧
  (∀ (d : Dev) (p : Fin 4) (x : FabPort), d.fport p = x → x.state = .train → x.phase < 2 →
    Runs (.fabTrainPhaseDone p) d (d.setFport p { x with phase := x.phase + 1, locked := 15 })) ∧
  (∀ (d : Dev) (p : Fin 4) (x : FabPort), d.fport p = x → x.state = .train → 3 ≤ x.phase → d.fab.state ≠ .alone →
    Runs (.fabTrainPhaseDone p) d ((d.setFport p { x with state := .up, phase := 0, back := 0, credit := [128, 384, 512, 1024] }).modFab fun f => { f with lostAt := none })) ∧
  (∀ (d : Dev) (p : Fin 4) (x : FabPort), d.fport p = x → x.state = .train → 3 ≤ x.phase → d.fab.state = .alone →
    RunsTo (.fabTrainPhaseDone p) d fun t => t.fab.state = .joining ∧ t.fab.stateAt = d.now ∧ (t.fport p).state = .up) ∧
  (∀ (d : Dev) (p : Fin 4) (x : FabPort), d.fport p = x → x.state = .train → x.since + 100000000 ≤ d.now →
    Runs (.fabTrainTimeout p) d ((((d.setFport p { x with state := .down, phase := 0, since := d.now, locked := 0 }).bump (R.FAB_PORT_CNT1 p)
      F.FAB_PORT_CNT1_TRAIN_FAIL_CNT 1).fabErr 1).fabErr 0)) ∧
  (∀ (d : Dev) (p : Fin 4) (x : FabPort), d.fport p = x → d.now < x.since + 100000000 → Runs (.fabTrainTimeout p) d d) ∧
  (∀ (d : Dev) (p : Fin 4) (x : FabPort), d.fport p = x → x.state = .down → x.since + 100000000 * 2 ^ x.back ≤ d.now →
    Runs (.fabBackoffEnd p) d ((d.setFport p { x with back := min 5 (x.back + 1) }).portTrain p)) ∧
  (∀ (d : Dev) (p : Fin 4), (d.fport p).state = .up →
    Runs (.fabLockLoss p) d (((d.portLeave p).portTrain p).bump (R.FAB_PORT_CNT1 p) F.FAB_PORT_CNT1_RETRAIN_CNT 1)) ∧
  (∀ (d : Dev) (p : Fin 4), (d.fport p).state ≠ .up → Runs (.fabLockLoss p) d d) ∧
  (∀ (d : Dev) (p lane : Fin 4) (x : FabPort) (t : Nat × Nat) (pre post : Fin 4), d.fport p = x → x.state = .train → x.phase = 1 → x.taps.getD lane (0, 0) = t →
    Runs (.fabTapRequest p lane pre post 0) d ((d.setFport p { x with taps := x.taps.set lane ((tapStep t.1 t.2 7 pre).1, (tapStep t.2 (tapStep t.1 t.2 7 pre).1 15 post).1) }).emit
      (.fabTaps p lane (tapStep t.1 t.2 7 pre).2 (tapStep t.2 (tapStep t.1 t.2 7 pre).1 15 post).2 (tapStep t.1 t.2 7 pre).1 (tapStep t.2 (tapStep t.1 t.2 7 pre).1 15 post).1))) ∧
  (∀ (d : Dev) (p lane : Fin 4) (x : FabPort) (pre post : Fin 4), d.fport p = x → x.state = .train → x.phase = 1 →
    Runs (.fabTapRequest p lane pre post 3) d ((d.setFport p { x with taps := x.taps.set lane (2, 10) }).emit (.fabTaps p lane 1 1 2 10))) ∧
  (∀ (d : Dev) (p : Fin 4) (bip : Nat) (a l : Int), (d.fport p).state = .up → ((d.fport p).markers + 1) % 4 ≠ 0 →
    Runs (.fabMarker p bip true a l) d ((d.bump (R.FAB_PORT_CNT2 p) F.FAB_PORT_CNT2_BIP_CNT bip).setFport p { d.fport p with markers := ((d.fport p).markers + 1) % 65536 })) ∧
  (∀ (d : Dev) (p : Fin 4) (bip : Nat) (a l : Int), (d.fport p).state = .up →
    Runs (.fabMarker p bip false a l) d (((d.bump (R.FAB_PORT_CNT2 p) F.FAB_PORT_CNT2_BIP_CNT bip).setFport p
      { d.fport p with markers := ((d.fport p).markers + 1) % 65536 }).portRetrain p)) ∧
  (∀ (d : Dev) (p : Fin 4) (x : FabPort) (ack : Nat) (cr : List Nat), d.fport p = x → x.state = .up → x.unacked = [] → x.queue = [] →
    Runs (.fabControlUnitRx p true ack false cr) d (d.setFport p { x with credit := (List.range 4).map (fun k => x.credit.getD k 0 + cr.getD k 0) })) ∧
  (∀ (d : Dev) (p : Fin 4) (x : FabPort) (ack : Nat) (cr : List Nat), d.fport p = x → x.state = .up → x.unacked = [] → x.queue = [] → x.replays < 7 →
    Runs (.fabControlUnitRx p true ack true cr) d (((d.setFport p { x with credit := (List.range 4).map (fun k => x.credit.getD k 0 + cr.getD k 0), replays := x.replays + 1 }).bump
      (R.FAB_PORT_CNT0 p) F.FAB_PORT_CNT0_REPLAY_CNT 1).fabErr 2)) ∧
  (∀ (d : Dev) (p : Fin 4) (x : FabPort) (ack : Nat) (nak : Bool) (cr : List Nat), d.fport p = x → x.state ≠ .up →
    Runs (.fabControlUnitRx p true ack nak cr) d d)

/-- A HELLO tells the neighbour and fences a holder of an older epoch; a root is followed and its announcement forwarded; claims are collected and the best becomes root with a newer epoch; an assignment gives address and routes or refuses a 65th device; KEEPALIVE keeps a member and goes toward the root; a root announces every member; timeouts lead to ALONE, to claims, to a dead member, or to a failed request whose txid is quarantined; FENCE fences its destination; a time exchange gives the offset, the lock and a correction within 100 ppm, without a step while the offset is within 1 us; time pulses, time captures and CLEAR_SPARE act as R565 and R579 say. -/
def Obligations.FabricMembersAgree : Prop :=
  (∀ (d : Dev) (p : Fin 4) (h : FabHello), (d.fport p).state = .up → d.fab.heldRoot = none → d.fab.heldSink = none →
    Runs (.fabHelloRx p h) d (d.setFport p { d.fport p with peer := h.serial, peerAddr := h.addr.getD 0, peerPort := h.port })) ∧
  (∀ (d : Dev) (p : Fin 4) (h : FabHello) (e : Nat), (d.fport p).state = .up → d.fab.heldSink = some e → epochNewer h.sinkEp e = true →
    Runs (.fabHelloRx p h) d (d.setFport p { d.fport p with peer := h.serial, peerAddr := h.addr.getD 0, peerPort := h.port }).fabFence) ∧
  (∀ (d : Dev) (p : Fin 4) (src hops : Nat) (r : FabRoot), (d.fabArrive p).1 = true → d.fab.state ≠ .off → r.serial ≠ serial →
    (d.fabArrive p).2.fab.root = false → (d.fabArrive p).2.fab.rootAddr = none →
    Runs (.fabRootRx p src hops r) d (((d.fabArrive p).2.follow p (headOf src hops true 0 (.root r)) r).fabForward p (headOf src hops true 0 (.root r)))) ∧
  (∀ (d : Dev) (p : Fin 4) (src hops : Nat) (r : FabRoot), r.serial = serial → Runs (.fabRootRx p src hops r) d (d.fabArrive p).2) ∧
  (∀ (d : Dev) (p : Fin 4) (src hops : Nat) (k : FabClaim), (d.fabArrive p).1 = true → d.fab.root = false → d.fab.claims.contains k = false →
    Runs (.fabClaimRx p src hops k) d (((d.fabArrive p).2.modFab fun f => { f with claims := f.claims ++ [k] }).fabForward p (headOf src hops true 0 (.claim k)))) ∧
  (∀ (d : Dev) (p : Fin 4) (src hops x : Nat) (a : FabAssign), (d.fabArrive p).1 = true → a.serial = serial → a.conflict = false → a.addr = some x →
    Runs (.fabAssignRx p src hops a) d (((d.fabArrive p).2.setRoutes a.routes a.tree).modFab fun f =>
        { f with addr := some x, state := if f.state = .joining then .member else f.state, joined := true })) ∧
  (∀ (d : Dev) (p : Fin 4) (src hops : Nat) (a : FabAssign), (d.fabArrive p).1 = true → a.serial = serial → a.conflict = false → a.addr = none →
    Runs (.fabAssignRx p src hops a) d ((d.fabArrive p).2.fabErr 9)) ∧
  (∀ (d : Dev) (p : Fin 4) (src hops dst : Nat) (k : FabKeepalive), (d.fabArrive p).1 = true → d.fab.root = false →
    Runs (.fabKeepaliveRx p src hops dst k) d ((d.fabArrive p).2.portPut d.fab.upPort (headOf src (hops + 1) false dst (.keepalive k)))) ∧
  (∀ (d d1 : Dev) (p : Fin 4) (src hops dst a : Nat) (k : FabKeepalive) (m n : FabMember), d.fabArrive p = (true, d1) → d.fab.root = true →
    d1.fab.table.find? (fun m => m.serial == k.serial) = some m → m.links = k.links → m.dead = false → d1.fab.sinkAddr = some a →
    n = { m with sinkPrio := k.sinkPrio, spare := k.spare, dead := false, lastAt := d.now, links := k.links } →
    Runs (.fabKeepaliveRx p src hops dst k) d (d1.modFab fun g => { g with table := g.table.map (fun y => if y.serial = k.serial then n else y) })) ∧
  (∀ (d : Dev) (p : Fin 4) (t2 t3 : Int), (d.fabArrive p).1 = true → d.fab.upPort = p →
    Runs (.fabSyncRx p t2 t3) d ((d.fabArrive p).2.modFab fun f => { f with stamps := some (t2, t3) })) ∧
  (∀ (d : Dev) (p : Fin 4) (src hops dst : Nat), (d.fabArrive p).1 = true → d.fab.addr = some dst →
    Runs (.fabFenceRx p src hops dst) d (d.fabArrive p).2.fabFence) ∧
  (∀ (d : Dev) (p : Fin 4) (src hops dst : Nat), (d.fabArrive p).1 = true → d.fab.addr ≠ some dst →
    Runs (.fabFenceRx p src hops dst) d ((d.fabArrive p).2.fabForward p (headOf src hops false dst .fence))) ∧
  (∀ (d : Dev), d.fab.root = true → d.fab.table.any (fun m => m.serial == serial && m.links == (d.selfMember d.fabAddr).links) = true →
    Runs .fabRootAnnounce d (d.flood (.root { serial := serial, prio := d.f R.FAB_CFG F.FAB_CFG_ROOT_PRIO, rootEp := d.fab.rootEp, sinkEp := d.fab.sinkEp, sinkAddr := d.fab.sinkAddr, members := d.fab.members }))) ∧
  (∀ (d : Dev), d.fab.root = false → Runs .fabRootAnnounce d d) ∧
  (∀ (d : Dev) (a : Nat) (k : FabKeepalive), d.fab.root = false → d.fab.rootAddr = some a → d.fab.state ≠ .off → d.fab.state ≠ .alone →
    k = { serial := serial, addr := d.fab.addr, pref := (d.hello d.fab.upPort).pref, sinkPrio := (d.hello d.fab.upPort).sinkPrio, spare := d.fab.state == .spare, links := (d.selfMember 0).links } →
    Runs .fabKeepaliveSend d (d.portPut d.fab.upPort (d.fabPacket a false 0 0 (.keepalive k)))) ∧
  (∀ (d : Dev), d.fab.state = .joining → d.fab.rootAddr = none → d.fab.stateAt + 3000000 ≤ d.now → d.f R.FAB_CFG F.FAB_CFG_ROOT_PRIO ≠ 0 → d.fab.claimAt = none →
    Runs .fabClaimStart d ((d.modFab fun f => { f with claimAt := some d.now, claims := f.claims ++ [d.ownClaim] }).flood (.claim d.ownClaim))) ∧
  (∀ (d : Dev), d.now < d.fab.stateAt + 3000000 → Runs .fabClaimStart d d) ∧
  (∀ (d : Dev) (t : Nat), d.fab.claimAt = some t → t + 3000000 ≤ d.now → (∃ k ∈ d.fab.claims, k.prio ≠ 0 ∧ (k.prio < d.ownClaim.prio ∨ k.prio = d.ownClaim.prio ∧ k.serial < serial)) →
    Runs .fabElectionEnd d (d.modFab fun f => { f with claimAt := none, claims := [] })) ∧
  (∀ (d : Dev) (t : Nat), d.fab.claimAt = some t → t + 3000000 ≤ d.now → d.fab.claims = [d.ownClaim] →
    epochNewer d.ownClaim.rootEp d.fab.rootEp = false → Runs .fabElectionEnd d (d.becomeRoot ((d.fab.rootEp + 1) % 65536))) ∧
  (∀ (d : Dev) (t : Nat), d.fab.state ≠ .off → d.fab.state ≠ .alone → d.fab.lostAt = some t → t + d.rootTmo ≤ d.now →
    Runs .fabRootTimeout d (d.modFab fun g => { g with state := .alone, stateAt := d.now, root := false, sink := false, rootAddr := none, sinkAddr := none, claimAt := none, claims := [], table := [] })) ∧
  (∀ (d : Dev), d.fab.state = .member → d.fab.root = false → d.fab.lostAt = none → d.fab.rootAt + d.rootTmo ≤ d.now →
    Runs .fabRootTimeout d (d.modFab fun g => { g with rootAddr := none }).claimNow) ∧
  (∀ (d : Dev) (a : Fin 64) (m : FabMember), d.fab.root = true → d.fab.table.find? (fun m => m.addr == a.val && !m.dead && m.serial != serial) = some m →
    m.lastAt + d.fabTmo F.FAB_TMO_MEMBER_TMO * 1000000 ≤ d.now → d.fab.sinkAddr ≠ some a.val →
    Runs (.fabMemberTimeout a) d ((d.modFab fun f => { f with table := f.table.map (fun y => if y.serial = m.serial then { y with dead := true } else y) }).modFab fun f =>
      { f with members := ofBits ((f.table.filter (fun y => !y.dead)).map (fun y => (true, y.addr))) })) ∧
  (∀ (d : Dev) (t : Nat) (r : FabReq), d.fab.reqs.find? (fun r => r.txid == t) = some r → r.sent + d.reqTmo ≤ d.now →
    Runs (.fabReqTimeout t) d ((((d.modFab fun f => { f with reqs := f.reqs.erase r, quar := f.quar ++ [(t, d.now + 2 * d.reqTmo)] }).bump R.FAB_CNT0
        F.FAB_CNT0_REQ_TMO_CNT 1).fabErr 5).fabUseFail r.use)) ∧
  (∀ (d : Dev) (t : Nat), Runs (.fabTxidQuarantineEnd t) d (d.modFab fun f => { f with quar := f.quar.filter (fun q => !(q.1 == t && decide (q.2 ≤ d.now))) })) ∧
  (∀ (d : Dev) (t1 t2 t3 t4 del ofs : Int), d.fab.stamps = some (t2, t3) → d.fab.root = false → d.fab.state = .member →
    del = ((t4 - t1) - (t3 - t2) + ((d.rd (R.FAB_PORT_CFG d.fab.upPort)).extractLsb' 0 16).toInt) / 2 → ofs = t3 + del - t4 →
    d.fab.exchanged = true → ofs.natAbs ≤ 1000000 →
    RunsTo (.fabTimeSync t1 t4) d fun t => t.fab.ofs = ofs ∧ t.ts = d.ts ∧ t.fab.good = (if ofs.natAbs < 500 then d.fab.good + 1 else 0) ∧
      t.fab.locked = (if 8 ≤ (if ofs.natAbs < 500 then d.fab.good + 1 else 0) then true else if 8 ≤ (if 1000 < ofs.natAbs then d.fab.bad + 1 else 0) then false else d.fab.locked) ∧
      -100000 ≤ t.fab.rate ∧ t.fab.rate ≤ 100000) ∧
  (∀ (d : Dev) (t1 t4 : Int), d.fab.stamps = none → Runs (.fabTimeSync t1 t4) d d) ∧
  (∀ (d : Dev), d.f R.FAB_TIME_CFG F.FAB_TIME_CFG_PULSE_EN = 1 → d.ts % (max 1 (d.f R.FAB_TIME_CFG F.FAB_TIME_CFG_PERIOD) * 1000) = 0 → d.fab.locked = true →
    Runs .fabTimePulse d (d.publish Src.fabTime 0)) ∧
  (∀ (d : Dev), d.fab.root = false → d.fab.locked = false → Runs .fabTimePulse d d) ∧
  (∀ (d : Dev), d.fab.state = .spare → Runs .clearSpare d (d.modFab fun f => { f with state := .member, stateAt := d.now })) ∧
  (∀ (d : Dev), d.fab.state ≠ .spare → Runs .clearSpare d d) ∧
  (∀ (d : Dev), Runs .timeCap d (d.wr64 R.FAB_TIME_CAPTURE (BitVec.ofNat 64 d.ts))) ∧
  (∀ (d d1 : Dev) (a : Act), d.activate Task.fabTimeCap = (some a, d1) → Runs .fabTimeCap d (d1.wr64 R.FAB_TIME_CAPTURE d1.tsWord))

/-- A request that arrives at its destination in the root epoch is made as master FAB(n) and answered with its status; one of another epoch is rejected with EPOCH, a SINK write to a device that is not the sink in that epoch with SINK, and one outside the sink region is denied; one for another device is forwarded; a response completes its request and an unknown one is late; the ACCESS register starts, refuses or finishes a 4-byte access. -/
def Obligations.PeerAndTestAccesses : Prop :=
  (∀ (d d1 : Dev) (p : Fin 4) (q : FabPacket) (da n : Nat) (r : Acc × List Byte × Dev), q.msg = .read da n → d.fabArrive p = (true, d1) → d.fab.addr = some q.dst →
    d1.fab.rootEp = q.rootEp → q.sink = false → d1.runRead (0x40 + q.src) (d1.servedDa da) n = r → r.1 = .ok →
    Runs (.fabReadRx p q) d (r.2.2.fabAnswer q 0 r.2.1)) ∧
  (∀ (d d1 : Dev) (p : Fin 4) (q : FabPacket) (da n : Nat), q.msg = .read da n → d.fabArrive p = (true, d1) → d.fab.addr = some q.dst →
    q.rootEp ≠ d1.fab.rootEp → Runs (.fabReadRx p q) d (d1.fabReject q 4 (epochNewer d1.fab.rootEp q.rootEp))) ∧
  (∀ (d d1 : Dev) (p : Fin 4) (q : FabPacket) (da n : Nat), q.msg = .read da n → d.fabArrive p = (true, d1) → d.fab.addr ≠ some q.dst →
    Runs (.fabReadRx p q) d (d1.fabForward p q)) ∧
  (∀ (d d1 : Dev) (p : Fin 4) (q : FabPacket) (da : Nat) (bs : List Byte) (r : Acc × Dev), q.msg = .write da bs → d.fabArrive p = (true, d1) → d.fab.addr = some q.dst →
    d1.fab.rootEp = q.rootEp → q.sink = false → d1.runWrite (0x40 + q.src) (d1.servedDa da) bs = r →
    Runs (.fabWriteRx p q) d (r.2.fabAnswer q r.1.status [])) ∧
  (∀ (d d1 : Dev) (p : Fin 4) (q : FabPacket) (da : Nat) (bs : List Byte), q.msg = .write da bs → d.fabArrive p = (true, d1) → d.fab.addr = some q.dst →
    d1.fab.rootEp = q.rootEp → q.sink = true → d1.fab.sink = true → d1.fab.sinkEp = q.sinkEp →
    d1.outsideSink (d1.servedDa da) bs.length = true →
    Runs (.fabWriteRx p q) d ((d1.deny (0x40 + q.src) true (d1.servedDa da)).fabAnswer q 1 [])) ∧
  (∀ (d d1 : Dev) (p : Fin 4) (q : FabPacket) (da : Nat) (bs : List Byte), q.msg = .write da bs → d.fabArrive p = (true, d1) → d.fab.addr = some q.dst →
    d1.fab.rootEp = q.rootEp → q.sink = true → d1.fab.sink = false → Runs (.fabWriteRx p q) d (d1.fabReject q 5 false)) ∧
  (∀ (d d1 : Dev) (p : Fin 4) (q : FabPacket) (data : List Byte) (r : FabReq), q.msg = .response data → d.fabArrive p = (true, d1) → d.fab.addr = some q.dst →
    d1.fab.reqs.find? (fun r => r.txid == q.txid) = some r →
    Runs (.fabResponseRx p q) d ((d1.modFab fun f => { f with reqs := f.reqs.erase r }).fabComplete r.use q.status data)) ∧
  (∀ (d d1 : Dev) (p : Fin 4) (q : FabPacket) (data : List Byte), q.msg = .response data → d.fabArrive p = (true, d1) → d.fab.addr = some q.dst →
    d1.fab.reqs.find? (fun r => r.txid == q.txid) = none →
    Runs (.fabResponseRx p q) d ((d1.bump R.FAB_CNT1 F.FAB_CNT1_LATE_RSP_CNT 1).fabErr 6)) ∧
  (∀ (d d1 : Dev) (p : Fin 4) (q : FabPacket) (data : List Byte), q.msg = .response data → d.fabArrive p = (false, d1) → Runs (.fabResponseRx p q) d d1) ∧
  (∀ (d : Dev) (v : BitVec 100) (n : Nat), d.stw.ir = .access → bitOf v.toNat 99 = true → d.stw.acc.busy = none → v.toNat % 2 ^ 64 % 4 = 0 → daDecode (v.toNat % 2 ^ 64) = .bar n →
    Runs (.jtagAccessGo v) d ((d.modAcc fun a => { a with da := v.toNat % 2 ^ 64, status := 1, busy := some (bitOf v.toNat 98), data := if bitOf v.toNat 98 then v.extractLsb' 64 32 else a.data }).bump
      R.STW_TEST_STATUS ⟨0, 16⟩ 1)) ∧
  (∀ (d : Dev) (v : BitVec 100), d.stw.ir = .access → bitOf v.toNat 99 = true → d.stw.acc.busy = none → v.toNat % 2 ^ 64 % 4 ≠ 0 →
    Runs (.jtagAccessGo v) d (d.modAcc fun a => { a with da := v.toNat % 2 ^ 64, status := 2 })) ∧
  (∀ (d : Dev) (v : BitVec 100), d.stw.ir ≠ .access → Runs (.jtagAccessGo v) d d) ∧
  (∀ (d : Dev) (r : Acc × Dev), d.stw.acc.busy = some true → d.waitsForSkein d.stw.acc.da = false → d.daWrite 2 d.stw.acc.da (leBytes 4 d.stw.acc.data.toNat) = r →
    Runs .jtagAccessDone d (r.2.modAcc fun x => { x with busy := none, status := if r.1 = .ok then 0 else 2 })) ∧
  (∀ (d : Dev) (b : List Byte) (d1 : Dev), d.stw.acc.busy = some false → d.waitsForSkein d.stw.acc.da = false → d.daRead 2 d.stw.acc.da 4 = (.ok, b, d1) →
    Runs .jtagAccessDone d (d1.modAcc fun x => { x with busy := none, status := 0, data := BitVec.ofNat 32 (leAt b 0 4) })) ∧
  (∀ (d : Dev), d.stw.acc.busy = none → Runs .jtagAccessDone d d)

/-- A GO of the NVM pipe takes its operands and becomes the running operation, BEGIN opens a session on the other slot, a GO while busy is an error and an abort marks the running operation; its completion acts, reports and signals; the log is written when it may be, at most 8 entries a page and 960 in 60 s; the test port instructions select their registers, and those that drive pins need mode TEST with BSCAN_EN. -/
def Obligations.StewardStoresAndTests : Prop :=
  (∀ (d d0 : Dev) (q : NvmOp), d0 = d.plainWrite R.STW_NVM_CMD 0x80000001#32 → d0.stw.op = none →
    q = { op := 1, addr := (d0.rd R.STW_NVM_ADDR).toNat, len := (d0.rd R.STW_NVM_LEN).toNat, da := (d0.rd64 R.STW_NVM_DA).toNat, arg := (d0.rd R.STW_NVM_ARG).toNat, abort := false } →
    Runs .nvmRead d (((((d0.modStw fun x => { x with op := some q, verified := x.verified }).sb R.STW_NVM_STATUS F.STW_NVM_STATUS_BUSY true).sb R.STW_NVM_STATUS
      F.STW_NVM_STATUS_DONE false).sf R.STW_NVM_STATUS F.STW_NVM_STATUS_OP 1).wr R.STW_NVM_PROGRESS 0)) ∧
  (∀ (d d0 : Dev) (q : NvmOp), d0 = d.plainWrite R.STW_NVM_CMD 0x80000003#32 → d0.stw.op = none →
    q = { op := 3, addr := (d0.rd R.STW_NVM_ADDR).toNat, len := (d0.rd R.STW_NVM_LEN).toNat, da := (d0.rd64 R.STW_NVM_DA).toNat, arg := (d0.rd R.STW_NVM_ARG).toNat, abort := false } →
    Runs .nvmProgram d (((((d0.modStw fun x => { x with op := some q, verified := none }).sb R.STW_NVM_STATUS F.STW_NVM_STATUS_BUSY true).sb R.STW_NVM_STATUS
      F.STW_NVM_STATUS_DONE false).sf R.STW_NVM_STATUS F.STW_NVM_STATUS_OP 3).wr R.STW_NVM_PROGRESS 0)) ∧
  (∀ (d d0 : Dev) (q : NvmOp), d0 = d.plainWrite R.STW_NVM_CMD 0x80000004#32 → d0.stw.op = none →
    q = { op := 4, addr := (d0.rd R.STW_NVM_ADDR).toNat, len := (d0.rd R.STW_NVM_LEN).toNat, da := (d0.rd64 R.STW_NVM_DA).toNat, arg := (d0.rd R.STW_NVM_ARG).toNat, abort := false } →
    Runs .nvmVerify d (((((d0.modStw fun x => { x with op := some q, verified := x.verified }).sb R.STW_NVM_STATUS F.STW_NVM_STATUS_BUSY true).sb R.STW_NVM_STATUS
      F.STW_NVM_STATUS_DONE false).sf R.STW_NVM_STATUS F.STW_NVM_STATUS_OP 4).wr R.STW_NVM_PROGRESS 0)) ∧
  (∀ (d d0 : Dev) (q : NvmOp), d0 = d.plainWrite R.STW_NVM_CMD 0x80000005#32 → d0.stw.op = none →
    q = { op := 5, addr := (d0.rd R.STW_NVM_ADDR).toNat, len := (d0.rd R.STW_NVM_LEN).toNat, da := (d0.rd64 R.STW_NVM_DA).toNat, arg := (d0.rd R.STW_NVM_ARG).toNat, abort := false } →
    Runs .nvmCommit d (((((d0.modStw fun x => { x with op := some q, verified := x.verified }).sb R.STW_NVM_STATUS F.STW_NVM_STATUS_BUSY true).sb R.STW_NVM_STATUS
      F.STW_NVM_STATUS_DONE false).sf R.STW_NVM_STATUS F.STW_NVM_STATUS_OP 5).wr R.STW_NVM_PROGRESS 0)) ∧
  (∀ (d d0 : Dev) (q : NvmOp), d0 = d.plainWrite R.STW_NVM_CMD 0x80000006#32 → d0.stw.op = none →
    q = { op := 6, addr := (d0.rd R.STW_NVM_ADDR).toNat, len := (d0.rd R.STW_NVM_LEN).toNat, da := (d0.rd64 R.STW_NVM_DA).toNat, arg := (d0.rd R.STW_NVM_ARG).toNat, abort := false } →
    Runs .nvmBoard d (((((d0.modStw fun x => { x with op := some q, verified := x.verified }).sb R.STW_NVM_STATUS F.STW_NVM_STATUS_BUSY true).sb R.STW_NVM_STATUS
      F.STW_NVM_STATUS_DONE false).sf R.STW_NVM_STATUS F.STW_NVM_STATUS_OP 6).wr R.STW_NVM_PROGRESS 0)) ∧
  (∀ (d d0 : Dev), d0 = d.plainWrite R.STW_NVM_CMD 0x80000002#32 → d0.stw.op = none →
    RunsTo .nvmBegin d fun t => t.stw.session = some d0.stw.targetSlot ∧ t.stw.verified = none) ∧
  (∀ (d d0 : Dev) (q : NvmOp), d0 = d.plainWrite R.STW_NVM_CMD 0x80000007#32 → d0.stw.op = some q →
    Runs .nvmAbort d (d0.modStw fun x => { x with op := some { q with abort := true } })) ∧
  (∀ (d d0 : Dev) (q : NvmOp), d0 = d.plainWrite R.STW_NVM_CMD 0x80000001#32 → d0.stw.op = some q → Runs .nvmRead d (d0.stwErr 2)) ∧
  (∀ (d : Dev) (n : Nat) (f : Bool), d.stw.op = none → Runs (.nvmOpComplete n f) d d) ∧
  (∀ (d d1 : Dev) (n : Nat) (q : NvmOp), d.stw.op = some q → (q.usesSkein = false ∨ d.skeinServes = true) → d.nvmCheck q = 0 → q.op ≠ 4 → q.abort = false →
    d.nvmAct q q.total = (0, q.total, d1) →
    Runs (.nvmOpComplete n false) d (((((((d1.nvmLog q.op 0).modStw fun x => { x with op := none, session := if q.op = 5 then none else x.session, verified := if q.op = 5 then none else x.verified }).wr
      R.STW_NVM_PROGRESS (BitVec.ofNat 32 q.total)).sb R.STW_NVM_STATUS F.STW_NVM_STATUS_BUSY false).sb R.STW_NVM_STATUS F.STW_NVM_STATUS_DONE true).sf R.STW_NVM_STATUS
        F.STW_NVM_STATUS_RESULT 0).intCause 8)) ∧
  (∀ (d : Dev) (f : Bool) (n : Nat), d.logMay = true → n = min 8 (960 - d.stw.logTimes.countP (fun t => decide (d.now < t + 60000000000))) →
    Runs (.logPageWrite f) d (d.logWrite n f)) ∧
  (∀ (d : Dev) (f : Bool), d.logMay = false → Runs (.logPageWrite f) d d) ∧
  (∀ (d : Dev), d.logMay = true → Runs .logFlush d (d.logWrite d.stw.log.length false)) ∧
  (∀ (d : Dev), Runs .jtagReset d (d.modStw fun x => { x with ir := .idcode })) ∧
  (∀ (d : Dev), Runs .idcode d (d.modStw fun x => { x with ir := .idcode })) ∧
  (∀ (d : Dev), Runs .bypass d (d.modStw fun x => { x with ir := .bypass })) ∧
  (∀ (d : Dev), Runs .access d (d.modStw fun x => { x with ir := .access })) ∧
  (∀ (d : Dev) (pins : List Bool), Runs (.samplePreload pins) d (d.modStw fun x => { x with ir := .sample, bsr := pins })) ∧
  (∀ (d : Dev), d.glb.mode = .test → d.b R.STW_TEST_CFG ⟨0, 1⟩ = true → Runs .extest d (d.modStw fun x => { x with ir := .extest })) ∧
  (∀ (d : Dev), d.glb.mode ≠ .test → Runs .extest d ((d.modStw fun x => { x with ir := .bypass }).stwErr 5)) ∧
  (∀ (d : Dev), d.glb.mode = .test → d.b R.STW_TEST_CFG ⟨0, 1⟩ = true → Runs .clamp d (d.modStw fun x => { x with ir := .clamp })) ∧
  (∀ (d : Dev), d.glb.mode ≠ .test → Runs .clamp d ((d.modStw fun x => { x with ir := .bypass }).stwErr 5)) ∧
  (∀ (d : Dev), d.glb.mode = .test → d.b R.STW_TEST_CFG ⟨0, 1⟩ = true → Runs .highz d (d.modStw fun x => { x with ir := .highz })) ∧
  (∀ (d : Dev), d.glb.mode ≠ .test → Runs .highz d ((d.modStw fun x => { x with ir := .bypass }).stwErr 5))

/-- A keyed WATCH in ACTIVE requests the watch state and elsewhere is an error; an exit cause waits in ENTERING and WATCH; entry and exit run in their two steps each; an urgent channel is converted before the frame and the frame takes its slots in order; the governor rises at once to the step of the temperature; THROTTLE lowers the cap by 125 MHz each interval; the trip stops clusters and Carriages, counts, logs and publishes, and ends 10 ms after every sensor is cool; the electrical limit halves the cluster clocks and releases them. -/
def Obligations.PowerWatchAndGovernor : Prop :=
  (∀ (d : Dev), d.pwr.state = .active → d.pinsHeld = false → Runs .pwrCtlWatch d (d.modPwr fun x => { x with request := true })) ∧
  (∀ (d : Dev), d.pwr.state ≠ .active → Runs .pwrCtlWatch d (d.pwrErr 6)) ∧
  (∀ (d : Dev), d.pwr.state = .watch → d.pwr.heldBy = none → Runs .pwrCtlExit d (d.modPwr fun x => { x with heldBy := some 1 })) ∧
  (∀ (d : Dev), d.pwr.state = .active → Runs .pwrCtlExit d d) ∧
  (∀ (d d1 : Dev) (a : Act), d.activate Task.pwrWake = (some a, d1) → d1.pwr.state = .active → d1.b R.PWR_WATCH_CFG F.PWR_WATCH_CFG_WAKE_HOST = false →
    Runs .pwrWake d (d1.bump R.PWR_CNT1 F.PWR_CNT1_WAKE_CNT 1)) ∧
  (∀ (d d1 : Dev) (a : Act), d.activate Task.pwrWake = (some a, d1) → (d1.pwr.state = .entry ∨ d1.pwr.state = .watch) →
    Runs .pwrWake d ((d1.bump R.PWR_CNT1 F.PWR_CNT1_WAKE_CNT 1).exitCause 0)) ∧
  (∀ (d y : Dev), y = d.jobWatch.asmWatch → d.pwr.request = true → d.stw.op = none → d.pwr.state = .active → (∀ ch, ch < 16 → (y.hookCh ch).state = .idle) →
    Runs .watchEntryStart d (y.cllWatchEnter.modPwr fun x => { x with state := .entry, request := false, since := d.now, heldBy := none })) ∧
  (∀ (d : Dev), d.pwr.request = false → Runs .watchEntryStart d d) ∧
  (∀ (d : Dev), d.pwr.state = .entry → (List.range 16).any (fun ch => (d.hookCh ch).state != .idle) = false →
    Runs .watchEntryDone d ((d.steWatch.fabWatch.carWatch.modSkein fun x => { x with cached := [] }).gaugeWatchEnter.modPwr fun x => { x with state := .watch })) ∧
  (∀ (d : Dev) (k : Nat), d.pwr.heldBy = some k → d.pwr.state = .watch → k ≠ 0 →
    Runs .watchExitStart d (d.modPwr fun x => { x with state := .exit, cause := k, heldBy := none, since := d.now }).gaugeWatchExit) ∧
  (∀ (d : Dev), d.pwr.heldBy = none → Runs .watchExitStart d d) ∧
  (∀ (d : Dev), d.pwr.state = .exit → Runs .watchExitDone d ((List.range 4).foldl (fun (y : Dev) p => y.portEnable p) (d.modPwr fun x => { x with state := .active }))) ∧
  (∀ (d : Dev) (raw : BitVec 12) (ch : Nat) (rest : List Nat), d.pwr.urgent = ch :: rest → d.pwr.urgents < 10 →
    Runs (.hkConversion raw) d ((d.modPwr fun x => { x with urgent := rest, urgents := x.urgents + 1 }).hkConvert ch raw.toNat true)) ∧
  (∀ (d : Dev) (raw : BitVec 12), d.pwr.urgent = [] → d.pwr.slot < 81 →
    Runs (.hkConversion raw) d ((d.modPwr fun x => { x with slot := x.slot + 1 }).hkConvert d.pwr.slot raw.toNat false)) ∧
  (∀ (d : Dev) (v : Word), fld v F.PWR_HK_URGENT_GO = 1 → d.pwr.urgent.length < 18 - d.pwr.urgents →
    Runs (.hkUrgent v) d (d.modPwr fun x => { x with urgent := x.urgent ++ [fld v F.PWR_HK_URGENT_CHANNEL] })) ∧
  (∀ (d : Dev) (v : Word), fld v F.PWR_HK_URGENT_GO = 1 → 18 - d.pwr.urgents ≤ d.pwr.urgent.length → Runs (.hkUrgent v) d (d.pwrErr 5)) ∧
  (∀ (d : Dev), Runs .hkResultRead d { d.wr R.PWR_HK_RESULT (d.rd R.PWR_HK_RESULT &&& 0x3FFFFFFF#32) with rdata := d.rd R.PWR_HK_RESULT }) ∧
  (∀ (d : Dev), d.pwr.trip = false → 1920 ≤ d.tj → d.pwr.step = 0 → Runs .governorEval d ((d.setCap 1500).setStep 3)) ∧
  (∀ (d : Dev), d.pwr.trip = false → d.tStart ≤ d.tj → d.tj < 1760 → d.pwr.step = 0 → Runs .governorEval d ((d.setCap (d.pwr.cap - 125)).setStep 1)) ∧
  (∀ (d : Dev), d.pwr.trip = false → d.pwr.step = 3 → 1872 ≤ d.tj → Runs .governorEval d d) ∧
  (∀ (d : Dev), d.pwr.step = 1 → d.tStart ≤ d.tj → d.pwr.capAt + max 1 (d.f R.PWR_THERM_CFG F.PWR_THERM_CFG_DOWN_MS) * 1000000 ≤ d.now → 1500 < d.pwr.cap →
    Runs .throttleCapStep d (d.setCap (d.pwr.cap - 125))) ∧
  (∀ (d : Dev), d.pwr.step ≠ 1 → Runs .throttleCapStep d d) ∧
  (∀ (d d1 : Dev), d.pwr.trip = false → d.pwr.state = .active →
    d1 = ((((d.steTrip.carTrip.modPwr fun x => { x with trip := true, coolAt := none }).setHalved false).bump R.PWR_CNT0 F.PWR_CNT0_TRIP_CNT 1).pwrErr 0) →
    Runs .thermalTrip d ((((d1.publish Src.pwrTrip 0).logEvent 6 2 (BitVec.ofInt 64 d.tj)).emit (.thermTrip true)).setStep 4)) ∧
  (∀ (d : Dev), d.pwr.trip = true → Runs .thermalTrip d d) ∧
  (∀ (d : Dev) (t : Nat), d.pwr.coolAt = some t → d.pwr.trip = true → t + 10000000 ≤ d.now →
    Runs .tripEnd d ((((d.modPwr fun x => { x with trip := false }).emit (.thermTrip false)).setCap (if d.stepOf d.tj = 0 then 3000 else 1500)).setStep (d.stepOf d.tj))) ∧
  (∀ (d : Dev), d.pwr.coolAt = none → Runs .tripEnd d d) ∧
  (∀ (d : Dev), d.b R.PWR_ILIM_CFG F.PWR_ILIM_CFG_EN = true → d.pwr.halved = false → d.pwr.trip = false →
    Runs .ilimHalve d (((d.setHalved true).bump R.PWR_CNT0 F.PWR_CNT0_ILIM_CNT 1).pwrErr 1)) ∧
  (∀ (d : Dev), d.pwr.halved = true → Runs .ilimHalve d d) ∧
  (∀ (d : Dev), d.pwr.halved = true → Runs .ilimRelease d (d.setHalved false)) ∧
  (∀ (d : Dev), d.pwr.halved = false → Runs .ilimRelease d d)

/-- The first overloaded signal raises the level at once and starts 50 us, after which a standing pressure raises it again; 10 ms with all signals clear lower it by one; the Skein window keeps the newest 100; a keyed allowed mode request enters the mode, one that is not allowed sets REFUSED and one without the key does nothing; a Bind-off starts once and completes when all work has ended; a write of the interrupt registers sends vector 0 again while a cause stands. -/
def Obligations.SheddingAndServiceModes : Prop :=
  (∀ (d : Dev) (p : Pressure), d.glb.pressure = [] → d.engages p = true →
    Runs (.shedRaise p) d (((({ d with glb := { d.glb with pressure := [p] } } : Dev).disarm .shedLower).arm .shedRaise (d.now + 50000)).setShed (min 4 (d.glb.shed + 1)))) ∧
  (∀ (d : Dev) (p : Pressure), d.glb.pressure.contains p = false → d.glb.pressure.isEmpty = false → d.engages p = true →
    Runs (.shedRaise p) d { d with glb := { d.glb with pressure := d.glb.pressure ++ [p] } }) ∧
  (∀ (d : Dev) (p : Pressure), d.engages p = false → Runs (.shedRaise p) d d) ∧
  (∀ (d : Dev), d.glb.pressure = [] → d.engages .engine = true →
    Runs .engineBacklogDeadline d (((({ d with glb := { d.glb with pressure := [.engine] } } : Dev).disarm .shedLower).arm .shedRaise (d.now + 50000)).setShed (min 4 (d.glb.shed + 1)))) ∧
  (∀ (d : Dev), d.engages .engine = false → Runs .engineBacklogDeadline d d) ∧
  (∀ (d d1 : Dev), d1 = d.pressureDown → d1.due .shedRaise = true → d1.glb.pressure.isEmpty = false →
    Runs .shedRaiseIntervalExpiry d ((d1.arm .shedRaise (d.now + 50000)).setShed (min 4 (d1.glb.shed + 1)))) ∧
  (∀ (d : Dev), d.due .shedLower = true → d.glb.pressure = [] → 1 < d.glb.shed → Runs .shedLowerExpiry d ((d.arm .shedLower (d.now + 10000000)).setShed (d.glb.shed - 1))) ∧
  (∀ (d : Dev), d.due .shedLower = true → d.glb.pressure = [] → d.glb.shed = 1 → Runs .shedLowerExpiry d ((d.disarm .shedLower).setShed 0)) ∧
  (∀ (d : Dev), d.due .shedLower = false → Runs .shedLowerExpiry d d) ∧
  (∀ (d : Dev), Runs .skeinPressureWindow d ((d.pressureUp .skein).pressureDown.modSkein fun x => { x with refused := x.refused.filter (fun w => decide (d.now / 10000 < w + 100)) })) ∧
  (∀ (d : Dev) (v : Word) (m : Mode), fld v F.GLB_SERVICE_REFUSED = 0 → fld v F.GLB_SERVICE_KEY = 0x5E → modeOf (fld v F.GLB_SERVICE_REQ) = some m → d.mayEnter m = true →
    fld v F.GLB_SERVICE_BINDOFF = 0 → Runs (.serviceModeRequest v) d (d.enterMode m)) ∧
  (∀ (d : Dev) (v : Word) (m : Mode), fld v F.GLB_SERVICE_REFUSED = 0 → fld v F.GLB_SERVICE_KEY = 0x5E → modeOf (fld v F.GLB_SERVICE_REQ) = some m → d.mayEnter m = false →
    fld v F.GLB_SERVICE_BINDOFF = 0 → Runs (.serviceModeRequest v) d (d.sb R.GLB_SERVICE F.GLB_SERVICE_REFUSED true)) ∧
  (∀ (d : Dev) (v : Word), fld v F.GLB_SERVICE_REFUSED = 0 → fld v F.GLB_SERVICE_KEY ≠ 0x5E → Runs (.serviceModeRequest v) d d) ∧
  (∀ (d : Dev), d.glb.bindoff = .none → Runs .bindoffStart d { d with glb := { d.glb with bindoff := .inProgress } }) ∧
  (∀ (d : Dev), d.glb.bindoff ≠ .none → Runs .bindoffStart d d) ∧
  (∀ (d : Dev), d.glb.bindoff = .inProgress → d.bindoffReady = true → Runs .bindoffComplete d (({ d with glb := { d.glb with bindoff := .done } } : Dev).intCause 3)) ∧
  (∀ (d : Dev), d.bindoffReady = false → Runs .bindoffComplete d d) ∧
  (∀ (d d1 : Dev) (en : Bool) (v : Word), d1 = d.plainWrite (if en then R.GLB_INT_EN else R.GLB_INT_STATUS) v → d1.intPending ≠ 0 → Runs (.glbIntWrite en v) d (d1.message 0)) ∧
  (∀ (d d1 : Dev) (en : Bool) (v : Word), d1 = d.plainWrite (if en then R.GLB_INT_EN else R.GLB_INT_STATUS) v → d1.intPending = 0 → Runs (.glbIntWrite en v) d d1)

/-- A cold reset returns every block and register to its reset state and records its cause; a device reset from the pin, STW_RESET or the watchdog adds its cause, stops every block and keeps ts, Skein and the registers R544 keeps; a reset is released after 10 us; Cast-on ends with DONE; staging ends with the recipe staged, or with its result where the package fails. -/
def Obligations.ResetsCastOnAndStaging : Prop :=
  (∀ (d : Dev) (k : ResetCause) (n : Nat), causeCold k = true →
    RunsTo (.coldReset k n) d fun t => t.rd R.STW_RESET_CAUSE = BitVec.ofNat 32 (2 ^ causeBit k) ∧ (∀ o, o ≠ R.STW_RESET_CAUSE → t.rd o = regDefault o) ∧ t.stw.boot = .held ∧
      t.ts = 0 ∧ t.chain = ChainSt.init ∧ t.gauge = GaugeSt.init ∧ t.trig = TrigSt.init ∧ t.cll = CllSt.init ∧ t.asm = AsmSt.init ∧ t.car = CarSt.init ∧ t.ste = SteSt.init ∧
      t.job = JobSt.init ∧ t.stash = StashSt.init ∧ t.skein = SkeinSt.init ∧ t.hook = HookSt.init ∧ t.fab = FabSt.init ∧ t.pwr = PwrSt.init ∧ t.glb = GlbSt.init) ∧
  (∀ (d : Dev) (k : ResetCause) (n : Nat), causeCold k = false → Runs (.coldReset k n) d d) ∧
  (∀ (d : Dev) (n : Nat), d.stw.boot = .held → Runs (.deviceReset n) d (d.sf R.STW_RESET_CAUSE (bitF 2) 1)) ∧
  (∀ (d : Dev) (n : Nat), d.stw.boot ≠ .held → RunsTo (.deviceReset n) d fun t => t.stw.boot = .held ∧ t.stw.since = d.now ∧ t.ts = d.ts ∧ t.now = d.now ∧ t.chain = ChainSt.init ∧
      t.gauge = GaugeSt.init ∧ t.asm = AsmSt.init ∧ t.car = CarSt.init ∧ t.ste = SteSt.init ∧ t.job = JobSt.init ∧ t.stash = StashSt.init ∧ t.skein.mem = d.skein.mem ∧ t.hook = HookSt.init ∧
      t.fab = FabSt.init ∧ t.pwr = PwrSt.init ∧ t.glb = GlbSt.init ∧ ∀ o, deviceKept o = false → t.rd o = regDefault o) ∧
  (∀ (d : Dev) (n : Nat), d.stw.boot = .held → Runs (.stewardWdogExpire n) d (d.sf R.STW_RESET_CAUSE (bitF 0) 1)) ∧
  (∀ (d : Dev) (n : Nat), d.stw.boot ≠ .held → RunsTo (.stewardWdogExpire n) d fun t => t.stw.boot = .held ∧ t.stw.since = d.now ∧ t.ts = d.ts ∧ t.now = d.now ∧ t.chain = ChainSt.init ∧
      t.gauge = GaugeSt.init ∧ t.asm = AsmSt.init ∧ t.car = CarSt.init ∧ t.ste = SteSt.init ∧ t.job = JobSt.init ∧ t.stash = StashSt.init ∧ t.skein.mem = d.skein.mem ∧ t.hook = HookSt.init ∧
      t.fab = FabSt.init ∧ t.pwr = PwrSt.init ∧ t.glb = GlbSt.init ∧ ∀ o, deviceKept o = false → t.rd o = regDefault o) ∧
  (∀ (d : Dev) (v : Word) (n : Nat), fld v F.STW_RESET_KEY = 0xA7 → fld v F.STW_RESET_DEVICE = 1 → d.stw.boot = .held → Runs (.stwReset v n) d (d.sf R.STW_RESET_CAUSE (bitF 1) 1)) ∧
  (∀ (d : Dev) (v : Word) (n : Nat), fld v F.STW_RESET_KEY = 0xA7 → fld v F.STW_RESET_DEVICE = 1 → d.stw.boot ≠ .held → RunsTo (.stwReset v n) d fun t => t.stw.boot = .held ∧ t.stw.since = d.now ∧ t.ts = d.ts ∧ t.now = d.now ∧ t.chain = ChainSt.init ∧
      t.gauge = GaugeSt.init ∧ t.asm = AsmSt.init ∧ t.car = CarSt.init ∧ t.ste = SteSt.init ∧ t.job = JobSt.init ∧ t.stash = StashSt.init ∧ t.skein.mem = d.skein.mem ∧ t.hook = HookSt.init ∧
      t.fab = FabSt.init ∧ t.pwr = PwrSt.init ∧ t.glb = GlbSt.init ∧ ∀ o, deviceKept o = false → t.rd o = regDefault o) ∧
  (∀ (d : Dev) (v : Word) (n : Nat), fld v F.STW_RESET_KEY ≠ 0xA7 → Runs (.stwReset v n) d d) ∧
  (∀ (d : Dev), d.stw.boot = .held → d.stw.since + 10000 ≤ d.now → d.stw.cold = true →
    Runs .resetRelease d { (d.modStw fun x => { x with boot := .caston, since := d.now }) with ts := 0 }) ∧
  (∀ (d : Dev), d.stw.boot = .held → d.stw.since + 10000 ≤ d.now → d.stw.cold = false →
    Runs .resetRelease d (d.modStw fun x => { x with boot := .caston, since := d.now })) ∧
  (∀ (d : Dev), d.now < d.stw.since + 10000 → Runs .resetRelease d d) ∧
  (∀ (d : Dev) (rep : CastonReport), d.stw.boot ≠ .caston → Runs (.castonComplete rep) d d) ∧
  (∀ (d : Dev) (rep : CastonReport), d.stw.boot = .caston → RunsTo (.castonComplete rep) d fun t => t.b R.GLB_CASTON F.GLB_CASTON_DONE = true ∧
      t.f R.GLB_CASTON F.GLB_CASTON_RESULT = (if rep.nvm then d.stw.chooseSlot.2 else 3)) ∧
  (∀ (d y : Dev) (da : Nat) (pkg : List Byte), d.job.staging = some da → d.skeinServes = true → d.pwr.state = .active → d.pkgRead da = some (pkg, false, y) →
    pkgFormat da pkg false = none → y.pkgCheck pkg (pkgAll pkg) = none → (y.entriesStage (pkgAll pkg) d.job.target).1 = none →
    Runs .stagingDone d ((y.entriesStage (pkgAll pkg) d.job.target).2.stageEnd d.job.target 0 0 (some (recipeOf pkg (pkgAll pkg))))) ∧
  (∀ (d y : Dev) (da : Nat) (pkg : List Byte) (ue : Bool) (e : Nat × Nat), d.job.staging = some da → d.skeinServes = true → d.pwr.state = .active → d.pkgRead da = some (pkg, ue, y) →
    pkgFormat da pkg ue = some e → Runs .stagingDone d (y.stageEnd d.job.target e.1 e.2 none)) ∧
  (∀ (d : Dev), d.job.staging = none → Runs .stagingDone d d)

/-- A register write without effects of its own changes the writable fields of its row; a read of the low word of a 64-bit register latches its high word and a write of the low word is held; a read of RC fields clears them; a host request reaches BAR0 or the Skein windows, counts in HOST_RX_SEQ, and a malformed one reports its error instead. -/
def Obligations.RegisterAndHostAccesses : Prop :=
  (∀ (d : Dev) (m off : Nat) (v : Word), d.writeOwned m off v = none → bankOf off = none → d.writeTop off v = none → d.writeMid off v = none → d.writeLow off v = none →
    Runs (.regWrite m off v) d (d.withBlkErr ((blockOf off).getD 0) fun y => y.plainWrite off v)) ∧
  (∀ (d y : Dev) (m off : Nat) (v : Word), d.writeOwned m off v = none → bankOf off = none → d.writeTop off v = some y → Runs (.regWrite m off v) d y) ∧
  (∀ (d : Dev) (off : Nat) (row : RegRow), RegMap.lookup off = some (row, 0) → row.wide = true →
    Runs (.reg64LowWordRead off) d { (d.regRead off).2 with rdata := (d.regRead off).1 }) ∧
  (∀ (d : Dev) (off : Nat) (v : Word) (row : RegRow), RegMap.lookup off = some (row, 0) → row.wide = true → Runs (.reg64LowWordWrite off v) d (d.hold off v)) ∧
  (∀ (d : Dev) (off k : Nat) (row : RegRow), RegMap.lookup off = some (row, k) → row.rc ≠ 0 →
    Runs (.rcFieldRead off) d { (d.regRead off).2 with rdata := (d.regRead off).1 }) ∧
  (∀ (d d1 : Dev) (rid off n : Nat) (hdr : List Byte), d.host.l0 = true → d.tlpMalformed off n false = false → d1 = d.count R.HOST_RX_SEQ whole 1 → d1.takesRequests = true →
    Runs (.hostMemRead rid (some 0) off n hdr) d ((d1.barRead (d.hostMaster rid) off n).2.2.emit (.completion (d1.barRead (d.hostMaster rid) off n).2.1 false))) ∧
  (∀ (d d1 : Dev) (rid off n : Nat) (hdr : List Byte), d.host.l0 = true → d.tlpMalformed off n false = false → d1 = d.count R.HOST_RX_SEQ whole 1 → d1.takesRequests = true →
    Runs (.hostMemRead rid (some 1) off n hdr) d (d1.windowRead (d.hostMaster rid) off n)) ∧
  (∀ (d : Dev) (rid off n : Nat) (bar : Option (Fin 3)) (hdr : List Byte), d.host.l0 = false → Runs (.hostMemRead rid bar off n hdr) d d) ∧
  (∀ (d d1 : Dev) (rid off : Nat) (bs hdr : List Byte), d.host.l0 = true → d.tlpMalformed off bs.length true = false → d.takesRequests = true → d1 = d.count R.HOST_RX_SEQ whole 1 →
    Runs (.hostMemWrite rid (some 0) off bs false hdr) d (d1.barWrite (d.hostMaster rid) off bs).2) ∧
  (∀ (d d1 : Dev) (rid off : Nat) (bs hdr : List Byte), d.host.l0 = true → d.tlpMalformed off bs.length true = false → d.takesRequests = true → d1 = d.count R.HOST_RX_SEQ whole 1 →
    Runs (.hostMemWrite rid (some 1) off bs false hdr) d (d1.windowWrite (d.hostMaster rid) off bs)) ∧
  (∀ (d : Dev) (rid off : Nat) (bs hdr : List Byte), d.host.l0 = true → d.tlpMalformed off bs.length true = true → Runs (.hostMemWrite rid (some 0) off bs false hdr) d ((d.errorMessage 2).logHeader hdr))

/-- For every operation of slot S with every operand at every value its fields admit: each word that agrees with the encoded operation in the bits the operation uses, and is 0 in the bits that must be 0, is read from the slot as that operation with those operands, whatever the ignored bits hold. -/
def Obligations.SlotSWordsAreRead : Prop :=
  (∀ (rd ra rb : BitVec 4) (word : Word), word &&& 0xFFFFFF00 = encR 0x01 rd ra rb 0 → word &&& 0xFF = 0 → slotS word = some (opAdd rd ra rb)) ∧
  (∀ (rd ra rb : BitVec 4) (word : Word), word &&& 0xFFFFFF00 = encR 0x01 rd ra rb 1 → word &&& 0xFF = 0 → slotS word = some (opSub rd ra rb)) ∧
  (∀ (rd ra rb : BitVec 4) (word : Word), word &&& 0xFFFFFF00 = encR 0x01 rd ra rb 2 → word &&& 0xFF = 0 → slotS word = some (opAnd rd ra rb)) ∧
  (∀ (rd ra rb : BitVec 4) (word : Word), word &&& 0xFFFFFF00 = encR 0x01 rd ra rb 3 → word &&& 0xFF = 0 → slotS word = some (opOr rd ra rb)) ∧
  (∀ (rd ra rb : BitVec 4) (word : Word), word &&& 0xFFFFFF00 = encR 0x01 rd ra rb 4 → word &&& 0xFF = 0 → slotS word = some (opXor rd ra rb)) ∧
  (∀ (rd ra rb : BitVec 4) (word : Word), word &&& 0xFFFFFF00 = encR 0x01 rd ra rb 5 → word &&& 0xFF = 0 → slotS word = some (opShl rd ra rb)) ∧
  (∀ (rd ra rb : BitVec 4) (word : Word), word &&& 0xFFFFFF00 = encR 0x01 rd ra rb 6 → word &&& 0xFF = 0 → slotS word = some (opShr rd ra rb)) ∧
  (∀ (rd ra rb : BitVec 4) (word : Word), word &&& 0xFFFFFF00 = encR 0x01 rd ra rb 7 → word &&& 0xFF = 0 → slotS word = some (opSar rd ra rb)) ∧
  (∀ (rd ra rb : BitVec 4) (word : Word), word &&& 0xFFFFFF00 = encR 0x01 rd ra rb 8 → word &&& 0xFF = 0 → slotS word = some (opMul rd ra rb)) ∧
  (∀ (rd ra rb : BitVec 4) (word : Word), word &&& 0xFFFFFF00 = encR 0x01 rd ra rb 9 → word &&& 0xFF = 0 → slotS word = some (opMulh rd ra rb)) ∧
  (∀ (rd ra rb : BitVec 4) (word : Word), word &&& 0xFFFFFF00 = encR 0x01 rd ra rb 10 → word &&& 0xFF = 0 → slotS word = some (opSlt rd ra rb)) ∧
  (∀ (rd ra rb : BitVec 4) (word : Word), word &&& 0xFFFFFF00 = encR 0x01 rd ra rb 11 → word &&& 0xFF = 0 → slotS word = some (opSltu rd ra rb)) ∧
  (∀ (rd ra rb : BitVec 4) (word : Word), word &&& 0xFFFFFF00 = encR 0x01 rd ra rb 12 → word &&& 0xFF = 0 → slotS word = some (opMin rd ra rb)) ∧
  (∀ (rd ra rb : BitVec 4) (word : Word), word &&& 0xFFFFFF00 = encR 0x01 rd ra rb 13 → word &&& 0xFF = 0 → slotS word = some (opMax rd ra rb)) ∧
  (∀ (rd ra rb : BitVec 4) (word : Word), word &&& 0xFFFFFF00 = encR 0x01 rd ra rb 14 → word &&& 0xFF = 0 → slotS word = some (opAdd64 rd ra rb)) ∧
  (∀ (rd ra rb : BitVec 4) (word : Word), word &&& 0xFFFFFF00 = encR 0x01 rd ra rb 15 → word &&& 0xFF = 0 → slotS word = some (opSub64 rd ra rb)) ∧
  (∀ (rd ra : BitVec 4) (imm : BitVec 18) (word : Word), word &&& 0xFFFFFFFF = encI 0x02 rd ra imm → slotS word = some (opAddi rd ra imm)) ∧
  (∀ (rd ra : BitVec 4) (imm : BitVec 18) (word : Word), word &&& 0xFFFFFFFF = encI 0x03 rd ra imm → slotS word = some (opAndi rd ra imm)) ∧
  (∀ (rd ra : BitVec 4) (imm : BitVec 18) (word : Word), word &&& 0xFFFFFFFF = encI 0x04 rd ra imm → slotS word = some (opOri rd ra imm)) ∧
  (∀ (rd ra : BitVec 4) (imm : BitVec 18) (word : Word), word &&& 0xFFFFFFFF = encI 0x05 rd ra imm → slotS word = some (opXori rd ra imm)) ∧
  (∀ (rd ra : BitVec 4) (imm : BitVec 5) (word : Word), word &&& 0xFFFC001F = encI 0x06 rd ra (imm.setWidth 18) → word &&& 0x3FFE0 = 0 → slotS word = some (opShli rd ra (imm.setWidth 18))) ∧
  (∀ (rd ra : BitVec 4) (imm : BitVec 5) (word : Word), word &&& 0xFFFC001F = encI 0x07 rd ra (imm.setWidth 18) → word &&& 0x3FFE0 = 0 → slotS word = some (opShri rd ra (imm.setWidth 18))) ∧
  (∀ (rd ra : BitVec 4) (imm : BitVec 5) (word : Word), word &&& 0xFFFC001F = encI 0x08 rd ra (imm.setWidth 18) → word &&& 0x3FFE0 = 0 → slotS word = some (opSari rd ra (imm.setWidth 18))) ∧
  (∀ (rd ra : BitVec 4) (imm : BitVec 18) (word : Word), word &&& 0xFFFFFFFF = encI 0x09 rd ra imm → slotS word = some (opSlti rd ra imm)) ∧
  (∀ (rd : BitVec 4) (imm : BitVec 22) (word : Word), word &&& 0xFFFFFFFF = encL 0x0A rd imm → slotS word = some (opLui rd imm)) ∧
  (∀ (rd ra : BitVec 4) (imm : BitVec 18) (word : Word), word &&& 0xFFFFFFFF = encI 0x10 rd ra imm → slotS word = some (opLoad 4 rd ra imm)) ∧
  (∀ (rd ra : BitVec 4) (imm : BitVec 18) (word : Word), word &&& 0xFFFFFFFF = encI 0x11 rd ra imm → slotS word = some (opLoad 2 rd ra imm)) ∧
  (∀ (rd ra : BitVec 4) (imm : BitVec 18) (word : Word), word &&& 0xFFFFFFFF = encI 0x12 rd ra imm → slotS word = some (opLoad 1 rd ra imm)) ∧
  (∀ (rd ra : BitVec 4) (imm : BitVec 18) (word : Word), word &&& 0xFFFFFFFF = encI 0x13 rd ra imm → slotS word = some (opStore 4 rd ra imm)) ∧
  (∀ (rd ra : BitVec 4) (imm : BitVec 18) (word : Word), word &&& 0xFFFFFFFF = encI 0x14 rd ra imm → slotS word = some (opStore 2 rd ra imm)) ∧
  (∀ (rd ra : BitVec 4) (imm : BitVec 18) (word : Word), word &&& 0xFFFFFFFF = encI 0x15 rd ra imm → slotS word = some (opStore 1 rd ra imm)) ∧
  (∀ (ra rb : BitVec 4) (off : BitVec 18) (word : Word), word &&& 0xFFFFFFFF = encI 0x20 ra rb off → slotS word = some (opBeq ra rb off)) ∧
  (∀ (ra rb : BitVec 4) (off : BitVec 18) (word : Word), word &&& 0xFFFFFFFF = encI 0x21 ra rb off → slotS word = some (opBne ra rb off)) ∧
  (∀ (ra rb : BitVec 4) (off : BitVec 18) (word : Word), word &&& 0xFFFFFFFF = encI 0x22 ra rb off → slotS word = some (opBlt ra rb off)) ∧
  (∀ (ra rb : BitVec 4) (off : BitVec 18) (word : Word), word &&& 0xFFFFFFFF = encI 0x23 ra rb off → slotS word = some (opBge ra rb off)) ∧
  (∀ (ra rb : BitVec 4) (off : BitVec 18) (word : Word), word &&& 0xFFFFFFFF = encI 0x24 ra rb off → slotS word = some (opBltu ra rb off)) ∧
  (∀ (ra rb : BitVec 4) (off : BitVec 18) (word : Word), word &&& 0xFFFFFFFF = encI 0x25 ra rb off → slotS word = some (opBgeu ra rb off)) ∧
  (∀ (rd : BitVec 4) (imm : BitVec 18) (word : Word), word &&& 0xFFC3FFFF = encI 0x26 rd 0 imm → slotS word = some (opJal rd imm)) ∧
  (∀ (ra : BitVec 4) (word : Word), word &&& 0xFC3C3F00 = encR 0x27 0 ra 0 0 → word &&& 0xFF = 0 → slotS word = some (opJr ra)) ∧
  (∀ (pa : BitVec 3) (off : BitVec 18) (word : Word), word &&& 0xFDC3FFFF = encI 0x28 (pa.setWidth 4) 0 off → word &&& 0x23C0000 = 0 → slotS word = some (opBpany pa off)) ∧
  (∀ (pa : BitVec 3) (off : BitVec 18) (word : Word), word &&& 0xFDC3FFFF = encI 0x29 (pa.setWidth 4) 0 off → word &&& 0x23C0000 = 0 → slotS word = some (opBpnone pa off)) ∧
  (∀ (rd ra rb : BitVec 4) (tag : BitVec 6) (word : Word), word &&& 0xFFFFFF00 = encR 0x30 rd ra rb tag → word &&& 0xFF = 0 → slotS word = some (opXld rd ra rb tag)) ∧
  (∀ (rd ra rb : BitVec 4) (tag : BitVec 6) (word : Word), word &&& 0xFFFFFF00 = encR 0x31 rd ra rb tag → word &&& 0xFF = 0 → slotS word = some (opXst rd ra rb tag)) ∧
  (∀ (code : BitVec 6) (word : Word), word &&& 0xFC003F00 = encR 0x32 0 0 0 code → word &&& 0xFF = 0 → slotS word = some (opXwait code)) ∧
  (∀ (rd ra : BitVec 4) (word : Word), word &&& 0xFFFC3F00 = encR 0x33 rd ra 0 0 → word &&& 0xFF = 0 → slotS word = some (opEmit rd ra)) ∧
  (∀ (word : Word), word &&& 0xFC003F00 = encR 0x34 0 0 0 0 → word &&& 0xFF = 0 → slotS word = some (opEnd)) ∧
  (∀ (rd ra rb : BitVec 4) (word : Word), word &&& 0xFFFFFF00 = encR 0x35 rd ra rb 0 → word &&& 0xFF = 0 → slotS word = some (opQmark rd ra rb)) ∧
  (∀ (rd ra : BitVec 4) (word : Word), word &&& 0xFFFC3F00 = encR 0x36 rd ra 0 0 → word &&& 0xFF = 0 → slotS word = some (opQrew rd ra)) ∧
  (∀ (rd ra rb : BitVec 4) (word : Word), word &&& 0xFFFFFF00 = encR 0x37 rd ra rb 0 → word &&& 0xFF = 0 → slotS word = some (opQcpy rd ra rb)) ∧
  (∀ (rd ra : BitVec 4) (word : Word), word &&& 0xFFFC3F00 = encR 0x38 rd ra 0 0 → word &&& 0xFF = 0 → slotS word = some (opQrel rd ra)) ∧
  (∀ (word : Word), word &&& 0xFC003F00 = encR 0x39 0 0 0 0 → word &&& 0xFF = 0 → slotS word = some (opPub)) ∧
  (∀ (ra : BitVec 4) (word : Word), word &&& 0xFC3C3F00 = encR 0x3A 0 ra 0 0 → word &&& 0xFF = 0 → slotS word = some (opEvwait ra)) ∧
  (∀ (rd : BitVec 4) (code : BitVec 6) (word : Word), word &&& 0xFFC03F00 = encR 0x3B rd 0 0 code → word &&& 0xFF = 0 → slotS word = some (opRdsr rd code)) ∧
  (∀ (word : Word), word &&& 0xFC003F00 = encR 0x3C 0 0 0 0 → word &&& 0xFF = 0 → slotS word = some (opMsync))

/-- For every operation of slot V with every operand at every value its fields admit: each word that agrees with the encoded operation in the bits the operation uses, and is 0 in the bits that must be 0, is read from the slot as that operation with those operands, whatever the ignored bits hold. -/
def Obligations.SlotVWordsAreRead : Prop :=
  (∀ (vd va vb : BitVec 5) (pm : BitVec 3) (w : Bool) (word : Word), word &&& 0xFFFFFFFF = encVR 0x01 vd va vb pm w 0 → slotV word = some (opVadd vd va vb pm w)) ∧
  (∀ (vd va vb : BitVec 5) (pm : BitVec 3) (w : Bool) (word : Word), word &&& 0xFFFFFFFF = encVR 0x01 vd va vb pm w 1 → slotV word = some (opVsub vd va vb pm w)) ∧
  (∀ (vd va vb : BitVec 5) (pm : BitVec 3) (w : Bool) (word : Word), word &&& 0xFFFFFFFF = encVR 0x01 vd va vb pm w 2 → slotV word = some (opVadds vd va vb pm w)) ∧
  (∀ (vd va vb : BitVec 5) (pm : BitVec 3) (w : Bool) (word : Word), word &&& 0xFFFFFFFF = encVR 0x01 vd va vb pm w 3 → slotV word = some (opVsubs vd va vb pm w)) ∧
  (∀ (vd va vb : BitVec 5) (pm : BitVec 3) (w : Bool) (word : Word), word &&& 0xFFFFFFFF = encVR 0x01 vd va vb pm w 4 → slotV word = some (opVabsd vd va vb pm w)) ∧
  (∀ (vd va vb : BitVec 5) (pm : BitVec 3) (w : Bool) (word : Word), word &&& 0xFFFFFFFF = encVR 0x01 vd va vb pm w 5 → slotV word = some (opVmin vd va vb pm w)) ∧
  (∀ (vd va vb : BitVec 5) (pm : BitVec 3) (w : Bool) (word : Word), word &&& 0xFFFFFFFF = encVR 0x01 vd va vb pm w 6 → slotV word = some (opVmax vd va vb pm w)) ∧
  (∀ (vd va vb : BitVec 5) (pm : BitVec 3) (w : Bool) (word : Word), word &&& 0xFFFFFFFF = encVR 0x01 vd va vb pm w 7 → slotV word = some (opVand vd va vb pm w)) ∧
  (∀ (vd va vb : BitVec 5) (pm : BitVec 3) (w : Bool) (word : Word), word &&& 0xFFFFFFFF = encVR 0x01 vd va vb pm w 8 → slotV word = some (opVor vd va vb pm w)) ∧
  (∀ (vd va vb : BitVec 5) (pm : BitVec 3) (w : Bool) (word : Word), word &&& 0xFFFFFFFF = encVR 0x01 vd va vb pm w 9 → slotV word = some (opVxor vd va vb pm w)) ∧
  (∀ (vd va vb : BitVec 5) (pm : BitVec 3) (w : Bool) (word : Word), word &&& 0xFFFFFFFF = encVR 0x01 vd va vb pm w 10 → slotV word = some (opVmul vd va vb pm w)) ∧
  (∀ (vd va vb : BitVec 5) (pm : BitVec 3) (w : Bool) (word : Word), word &&& 0xFFFFFFFF = encVR 0x01 vd va vb pm w 11 → slotV word = some (opVmulh vd va vb pm w)) ∧
  (∀ (vd va vb : BitVec 5) (pm : BitVec 3) (w : Bool) (word : Word), word &&& 0xFFFFFFFF = encVR 0x01 vd va vb pm w 12 → slotV word = some (opVavg vd va vb pm w)) ∧
  (∀ (vd va vb : BitVec 5) (pm : BitVec 3) (w : Bool) (word : Word), word &&& 0xFFFFFFFF = encVR 0x01 vd va vb pm w 13 → slotV word = some (opVshl vd va vb pm w)) ∧
  (∀ (vd va vb : BitVec 5) (pm : BitVec 3) (w : Bool) (word : Word), word &&& 0xFFFFFFFF = encVR 0x01 vd va vb pm w 14 → slotV word = some (opVshr vd va vb pm w)) ∧
  (∀ (vd va vb : BitVec 5) (pm : BitVec 3) (w : Bool) (word : Word), word &&& 0xFFFFFFFF = encVR 0x01 vd va vb pm w 15 → slotV word = some (opVsar vd va vb pm w)) ∧
  (∀ (pd : BitVec 3) (va vb : BitVec 5) (pm : BitVec 3) (w : Bool) (word : Word), word &&& 0xFCFFFFFF = encVR 0x02 (predField pd) va vb pm w 0 → word &&& vdPred = 0 → slotV word = some (opVcmpeq pd va vb pm w)) ∧
  (∀ (pd : BitVec 3) (va vb : BitVec 5) (pm : BitVec 3) (w : Bool) (word : Word), word &&& 0xFCFFFFFF = encVR 0x02 (predField pd) va vb pm w 1 → word &&& vdPred = 0 → slotV word = some (opVcmplt pd va vb pm w)) ∧
  (∀ (pd : BitVec 3) (va vb : BitVec 5) (pm : BitVec 3) (w : Bool) (word : Word), word &&& 0xFCFFFFFF = encVR 0x02 (predField pd) va vb pm w 2 → word &&& vdPred = 0 → slotV word = some (opVcmpltu pd va vb pm w)) ∧
  (∀ (pd : BitVec 3) (va vb : BitVec 5) (pm : BitVec 3) (w : Bool) (word : Word), word &&& 0xFCFFFFFF = encVR 0x02 (predField pd) va vb pm w 3 → word &&& vdPred = 0 → slotV word = some (opVcmpge pd va vb pm w)) ∧
  (∀ (pd : BitVec 3) (va vb : BitVec 5) (pm : BitVec 3) (w : Bool) (word : Word), word &&& 0xFCFFFFFF = encVR 0x02 (predField pd) va vb pm w 4 → word &&& vdPred = 0 → slotV word = some (opVcmpgeu pd va vb pm w)) ∧
  (∀ (pd pa pb pm : BitVec 3) (w : Bool) (word : Word), word &&& 0xFCE73FFF = encVR 0x03 (predField pd) (predField pa) (predField pb) pm w 0 → word &&& (vdPred ||| vaPred ||| vbPred) = 0 → slotV word = some (opPand pd pa pb pm w)) ∧
  (∀ (pd pa pb pm : BitVec 3) (w : Bool) (word : Word), word &&& 0xFCE73FFF = encVR 0x03 (predField pd) (predField pa) (predField pb) pm w 1 → word &&& (vdPred ||| vaPred ||| vbPred) = 0 → slotV word = some (opPor pd pa pb pm w)) ∧
  (∀ (pd pa pb pm : BitVec 3) (w : Bool) (word : Word), word &&& 0xFCE73FFF = encVR 0x03 (predField pd) (predField pa) (predField pb) pm w 2 → word &&& (vdPred ||| vaPred ||| vbPred) = 0 → slotV word = some (opPxor pd pa pb pm w)) ∧
  (∀ (pd pa pb pm : BitVec 3) (w : Bool) (word : Word), word &&& 0xFCE73FFF = encVR 0x03 (predField pd) (predField pa) (predField pb) pm w 3 → word &&& (vdPred ||| vaPred ||| vbPred) = 0 → slotV word = some (opPandn pd pa pb pm w)) ∧
  (∀ (pd pm : BitVec 3) (w : Bool) (word : Word), word &&& 0xFCE007FF = encVR 0x03 (predField pd) 0 0 pm w 4 → word &&& vdPred = 0 → slotV word = some (opPset pd pm w)) ∧
  (∀ (pd pm : BitVec 3) (w : Bool) (word : Word), word &&& 0xFCE007FF = encVR 0x03 (predField pd) 0 0 pm w 5 → word &&& vdPred = 0 → slotV word = some (opPclr pd pm w)) ∧
  (∀ (vd va : BitVec 5) (pm : BitVec 3) (w : Bool) (imm : BitVec 12) (word : Word), word &&& 0xFFFFFFFF = encVI 0x04 vd va pm w imm → slotV word = some (opVaddi vd va pm w imm)) ∧
  (∀ (vd va : BitVec 5) (pm : BitVec 3) (w : Bool) (imm : BitVec 4) (word : Word), word &&& 0xFFFFF00F = encVI 0x05 vd va pm w (imm.setWidth 12) → word &&& 0xFF0 = 0 → slotV word = some (opVshli vd va pm w (imm.setWidth 12))) ∧
  (∀ (vd va : BitVec 5) (pm : BitVec 3) (w : Bool) (imm : BitVec 4) (word : Word), word &&& 0xFFFFF00F = encVI 0x06 vd va pm w (imm.setWidth 12) → word &&& 0xFF0 = 0 → slotV word = some (opVshri vd va pm w (imm.setWidth 12))) ∧
  (∀ (vd va : BitVec 5) (pm : BitVec 3) (w : Bool) (imm : BitVec 4) (word : Word), word &&& 0xFFFFF00F = encVI 0x07 vd va pm w (imm.setWidth 12) → word &&& 0xFF0 = 0 → slotV word = some (opVsari vd va pm w (imm.setWidth 12))) ∧
  (∀ (vd : BitVec 5) (pm : BitVec 3) (w : Bool) (imm : BitVec 12) (word : Word), word &&& 0xFFE0FFFF = encVI 0x08 vd 0 pm w imm → word &&& 0x1F0000 = 0 → slotV word = some (opVsplati vd pm w imm)) ∧
  (∀ (vd va vb : BitVec 5) (pm : BitVec 3) (w : Bool) (word : Word), word &&& 0xFFFFFFFF = encVR 0x09 vd va vb pm w 0 → slotV word = some (opVsel vd va vb pm w)) ∧
  (∀ (vd : BitVec 5) (sb : BitVec 4) (pm : BitVec 3) (w : Bool) (word : Word), word &&& 0xFFE0FFFF = encVS 0x0A vd 0 sb pm w 0 → slotV word = some (opVsplat vd sb pm w)) ∧
  (∀ (vd va : BitVec 5) (sb : BitVec 4) (pm : BitVec 3) (w : Bool) (fn : BitVec 8) (word : Word), word &&& 0xFFFFFFFF = encVS 0x0B vd va sb pm w fn → slotV word = some (opVmuls vd va sb pm w fn)) ∧
  (∀ (sd : BitVec 4) (va : BitVec 5) (w : Bool) (fn : BitVec 8) (word : Word), word &&& 0xFDFF01FF = encVS 0x0C (scalarField sd) va 0 0 w fn → word &&& vdScalar = 0 → slotV word = some (opVextr sd va w fn)) ∧
  (∀ (vd : BitVec 5) (sb : BitVec 4) (pm : BitVec 3) (w : Bool) (fn : BitVec 8) (word : Word), word &&& 0xFFE0FFFF = encVS 0x0D vd 0 sb pm w fn → slotV word = some (opVins vd sb pm w fn)) ∧
  (∀ (sd : BitVec 4) (va : BitVec 5) (pm : BitVec 3) (w : Bool) (word : Word), word &&& 0xFDFF0FFF = encVS 0x0E (scalarField sd) va 0 pm w 0 → word &&& vdScalar = 0 → slotV word = some (opVrsum sd va pm w)) ∧
  (∀ (sd : BitVec 4) (va : BitVec 5) (pm : BitVec 3) (w : Bool) (word : Word), word &&& 0xFDFF0FFF = encVS 0x0F (scalarField sd) va 0 pm w 0 → word &&& vdScalar = 0 → slotV word = some (opVrmax sd va pm w)) ∧
  (∀ (sd : BitVec 4) (pm : BitVec 3) (w : Bool) (word : Word), word &&& 0xFDE00FFF = encVS 0x10 (scalarField sd) 0 0 pm w 0 → word &&& vdScalar = 0 → slotV word = some (opVpcnt sd pm w)) ∧
  (∀ (sd : BitVec 4) (pm : BitVec 3) (w : Bool) (word : Word), word &&& 0xFDE00FFF = encVS 0x11 (scalarField sd) 0 0 pm w 0 → word &&& vdScalar = 0 → slotV word = some (opVpfirst sd pm w)) ∧
  (∀ (sd : BitVec 4) (va vb : BitVec 5) (pm : BitVec 3) (w : Bool) (word : Word), word &&& 0xFDFFFFFF = encVR 0x12 (scalarField sd) va vb pm w 0 → word &&& vdScalar = 0 → slotV word = some (opVsad sd va vb pm w)) ∧
  (∀ (sd : BitVec 4) (va vb : BitVec 5) (pm : BitVec 3) (w : Bool) (word : Word), word &&& 0xFDFFFFFF = encVR 0x13 (scalarField sd) va vb pm w 0 → word &&& vdScalar = 0 → slotV word = some (opVdot sd va vb pm w)) ∧
  (∀ (vd va : BitVec 5) (sb : BitVec 4) (pm : BitVec 3) (w : Bool) (word : Word), word &&& 0xFFFFFFFF = encVS 0x14 vd va sb pm w 0 → slotV word = some (opVslide vd va sb pm w)) ∧
  (∀ (vd va vb : BitVec 5) (pm : BitVec 3) (w : Bool) (fn : BitVec 7) (word : Word), word &&& 0xFFFFFFFF = encVR 0x15 vd va vb pm w fn → slotV word = some (opVslidei vd va vb pm w fn)) ∧
  (∀ (vd va : BitVec 5) (pm : BitVec 3) (w : Bool) (word : Word), word &&& 0xFFFF07FF = encVR 0x16 vd va 0 pm w 0 → slotV word = some (opVwidel vd va pm w)) ∧
  (∀ (vd va : BitVec 5) (pm : BitVec 3) (w : Bool) (word : Word), word &&& 0xFFFF07FF = encVR 0x17 vd va 0 pm w 0 → slotV word = some (opVwideh vd va pm w)) ∧
  (∀ (vd va vb : BitVec 5) (pm : BitVec 3) (w : Bool) (word : Word), word &&& 0xFFFFFFFF = encVR 0x18 vd va vb pm w 0 → slotV word = some (opVnarrow vd va vb pm w)) ∧
  (∀ (vd : BitVec 5) (sa : BitVec 4) (pm : BitVec 3) (inc : Bool) (imm : BitVec 13) (word : Word), word &&& 0xFFFFFFFF = encVM 0x20 vd sa pm inc imm → slotV word = some (opVld vd sa pm inc imm)) ∧
  (∀ (vd : BitVec 5) (sa : BitVec 4) (pm : BitVec 3) (inc : Bool) (imm : BitVec 13) (word : Word), word &&& 0xFFFFFFFF = encVM 0x21 vd sa pm inc imm → slotV word = some (opVst vd sa pm inc imm))

/-- A read of s0 gives 0 and a read of p0 all ones; a write of s0 or p0 changes nothing; a write of another scalar, vector or predicate register is read back from it, in that engine alone, and no other register of the engine changes. -/
def Obligations.ConstantRegisters : Prop :=
  (∀ x : Engine, x.sreg 0 = 0 ∧ x.preg 0 = 0xFFFFFFFF) ∧
  (∀ (d : Dev) (e : Nat) (v : Word), d.setS e 0 v = d ∧ d.setP e 0 v = d) ∧
  (∀ (d : Dev) (e i : Nat) (v : Word), i ≠ 0 → ((d.setS e i v).eng e).sreg i = v ∧ (∀ j, j ≠ i → ((d.setS e i v).eng e).sreg j = (d.eng e).sreg j) ∧ ∀ e2, e2 ≠ e → (d.setS e i v).eng e2 = d.eng e2) ∧
  (∀ (d : Dev) (e i : Nat) (v : Word), i ≠ 0 → ((d.setP e i v).eng e).preg i = v ∧ (∀ j, j ≠ i → ((d.setP e i v).eng e).preg j = (d.eng e).preg j) ∧ ∀ e2, e2 ≠ e → (d.setP e i v).eng e2 = d.eng e2) ∧
  (∀ (d : Dev) (e i : Nat) (v : VWord), ((d.setV e i v).eng e).vreg i = v ∧ ∀ j, j ≠ i → ((d.setV e i v).eng e).vreg j = (d.eng e).vreg j)

/-- Operations that both go and write different scalar registers act on the operands as they stood, slot V before slot S on the device whose PC has moved on; an undefined or illegal slot, or two slots that write one scalar register, raise ILLEGAL in place of both; a fault of either slot acts in place of both, that of slot S first; a bundle one of whose slots stalls changes nothing but what the stalled slot says; a jump out of instruction memory and a PC that passes the last bundle raise PC. -/
def Obligations.BundleSlotsCombine : Prop :=
  (∀ (d : Dev) (k : Ctx) (a b : SlotOp) (f g : Dev → Dev), a.legal = true → b.legal = true → a.dst.any (fun r => b.dst.contains r) = false → a.run k d = .go f none → b.run k d = .go g none →
    k.x.pc < 1023 → d.bundle k a b = f (g (d.advance k))) ∧
  (∀ (d : Dev) (k : Ctx) (a b : SlotOp) (f g : Dev → Dev) (t : Int), a.legal = true → b.legal = true → a.dst.any (fun r => b.dst.contains r) = false → a.run k d = .go f (some t) → b.run k d = .go g none →
    d.bundle k a b = if 0 ≤ t ∧ t ≤ 1023 then f (g (d.modEng k.e fun x => { x with pc := t.toNat })) else d.kernelFault k.e 5 0 0) ∧
  (∀ (d : Dev) (k : Ctx) (a b : SlotOp) (f g : Dev → Dev), a.legal = true → b.legal = true → a.dst.any (fun r => b.dst.contains r) = false → a.run k d = .go f none → b.run k d = .go g none →
    k.x.pc = 1023 → d.bundle k a b = ((f (g (d.advance k))).modEng k.e fun x => { x with pc := 1023 }).kernelFault k.e 5 0 0) ∧
  (∀ (d : Dev) (k : Ctx) (a b : SlotOp), a.legal = false → d.bundle k a b = d.kernelFault k.e 1 0 0) ∧
  (∀ (d : Dev) (k : Ctx) (a b : SlotOp), a.legal = true → (b.legal = false ∨ a.dst.any (fun r => b.dst.contains r) = true) → d.bundle k a b = d.kernelFault k.e 1 1 0) ∧
  (∀ (d y : Dev) (k : Ctx) (a b : SlotOp) (r : Nat), a.legal = true → b.legal = true → a.dst.any (fun r => b.dst.contains r) = false → a.run k d = .fault r y → d.bundle k a b = y.kernelFault k.e r 0 0) ∧
  (∀ (d y : Dev) (k : Ctx) (a b : SlotOp) (f : Dev → Dev) (j : Option Int) (r : Nat), a.legal = true → b.legal = true → a.dst.any (fun r => b.dst.contains r) = false → a.run k d = .go f j → b.run k d = .fault r y →
    d.bundle k a b = y.kernelFault k.e r 1 0) ∧
  (∀ (d y : Dev) (k : Ctx) (a b : SlotOp), a.legal = true → b.legal = true → a.dst.any (fun r => b.dst.contains r) = false → a.run k d = .stall y → d.bundle k a b = y)

/-- In 8-bit mode lane i of a vector operation is governed by bit i of its predicate and in 16-bit mode by bit 2i; a compare writes the result of lane i to bit i in 8-bit mode and to bits 2i and 2i + 1 in 16-bit mode, 0 where the lane is disabled. -/
def Obligations.PredicatesGovernLanes : Prop :=
  (∀ (d : Dev) (k : Ctx) (e : Fin 256) (vd va vb : BitVec 5) (pm : BitVec 3), IssuesV e k (encVR 0x01 vd va vb pm true 0) d →
    RunsTo (.vadd e vd va vb pm true) d fun t => ∀ i, i < 32 → lane true ((t.eng k.e).vreg vd.toNat) i =
      if (k.x.preg pm.toNat).getLsbD i then (lane true (k.x.vreg va.toNat) i + lane true (k.x.vreg vb.toNat) i) % 256 else lane true (k.x.vreg vd.toNat) i) ∧
  (∀ (d : Dev) (k : Ctx) (e : Fin 256) (vd va vb : BitVec 5) (pm : BitVec 3), IssuesV e k (encVR 0x01 vd va vb pm false 0) d →
    RunsTo (.vadd e vd va vb pm false) d fun t => ∀ i, i < 16 → lane false ((t.eng k.e).vreg vd.toNat) i =
      if (k.x.preg pm.toNat).getLsbD (2 * i) then (lane false (k.x.vreg va.toNat) i + lane false (k.x.vreg vb.toNat) i) % 65536 else lane false (k.x.vreg vd.toNat) i) ∧
  (∀ (d : Dev) (k : Ctx) (e : Fin 256) (pd : BitVec 3) (va vb : BitVec 5) (pm : BitVec 3), pd ≠ 0 → IssuesV e k (encVR 0x02 (predField pd) va vb pm true 0) d →
    RunsTo (.vcmpeq e pd va vb pm true) d fun t => ∀ i, i < 32 → ((t.eng k.e).preg pd.toNat).getLsbD i =
      ((k.x.preg pm.toNat).getLsbD i && decide (lane true (k.x.vreg va.toNat) i = lane true (k.x.vreg vb.toNat) i))) ∧
  (∀ (d : Dev) (k : Ctx) (e : Fin 256) (pd : BitVec 3) (va vb : BitVec 5) (pm : BitVec 3), pd ≠ 0 → IssuesV e k (encVR 0x02 (predField pd) va vb pm false 0) d →
    RunsTo (.vcmpeq e pd va vb pm false) d fun t => ∀ i, i < 16 →
      ((t.eng k.e).preg pd.toNat).getLsbD (2 * i) = ((k.x.preg pm.toNat).getLsbD (2 * i) && decide (lane false (k.x.vreg va.toNat) i = lane false (k.x.vreg vb.toNat) i)) ∧
      ((t.eng k.e).preg pd.toNat).getLsbD (2 * i + 1) = ((k.x.preg pm.toNat).getLsbD (2 * i) && decide (lane false (k.x.vreg va.toNat) i = lane false (k.x.vreg vb.toNat) i)))

/-- Every re-zero of an axis at a count records in GAUGE_STEP(a) the new wp minus the old wp at that count, modulo 2^64; the axis then reads the new wp there; the fine wp of its recent changes of the count, which the tachometer method takes differences of, moves by the same step, so that no speed shows it; its count, its speed estimates, its samples and its other state but POS_UNCERTAIN are unchanged, and so are the other axes. How the compare units treat the step is stated in spec/04. -/
def Obligations.ReZeroRecordsStep : Prop :=
  ∀ (d : Dev) (a : Fin 4) (m w : Int),
    (d.reZero a m w).rd64 (R.GAUGE_STEP a) = BitVec.ofInt 64 (w - (d.axis a).wpAt m) ∧ ((d.reZero a m w).axis a).wpAt m = w ∧
    (d.reZero a m w).axis a = { d.axis a with zeroWp := w, cZero := m, unc := false, hist := histMoved (w * 65536 - (d.axis a).wpFineAt m) (d.axis a).hist } ∧ ∀ b : Nat, b ≠ a → (d.reZero a m w).axis b = d.axis b

/-- A poisoned memory write of the host, to any BAR and of any bytes, changes no register but HOST_RX_SEQ and what its error brings: POISON_RX_CNT counts it, POISON_RX is set and Poisoned TLP Received is reported with its header. No byte of it reaches a register, a memory or a window. -/
def Obligations.PoisonedWriteIsDropped : Prop :=
  ∀ (d : Dev) (rid off : Nat) (b : Fin 3) (bs hdr : List Byte), d.host.l0 = true → d.tlpMalformed off bs.length true = false → d.takesRequests = true →
    Runs (.hostMemWrite rid (some b) off bs true hdr) d (((((d.count R.HOST_RX_SEQ whole 1).bump R.HOST_CNT1 F.HOST_CNT1_POISON_RX_CNT 1).hostErr 3).errorMessage 1).logHeader hdr)

/-- A completion with a failing status drops the request, so that its tag is free at once, counts in CPL_ERR_CNT, sets CPL_ERR, and fails the request for its ring, channel or translation as a timeout does, without the error message of a timeout. -/
def Obligations.FailedCompletionFailsRequest : Prop :=
  ∀ (d : Dev) (tag : Nat) (q : OutReq) (hdr : List Byte), d.host.reqs.find? (fun q => q.tag == tag) = some q →
    Runs (.completionReceive tag .failed hdr) d ((((d.modHost fun x => { x with reqs := x.reqs.filter (fun q => q.tag ≠ tag) }).bump R.HOST_CNT1 F.HOST_CNT1_CPL_ERR_CNT 1).hostErr 2).failReq q)

/-- A write of a 32-bit register leaves every locked RWL field and every field that a write does not set as it was, sets RW fields and unlocked RWL fields to the written bits, and clears the W1C bits written as 1. It is counted as a locked-write error, once, exactly when it differs from a locked field it reaches; the high-word write of a 64-bit register takes both its words so, and is counted once for both. The registers that count such an error, which are not locked, are left to their own statements. -/
def Obligations.LockedFieldsKeepTheirValue : Prop :=
  (∀ (row : RegRow) (k : Nat) (old v locked : Word) (i : Nat), i < 32 →
    ((RegRow.part row.rwl k).getLsbD i = true → (RegRow.part row.rw k).getLsbD i = false → (RegRow.part row.w1c k).getLsbD i = false →
      (writtenWord row k old v locked).getLsbD i = if locked.getLsbD i then old.getLsbD i else v.getLsbD i) ∧
    ((RegRow.part row.rw k).getLsbD i = true → (RegRow.part row.rwl k).getLsbD i = false → (RegRow.part row.w1c k).getLsbD i = false →
      (writtenWord row k old v locked).getLsbD i = v.getLsbD i) ∧
    ((RegRow.part row.w1c k).getLsbD i = true → (RegRow.part row.rw k).getLsbD i = false → (RegRow.part row.rwl k).getLsbD i = false →
      (writtenWord row k old v locked).getLsbD i = (old.getLsbD i && !v.getLsbD i)) ∧
    ((RegRow.part row.w1c k).getLsbD i = false → (RegRow.part row.rw k).getLsbD i = false → (RegRow.part row.rwl k).getLsbD i = false →
      (writtenWord row k old v locked).getLsbD i = old.getLsbD i) ∧
    (lockedHit row k old v locked = true ↔ ∃ j, j < 32 ∧ (RegRow.part row.rwl k).getLsbD j = true ∧ locked.getLsbD j = true ∧ v.getLsbD j ≠ old.getLsbD j)) ∧
  (∀ (d : Dev) (off : Nat) (row : RegRow) (v : Word), RegMap.lookup off = some (row, 0) → row.wide = false →
    off ≠ R.GLB_ERR → off ≠ R.GLB_ERR_CNT1 → off ≠ R.GLB_INT_STATUS → off ≠ R.HOST_INTX_PEND 0 →
    (d.plainWrite off v).rd off = writtenWord row 0 (d.rd off) v (d.lockedBits off) ∧
    d.plainWrite off v = (if lockedHit row 0 (d.rd off) v (d.lockedBits off) then (d.wr off (writtenWord row 0 (d.rd off) v (d.lockedBits off))).lockedWrite
      else d.wr off (writtenWord row 0 (d.rd off) v (d.lockedBits off)))) ∧
  (∀ (d y : Dev) (off : Nat) (row : RegRow) (lo hi : Word), RegMap.lookup (off + 4) = some (row, 1) → row.wide = true → d.heldLow off = some lo →
    y = (d.wr off (writtenWord row 0 (d.rd off) lo (d.lockedBits off))).wr (off + 4) (writtenWord row 1 (d.rd (off + 4)) hi (d.lockedBits (off + 4))) →
    d.plainWrite (off + 4) hi = (if lockedHit row 0 (d.rd off) lo (d.lockedBits off) || lockedHit row 1 (d.rd (off + 4)) hi (d.lockedBits (off + 4)) then y.lockedWrite else y).unhold off)

/-- A store to a register, to the Stash or an engine scratch (plain or through an alias, and at a BAR0 offset), or to Skein keeps the five memories of the block in canonical form: keys strictly rising and no entry at its reset value. A store to the Stash or a scratch leaves every byte outside the stored range of that memory as it read, and the whole of the other memories; a plain one reads back. -/
def Obligations.MemoriesKeepCanonicalForm : Prop :=
  (∀ (d : Dev) (off : Nat) (v : Word), MemWf d → MemWf (d.wr off v)) ∧
  (∀ (d : Dev) (op : BankOp) (k off : Nat) (bs : List Byte), MemWf d → MemWf (d.stashStore op k off bs) ∧ MemWf (d.scratchStore op k off bs)) ∧
  (∀ (d : Dev) (x : Nat) (bs : List Byte), MemWf d → MemWf (d.engPut x bs)) ∧
  (∀ (d : Dev) (op : BankOp) (k off j : Nat) (bs : List Byte), j < k * stashSize + off ∨ k * stashSize + off + bs.length ≤ j →
    (d.stashStore op k off bs).stash.mem.get zeroByte j = d.stash.mem.get zeroByte j ∧ (d.stashStore op k off bs).stash.scr = d.stash.scr ∧
      (d.stashStore op k off bs).skein = d.skein ∧ (d.stashStore op k off bs).regs = d.regs) ∧
  (∀ (d : Dev) (op : BankOp) (e off j : Nat) (bs : List Byte), j < e * scratchSize + off ∨ e * scratchSize + off + bs.length ≤ j →
    (d.scratchStore op e off bs).stash.scr.get zeroByte j = d.stash.scr.get zeroByte j ∧ (d.scratchStore op e off bs).stash.mem = d.stash.mem ∧
      (d.scratchStore op e off bs).skein = d.skein ∧ (d.scratchStore op e off bs).regs = d.regs) ∧
  (∀ (d : Dev) (k off : Nat) (bs : List Byte), (d.stashStore .plain k off bs).stashBytes k off bs.length = bs ∧
      (d.scratchStore .plain k off bs).scratchBytes k off bs.length = bs) ∧
  (∀ (d : Dev) (m a : Nat) (bs : List Byte), MemWf d → (d.skeinWrite m a bs).skein.mem.wf zeroByte = true ∧ (d.skeinWrite m a bs).skeinBytes a bs.length = bs ∧
      ∀ j, j < a ∨ a + bs.length ≤ j → (d.skeinWrite m a bs).skein.mem.get zeroByte j = d.skein.mem.get zeroByte j)

/-- At State.reset the five memories of the block are in canonical form: the register table lists STW_RESET_CAUSE alone, and the Stash, the engine scratch, Skein and the instruction memory list nothing, so each unwritten byte reads as the 0 that the log gives it. -/
def Obligations.ResetMemoriesCanonical : Prop :=
  MemWf State.reset.dev ∧ State.reset.dev.stash.mem = [] ∧ State.reset.dev.stash.scr = [] ∧ State.reset.dev.skein.mem = [] ∧ State.reset.dev.ste.imem = [] ∧
    State.reset.dev.regs = [(R.STW_RESET_CAUSE, 0x20)]
end

