-- ==== Sys2Proof/Laws/Tbl.lean ====
section
/-! SUPPORT. Laws of sparse tables: a read after a store, and the canonical form that every store keeps. -/

namespace Sys2Proof.Machine

variable {α : Type}

theorem Tbl.get_put_self (dflt : Nat → α) (t : Tbl α) (k : Nat) (x : α) : (t.put k x).get dflt k = x := by
  induction t with
  | nil => simp [Tbl.put, Tbl.get]
  | cons p rest ih =>
    obtain ⟨i, v⟩ := p
    by_cases h : k = i
    · simp [Tbl.put, Tbl.get, h]
    · by_cases h2 : k < i <;> simp [Tbl.put, Tbl.get, h, h2, ih]

theorem Tbl.get_put_ne (dflt : Nat → α) (t : Tbl α) {k j : Nat} (x : α) (hj : j ≠ k) : (t.put k x).get dflt j = t.get dflt j := by
  induction t with
  | nil => simp [Tbl.put, Tbl.get, hj]
  | cons p rest ih =>
    obtain ⟨i, v⟩ := p
    by_cases h : k = i
    · subst h; simp [Tbl.put, Tbl.get, hj]
    · by_cases h2 : k < i
      · simp [Tbl.put, Tbl.get, h, h2, hj]
      · by_cases h3 : j = i <;> simp [Tbl.put, Tbl.get, h, h2, h3, ih]

theorem Tbl.get_drop_self (dflt : Nat → α) (t : Tbl α) (k : Nat) : (t.drop k).get dflt k = dflt k := by
  induction t with
  | nil => simp [Tbl.drop, Tbl.get]
  | cons p rest ih =>
    obtain ⟨i, v⟩ := p
    by_cases h : k = i
    · simpa [Tbl.drop, Tbl.get, h] using h ▸ ih
    · simp [Tbl.drop, Tbl.get, h, ih]

theorem Tbl.get_drop_ne (dflt : Nat → α) (t : Tbl α) {k j : Nat} (hj : j ≠ k) : (t.drop k).get dflt j = t.get dflt j := by
  induction t with
  | nil => simp [Tbl.drop, Tbl.get]
  | cons p rest ih =>
    obtain ⟨i, v⟩ := p
    by_cases h : k = i
    · subst h; simp [Tbl.drop, Tbl.get, hj, ih]
    · by_cases h3 : j = i <;> simp [Tbl.drop, Tbl.get, h, h3, ih]

variable [DecidableEq α]

@[simp] theorem Tbl.get_set_self (dflt : Nat → α) (t : Tbl α) (k : Nat) (x : α) : (t.set dflt k x).get dflt k = x := by
  unfold Tbl.set
  split
  · next h => rw [Tbl.get_drop_self, h]
  · exact Tbl.get_put_self dflt t k x

theorem Tbl.get_set_ne (dflt : Nat → α) (t : Tbl α) {k j : Nat} (x : α) (hj : j ≠ k) : (t.set dflt k x).get dflt j = t.get dflt j := by
  unfold Tbl.set
  split
  · exact Tbl.get_drop_ne dflt t hj
  · exact Tbl.get_put_ne dflt t x hj

theorem Tbl.get_set (dflt : Nat → α) (t : Tbl α) (k j : Nat) (x : α) :
    (t.set dflt k x).get dflt j = if j = k then x else t.get dflt j := by
  by_cases h : j = k
  · subst h; simp
  · rw [Tbl.get_set_ne dflt t x h, if_neg h]

/-! The canonical form. -/

theorem Tbl.wfFrom_mono (dflt : Nat → α) {lo hi : Nat} (h : lo ≤ hi) (t : Tbl α) (ht : t.wfFrom dflt hi = true) :
    t.wfFrom dflt lo = true := by
  cases t with
  | nil => rfl
  | cons p rest =>
    obtain ⟨i, v⟩ := p
    simp only [Tbl.wfFrom, Bool.and_eq_true, decide_eq_true_eq] at ht ⊢
    exact ⟨⟨by omega, ht.1.2⟩, ht.2⟩

theorem Tbl.drop_wfFrom (dflt : Nat → α) (k : Nat) (t : Tbl α) :
    ∀ lo, t.wfFrom dflt lo = true → (t.drop k).wfFrom dflt lo = true := by
  induction t with
  | nil => intro lo _; rfl
  | cons p rest ih =>
    obtain ⟨i, v⟩ := p
    intro lo ht
    simp only [Tbl.wfFrom, Bool.and_eq_true, decide_eq_true_eq] at ht
    by_cases h : k = i
    · simp only [Tbl.drop, h, if_true]
      exact Tbl.wfFrom_mono dflt (by omega) _ (h ▸ ih (i + 1) ht.2)
    · simp only [Tbl.drop, h, if_false, Tbl.wfFrom, Bool.and_eq_true, decide_eq_true_eq]
      exact ⟨ht.1, ih (i + 1) ht.2⟩

theorem Tbl.put_wfFrom (dflt : Nat → α) (k : Nat) (x : α) (hx : x ≠ dflt k) (t : Tbl α) :
    ∀ lo, lo ≤ k → t.wfFrom dflt lo = true → (t.put k x).wfFrom dflt lo = true := by
  induction t with
  | nil => intro lo hk _; simp [Tbl.put, Tbl.wfFrom, hk, hx]
  | cons p rest ih =>
    obtain ⟨i, v⟩ := p
    intro lo hk ht
    simp only [Tbl.wfFrom, Bool.and_eq_true, decide_eq_true_eq] at ht
    by_cases h : k = i
    · subst h
      simp only [Tbl.put, if_true, Tbl.wfFrom, Bool.and_eq_true, decide_eq_true_eq]
      exact ⟨⟨hk, hx⟩, ht.2⟩
    · by_cases h2 : k < i
      · simp only [Tbl.put, h, h2, if_true, if_false, Tbl.wfFrom, Bool.and_eq_true, decide_eq_true_eq]
        exact ⟨⟨hk, hx⟩, ⟨by omega, ht.1.2⟩, ht.2⟩
      · simp only [Tbl.put, h, h2, if_false, Tbl.wfFrom, Bool.and_eq_true, decide_eq_true_eq]
        exact ⟨ht.1, ih (i + 1) (by omega) ht.2⟩

/-- A store keeps the canonical form. -/
theorem Tbl.set_wf (dflt : Nat → α) (t : Tbl α) (k : Nat) (x : α) (ht : t.wf dflt = true) : (t.set dflt k x).wf dflt = true := by
  unfold Tbl.wf at *
  unfold Tbl.set
  split
  · exact Tbl.drop_wfFrom dflt k t 0 ht
  · next h => exact Tbl.put_wfFrom dflt k x h t 0 (Nat.zero_le k) ht

/-- A store of consecutive bytes keeps the canonical form. -/
theorem Tbl.setBytes_wf (dflt : Nat → Byte) (bs : List Byte) :
    ∀ (t : Tbl Byte) (a : Nat), t.wf dflt = true → (t.setBytes dflt a bs).wf dflt = true := by
  induction bs with
  | nil => intro t a ht; simpa [Tbl.setBytes] using ht
  | cons b rest ih =>
    intro t a ht
    simpa [Tbl.setBytes] using ih (t.set dflt a b) (a + 1) (Tbl.set_wf dflt t a b ht)

/-- A byte outside the stored ones reads as before. -/
theorem Tbl.get_setBytes_ne (dflt : Nat → Byte) (bs : List Byte) :
    ∀ (t : Tbl Byte) (a j : Nat), j < a ∨ a + bs.length ≤ j → (t.setBytes dflt a bs).get dflt j = t.get dflt j := by
  induction bs with
  | nil => intro t a j _; rfl
  | cons b rest ih =>
    intro t a j h
    simp only [List.length_cons] at h
    simp only [Tbl.setBytes]
    rw [ih _ _ _ (by omega), Tbl.get_set_ne dflt t b (by omega)]

/-- Stored bytes read back. -/
theorem Tbl.bytes_setBytes (dflt : Nat → Byte) (bs : List Byte) :
    ∀ (t : Tbl Byte) (a : Nat), (t.setBytes dflt a bs).bytes dflt a bs.length = bs := by
  induction bs with
  | nil => intro t a; rfl
  | cons b rest ih =>
    intro t a
    simp only [Tbl.setBytes, List.length_cons, Tbl.bytes]
    rw [ih, Tbl.get_setBytes_ne dflt rest _ _ _ (by omega), Tbl.get_set_self]

@[simp] theorem Tbl.bytes_length (dflt : Nat → Byte) (t : Tbl Byte) : ∀ (n a : Nat), (t.bytes dflt a n).length = n := by
  intro n
  induction n with
  | zero => intro a; rfl
  | succ n ih => intro a; simp [Tbl.bytes, ih]

/-- A key that is not kept reads as unlisted. -/
theorem Tbl.get_keep_false (dflt : Nat → α) (p : Nat → Bool) (t : Tbl α) {k : Nat} (hk : p k = false) : (t.keep p).get dflt k = dflt k := by
  induction t with
  | nil => rfl
  | cons q rest ih =>
    obtain ⟨i, v⟩ := q
    unfold Tbl.keep
    split
    · next h =>
      have hi : k ≠ i := by rintro rfl; rw [hk] at h; exact absurd h (by decide)
      simp only [Tbl.get, if_neg hi, ih]
    · exact ih

/-- A key that is kept reads as before. -/
theorem Tbl.get_keep_true (dflt : Nat → α) (p : Nat → Bool) (t : Tbl α) {k : Nat} (hk : p k = true) : (t.keep p).get dflt k = t.get dflt k := by
  induction t with
  | nil => rfl
  | cons q rest ih =>
    obtain ⟨i, v⟩ := q
    unfold Tbl.keep
    split
    · simp only [Tbl.get, ih]
    · next h =>
      have hi : k ≠ i := by rintro rfl; exact h hk
      simp only [Tbl.get, if_neg hi, ih]

/-- Keeping a part keeps the canonical form. -/
theorem Tbl.keep_wf (dflt : Nat → α) (p : Nat → Bool) (t : Tbl α) (ht : t.wf dflt = true) : (t.keep p).wf dflt = true := by
  have key : ∀ (t : Tbl α) (lo : Nat), t.wfFrom dflt lo = true → (t.keep p).wfFrom dflt lo = true := by
    intro t
    induction t with
    | nil => intro lo _; rfl
    | cons q rest ih =>
      obtain ⟨i, v⟩ := q
      intro lo h
      simp only [Tbl.wfFrom, Bool.and_eq_true, decide_eq_true_eq] at h
      unfold Tbl.keep
      split
      · simp only [Tbl.wfFrom, Bool.and_eq_true, decide_eq_true_eq]
        exact ⟨h.1, ih _ h.2⟩
      · exact Tbl.wfFrom_mono dflt (by omega) _ (ih _ h.2)
  exact key t 0 ht

end Sys2Proof.Machine
end

