-- ==== Sys2Proof/Laws/State.lean ====
section
/-! SUPPORT. What the shared operations leave of the device: one lemma per field and operation, so that no proof unfolds a record
update; and reads of registers after writes. -/

namespace Sys2Proof.Machine

/-! The queue and the device of a state. -/

@[simp] theorem run_next (s : State) (g : Dev → Dev) : s.run g = .next { s with dev := g s.dev } := rfl

theorem run_pending (s t : State) (g : Dev → Dev) (h : s.run g = .next t) : t.pending = s.pending := by
  cases h; rfl

theorem run_dev (s t : State) (g : Dev → Dev) (h : s.run g = .next t) : t.dev = g s.dev := by
  cases h; rfl

@[simp] theorem wr_now (off : Nat) (v : Word) (d : Dev) : (d.wr off v).now = d.now := rfl
@[simp] theorem wr_ts (off : Nat) (v : Word) (d : Dev) : (d.wr off v).ts = d.ts := rfl
@[simp] theorem wr_free (off : Nat) (v : Word) (d : Dev) : (d.wr off v).free = d.free := rfl
@[simp] theorem wr_held (off : Nat) (v : Word) (d : Dev) : (d.wr off v).held = d.held := rfl
@[simp] theorem wr_latch (off : Nat) (v : Word) (d : Dev) : (d.wr off v).latch = d.latch := rfl
@[simp] theorem wr_rdata (off : Nat) (v : Word) (d : Dev) : (d.wr off v).rdata = d.rdata := rfl
@[simp] theorem wr_timers (off : Nat) (v : Word) (d : Dev) : (d.wr off v).timers = d.timers := rfl
@[simp] theorem wr_outbox (off : Nat) (v : Word) (d : Dev) : (d.wr off v).outbox = d.outbox := rfl
@[simp] theorem wr_glb (off : Nat) (v : Word) (d : Dev) : (d.wr off v).glb = d.glb := rfl
@[simp] theorem wr_chain (off : Nat) (v : Word) (d : Dev) : (d.wr off v).chain = d.chain := rfl
@[simp] theorem wr_gauge (off : Nat) (v : Word) (d : Dev) : (d.wr off v).gauge = d.gauge := rfl
@[simp] theorem wr_trig (off : Nat) (v : Word) (d : Dev) : (d.wr off v).trig = d.trig := rfl
@[simp] theorem wr_cll (off : Nat) (v : Word) (d : Dev) : (d.wr off v).cll = d.cll := rfl
@[simp] theorem wr_asm (off : Nat) (v : Word) (d : Dev) : (d.wr off v).asm = d.asm := rfl
@[simp] theorem wr_job (off : Nat) (v : Word) (d : Dev) : (d.wr off v).job = d.job := rfl
@[simp] theorem wr_host (off : Nat) (v : Word) (d : Dev) : (d.wr off v).host = d.host := rfl
@[simp] theorem wr_skein (off : Nat) (v : Word) (d : Dev) : (d.wr off v).skein = d.skein := rfl
@[simp] theorem wr_car (off : Nat) (v : Word) (d : Dev) : (d.wr off v).car = d.car := rfl
@[simp] theorem wr_stash (off : Nat) (v : Word) (d : Dev) : (d.wr off v).stash = d.stash := rfl
@[simp] theorem wr_ste (off : Nat) (v : Word) (d : Dev) : (d.wr off v).ste = d.ste := rfl
@[simp] theorem wr_hook (off : Nat) (v : Word) (d : Dev) : (d.wr off v).hook = d.hook := rfl
@[simp] theorem wr_stw (off : Nat) (v : Word) (d : Dev) : (d.wr off v).stw = d.stw := rfl
@[simp] theorem wr_pwr (off : Nat) (v : Word) (d : Dev) : (d.wr off v).pwr = d.pwr := rfl
@[simp] theorem wr_fab (off : Nat) (v : Word) (d : Dev) : (d.wr off v).fab = d.fab := rfl

@[simp] theorem wr64_now (off : Nat) (v : DWord) (d : Dev) : (d.wr64 off v).now = d.now := rfl
@[simp] theorem wr64_ts (off : Nat) (v : DWord) (d : Dev) : (d.wr64 off v).ts = d.ts := rfl
@[simp] theorem wr64_free (off : Nat) (v : DWord) (d : Dev) : (d.wr64 off v).free = d.free := rfl
@[simp] theorem wr64_held (off : Nat) (v : DWord) (d : Dev) : (d.wr64 off v).held = d.held := rfl
@[simp] theorem wr64_latch (off : Nat) (v : DWord) (d : Dev) : (d.wr64 off v).latch = d.latch := rfl
@[simp] theorem wr64_rdata (off : Nat) (v : DWord) (d : Dev) : (d.wr64 off v).rdata = d.rdata := rfl
@[simp] theorem wr64_timers (off : Nat) (v : DWord) (d : Dev) : (d.wr64 off v).timers = d.timers := rfl
@[simp] theorem wr64_outbox (off : Nat) (v : DWord) (d : Dev) : (d.wr64 off v).outbox = d.outbox := rfl
@[simp] theorem wr64_glb (off : Nat) (v : DWord) (d : Dev) : (d.wr64 off v).glb = d.glb := rfl
@[simp] theorem wr64_chain (off : Nat) (v : DWord) (d : Dev) : (d.wr64 off v).chain = d.chain := rfl
@[simp] theorem wr64_gauge (off : Nat) (v : DWord) (d : Dev) : (d.wr64 off v).gauge = d.gauge := rfl
@[simp] theorem wr64_trig (off : Nat) (v : DWord) (d : Dev) : (d.wr64 off v).trig = d.trig := rfl
@[simp] theorem wr64_cll (off : Nat) (v : DWord) (d : Dev) : (d.wr64 off v).cll = d.cll := rfl
@[simp] theorem wr64_asm (off : Nat) (v : DWord) (d : Dev) : (d.wr64 off v).asm = d.asm := rfl
@[simp] theorem wr64_job (off : Nat) (v : DWord) (d : Dev) : (d.wr64 off v).job = d.job := rfl
@[simp] theorem wr64_host (off : Nat) (v : DWord) (d : Dev) : (d.wr64 off v).host = d.host := rfl
@[simp] theorem wr64_skein (off : Nat) (v : DWord) (d : Dev) : (d.wr64 off v).skein = d.skein := rfl
@[simp] theorem wr64_car (off : Nat) (v : DWord) (d : Dev) : (d.wr64 off v).car = d.car := rfl
@[simp] theorem wr64_stash (off : Nat) (v : DWord) (d : Dev) : (d.wr64 off v).stash = d.stash := rfl
@[simp] theorem wr64_ste (off : Nat) (v : DWord) (d : Dev) : (d.wr64 off v).ste = d.ste := rfl
@[simp] theorem wr64_hook (off : Nat) (v : DWord) (d : Dev) : (d.wr64 off v).hook = d.hook := rfl
@[simp] theorem wr64_stw (off : Nat) (v : DWord) (d : Dev) : (d.wr64 off v).stw = d.stw := rfl
@[simp] theorem wr64_pwr (off : Nat) (v : DWord) (d : Dev) : (d.wr64 off v).pwr = d.pwr := rfl
@[simp] theorem wr64_fab (off : Nat) (v : DWord) (d : Dev) : (d.wr64 off v).fab = d.fab := rfl

@[simp] theorem sf_now (off : Nat) (f : Fld) (n : Nat) (d : Dev) : (d.sf off f n).now = d.now := rfl
@[simp] theorem sf_ts (off : Nat) (f : Fld) (n : Nat) (d : Dev) : (d.sf off f n).ts = d.ts := rfl
@[simp] theorem sf_free (off : Nat) (f : Fld) (n : Nat) (d : Dev) : (d.sf off f n).free = d.free := rfl
@[simp] theorem sf_held (off : Nat) (f : Fld) (n : Nat) (d : Dev) : (d.sf off f n).held = d.held := rfl
@[simp] theorem sf_latch (off : Nat) (f : Fld) (n : Nat) (d : Dev) : (d.sf off f n).latch = d.latch := rfl
@[simp] theorem sf_rdata (off : Nat) (f : Fld) (n : Nat) (d : Dev) : (d.sf off f n).rdata = d.rdata := rfl
@[simp] theorem sf_timers (off : Nat) (f : Fld) (n : Nat) (d : Dev) : (d.sf off f n).timers = d.timers := rfl
@[simp] theorem sf_outbox (off : Nat) (f : Fld) (n : Nat) (d : Dev) : (d.sf off f n).outbox = d.outbox := rfl
@[simp] theorem sf_glb (off : Nat) (f : Fld) (n : Nat) (d : Dev) : (d.sf off f n).glb = d.glb := rfl
@[simp] theorem sf_chain (off : Nat) (f : Fld) (n : Nat) (d : Dev) : (d.sf off f n).chain = d.chain := rfl
@[simp] theorem sf_gauge (off : Nat) (f : Fld) (n : Nat) (d : Dev) : (d.sf off f n).gauge = d.gauge := rfl
@[simp] theorem sf_trig (off : Nat) (f : Fld) (n : Nat) (d : Dev) : (d.sf off f n).trig = d.trig := rfl
@[simp] theorem sf_cll (off : Nat) (f : Fld) (n : Nat) (d : Dev) : (d.sf off f n).cll = d.cll := rfl
@[simp] theorem sf_asm (off : Nat) (f : Fld) (n : Nat) (d : Dev) : (d.sf off f n).asm = d.asm := rfl
@[simp] theorem sf_job (off : Nat) (f : Fld) (n : Nat) (d : Dev) : (d.sf off f n).job = d.job := rfl
@[simp] theorem sf_host (off : Nat) (f : Fld) (n : Nat) (d : Dev) : (d.sf off f n).host = d.host := rfl
@[simp] theorem sf_skein (off : Nat) (f : Fld) (n : Nat) (d : Dev) : (d.sf off f n).skein = d.skein := rfl
@[simp] theorem sf_car (off : Nat) (f : Fld) (n : Nat) (d : Dev) : (d.sf off f n).car = d.car := rfl
@[simp] theorem sf_stash (off : Nat) (f : Fld) (n : Nat) (d : Dev) : (d.sf off f n).stash = d.stash := rfl
@[simp] theorem sf_ste (off : Nat) (f : Fld) (n : Nat) (d : Dev) : (d.sf off f n).ste = d.ste := rfl
@[simp] theorem sf_hook (off : Nat) (f : Fld) (n : Nat) (d : Dev) : (d.sf off f n).hook = d.hook := rfl
@[simp] theorem sf_stw (off : Nat) (f : Fld) (n : Nat) (d : Dev) : (d.sf off f n).stw = d.stw := rfl
@[simp] theorem sf_pwr (off : Nat) (f : Fld) (n : Nat) (d : Dev) : (d.sf off f n).pwr = d.pwr := rfl
@[simp] theorem sf_fab (off : Nat) (f : Fld) (n : Nat) (d : Dev) : (d.sf off f n).fab = d.fab := rfl

@[simp] theorem sb_now (off : Nat) (f : Fld) (v : Bool) (d : Dev) : (d.sb off f v).now = d.now := rfl
@[simp] theorem sb_ts (off : Nat) (f : Fld) (v : Bool) (d : Dev) : (d.sb off f v).ts = d.ts := rfl
@[simp] theorem sb_free (off : Nat) (f : Fld) (v : Bool) (d : Dev) : (d.sb off f v).free = d.free := rfl
@[simp] theorem sb_held (off : Nat) (f : Fld) (v : Bool) (d : Dev) : (d.sb off f v).held = d.held := rfl
@[simp] theorem sb_latch (off : Nat) (f : Fld) (v : Bool) (d : Dev) : (d.sb off f v).latch = d.latch := rfl
@[simp] theorem sb_rdata (off : Nat) (f : Fld) (v : Bool) (d : Dev) : (d.sb off f v).rdata = d.rdata := rfl
@[simp] theorem sb_timers (off : Nat) (f : Fld) (v : Bool) (d : Dev) : (d.sb off f v).timers = d.timers := rfl
@[simp] theorem sb_outbox (off : Nat) (f : Fld) (v : Bool) (d : Dev) : (d.sb off f v).outbox = d.outbox := rfl
@[simp] theorem sb_glb (off : Nat) (f : Fld) (v : Bool) (d : Dev) : (d.sb off f v).glb = d.glb := rfl
@[simp] theorem sb_chain (off : Nat) (f : Fld) (v : Bool) (d : Dev) : (d.sb off f v).chain = d.chain := rfl
@[simp] theorem sb_gauge (off : Nat) (f : Fld) (v : Bool) (d : Dev) : (d.sb off f v).gauge = d.gauge := rfl
@[simp] theorem sb_trig (off : Nat) (f : Fld) (v : Bool) (d : Dev) : (d.sb off f v).trig = d.trig := rfl
@[simp] theorem sb_cll (off : Nat) (f : Fld) (v : Bool) (d : Dev) : (d.sb off f v).cll = d.cll := rfl
@[simp] theorem sb_asm (off : Nat) (f : Fld) (v : Bool) (d : Dev) : (d.sb off f v).asm = d.asm := rfl
@[simp] theorem sb_job (off : Nat) (f : Fld) (v : Bool) (d : Dev) : (d.sb off f v).job = d.job := rfl
@[simp] theorem sb_host (off : Nat) (f : Fld) (v : Bool) (d : Dev) : (d.sb off f v).host = d.host := rfl
@[simp] theorem sb_skein (off : Nat) (f : Fld) (v : Bool) (d : Dev) : (d.sb off f v).skein = d.skein := rfl
@[simp] theorem sb_car (off : Nat) (f : Fld) (v : Bool) (d : Dev) : (d.sb off f v).car = d.car := rfl
@[simp] theorem sb_stash (off : Nat) (f : Fld) (v : Bool) (d : Dev) : (d.sb off f v).stash = d.stash := rfl
@[simp] theorem sb_ste (off : Nat) (f : Fld) (v : Bool) (d : Dev) : (d.sb off f v).ste = d.ste := rfl
@[simp] theorem sb_hook (off : Nat) (f : Fld) (v : Bool) (d : Dev) : (d.sb off f v).hook = d.hook := rfl
@[simp] theorem sb_stw (off : Nat) (f : Fld) (v : Bool) (d : Dev) : (d.sb off f v).stw = d.stw := rfl
@[simp] theorem sb_pwr (off : Nat) (f : Fld) (v : Bool) (d : Dev) : (d.sb off f v).pwr = d.pwr := rfl
@[simp] theorem sb_fab (off : Nat) (f : Fld) (v : Bool) (d : Dev) : (d.sb off f v).fab = d.fab := rfl

@[simp] theorem bump_now (off : Nat) (f : Fld) (n : Nat) (d : Dev) : (d.bump off f n).now = d.now := rfl
@[simp] theorem bump_ts (off : Nat) (f : Fld) (n : Nat) (d : Dev) : (d.bump off f n).ts = d.ts := rfl
@[simp] theorem bump_free (off : Nat) (f : Fld) (n : Nat) (d : Dev) : (d.bump off f n).free = d.free := rfl
@[simp] theorem bump_held (off : Nat) (f : Fld) (n : Nat) (d : Dev) : (d.bump off f n).held = d.held := rfl
@[simp] theorem bump_latch (off : Nat) (f : Fld) (n : Nat) (d : Dev) : (d.bump off f n).latch = d.latch := rfl
@[simp] theorem bump_rdata (off : Nat) (f : Fld) (n : Nat) (d : Dev) : (d.bump off f n).rdata = d.rdata := rfl
@[simp] theorem bump_timers (off : Nat) (f : Fld) (n : Nat) (d : Dev) : (d.bump off f n).timers = d.timers := rfl
@[simp] theorem bump_outbox (off : Nat) (f : Fld) (n : Nat) (d : Dev) : (d.bump off f n).outbox = d.outbox := rfl
@[simp] theorem bump_glb (off : Nat) (f : Fld) (n : Nat) (d : Dev) : (d.bump off f n).glb = d.glb := rfl
@[simp] theorem bump_chain (off : Nat) (f : Fld) (n : Nat) (d : Dev) : (d.bump off f n).chain = d.chain := rfl
@[simp] theorem bump_gauge (off : Nat) (f : Fld) (n : Nat) (d : Dev) : (d.bump off f n).gauge = d.gauge := rfl
@[simp] theorem bump_trig (off : Nat) (f : Fld) (n : Nat) (d : Dev) : (d.bump off f n).trig = d.trig := rfl
@[simp] theorem bump_cll (off : Nat) (f : Fld) (n : Nat) (d : Dev) : (d.bump off f n).cll = d.cll := rfl
@[simp] theorem bump_asm (off : Nat) (f : Fld) (n : Nat) (d : Dev) : (d.bump off f n).asm = d.asm := rfl
@[simp] theorem bump_job (off : Nat) (f : Fld) (n : Nat) (d : Dev) : (d.bump off f n).job = d.job := rfl
@[simp] theorem bump_host (off : Nat) (f : Fld) (n : Nat) (d : Dev) : (d.bump off f n).host = d.host := rfl
@[simp] theorem bump_skein (off : Nat) (f : Fld) (n : Nat) (d : Dev) : (d.bump off f n).skein = d.skein := rfl
@[simp] theorem bump_car (off : Nat) (f : Fld) (n : Nat) (d : Dev) : (d.bump off f n).car = d.car := rfl
@[simp] theorem bump_stash (off : Nat) (f : Fld) (n : Nat) (d : Dev) : (d.bump off f n).stash = d.stash := rfl
@[simp] theorem bump_ste (off : Nat) (f : Fld) (n : Nat) (d : Dev) : (d.bump off f n).ste = d.ste := rfl
@[simp] theorem bump_hook (off : Nat) (f : Fld) (n : Nat) (d : Dev) : (d.bump off f n).hook = d.hook := rfl
@[simp] theorem bump_stw (off : Nat) (f : Fld) (n : Nat) (d : Dev) : (d.bump off f n).stw = d.stw := rfl
@[simp] theorem bump_pwr (off : Nat) (f : Fld) (n : Nat) (d : Dev) : (d.bump off f n).pwr = d.pwr := rfl
@[simp] theorem bump_fab (off : Nat) (f : Fld) (n : Nat) (d : Dev) : (d.bump off f n).fab = d.fab := rfl

@[simp] theorem count_now (off : Nat) (f : Fld) (n : Nat) (d : Dev) : (d.count off f n).now = d.now := rfl
@[simp] theorem count_ts (off : Nat) (f : Fld) (n : Nat) (d : Dev) : (d.count off f n).ts = d.ts := rfl
@[simp] theorem count_free (off : Nat) (f : Fld) (n : Nat) (d : Dev) : (d.count off f n).free = d.free := rfl
@[simp] theorem count_held (off : Nat) (f : Fld) (n : Nat) (d : Dev) : (d.count off f n).held = d.held := rfl
@[simp] theorem count_latch (off : Nat) (f : Fld) (n : Nat) (d : Dev) : (d.count off f n).latch = d.latch := rfl
@[simp] theorem count_rdata (off : Nat) (f : Fld) (n : Nat) (d : Dev) : (d.count off f n).rdata = d.rdata := rfl
@[simp] theorem count_timers (off : Nat) (f : Fld) (n : Nat) (d : Dev) : (d.count off f n).timers = d.timers := rfl
@[simp] theorem count_outbox (off : Nat) (f : Fld) (n : Nat) (d : Dev) : (d.count off f n).outbox = d.outbox := rfl
@[simp] theorem count_glb (off : Nat) (f : Fld) (n : Nat) (d : Dev) : (d.count off f n).glb = d.glb := rfl
@[simp] theorem count_chain (off : Nat) (f : Fld) (n : Nat) (d : Dev) : (d.count off f n).chain = d.chain := rfl
@[simp] theorem count_gauge (off : Nat) (f : Fld) (n : Nat) (d : Dev) : (d.count off f n).gauge = d.gauge := rfl
@[simp] theorem count_trig (off : Nat) (f : Fld) (n : Nat) (d : Dev) : (d.count off f n).trig = d.trig := rfl
@[simp] theorem count_cll (off : Nat) (f : Fld) (n : Nat) (d : Dev) : (d.count off f n).cll = d.cll := rfl
@[simp] theorem count_asm (off : Nat) (f : Fld) (n : Nat) (d : Dev) : (d.count off f n).asm = d.asm := rfl
@[simp] theorem count_job (off : Nat) (f : Fld) (n : Nat) (d : Dev) : (d.count off f n).job = d.job := rfl
@[simp] theorem count_host (off : Nat) (f : Fld) (n : Nat) (d : Dev) : (d.count off f n).host = d.host := rfl
@[simp] theorem count_skein (off : Nat) (f : Fld) (n : Nat) (d : Dev) : (d.count off f n).skein = d.skein := rfl
@[simp] theorem count_car (off : Nat) (f : Fld) (n : Nat) (d : Dev) : (d.count off f n).car = d.car := rfl
@[simp] theorem count_stash (off : Nat) (f : Fld) (n : Nat) (d : Dev) : (d.count off f n).stash = d.stash := rfl
@[simp] theorem count_ste (off : Nat) (f : Fld) (n : Nat) (d : Dev) : (d.count off f n).ste = d.ste := rfl
@[simp] theorem count_hook (off : Nat) (f : Fld) (n : Nat) (d : Dev) : (d.count off f n).hook = d.hook := rfl
@[simp] theorem count_stw (off : Nat) (f : Fld) (n : Nat) (d : Dev) : (d.count off f n).stw = d.stw := rfl
@[simp] theorem count_pwr (off : Nat) (f : Fld) (n : Nat) (d : Dev) : (d.count off f n).pwr = d.pwr := rfl
@[simp] theorem count_fab (off : Nat) (f : Fld) (n : Nat) (d : Dev) : (d.count off f n).fab = d.fab := rfl

@[simp] theorem fresh_now (w : Nat) (d : Dev) : ((d.fresh w).2).now = d.now := rfl
@[simp] theorem fresh_ts (w : Nat) (d : Dev) : ((d.fresh w).2).ts = d.ts := rfl
@[simp] theorem fresh_regs (w : Nat) (d : Dev) : ((d.fresh w).2).regs = d.regs := rfl
@[simp] theorem fresh_held (w : Nat) (d : Dev) : ((d.fresh w).2).held = d.held := rfl
@[simp] theorem fresh_latch (w : Nat) (d : Dev) : ((d.fresh w).2).latch = d.latch := rfl
@[simp] theorem fresh_rdata (w : Nat) (d : Dev) : ((d.fresh w).2).rdata = d.rdata := rfl
@[simp] theorem fresh_timers (w : Nat) (d : Dev) : ((d.fresh w).2).timers = d.timers := rfl
@[simp] theorem fresh_outbox (w : Nat) (d : Dev) : ((d.fresh w).2).outbox = d.outbox := rfl
@[simp] theorem fresh_glb (w : Nat) (d : Dev) : ((d.fresh w).2).glb = d.glb := rfl
@[simp] theorem fresh_chain (w : Nat) (d : Dev) : ((d.fresh w).2).chain = d.chain := rfl
@[simp] theorem fresh_gauge (w : Nat) (d : Dev) : ((d.fresh w).2).gauge = d.gauge := rfl
@[simp] theorem fresh_trig (w : Nat) (d : Dev) : ((d.fresh w).2).trig = d.trig := rfl
@[simp] theorem fresh_cll (w : Nat) (d : Dev) : ((d.fresh w).2).cll = d.cll := rfl
@[simp] theorem fresh_asm (w : Nat) (d : Dev) : ((d.fresh w).2).asm = d.asm := rfl
@[simp] theorem fresh_job (w : Nat) (d : Dev) : ((d.fresh w).2).job = d.job := rfl
@[simp] theorem fresh_host (w : Nat) (d : Dev) : ((d.fresh w).2).host = d.host := rfl
@[simp] theorem fresh_skein (w : Nat) (d : Dev) : ((d.fresh w).2).skein = d.skein := rfl
@[simp] theorem fresh_car (w : Nat) (d : Dev) : ((d.fresh w).2).car = d.car := rfl
@[simp] theorem fresh_stash (w : Nat) (d : Dev) : ((d.fresh w).2).stash = d.stash := rfl
@[simp] theorem fresh_ste (w : Nat) (d : Dev) : ((d.fresh w).2).ste = d.ste := rfl
@[simp] theorem fresh_hook (w : Nat) (d : Dev) : ((d.fresh w).2).hook = d.hook := rfl
@[simp] theorem fresh_stw (w : Nat) (d : Dev) : ((d.fresh w).2).stw = d.stw := rfl
@[simp] theorem fresh_pwr (w : Nat) (d : Dev) : ((d.fresh w).2).pwr = d.pwr := rfl
@[simp] theorem fresh_fab (w : Nat) (d : Dev) : ((d.fresh w).2).fab = d.fab := rfl

@[simp] theorem arm_now (t : Timer) (due : Nat) (d : Dev) : (d.arm t due).now = d.now := rfl
@[simp] theorem arm_ts (t : Timer) (due : Nat) (d : Dev) : (d.arm t due).ts = d.ts := rfl
@[simp] theorem arm_free (t : Timer) (due : Nat) (d : Dev) : (d.arm t due).free = d.free := rfl
@[simp] theorem arm_regs (t : Timer) (due : Nat) (d : Dev) : (d.arm t due).regs = d.regs := rfl
@[simp] theorem arm_held (t : Timer) (due : Nat) (d : Dev) : (d.arm t due).held = d.held := rfl
@[simp] theorem arm_latch (t : Timer) (due : Nat) (d : Dev) : (d.arm t due).latch = d.latch := rfl
@[simp] theorem arm_rdata (t : Timer) (due : Nat) (d : Dev) : (d.arm t due).rdata = d.rdata := rfl
@[simp] theorem arm_outbox (t : Timer) (due : Nat) (d : Dev) : (d.arm t due).outbox = d.outbox := rfl
@[simp] theorem arm_glb (t : Timer) (due : Nat) (d : Dev) : (d.arm t due).glb = d.glb := rfl
@[simp] theorem arm_chain (t : Timer) (due : Nat) (d : Dev) : (d.arm t due).chain = d.chain := rfl
@[simp] theorem arm_gauge (t : Timer) (due : Nat) (d : Dev) : (d.arm t due).gauge = d.gauge := rfl
@[simp] theorem arm_trig (t : Timer) (due : Nat) (d : Dev) : (d.arm t due).trig = d.trig := rfl
@[simp] theorem arm_cll (t : Timer) (due : Nat) (d : Dev) : (d.arm t due).cll = d.cll := rfl
@[simp] theorem arm_asm (t : Timer) (due : Nat) (d : Dev) : (d.arm t due).asm = d.asm := rfl
@[simp] theorem arm_job (t : Timer) (due : Nat) (d : Dev) : (d.arm t due).job = d.job := rfl
@[simp] theorem arm_host (t : Timer) (due : Nat) (d : Dev) : (d.arm t due).host = d.host := rfl
@[simp] theorem arm_skein (t : Timer) (due : Nat) (d : Dev) : (d.arm t due).skein = d.skein := rfl
@[simp] theorem arm_car (t : Timer) (due : Nat) (d : Dev) : (d.arm t due).car = d.car := rfl
@[simp] theorem arm_stash (t : Timer) (due : Nat) (d : Dev) : (d.arm t due).stash = d.stash := rfl
@[simp] theorem arm_ste (t : Timer) (due : Nat) (d : Dev) : (d.arm t due).ste = d.ste := rfl
@[simp] theorem arm_hook (t : Timer) (due : Nat) (d : Dev) : (d.arm t due).hook = d.hook := rfl
@[simp] theorem arm_stw (t : Timer) (due : Nat) (d : Dev) : (d.arm t due).stw = d.stw := rfl
@[simp] theorem arm_pwr (t : Timer) (due : Nat) (d : Dev) : (d.arm t due).pwr = d.pwr := rfl
@[simp] theorem arm_fab (t : Timer) (due : Nat) (d : Dev) : (d.arm t due).fab = d.fab := rfl

@[simp] theorem disarm_now (t : Timer) (d : Dev) : (d.disarm t).now = d.now := rfl
@[simp] theorem disarm_ts (t : Timer) (d : Dev) : (d.disarm t).ts = d.ts := rfl
@[simp] theorem disarm_free (t : Timer) (d : Dev) : (d.disarm t).free = d.free := rfl
@[simp] theorem disarm_regs (t : Timer) (d : Dev) : (d.disarm t).regs = d.regs := rfl
@[simp] theorem disarm_held (t : Timer) (d : Dev) : (d.disarm t).held = d.held := rfl
@[simp] theorem disarm_latch (t : Timer) (d : Dev) : (d.disarm t).latch = d.latch := rfl
@[simp] theorem disarm_rdata (t : Timer) (d : Dev) : (d.disarm t).rdata = d.rdata := rfl
@[simp] theorem disarm_outbox (t : Timer) (d : Dev) : (d.disarm t).outbox = d.outbox := rfl
@[simp] theorem disarm_glb (t : Timer) (d : Dev) : (d.disarm t).glb = d.glb := rfl
@[simp] theorem disarm_chain (t : Timer) (d : Dev) : (d.disarm t).chain = d.chain := rfl
@[simp] theorem disarm_gauge (t : Timer) (d : Dev) : (d.disarm t).gauge = d.gauge := rfl
@[simp] theorem disarm_trig (t : Timer) (d : Dev) : (d.disarm t).trig = d.trig := rfl
@[simp] theorem disarm_cll (t : Timer) (d : Dev) : (d.disarm t).cll = d.cll := rfl
@[simp] theorem disarm_asm (t : Timer) (d : Dev) : (d.disarm t).asm = d.asm := rfl
@[simp] theorem disarm_job (t : Timer) (d : Dev) : (d.disarm t).job = d.job := rfl
@[simp] theorem disarm_host (t : Timer) (d : Dev) : (d.disarm t).host = d.host := rfl
@[simp] theorem disarm_skein (t : Timer) (d : Dev) : (d.disarm t).skein = d.skein := rfl
@[simp] theorem disarm_car (t : Timer) (d : Dev) : (d.disarm t).car = d.car := rfl
@[simp] theorem disarm_stash (t : Timer) (d : Dev) : (d.disarm t).stash = d.stash := rfl
@[simp] theorem disarm_ste (t : Timer) (d : Dev) : (d.disarm t).ste = d.ste := rfl
@[simp] theorem disarm_hook (t : Timer) (d : Dev) : (d.disarm t).hook = d.hook := rfl
@[simp] theorem disarm_stw (t : Timer) (d : Dev) : (d.disarm t).stw = d.stw := rfl
@[simp] theorem disarm_pwr (t : Timer) (d : Dev) : (d.disarm t).pwr = d.pwr := rfl
@[simp] theorem disarm_fab (t : Timer) (d : Dev) : (d.disarm t).fab = d.fab := rfl

/-! What the operations that reach further leave: each is its argument but for the fields named. -/

theorem wr_frame (off : Nat) (v : Word) (d : Dev) : d.wr off v = { d with regs := (d.wr off v).regs } := rfl

theorem wr64_frame (off : Nat) (v : DWord) (d : Dev) : d.wr64 off v = { d with regs := (d.wr64 off v).regs } := rfl

theorem emit_frame (o : Out) (d : Dev) : d.emit o = { d with outbox := (d.emit o).outbox } := by
  unfold Dev.emit; split <;> rfl

theorem msixSend_frame (v : Nat) (d : Dev) : d.msixSend v = { d with outbox := (d.msixSend v).outbox } := emit_frame _ _

theorem intxUpdate_frame (d : Dev) : d.intxUpdate = { d with outbox := d.intxUpdate.outbox, host := d.intxUpdate.host } := by
  unfold Dev.intxUpdate
  dsimp only
  split
  · rfl
  · rw [emit_frame]

theorem message_frame (v : Nat) (d : Dev) :
    d.message v = { d with outbox := (d.message v).outbox, host := (d.message v).host, regs := (d.message v).regs } := by
  unfold Dev.message
  split
  · rw [intxUpdate_frame]; rfl
  · split
    · rfl
    · split
      · rw [msixSend_frame]
      · rfl

theorem intCause_frame (b : Nat) (d : Dev) :
    d.intCause b = { d with outbox := (d.intCause b).outbox, host := (d.intCause b).host, regs := (d.intCause b).regs } := by
  unfold Dev.intCause
  dsimp only
  split
  · rw [message_frame]; rfl
  · rfl

theorem err_frame (blk off b : Nat) (d : Dev) :
    d.err blk off b = { d with outbox := (d.err blk off b).outbox, host := (d.err blk off b).host, regs := (d.err blk off b).regs } := by
  unfold Dev.err Dev.withBlkErr
  dsimp only
  split
  · rw [intCause_frame]; rfl
  · rfl

theorem glbErrSet_frame (b : Nat) (d : Dev) : d.glbErrSet b =
    { d with outbox := (d.glbErrSet b).outbox, host := (d.glbErrSet b).host, regs := (d.glbErrSet b).regs } := by
  unfold Dev.glbErrSet
  dsimp only
  split
  · rw [intCause_frame]; rfl
  · rfl

theorem denyCapture_frame (m : Nat) (w : Bool) (k a : Nat) (d : Dev) :
    d.denyCapture m w k a = { d with regs := (d.denyCapture m w k a).regs } := by
  unfold Dev.denyCapture
  split
  · rfl
  · rw [wr64_frame, wr64_frame R.GLB_DENY_ADDR, wr_frame]

theorem deny_frame (m : Nat) (w : Bool) (a : Nat) (d : Dev) : d.deny m w a =
    { d with outbox := (d.deny m w a).outbox, host := (d.deny m w a).host, regs := (d.deny m w a).regs } := by
  unfold Dev.deny
  rw [denyCapture_frame, glbErrSet_frame]; rfl

theorem decodeError_frame (m : Nat) (w : Bool) (a : Nat) (d : Dev) : d.decodeError m w a =
    { d with outbox := (d.decodeError m w a).outbox, host := (d.decodeError m w a).host, regs := (d.decodeError m w a).regs } := by
  unfold Dev.decodeError
  rw [denyCapture_frame, glbErrSet_frame]; rfl

@[simp] theorem modStash_now (g : StashSt → StashSt) (d : Dev) : (d.modStash g).now = d.now := rfl
@[simp] theorem modStash_ts (g : StashSt → StashSt) (d : Dev) : (d.modStash g).ts = d.ts := rfl
@[simp] theorem modStash_free (g : StashSt → StashSt) (d : Dev) : (d.modStash g).free = d.free := rfl
@[simp] theorem modStash_regs (g : StashSt → StashSt) (d : Dev) : (d.modStash g).regs = d.regs := rfl
@[simp] theorem modStash_held (g : StashSt → StashSt) (d : Dev) : (d.modStash g).held = d.held := rfl
@[simp] theorem modStash_latch (g : StashSt → StashSt) (d : Dev) : (d.modStash g).latch = d.latch := rfl
@[simp] theorem modStash_rdata (g : StashSt → StashSt) (d : Dev) : (d.modStash g).rdata = d.rdata := rfl
@[simp] theorem modStash_timers (g : StashSt → StashSt) (d : Dev) : (d.modStash g).timers = d.timers := rfl
@[simp] theorem modStash_outbox (g : StashSt → StashSt) (d : Dev) : (d.modStash g).outbox = d.outbox := rfl
@[simp] theorem modStash_glb (g : StashSt → StashSt) (d : Dev) : (d.modStash g).glb = d.glb := rfl
@[simp] theorem modStash_chain (g : StashSt → StashSt) (d : Dev) : (d.modStash g).chain = d.chain := rfl
@[simp] theorem modStash_gauge (g : StashSt → StashSt) (d : Dev) : (d.modStash g).gauge = d.gauge := rfl
@[simp] theorem modStash_trig (g : StashSt → StashSt) (d : Dev) : (d.modStash g).trig = d.trig := rfl
@[simp] theorem modStash_cll (g : StashSt → StashSt) (d : Dev) : (d.modStash g).cll = d.cll := rfl
@[simp] theorem modStash_asm (g : StashSt → StashSt) (d : Dev) : (d.modStash g).asm = d.asm := rfl
@[simp] theorem modStash_job (g : StashSt → StashSt) (d : Dev) : (d.modStash g).job = d.job := rfl
@[simp] theorem modStash_host (g : StashSt → StashSt) (d : Dev) : (d.modStash g).host = d.host := rfl
@[simp] theorem modStash_skein (g : StashSt → StashSt) (d : Dev) : (d.modStash g).skein = d.skein := rfl
@[simp] theorem modStash_car (g : StashSt → StashSt) (d : Dev) : (d.modStash g).car = d.car := rfl
@[simp] theorem modStash_ste (g : StashSt → StashSt) (d : Dev) : (d.modStash g).ste = d.ste := rfl
@[simp] theorem modStash_hook (g : StashSt → StashSt) (d : Dev) : (d.modStash g).hook = d.hook := rfl
@[simp] theorem modStash_stw (g : StashSt → StashSt) (d : Dev) : (d.modStash g).stw = d.stw := rfl
@[simp] theorem modStash_pwr (g : StashSt → StashSt) (d : Dev) : (d.modStash g).pwr = d.pwr := rfl
@[simp] theorem modStash_fab (g : StashSt → StashSt) (d : Dev) : (d.modStash g).fab = d.fab := rfl

@[simp] theorem modStash_stash (g : StashSt → StashSt) (d : Dev) : (d.modStash g).stash = g d.stash := rfl

@[simp] theorem modSte_now (g : SteSt → SteSt) (d : Dev) : (d.modSte g).now = d.now := rfl
@[simp] theorem modSte_ts (g : SteSt → SteSt) (d : Dev) : (d.modSte g).ts = d.ts := rfl
@[simp] theorem modSte_free (g : SteSt → SteSt) (d : Dev) : (d.modSte g).free = d.free := rfl
@[simp] theorem modSte_regs (g : SteSt → SteSt) (d : Dev) : (d.modSte g).regs = d.regs := rfl
@[simp] theorem modSte_held (g : SteSt → SteSt) (d : Dev) : (d.modSte g).held = d.held := rfl
@[simp] theorem modSte_latch (g : SteSt → SteSt) (d : Dev) : (d.modSte g).latch = d.latch := rfl
@[simp] theorem modSte_rdata (g : SteSt → SteSt) (d : Dev) : (d.modSte g).rdata = d.rdata := rfl
@[simp] theorem modSte_timers (g : SteSt → SteSt) (d : Dev) : (d.modSte g).timers = d.timers := rfl
@[simp] theorem modSte_outbox (g : SteSt → SteSt) (d : Dev) : (d.modSte g).outbox = d.outbox := rfl
@[simp] theorem modSte_glb (g : SteSt → SteSt) (d : Dev) : (d.modSte g).glb = d.glb := rfl
@[simp] theorem modSte_chain (g : SteSt → SteSt) (d : Dev) : (d.modSte g).chain = d.chain := rfl
@[simp] theorem modSte_gauge (g : SteSt → SteSt) (d : Dev) : (d.modSte g).gauge = d.gauge := rfl
@[simp] theorem modSte_trig (g : SteSt → SteSt) (d : Dev) : (d.modSte g).trig = d.trig := rfl
@[simp] theorem modSte_cll (g : SteSt → SteSt) (d : Dev) : (d.modSte g).cll = d.cll := rfl
@[simp] theorem modSte_asm (g : SteSt → SteSt) (d : Dev) : (d.modSte g).asm = d.asm := rfl
@[simp] theorem modSte_job (g : SteSt → SteSt) (d : Dev) : (d.modSte g).job = d.job := rfl
@[simp] theorem modSte_host (g : SteSt → SteSt) (d : Dev) : (d.modSte g).host = d.host := rfl
@[simp] theorem modSte_skein (g : SteSt → SteSt) (d : Dev) : (d.modSte g).skein = d.skein := rfl
@[simp] theorem modSte_car (g : SteSt → SteSt) (d : Dev) : (d.modSte g).car = d.car := rfl
@[simp] theorem modSte_stash (g : SteSt → SteSt) (d : Dev) : (d.modSte g).stash = d.stash := rfl
@[simp] theorem modSte_hook (g : SteSt → SteSt) (d : Dev) : (d.modSte g).hook = d.hook := rfl
@[simp] theorem modSte_stw (g : SteSt → SteSt) (d : Dev) : (d.modSte g).stw = d.stw := rfl
@[simp] theorem modSte_pwr (g : SteSt → SteSt) (d : Dev) : (d.modSte g).pwr = d.pwr := rfl
@[simp] theorem modSte_fab (g : SteSt → SteSt) (d : Dev) : (d.modSte g).fab = d.fab := rfl

@[simp] theorem modSte_ste (g : SteSt → SteSt) (d : Dev) : (d.modSte g).ste = g d.ste := rfl

@[simp] theorem modHost_now (g : HostSt → HostSt) (d : Dev) : (d.modHost g).now = d.now := rfl
@[simp] theorem modHost_ts (g : HostSt → HostSt) (d : Dev) : (d.modHost g).ts = d.ts := rfl
@[simp] theorem modHost_free (g : HostSt → HostSt) (d : Dev) : (d.modHost g).free = d.free := rfl
@[simp] theorem modHost_regs (g : HostSt → HostSt) (d : Dev) : (d.modHost g).regs = d.regs := rfl
@[simp] theorem modHost_held (g : HostSt → HostSt) (d : Dev) : (d.modHost g).held = d.held := rfl
@[simp] theorem modHost_latch (g : HostSt → HostSt) (d : Dev) : (d.modHost g).latch = d.latch := rfl
@[simp] theorem modHost_rdata (g : HostSt → HostSt) (d : Dev) : (d.modHost g).rdata = d.rdata := rfl
@[simp] theorem modHost_timers (g : HostSt → HostSt) (d : Dev) : (d.modHost g).timers = d.timers := rfl
@[simp] theorem modHost_outbox (g : HostSt → HostSt) (d : Dev) : (d.modHost g).outbox = d.outbox := rfl
@[simp] theorem modHost_glb (g : HostSt → HostSt) (d : Dev) : (d.modHost g).glb = d.glb := rfl
@[simp] theorem modHost_chain (g : HostSt → HostSt) (d : Dev) : (d.modHost g).chain = d.chain := rfl
@[simp] theorem modHost_gauge (g : HostSt → HostSt) (d : Dev) : (d.modHost g).gauge = d.gauge := rfl
@[simp] theorem modHost_trig (g : HostSt → HostSt) (d : Dev) : (d.modHost g).trig = d.trig := rfl
@[simp] theorem modHost_cll (g : HostSt → HostSt) (d : Dev) : (d.modHost g).cll = d.cll := rfl
@[simp] theorem modHost_asm (g : HostSt → HostSt) (d : Dev) : (d.modHost g).asm = d.asm := rfl
@[simp] theorem modHost_job (g : HostSt → HostSt) (d : Dev) : (d.modHost g).job = d.job := rfl
@[simp] theorem modHost_skein (g : HostSt → HostSt) (d : Dev) : (d.modHost g).skein = d.skein := rfl
@[simp] theorem modHost_car (g : HostSt → HostSt) (d : Dev) : (d.modHost g).car = d.car := rfl
@[simp] theorem modHost_stash (g : HostSt → HostSt) (d : Dev) : (d.modHost g).stash = d.stash := rfl
@[simp] theorem modHost_ste (g : HostSt → HostSt) (d : Dev) : (d.modHost g).ste = d.ste := rfl
@[simp] theorem modHost_hook (g : HostSt → HostSt) (d : Dev) : (d.modHost g).hook = d.hook := rfl
@[simp] theorem modHost_stw (g : HostSt → HostSt) (d : Dev) : (d.modHost g).stw = d.stw := rfl
@[simp] theorem modHost_pwr (g : HostSt → HostSt) (d : Dev) : (d.modHost g).pwr = d.pwr := rfl
@[simp] theorem modHost_fab (g : HostSt → HostSt) (d : Dev) : (d.modHost g).fab = d.fab := rfl

@[simp] theorem modHost_host (g : HostSt → HostSt) (d : Dev) : (d.modHost g).host = g d.host := rfl

@[simp] theorem modSkein_now (g : SkeinSt → SkeinSt) (d : Dev) : (d.modSkein g).now = d.now := rfl
@[simp] theorem modSkein_ts (g : SkeinSt → SkeinSt) (d : Dev) : (d.modSkein g).ts = d.ts := rfl
@[simp] theorem modSkein_free (g : SkeinSt → SkeinSt) (d : Dev) : (d.modSkein g).free = d.free := rfl
@[simp] theorem modSkein_regs (g : SkeinSt → SkeinSt) (d : Dev) : (d.modSkein g).regs = d.regs := rfl
@[simp] theorem modSkein_held (g : SkeinSt → SkeinSt) (d : Dev) : (d.modSkein g).held = d.held := rfl
@[simp] theorem modSkein_latch (g : SkeinSt → SkeinSt) (d : Dev) : (d.modSkein g).latch = d.latch := rfl
@[simp] theorem modSkein_rdata (g : SkeinSt → SkeinSt) (d : Dev) : (d.modSkein g).rdata = d.rdata := rfl
@[simp] theorem modSkein_timers (g : SkeinSt → SkeinSt) (d : Dev) : (d.modSkein g).timers = d.timers := rfl
@[simp] theorem modSkein_outbox (g : SkeinSt → SkeinSt) (d : Dev) : (d.modSkein g).outbox = d.outbox := rfl
@[simp] theorem modSkein_glb (g : SkeinSt → SkeinSt) (d : Dev) : (d.modSkein g).glb = d.glb := rfl
@[simp] theorem modSkein_chain (g : SkeinSt → SkeinSt) (d : Dev) : (d.modSkein g).chain = d.chain := rfl
@[simp] theorem modSkein_gauge (g : SkeinSt → SkeinSt) (d : Dev) : (d.modSkein g).gauge = d.gauge := rfl
@[simp] theorem modSkein_trig (g : SkeinSt → SkeinSt) (d : Dev) : (d.modSkein g).trig = d.trig := rfl
@[simp] theorem modSkein_cll (g : SkeinSt → SkeinSt) (d : Dev) : (d.modSkein g).cll = d.cll := rfl
@[simp] theorem modSkein_asm (g : SkeinSt → SkeinSt) (d : Dev) : (d.modSkein g).asm = d.asm := rfl
@[simp] theorem modSkein_job (g : SkeinSt → SkeinSt) (d : Dev) : (d.modSkein g).job = d.job := rfl
@[simp] theorem modSkein_host (g : SkeinSt → SkeinSt) (d : Dev) : (d.modSkein g).host = d.host := rfl
@[simp] theorem modSkein_car (g : SkeinSt → SkeinSt) (d : Dev) : (d.modSkein g).car = d.car := rfl
@[simp] theorem modSkein_stash (g : SkeinSt → SkeinSt) (d : Dev) : (d.modSkein g).stash = d.stash := rfl
@[simp] theorem modSkein_ste (g : SkeinSt → SkeinSt) (d : Dev) : (d.modSkein g).ste = d.ste := rfl
@[simp] theorem modSkein_hook (g : SkeinSt → SkeinSt) (d : Dev) : (d.modSkein g).hook = d.hook := rfl
@[simp] theorem modSkein_stw (g : SkeinSt → SkeinSt) (d : Dev) : (d.modSkein g).stw = d.stw := rfl
@[simp] theorem modSkein_pwr (g : SkeinSt → SkeinSt) (d : Dev) : (d.modSkein g).pwr = d.pwr := rfl
@[simp] theorem modSkein_fab (g : SkeinSt → SkeinSt) (d : Dev) : (d.modSkein g).fab = d.fab := rfl

@[simp] theorem modSkein_skein (g : SkeinSt → SkeinSt) (d : Dev) : (d.modSkein g).skein = g d.skein := rfl

/-! Registers. -/

@[simp] theorem rd_wr_self (off : Nat) (v : Word) (d : Dev) : (d.wr off v).rd off = v := Tbl.get_set_self _ _ _ _

theorem rd_wr (off x : Nat) (v : Word) (d : Dev) : (d.wr off v).rd x = if x = off then v else d.rd x := Tbl.get_set _ _ _ _ _

theorem rd_wr_ne {off x : Nat} (v : Word) (d : Dev) (h : x ≠ off) : (d.wr off v).rd x = d.rd x := by rw [rd_wr, if_neg h]

/-- What a register reads as depends on the register table alone. -/
theorem rd_congr {d e : Dev} (h : d.regs = e.regs) (x : Nat) : d.rd x = e.rd x := by unfold Dev.rd; rw [h]

/-- A message changes no register but the HOST_INTX_PEND word of its vector. -/
theorem message_rd (v x : Nat) (d : Dev) (h : x ≠ R.HOST_INTX_PEND (v / 32)) : (d.message v).rd x = d.rd x := by
  unfold Dev.message
  split
  · rw [intxUpdate_frame]
    exact rd_wr_ne _ _ h
  · split
    · rfl
    · split
      · rw [msixSend_frame]; rfl
      · rfl

/-- A cause changes no register but GLB_INT_STATUS and HOST_INTX_PEND(0). -/
theorem intCause_rd (b x : Nat) (d : Dev) (h : x ≠ R.HOST_INTX_PEND 0) (hs : x ≠ R.GLB_INT_STATUS) : (d.intCause b).rd x = d.rd x := by
  unfold Dev.intCause
  dsimp only
  split
  · rw [message_rd _ _ _ h]; exact rd_wr_ne _ _ hs
  · exact rd_wr_ne _ _ hs

/-- An error bit changes no other register but GLB_INT_STATUS and HOST_INTX_PEND(0). -/
theorem err_rd (blk off b x : Nat) (d : Dev) (h : x ≠ R.HOST_INTX_PEND 0) (hs : x ≠ R.GLB_INT_STATUS) (ho : x ≠ off) :
    (d.err blk off b).rd x = d.rd x := by
  unfold Dev.err Dev.withBlkErr
  dsimp only
  split
  · rw [intCause_rd _ _ _ h hs]; exact rd_wr_ne _ _ ho
  · exact rd_wr_ne _ _ ho

/-- A GLB_ERR bit changes no other register but GLB_INT_STATUS and HOST_INTX_PEND(0). -/
theorem glbErrSet_rd (b x : Nat) (d : Dev) (h : x ≠ R.HOST_INTX_PEND 0) (hs : x ≠ R.GLB_INT_STATUS) (ho : x ≠ R.GLB_ERR) :
    (d.glbErrSet b).rd x = d.rd x := by
  unfold Dev.glbErrSet
  dsimp only
  split
  · rw [intCause_rd _ _ _ h hs]; exact rd_wr_ne _ _ ho
  · exact rd_wr_ne _ _ ho

/-- A log entry changes no register but GLB_INT_STATUS, HOST_INTX_PEND(0), STW_LOG_STATUS and STW_ERR. -/
theorem logEvent_rd (k b x : Nat) (w : DWord) (d : Dev) (h : x ≠ R.HOST_INTX_PEND 0) (hs : x ≠ R.GLB_INT_STATUS)
    (hl : x ≠ R.STW_LOG_STATUS) (he : x ≠ R.STW_ERR) : (d.logEvent k b w).rd x = d.rd x := by
  unfold Dev.logEvent
  dsimp only
  split
  · rfl
  · split
    · rw [err_rd _ _ _ _ _ h hs he]; exact rd_wr_ne _ _ hl
    · rfl

/-- A field reads back what was stored in it. -/
theorem fld_setFld (v : Word) (f : Fld) (n : Nat) (h : f.lo + f.w ≤ 32) : fld (setFld v f n) f = n % 2 ^ f.w := by
  have hm : ∀ m, m < 2 ^ f.w → m * 2 ^ f.lo < 2 ^ 32 := fun m hm =>
    lt_of_lt_of_le (Nat.mul_lt_mul_of_pos_right hm (Nat.two_pow_pos _)) (by rw [← Nat.pow_add]; exact Nat.pow_le_pow_right (by omega) (by omega))
  have hn : n % 2 ^ f.w < 2 ^ f.w := Nat.mod_lt _ (Nat.two_pow_pos _)
  unfold fld setFld Fld.mask
  apply Nat.eq_of_testBit_eq
  intro i
  rw [Nat.testBit_mod_two_pow, Nat.testBit_div_two_pow]
  by_cases hi : i < f.w
  · have h32 : i + f.lo < 32 := by omega
    rw [BitVec.testBit_toNat, BitVec.getLsbD_or, BitVec.getLsbD_and, BitVec.getLsbD_not, BitVec.getLsbD_ofNat, BitVec.getLsbD_ofNat]
    have e1 : ((2 ^ f.w - 1) * 2 ^ f.lo).testBit (i + f.lo) = true := by
      rw [Nat.testBit_mul_two_pow]; simp [hi]
    have e2 : (n % 2 ^ f.w * 2 ^ f.lo).testBit (i + f.lo) = (n % 2 ^ f.w).testBit i := by
      rw [Nat.testBit_mul_two_pow]; simp
    simp [e1, e2, h32, hi]
  · have : (n % 2 ^ f.w).testBit i = false := Nat.testBit_lt_two_pow (lt_of_lt_of_le hn (Nat.pow_le_pow_right (by omega) (by omega)))
    simp [hi, this]

/-- A field keeps its value when a disjoint one is stored. -/
theorem fld_setFld_ne (v : Word) (f g : Fld) (n : Nat) (h : f.lo + f.w ≤ g.lo ∨ g.lo + g.w ≤ f.lo) : fld (setFld v g n) f = fld v f := by
  unfold fld setFld Fld.mask
  apply Nat.eq_of_testBit_eq
  intro i
  rw [Nat.testBit_mod_two_pow, Nat.testBit_div_two_pow, Nat.testBit_mod_two_pow, Nat.testBit_div_two_pow]
  by_cases hi : i < f.w
  · rw [BitVec.testBit_toNat, BitVec.getLsbD_or, BitVec.getLsbD_and, BitVec.getLsbD_not, BitVec.getLsbD_ofNat, BitVec.getLsbD_ofNat,
      BitVec.testBit_toNat]
    have e1 : ((2 ^ g.w - 1) * 2 ^ g.lo).testBit (i + f.lo) = false := by
      rw [Nat.testBit_mul_two_pow]
      by_cases hlo : g.lo ≤ i + f.lo
      · simp; intro _; omega
      · simp [hlo]
    have e2 : (n % 2 ^ g.w * 2 ^ g.lo).testBit (i + f.lo) = false := by
      rw [Nat.testBit_mul_two_pow, Nat.testBit_mod_two_pow]
      by_cases hlo : g.lo ≤ i + f.lo
      · have : ¬ (i + f.lo - g.lo < g.w) := by omega
        simp [this]
      · simp [hlo]
    by_cases h32 : i + f.lo < 32
    · simp [e1, e2, h32]
    · simp [h32, BitVec.getLsbD_of_ge v _ (Nat.le_of_not_lt h32)]
  · simp [hi]

theorem f_sf_self (off : Nat) (f : Fld) (n : Nat) (d : Dev) (h : f.lo + f.w ≤ 32) : (d.sf off f n).f off f = n % 2 ^ f.w := by
  simp [Dev.sf, Dev.f, fld_setFld _ _ _ h]

theorem f_sf_ne (off : Nat) (f g : Fld) (n : Nat) (d : Dev) (h : f.lo + f.w ≤ g.lo ∨ g.lo + g.w ≤ f.lo) :
    (d.sf off g n).f off f = d.f off f := by
  simp [Dev.sf, Dev.f, fld_setFld_ne _ _ _ _ h]

theorem f_sf_other {off x : Nat} (f g : Fld) (n : Nat) (d : Dev) (h : x ≠ off) : (d.sf off g n).f x f = d.f x f := by
  simp [Dev.sf, Dev.f, rd_wr_ne _ _ h]

/-! Engines. -/

@[simp] theorem eng_setEng_self (e : Nat) (x : Engine) (d : Dev) : (d.setEng e x).eng e = x := Tbl.get_set_self _ _ _ _

theorem eng_setEng_ne {e k : Nat} (x : Engine) (d : Dev) (h : k ≠ e) : (d.setEng e x).eng k = d.eng k := Tbl.get_set_ne _ _ _ h

@[simp] theorem eng_modEng_self (e : Nat) (g : Engine → Engine) (d : Dev) : (d.modEng e g).eng e = g (d.eng e) := by
  simp [Dev.modEng]

theorem eng_modEng_ne {e k : Nat} (g : Engine → Engine) (d : Dev) (h : k ≠ e) : (d.modEng e g).eng k = d.eng k := by
  simp [Dev.modEng, eng_setEng_ne _ _ h]

/-- s0 reads as 0 (R359). -/
@[simp] theorem sreg_zero (x : Engine) : x.sreg 0 = 0 := rfl

/-- p0 reads as all ones (R359). -/
@[simp] theorem preg_zero (x : Engine) : x.preg 0 = 0xFFFFFFFF := rfl

/-- A write of a scalar register reads back, but for s0. -/
theorem sreg_setS (e i : Nat) (v : Word) (d : Dev) (h : i ≠ 0) : ((d.setS e i v).eng e).sreg i = v := by
  simp [Dev.setS, Engine.sreg, h]

theorem sreg_setS_ne (e i j : Nat) (v : Word) (d : Dev) (h : j ≠ i) : ((d.setS e i v).eng e).sreg j = (d.eng e).sreg j := by
  unfold Dev.setS
  split
  · rfl
  · by_cases hj : j = 0
    · simp [Engine.sreg, hj]
    · simp [Engine.sreg, hj, Tbl.get_set_ne _ _ _ h]

/-- Engine memory keeps its canonical form. -/
theorem scratchPut_wf (e off : Nat) (bs : List Byte) (d : Dev) (h : d.stash.scr.wf zeroByte = true) :
    (d.scratchPut e off bs).stash.scr.wf zeroByte = true := by
  simpa [Dev.scratchPut] using Tbl.setBytes_wf zeroByte bs _ _ h

theorem stashPut_wf (c off : Nat) (bs : List Byte) (d : Dev) (h : d.stash.mem.wf zeroByte = true) :
    (d.stashPut c off bs).stash.mem.wf zeroByte = true := by
  simpa [Dev.stashPut] using Tbl.setBytes_wf zeroByte bs _ _ h

end Sys2Proof.Machine
end

