-- ==== Sys2Proof/Laws/Chain.lean ====
section
/-! SUPPORT. What a publication on the Chain, an activation and an error bit of the Gauge can touch: registers, the Chain, the host's
interrupt state and the outputs, and nothing else. -/

namespace Sys2Proof.Machine

theorem setChan_frame (ch : Nat) (c : Chan) (d : Dev) : d.setChan ch c = { d with chain := (d.setChan ch c).chain } := rfl

theorem chainIrq_frame (ch : Nat) (d : Dev) : d.chainIrq ch =
    { d with outbox := (d.chainIrq ch).outbox, host := (d.chainIrq ch).host, regs := (d.chainIrq ch).regs } := by
  unfold Dev.chainIrq
  dsimp only
  split
  · rw [message_frame]; rfl
  · rfl

theorem loopCut_frame (ch src : Nat) (d : Dev) : d.loopCut ch src =
    { d with outbox := (d.loopCut ch src).outbox, host := (d.loopCut ch src).host, regs := (d.loopCut ch src).regs } := by
  unfold Dev.loopCut
  dsimp only
  split
  · rw [err_frame]; rfl
  · rw [wr_frame, err_frame]; rfl

theorem deliver_frame (ch src hop : Nat) (d : Dev) : d.deliver ch src hop =
    { d with outbox := (d.deliver ch src hop).outbox, host := (d.deliver ch src hop).host, regs := (d.deliver ch src hop).regs,
             chain := (d.deliver ch src hop).chain } := by
  unfold Dev.deliver
  dsimp only
  rw [chainIrq_frame]

theorem publishNow_frame (ch src hop : Nat) (d : Dev) : d.publishNow ch src hop =
    { d with outbox := (d.publishNow ch src hop).outbox, host := (d.publishNow ch src hop).host,
             regs := (d.publishNow ch src hop).regs, chain := (d.publishNow ch src hop).chain } := by
  unfold Dev.publishNow
  dsimp only
  split
  · rw [loopCut_frame]; rfl
  · rw [deliver_frame]; rfl

theorem mergeCount_frame (ch : Nat) (d : Dev) : d.mergeCount ch =
    { d with outbox := (d.mergeCount ch).outbox, host := (d.mergeCount ch).host, regs := (d.mergeCount ch).regs } := by
  unfold Dev.mergeCount
  rw [err_frame]; rfl

theorem mergeSame_frame (ch src hop : Nat) (d : Dev) : d.mergeSame ch src hop =
    { d with outbox := (d.mergeSame ch src hop).outbox, host := (d.mergeSame ch src hop).host,
             regs := (d.mergeSame ch src hop).regs, chain := (d.mergeSame ch src hop).chain } := by
  unfold Dev.mergeSame
  dsimp only
  split
  · rw [loopCut_frame, mergeCount_frame]
  · rw [mergeCount_frame]

theorem publishCh_frame (ch src hop : Nat) (d : Dev) : d.publishCh ch src hop =
    { d with outbox := (d.publishCh ch src hop).outbox, host := (d.publishCh ch src hop).host,
             regs := (d.publishCh ch src hop).regs, chain := (d.publishCh ch src hop).chain } := by
  unfold Dev.publishCh
  dsimp only
  split
  · rfl
  · split
    · rw [mergeCount_frame]; rfl
    · split
      · rw [mergeSame_frame]
      · split
        · rfl
        · rw [publishNow_frame]

/-- A publication touches the registers, the Chain, the host's interrupt state and the outputs. -/
theorem publish_frame (src hop : Nat) (d : Dev) : d.publish src hop =
    { d with outbox := (d.publish src hop).outbox, host := (d.publish src hop).host, regs := (d.publish src hop).regs,
             chain := (d.publish src hop).chain } := by
  unfold Dev.publish
  dsimp only
  split
  · rfl
  · split
    · rfl
    · rw [publishCh_frame]

/-- An activation touches the registers, the Chain, the host's interrupt state and the outputs. -/
theorem activate_frame (t : Nat) (d : Dev) : (d.activate t).2 =
    { d with outbox := (d.activate t).2.outbox, host := (d.activate t).2.host, regs := (d.activate t).2.regs,
             chain := (d.activate t).2.chain } := by
  unfold Dev.activate
  split
  · rfl
  · dsimp only
    split
    · rfl
    · dsimp only
      split
      · split <;> rfl
      · split
        · rfl
        · rw [err_frame]; rfl

theorem gaugeErr_frame (a bit : Nat) (d : Dev) : d.gaugeErr a bit =
    { d with outbox := (d.gaugeErr a bit).outbox, host := (d.gaugeErr a bit).host, regs := (d.gaugeErr a bit).regs,
             chain := (d.gaugeErr a bit).chain } := by
  unfold Dev.gaugeErr
  dsimp only
  split
  · rw [publish_frame, err_frame]
  · rw [err_frame]

end Sys2Proof.Machine
end

