-- ==== Sys2Proof/Laws/Dispatch.lean ====
section
/-! SUPPORT. What every command can do, said once: it answers a next state, its effect on the device does not depend on the queue, and
the queue is as before. One lemma per constructor, and the lemma over all of them, which later proofs cite instead of splitting exec. -/

namespace Sys2Proof.Machine

theorem exec_regWrite_run (m off : Nat) (v : Word) : ∃ g : Dev → Dev, ∀ s, exec (.regWrite m off v) s = s.run g :=
  ⟨_, fun s => by show execRegWrite m off v s = _; unfold execRegWrite; rfl⟩

theorem exec_reg64LowWordRead_run (off : Nat) : ∃ g : Dev → Dev, ∀ s, exec (.reg64LowWordRead off) s = s.run g :=
  ⟨_, fun s => by show execReg64LowWordRead off s = _; unfold execReg64LowWordRead; rfl⟩

theorem exec_reg64LowWordWrite_run (off : Nat) (v : Word) : ∃ g : Dev → Dev, ∀ s, exec (.reg64LowWordWrite off v) s = s.run g :=
  ⟨_, fun s => by show execReg64LowWordWrite off v s = _; unfold execReg64LowWordWrite; rfl⟩

theorem exec_rcFieldRead_run (off : Nat) : ∃ g : Dev → Dev, ∀ s, exec (.rcFieldRead off) s = s.run g :=
  ⟨_, fun s => by show execRcFieldRead off s = _; unfold execRcFieldRead; rfl⟩

theorem exec_shedRaise_run (p : Pressure) : ∃ g : Dev → Dev, ∀ s, exec (.shedRaise p) s = s.run g :=
  ⟨_, fun s => by show execShedRaise p s = _; unfold execShedRaise; rfl⟩

theorem exec_shedRaiseIntervalExpiry_run : ∃ g : Dev → Dev, ∀ s, exec (.shedRaiseIntervalExpiry) s = s.run g :=
  ⟨_, fun s => by show execShedRaiseIntervalExpiry s = _; unfold execShedRaiseIntervalExpiry; rfl⟩

theorem exec_shedLowerExpiry_run : ∃ g : Dev → Dev, ∀ s, exec (.shedLowerExpiry) s = s.run g :=
  ⟨_, fun s => by show execShedLowerExpiry s = _; unfold execShedLowerExpiry; rfl⟩

theorem exec_engineBacklogDeadline_run : ∃ g : Dev → Dev, ∀ s, exec (.engineBacklogDeadline) s = s.run g :=
  ⟨_, fun s => by show execEngineBacklogDeadline s = _; unfold execEngineBacklogDeadline; rfl⟩

theorem exec_skeinPressureWindow_run : ∃ g : Dev → Dev, ∀ s, exec (.skeinPressureWindow) s = s.run g :=
  ⟨_, fun s => by show execSkeinPressureWindow s = _; unfold execSkeinPressureWindow; rfl⟩

theorem exec_serviceModeRequest_run (v : Word) : ∃ g : Dev → Dev, ∀ s, exec (.serviceModeRequest v) s = s.run g :=
  ⟨_, fun s => by show execServiceModeRequest v s = _; unfold execServiceModeRequest; rfl⟩

theorem exec_bindoffStart_run : ∃ g : Dev → Dev, ∀ s, exec (.bindoffStart) s = s.run g :=
  ⟨_, fun s => by show execBindoffStart s = _; unfold execBindoffStart; rfl⟩

theorem exec_bindoffComplete_run : ∃ g : Dev → Dev, ∀ s, exec (.bindoffComplete) s = s.run g :=
  ⟨_, fun s => by show execBindoffComplete s = _; unfold execBindoffComplete; rfl⟩

theorem exec_glbIntWrite_run (en : Bool) (v : Word) : ∃ g : Dev → Dev, ∀ s, exec (.glbIntWrite en v) s = s.run g :=
  ⟨_, fun s => by show execGlbIntWrite en v s = _; unfold execGlbIntWrite; rfl⟩

theorem exec_gaugeSample_run (a : Fin 4) (smp : EncSample) : ∃ g : Dev → Dev, ∀ s, exec (.gaugeSample a smp) s = s.run g :=
  ⟨_, fun s => by show execGaugeSample a smp s = _; unfold execGaugeSample; rfl⟩

theorem exec_ampLowDetect_run (a : Fin 4) : ∃ g : Dev → Dev, ∀ s, exec (.ampLowDetect a) s = s.run g :=
  ⟨_, fun s => by show execAmpLowDetect a s = _; unfold execAmpLowDetect; rfl⟩

theorem exec_corrEstimate_run (a : Fin 4) : ∃ g : Dev → Dev, ∀ s, exec (.corrEstimate a) s = s.run g :=
  ⟨_, fun s => by show execCorrEstimate a s = _; unfold execCorrEstimate; rfl⟩

theorem exec_corrLoad_run (a : Fin 4) : ∃ g : Dev → Dev, ∀ s, exec (.corrLoad a) s = s.run g :=
  ⟨_, fun s => by show execCorrLoad a s = _; unfold execCorrLoad; rfl⟩

theorem exec_scaleApply_run (a : Fin 4) : ∃ g : Dev → Dev, ∀ s, exec (.scaleApply a) s = s.run g :=
  ⟨_, fun s => by show execScaleApply a s = _; unfold execScaleApply; rfl⟩

theorem exec_gaugeAxisZero_run (a : Fin 4) : ∃ g : Dev → Dev, ∀ s, exec (.gaugeAxisZero a) s = s.run g :=
  ⟨_, fun s => by show execGaugeAxisZero a s = _; unfold execGaugeAxisZero; rfl⟩

theorem exec_gaugeZero_run (a : Fin 4) : ∃ g : Dev → Dev, ∀ s, exec (.gaugeZero a) s = s.run g :=
  ⟨_, fun s => by show execGaugeZero a s = _; unfold execGaugeZero; rfl⟩

theorem exec_snapTake_run : ∃ g : Dev → Dev, ∀ s, exec (.snapTake) s = s.run g :=
  ⟨_, fun s => by show execSnapTake s = _; unfold execSnapTake; rfl⟩

theorem exec_gaugeSnap_run : ∃ g : Dev → Dev, ∀ s, exec (.gaugeSnap) s = s.run g :=
  ⟨_, fun s => by show execGaugeSnap s = _; unfold execGaugeSnap; rfl⟩

theorem exec_gaugeWpLowRead_run (a : Fin 4) : ∃ g : Dev → Dev, ∀ s, exec (.gaugeWpLowRead a) s = s.run g :=
  ⟨_, fun s => by show execGaugeWpLowRead a s = _; unfold execGaugeWpLowRead; rfl⟩

theorem exec_refCfgWrite_run (a : Fin 4) (v : Word) : ∃ g : Dev → Dev, ∀ s, exec (.refCfgWrite a v) s = s.run g :=
  ⟨_, fun s => by show execRefCfgWrite a v s = _; unfold execRefCfgWrite; rfl⟩

theorem exec_positionRecord_run (a : Fin 4) : ∃ g : Dev → Dev, ∀ s, exec (.positionRecord a) s = s.run g :=
  ⟨_, fun s => by show execPositionRecord a s = _; unfold execPositionRecord; rfl⟩

theorem exec_axisEnable_run (a : Fin 4) (v : Word) : ∃ g : Dev → Dev, ∀ s, exec (.axisEnable a v) s = s.run g :=
  ⟨_, fun s => by show execAxisEnable a v s = _; unfold execAxisEnable; rfl⟩

theorem exec_axisDisable_run (a : Fin 4) (v : Word) : ∃ g : Dev → Dev, ∀ s, exec (.axisDisable a v) s = s.run g :=
  ⟨_, fun s => by show execAxisDisable a v s = _; unfold execAxisDisable; rfl⟩

theorem exec_settleEnd_run (a : Fin 4) (smp : EncSample) : ∃ g : Dev → Dev, ∀ s, exec (.settleEnd a smp) s = s.run g :=
  ⟨_, fun s => by show execSettleEnd a smp s = _; unfold execSettleEnd; rfl⟩

theorem exec_watchCountEdge_run (a : Fin 4) (forward illegal : Bool) : ∃ g : Dev → Dev, ∀ s, exec (.watchCountEdge a forward illegal) s = s.run g :=
  ⟨_, fun s => by show execWatchCountEdge a forward illegal s = _; unfold execWatchCountEdge; rfl⟩

theorem exec_convCheckStep_run (devLow devHigh : Int) : ∃ g : Dev → Dev, ∀ s, exec (.convCheckStep devLow devHigh) s = s.run g :=
  ⟨_, fun s => by show execConvCheckStep devLow devHigh s = _; unfold execConvCheckStep; rfl⟩

theorem exec_convCheckCfgWrite_run (v : Word) : ∃ g : Dev → Dev, ∀ s, exec (.convCheckCfgWrite v) s = s.run g :=
  ⟨_, fun s => by show execConvCheckCfgWrite v s = _; unfold execConvCheckCfgWrite; rfl⟩

theorem exec_cmpCycle_run (u : Fin 16) : ∃ g : Dev → Dev, ∀ s, exec (.cmpCycle u) s = s.run g :=
  ⟨_, fun s => by show execCmpCycle u s = _; unfold execCmpCycle; rfl⟩

theorem exec_trigCmpCtlArm_run (u : Fin 16) (set : Fin 2) : ∃ g : Dev → Dev, ∀ s, exec (.trigCmpCtlArm u set) s = s.run g :=
  ⟨_, fun s => by show execTrigCmpCtlArm u set s = _; unfold execTrigCmpCtlArm; rfl⟩

theorem exec_trigCmpCtlStop_run (u : Fin 16) : ∃ g : Dev → Dev, ∀ s, exec (.trigCmpCtlStop u) s = s.run g :=
  ⟨_, fun s => by show execTrigCmpCtlStop u s = _; unfold execTrigCmpCtlStop; rfl⟩

theorem exec_trigCmpArm_run (u : Fin 16) : ∃ g : Dev → Dev, ∀ s, exec (.trigCmpArm u) s = s.run g :=
  ⟨_, fun s => by show execTrigCmpArm u s = _; unfold execTrigCmpArm; rfl⟩

theorem exec_trigCmpStop_run (u : Fin 16) : ∃ g : Dev → Dev, ∀ s, exec (.trigCmpStop u) s = s.run g :=
  ⟨_, fun s => by show execTrigCmpStop u s = _; unfold execTrigCmpStop; rfl⟩

theorem exec_trigListWrite_run (idx : Fin 4096) (hiWord : Bool) (v : Word) : ∃ g : Dev → Dev, ∀ s, exec (.trigListWrite idx hiWord v) s = s.run g :=
  ⟨_, fun s => by show execTrigListWrite idx hiWord v s = _; unfold execTrigListWrite; rfl⟩

theorem exec_trigOut_run (p : Fin 32) : ∃ g : Dev → Dev, ∀ s, exec (.trigOut p) s = s.run g :=
  ⟨_, fun s => by show execTrigOut p s = _; unfold execTrigOut; rfl⟩

theorem exec_trigOutPulseEnd_run (p : Fin 32) : ∃ g : Dev → Dev, ∀ s, exec (.trigOutPulseEnd p) s = s.run g :=
  ⟨_, fun s => by show execTrigOutPulseEnd p s = _; unfold execTrigOutPulseEnd; rfl⟩

theorem exec_trigOutModeWrite_run (p : Fin 32) (v : Word) : ∃ g : Dev → Dev, ∀ s, exec (.trigOutModeWrite p v) s = s.run g :=
  ⟨_, fun s => by show execTrigOutModeWrite p v s = _; unfold execTrigOutModeWrite; rfl⟩

theorem exec_bankSupplyChange_run (b : Fin 6) (sup : BankSupply) : ∃ g : Dev → Dev, ∀ s, exec (.bankSupplyChange b sup) s = s.run g :=
  ⟨_, fun s => by show execBankSupplyChange b sup s = _; unfold execBankSupplyChange; rfl⟩

theorem exec_trigInEdge_run (k : Fin 16) (level : Bool) : ∃ g : Dev → Dev, ∀ s, exec (.trigInEdge k level) s = s.run g :=
  ⟨_, fun s => by show execTrigInEdge k level s = _; unfold execTrigInEdge; rfl⟩

theorem exec_trigInAccept_run (k : Fin 16) : ∃ g : Dev → Dev, ∀ s, exec (.trigInAccept k) s = s.run g :=
  ⟨_, fun s => by show execTrigInAccept k s = _; unfold execTrigInAccept; rfl⟩

theorem exec_trigPkt_run (n : Fin 48) : ∃ g : Dev → Dev, ∀ s, exec (.trigPkt n) s = s.run g :=
  ⟨_, fun s => by show execTrigPkt n s = _; unfold execTrigPkt; rfl⟩

theorem exec_trigPktStart_run (n : Fin 48) (ref : Int) : ∃ g : Dev → Dev, ∀ s, exec (.trigPktStart n ref) s = s.run g :=
  ⟨_, fun s => by show execTrigPktStart n ref s = _; unfold execTrigPktStart; rfl⟩

theorem exec_trigPktFall_run (n : Fin 48) (ref : Int) : ∃ g : Dev → Dev, ∀ s, exec (.trigPktFall n ref) s = s.run g :=
  ⟨_, fun s => by show execTrigPktFall n ref s = _; unfold execTrigPktFall; rfl⟩

theorem exec_chainFire_run (master : Nat) (ch : Fin 64) : ∃ g : Dev → Dev, ∀ s, exec (.chainFire master ch) s = s.run g :=
  ⟨_, fun s => by show execChainFire master ch s = _; unfold execChainFire; rfl⟩

theorem exec_chainFireMulti_run (master : Nat) (hi : Word) : ∃ g : Dev → Dev, ∀ s, exec (.chainFireMulti master hi) s = s.run g :=
  ⟨_, fun s => by show execChainFireMulti master hi s = _; unfold execChainFireMulti; rfl⟩

theorem exec_chainHeldPublish_run (ch : Fin 64) : ∃ g : Dev → Dev, ∀ s, exec (.chainHeldPublish ch) s = s.run g :=
  ⟨_, fun s => by show execChainHeldPublish ch s = _; unfold execChainHeldPublish; rfl⟩

theorem exec_chainIrqWrite_run (en hiWord : Bool) (v : Word) : ∃ g : Dev → Dev, ∀ s, exec (.chainIrqWrite en hiWord v) s = s.run g :=
  ⟨_, fun s => by show execChainIrqWrite en hiWord v s = _; unfold execChainIrqWrite; rfl⟩

theorem exec_chainConfigWrite_run (master off : Nat) (v : Word) : ∃ g : Dev → Dev, ∀ s, exec (.chainConfigWrite master off v) s = s.run g :=
  ⟨_, fun s => by show execChainConfigWrite master off v s = _; unfold execChainConfigWrite; rfl⟩

theorem exec_chainCtrInc_run (k : Fin 16) : ∃ g : Dev → Dev, ∀ s, exec (.chainCtrInc k) s = s.run g :=
  ⟨_, fun s => by show execChainCtrInc k s = _; unfold execChainCtrInc; rfl⟩

theorem exec_chainCtrClr_run (k : Fin 16) : ∃ g : Dev → Dev, ∀ s, exec (.chainCtrClr k) s = s.run g :=
  ⟨_, fun s => by show execChainCtrClr k s = _; unfold execChainCtrClr; rfl⟩

theorem exec_chainCtrValWrite_run (k : Fin 16) (v : Word) : ∃ g : Dev → Dev, ∀ s, exec (.chainCtrValWrite k v) s = s.run g :=
  ⟨_, fun s => by show execChainCtrValWrite k v s = _; unfold execChainCtrValWrite; rfl⟩

theorem exec_chainCtrWindowEnd_run (k : Fin 16) : ∃ g : Dev → Dev, ∀ s, exec (.chainCtrWindowEnd k) s = s.run g :=
  ⟨_, fun s => by show execChainCtrWindowEnd k s = _; unfold execChainCtrWindowEnd; rfl⟩

theorem exec_cllEnable_run (n : Fin 48) (v : Word) : ∃ g : Dev → Dev, ∀ s, exec (.cllEnable n v) s = s.run g :=
  ⟨_, fun s => by show execCllEnable n v s = _; unfold execCllEnable; rfl⟩

theorem exec_cllDisable_run (n : Fin 48) (v : Word) : ∃ g : Dev → Dev, ∀ s, exec (.cllDisable n v) s = s.run g :=
  ⟨_, fun s => by show execCllDisable n v s = _; unfold execCllDisable; rfl⟩

theorem exec_discoveryTick_run : ∃ g : Dev → Dev, ∀ s, exec (.discoveryTick) s = s.run g :=
  ⟨_, fun s => by show execDiscoveryTick s = _; unfold execDiscoveryTick; rfl⟩

theorem exec_rateDetectDone_run (n : Fin 48) (rate : Option (Fin 7)) : ∃ g : Dev → Dev, ∀ s, exec (.rateDetectDone n rate) s = s.run g :=
  ⟨_, fun s => by show execRateDetectDone n rate s = _; unfold execRateDetectDone; rfl⟩

theorem exec_alignAcquire_run (n : Fin 48) : ∃ g : Dev → Dev, ∀ s, exec (.alignAcquire n) s = s.run g :=
  ⟨_, fun s => by show execAlignAcquire n s = _; unfold execAlignAcquire; rfl⟩

theorem exec_commaRealign_run (n : Fin 48) : ∃ g : Dev → Dev, ∀ s, exec (.commaRealign n) s = s.run g :=
  ⟨_, fun s => by show execCommaRealign n s = _; unfold execCommaRealign; rfl⟩

theorem exec_losAssert_run (n : Fin 48) : ∃ g : Dev → Dev, ∀ s, exec (.losAssert n) s = s.run g :=
  ⟨_, fun s => by show execLosAssert n s = _; unfold execLosAssert; rfl⟩

theorem exec_losDeassert_run (n : Fin 48) : ∃ g : Dev → Dev, ∀ s, exec (.losDeassert n) s = s.run g :=
  ⟨_, fun s => by show execLosDeassert n s = _; unfold execLosDeassert; rfl⟩

theorem exec_lossOfLock_run (n : Fin 48) : ∃ g : Dev → Dev, ∀ s, exec (.lossOfLock n) s = s.run g :=
  ⟨_, fun s => by show execLossOfLock n s = _; unfold execLossOfLock; rfl⟩

theorem exec_lossTimeout_run (n : Fin 48) : ∃ g : Dev → Dev, ∀ s, exec (.lossTimeout n) s = s.run g :=
  ⟨_, fun s => by show execLossTimeout n s = _; unfold execLossTimeout; rfl⟩

theorem exec_rxCodeError_run (n : Fin 48) (disparity : Bool) : ∃ g : Dev → Dev, ∀ s, exec (.rxCodeError n disparity) s = s.run g :=
  ⟨_, fun s => by show execRxCodeError n disparity s = _; unfold execRxCodeError; rfl⟩

theorem exec_ctrlCommandStart_run (n : Fin 48) : ∃ g : Dev → Dev, ∀ s, exec (.ctrlCommandStart n) s = s.run g :=
  ⟨_, fun s => by show execCtrlCommandStart n s = _; unfold execCtrlCommandStart; rfl⟩

theorem exec_ctrlAckReceive_run (n : Fin 48) (ack : ControlAck) : ∃ g : Dev → Dev, ∀ s, exec (.ctrlAckReceive n ack) s = s.run g :=
  ⟨_, fun s => by show execCtrlAckReceive n ack s = _; unfold execCtrlAckReceive; rfl⟩

theorem exec_ctrlTimeout_run (n : Fin 48) : ∃ g : Dev → Dev, ∀ s, exec (.ctrlTimeout n) s = s.run g :=
  ⟨_, fun s => by show execCtrlTimeout n s = _; unfold execCtrlTimeout; rfl⟩

theorem exec_groupJoinWaitEnd_run (n : Fin 48) : ∃ g : Dev → Dev, ∀ s, exec (.groupJoinWaitEnd n) s = s.run g :=
  ⟨_, fun s => by show execGroupJoinWaitEnd n s = _; unfold execGroupJoinWaitEnd; rfl⟩

theorem exec_discoverTimeout_run (n : Fin 48) : ∃ g : Dev → Dev, ∀ s, exec (.discoverTimeout n) s = s.run g :=
  ⟨_, fun s => by show execDiscoverTimeout n s = _; unfold execDiscoverTimeout; rfl⟩

theorem exec_trainTimeout_run (n : Fin 48) : ∃ g : Dev → Dev, ∀ s, exec (.trainTimeout n) s = s.run g :=
  ⟨_, fun s => by show execTrainTimeout n s = _; unfold execTrainTimeout; rfl⟩

theorem exec_standby_run (n : Fin 48) : ∃ g : Dev → Dev, ∀ s, exec (.standby n) s = s.run g :=
  ⟨_, fun s => by show execStandby n s = _; unfold execStandby; rfl⟩

theorem exec_park_run (n : Fin 48) : ∃ g : Dev → Dev, ∀ s, exec (.park n) s = s.run g :=
  ⟨_, fun s => by show execPark n s = _; unfold execPark; rfl⟩

theorem exec_wake_run (n : Fin 48) : ∃ g : Dev → Dev, ∀ s, exec (.wake n) s = s.run g :=
  ⟨_, fun s => by show execWake n s = _; unfold execWake; rfl⟩

theorem exec_retrain_run (n : Fin 48) : ∃ g : Dev → Dev, ∀ s, exec (.retrain n) s = s.run g :=
  ⟨_, fun s => by show execRetrain n s = _; unfold execRetrain; rfl⟩

theorem exec_pwrReset_run (n : Fin 48) : ∃ g : Dev → Dev, ∀ s, exec (.pwrReset n) s = s.run g :=
  ⟨_, fun s => by show execPwrReset n s = _; unfold execPwrReset; rfl⟩

theorem exec_mailboxGo_run (n : Fin 48) (v : Word) : ∃ g : Dev → Dev, ∀ s, exec (.mailboxGo n v) s = s.run g :=
  ⟨_, fun s => by show execMailboxGo n v s = _; unfold execMailboxGo; rfl⟩

theorem exec_heartbeatReceive_run (n : Fin 48) (crcOk : Bool) (time : DWord) : ∃ g : Dev → Dev, ∀ s, exec (.heartbeatReceive n crcOk time) s = s.run g :=
  ⟨_, fun s => by show execHeartbeatReceive n crcOk time s = _; unfold execHeartbeatReceive; rfl⟩

theorem exec_hbLost_run (n : Fin 48) : ∃ g : Dev → Dev, ∀ s, exec (.hbLost n) s = s.run g :=
  ⟨_, fun s => by show execHbLost n s = _; unfold execHbLost; rfl⟩

theorem exec_eventPacketReceive_run (n : Fin 48) (crcOk : Bool) (data : List Byte) : ∃ g : Dev → Dev, ∀ s, exec (.eventPacketReceive n crcOk data) s = s.run g :=
  ⟨_, fun s => by show execEventPacketReceive n crcOk data s = _; unfold execEventPacketReceive; rfl⟩

theorem exec_pocxpFaultPin_run (n : Fin 48) : ∃ g : Dev → Dev, ∀ s, exec (.pocxpFaultPin n) s = s.run g :=
  ⟨_, fun s => by show execPocxpFaultPin n s = _; unfold execPocxpFaultPin; rfl⟩

theorem exec_pocxpRetry_run (n : Fin 48) : ∃ g : Dev → Dev, ∀ s, exec (.pocxpRetry n) s = s.run g :=
  ⟨_, fun s => by show execPocxpRetry n s = _; unfold execPocxpRetry; rfl⟩

theorem exec_pocxpRetryReset_run (n : Fin 48) : ∃ g : Dev → Dev, ∀ s, exec (.pocxpRetryReset n) s = s.run g :=
  ⟨_, fun s => by show execPocxpRetryReset n s = _; unfold execPocxpRetryReset; rfl⟩

theorem exec_pocxpEnWrite_run (n : Fin 48) (v : Word) : ∃ g : Dev → Dev, ∀ s, exec (.pocxpEnWrite n v) s = s.run g :=
  ⟨_, fun s => by show execPocxpEnWrite n v s = _; unfold execPocxpEnWrite; rfl⟩

theorem exec_panelFrame_run (buttons : BitVec 48) : ∃ g : Dev → Dev, ∀ s, exec (.panelFrame buttons) s = s.run g :=
  ⟨_, fun s => by show execPanelFrame buttons s = _; unfold execPanelFrame; rfl⟩

theorem exec_plyPacketCommit_run (q : Fin 48) (k : StreamPacket) (crcOk cut : Bool) (span : Nat) : ∃ g : Dev → Dev, ∀ s, exec (.plyPacketCommit q k crcOk cut span) s = s.run g :=
  ⟨_, fun s => by show execPlyPacketCommit q k crcOk cut span s = _; unfold execPlyPacketCommit; rfl⟩

theorem exec_ptrFault_run (q : Fin 48) (room : Bool) : ∃ g : Dev → Dev, ∀ s, exec (.ptrFault q room) s = s.run g :=
  ⟨_, fun s => by show execPtrFault q room s = _; unfold execPtrFault; rfl⟩

theorem exec_queueResetEnd_run (q : Fin 48) : ∃ g : Dev → Dev, ∀ s, exec (.queueResetEnd q) s = s.run g :=
  ⟨_, fun s => by show execQueueResetEnd q s = _; unfold execQueueResetEnd; rfl⟩

theorem exec_qreset_run (q : Fin 48) (room : Bool) : ∃ g : Dev → Dev, ∀ s, exec (.qreset q room) s = s.run g :=
  ⟨_, fun s => by show execQreset q room s = _; unfold execQreset; rfl⟩

theorem exec_close_run (cam : Fin 48) : ∃ g : Dev → Dev, ∀ s, exec (.close cam) s = s.run g :=
  ⟨_, fun s => by show execClose cam s = _; unfold execClose; rfl⟩

theorem exec_flush_run (cam : Fin 48) : ∃ g : Dev → Dev, ∀ s, exec (.flush cam) s = s.run g :=
  ⟨_, fun s => by show execFlush cam s = _; unfold execFlush; rfl⟩

theorem exec_asmClose_run (cam : Fin 48) : ∃ g : Dev → Dev, ∀ s, exec (.asmClose cam) s = s.run g :=
  ⟨_, fun s => by show execAsmClose cam s = _; unfold execAsmClose; rfl⟩

theorem exec_asmCamEnable_run (cam : Fin 48) (v : Word) : ∃ g : Dev → Dev, ∀ s, exec (.asmCamEnable cam v) s = s.run g :=
  ⟨_, fun s => by show execAsmCamEnable cam v s = _; unfold execAsmCamEnable; rfl⟩

theorem exec_asmCamDisable_run (cam : Fin 48) (v : Word) (room : Bool) : ∃ g : Dev → Dev, ∀ s, exec (.asmCamDisable cam v room) s = s.run g :=
  ⟨_, fun s => by show execAsmCamDisable cam v room s = _; unfold execAsmCamDisable; rfl⟩

theorem exec_asmPacketVisible_run (q : Fin 48) (room : Bool) : ∃ g : Dev → Dev, ∀ s, exec (.asmPacketVisible q room) s = s.run g :=
  ⟨_, fun s => by show execAsmPacketVisible q room s = _; unfold execAsmPacketVisible; rfl⟩

theorem exec_mergeSkewExpire_run (cam : Fin 48) (room : Bool) : ∃ g : Dev → Dev, ∀ s, exec (.mergeSkewExpire cam room) s = s.run g :=
  ⟨_, fun s => by show execMergeSkewExpire cam room s = _; unfold execMergeSkewExpire; rfl⟩

theorem exec_carLineIn_run (k : Fin 4) (drained : Nat) : ∃ g : Dev → Dev, ∀ s, exec (.carLineIn k drained) s = s.run g :=
  ⟨_, fun s => by show execCarLineIn k drained s = _; unfold execCarLineIn; rfl⟩

theorem exec_carMemFrameStart_run (k : Fin 4) : ∃ g : Dev → Dev, ∀ s, exec (.carMemFrameStart k) s = s.run g :=
  ⟨_, fun s => by show execCarMemFrameStart k s = _; unfold execCarMemFrameStart; rfl⟩

theorem exec_carFrameEnd_run (k : Fin 4) : ∃ g : Dev → Dev, ∀ s, exec (.carFrameEnd k) s = s.run g :=
  ⟨_, fun s => by show execCarFrameEnd k s = _; unfold execCarFrameEnd; rfl⟩

theorem exec_carStatsDone_run (k : Fin 4) : ∃ g : Dev → Dev, ∀ s, exec (.carStatsDone k) s = s.run g :=
  ⟨_, fun s => by show execCarStatsDone k s = _; unfold execCarStatsDone; rfl⟩

theorem exec_cpbPreloadDone_run (k : Fin 4) : ∃ g : Dev → Dev, ∀ s, exec (.cpbPreloadDone k) s = s.run g :=
  ⟨_, fun s => by show execCpbPreloadDone k s = _; unfold execCpbPreloadDone; rfl⟩

theorem exec_carReset_run (k : Fin 4) (v : Word) : ∃ g : Dev → Dev, ∀ s, exec (.carReset k v) s = s.run g :=
  ⟨_, fun s => by show execCarReset k v s = _; unfold execCarReset; rfl⟩

theorem exec_carSetGo_run (cam : Fin 48) (v : Word) : ∃ g : Dev → Dev, ∀ s, exec (.carSetGo cam v) s = s.run g :=
  ⟨_, fun s => by show execCarSetGo cam v s = _; unfold execCarSetGo; rfl⟩

theorem exec_setIssueStart_run (cam : Fin 48) (late : Bool) : ∃ g : Dev → Dev, ∀ s, exec (.setIssueStart cam late) s = s.run g :=
  ⟨_, fun s => by show execSetIssueStart cam late s = _; unfold execSetIssueStart; rfl⟩

theorem exec_tileWriteLine_run (cam : Fin 48) : ∃ g : Dev → Dev, ∀ s, exec (.tileWriteLine cam) s = s.run g :=
  ⟨_, fun s => by show execTileWriteLine cam s = _; unfold execTileWriteLine; rfl⟩

theorem exec_dispatchQueuePush_run (c : Fin 16) : ∃ g : Dev → Dev, ∀ s, exec (.dispatchQueuePush c) s = s.run g :=
  ⟨_, fun s => by show execDispatchQueuePush c s = _; unfold execDispatchQueuePush; rfl⟩

theorem exec_selvedgeRewind_run (cam : Fin 48) : ∃ g : Dev → Dev, ∀ s, exec (.selvedgeRewind cam) s = s.run g :=
  ⟨_, fun s => by show execSelvedgeRewind cam s = _; unfold execSelvedgeRewind; rfl⟩

theorem exec_deferredBandLoad_run : ∃ g : Dev → Dev, ∀ s, exec (.deferredBandLoad) s = s.run g :=
  ⟨_, fun s => by show execDeferredBandLoad s = _; unfold execDeferredBandLoad; rfl⟩

theorem exec_engineTake_run (e : Fin 256) : ∃ g : Dev → Dev, ∀ s, exec (.engineTake e) s = s.run g :=
  ⟨_, fun s => by show execEngineTake e s = _; unfold execEngineTake; rfl⟩

theorem exec_stealSearch_run (c : Fin 16) : ∃ g : Dev → Dev, ∀ s, exec (.stealSearch c) s = s.run g :=
  ⟨_, fun s => by show execStealSearch c s = _; unfold execStealSearch; rfl⟩

theorem exec_stealProbeAnswer_run (c : Fin 16) : ∃ g : Dev → Dev, ∀ s, exec (.stealProbeAnswer c) s = s.run g :=
  ⟨_, fun s => by show execStealProbeAnswer c s = _; unfold execStealProbeAnswer; rfl⟩

theorem exec_stealRetry_run (e : Fin 256) : ∃ g : Dev → Dev, ∀ s, exec (.stealRetry e) s = s.run g :=
  ⟨_, fun s => by show execStealRetry e s = _; unfold execStealRetry; rfl⟩

theorem exec_watchdogExpire_run (e : Fin 256) : ∃ g : Dev → Dev, ∀ s, exec (.watchdogExpire e) s = s.run g :=
  ⟨_, fun s => by show execWatchdogExpire e s = _; unfold execWatchdogExpire; rfl⟩

theorem exec_steFence_run (c j : Fin 16) : ∃ g : Dev → Dev, ∀ s, exec (.steFence c j) s = s.run g :=
  ⟨_, fun s => by show execSteFence c j s = _; unfold execSteFence; rfl⟩

theorem exec_steReset_run (c : Fin 16) (v : Word) : ∃ g : Dev → Dev, ∀ s, exec (.steReset c v) s = s.run g :=
  ⟨_, fun s => by show execSteReset c v s = _; unfold execSteReset; rfl⟩

theorem exec_engineResetDone_run (e : Fin 256) : ∃ g : Dev → Dev, ∀ s, exec (.engineResetDone e) s = s.run g :=
  ⟨_, fun s => by show execEngineResetDone e s = _; unfold execEngineResetDone; rfl⟩

theorem exec_engineResetTimeout_run (e : Fin 256) : ∃ g : Dev → Dev, ∀ s, exec (.engineResetTimeout e) s = s.run g :=
  ⟨_, fun s => by show execEngineResetTimeout e s = _; unfold execEngineResetTimeout; rfl⟩

theorem exec_engineDisable_run (c : Fin 16) (v : Word) : ∃ g : Dev → Dev, ∀ s, exec (.engineDisable c v) s = s.run g :=
  ⟨_, fun s => by show execEngineDisable c v s = _; unfold execEngineDisable; rfl⟩

theorem exec_resultArrive_run (e : Fin 256) : ∃ g : Dev → Dev, ∀ s, exec (.resultArrive e) s = s.run g :=
  ⟨_, fun s => by show execResultArrive e s = _; unfold execResultArrive; rfl⟩

theorem exec_nop_run (e : Fin 256) : ∃ g : Dev → Dev, ∀ s, exec (.nop e) s = s.run g :=
  ⟨_, fun s => by show execNop e s = _; unfold execNop; rfl⟩

theorem exec_add_run (e : Fin 256) (rd ra rb : BitVec 4) : ∃ g : Dev → Dev, ∀ s, exec (.add e rd ra rb) s = s.run g :=
  ⟨_, fun s => by show execAdd e rd ra rb s = _; unfold execAdd; rfl⟩

theorem exec_sub_run (e : Fin 256) (rd ra rb : BitVec 4) : ∃ g : Dev → Dev, ∀ s, exec (.sub e rd ra rb) s = s.run g :=
  ⟨_, fun s => by show execSub e rd ra rb s = _; unfold execSub; rfl⟩

theorem exec_and_run (e : Fin 256) (rd ra rb : BitVec 4) : ∃ g : Dev → Dev, ∀ s, exec (.and e rd ra rb) s = s.run g :=
  ⟨_, fun s => by show execAnd e rd ra rb s = _; unfold execAnd; rfl⟩

theorem exec_or_run (e : Fin 256) (rd ra rb : BitVec 4) : ∃ g : Dev → Dev, ∀ s, exec (.or e rd ra rb) s = s.run g :=
  ⟨_, fun s => by show execOr e rd ra rb s = _; unfold execOr; rfl⟩

theorem exec_xor_run (e : Fin 256) (rd ra rb : BitVec 4) : ∃ g : Dev → Dev, ∀ s, exec (.xor e rd ra rb) s = s.run g :=
  ⟨_, fun s => by show execXor e rd ra rb s = _; unfold execXor; rfl⟩

theorem exec_shl_run (e : Fin 256) (rd ra rb : BitVec 4) : ∃ g : Dev → Dev, ∀ s, exec (.shl e rd ra rb) s = s.run g :=
  ⟨_, fun s => by show execShl e rd ra rb s = _; unfold execShl; rfl⟩

theorem exec_shr_run (e : Fin 256) (rd ra rb : BitVec 4) : ∃ g : Dev → Dev, ∀ s, exec (.shr e rd ra rb) s = s.run g :=
  ⟨_, fun s => by show execShr e rd ra rb s = _; unfold execShr; rfl⟩

theorem exec_sar_run (e : Fin 256) (rd ra rb : BitVec 4) : ∃ g : Dev → Dev, ∀ s, exec (.sar e rd ra rb) s = s.run g :=
  ⟨_, fun s => by show execSar e rd ra rb s = _; unfold execSar; rfl⟩

theorem exec_mul_run (e : Fin 256) (rd ra rb : BitVec 4) : ∃ g : Dev → Dev, ∀ s, exec (.mul e rd ra rb) s = s.run g :=
  ⟨_, fun s => by show execMul e rd ra rb s = _; unfold execMul; rfl⟩

theorem exec_mulh_run (e : Fin 256) (rd ra rb : BitVec 4) : ∃ g : Dev → Dev, ∀ s, exec (.mulh e rd ra rb) s = s.run g :=
  ⟨_, fun s => by show execMulh e rd ra rb s = _; unfold execMulh; rfl⟩

theorem exec_slt_run (e : Fin 256) (rd ra rb : BitVec 4) : ∃ g : Dev → Dev, ∀ s, exec (.slt e rd ra rb) s = s.run g :=
  ⟨_, fun s => by show execSlt e rd ra rb s = _; unfold execSlt; rfl⟩

theorem exec_sltu_run (e : Fin 256) (rd ra rb : BitVec 4) : ∃ g : Dev → Dev, ∀ s, exec (.sltu e rd ra rb) s = s.run g :=
  ⟨_, fun s => by show execSltu e rd ra rb s = _; unfold execSltu; rfl⟩

theorem exec_min_run (e : Fin 256) (rd ra rb : BitVec 4) : ∃ g : Dev → Dev, ∀ s, exec (.min e rd ra rb) s = s.run g :=
  ⟨_, fun s => by show execMin e rd ra rb s = _; unfold execMin; rfl⟩

theorem exec_max_run (e : Fin 256) (rd ra rb : BitVec 4) : ∃ g : Dev → Dev, ∀ s, exec (.max e rd ra rb) s = s.run g :=
  ⟨_, fun s => by show execMax e rd ra rb s = _; unfold execMax; rfl⟩

theorem exec_add64_run (e : Fin 256) (rd ra rb : BitVec 4) : ∃ g : Dev → Dev, ∀ s, exec (.add64 e rd ra rb) s = s.run g :=
  ⟨_, fun s => by show execAdd64 e rd ra rb s = _; unfold execAdd64; rfl⟩

theorem exec_sub64_run (e : Fin 256) (rd ra rb : BitVec 4) : ∃ g : Dev → Dev, ∀ s, exec (.sub64 e rd ra rb) s = s.run g :=
  ⟨_, fun s => by show execSub64 e rd ra rb s = _; unfold execSub64; rfl⟩

theorem exec_addi_run (e : Fin 256) (rd ra : BitVec 4) (imm : BitVec 18) : ∃ g : Dev → Dev, ∀ s, exec (.addi e rd ra imm) s = s.run g :=
  ⟨_, fun s => by show execAddi e rd ra imm s = _; unfold execAddi; rfl⟩

theorem exec_andi_run (e : Fin 256) (rd ra : BitVec 4) (imm : BitVec 18) : ∃ g : Dev → Dev, ∀ s, exec (.andi e rd ra imm) s = s.run g :=
  ⟨_, fun s => by show execAndi e rd ra imm s = _; unfold execAndi; rfl⟩

theorem exec_ori_run (e : Fin 256) (rd ra : BitVec 4) (imm : BitVec 18) : ∃ g : Dev → Dev, ∀ s, exec (.ori e rd ra imm) s = s.run g :=
  ⟨_, fun s => by show execOri e rd ra imm s = _; unfold execOri; rfl⟩

theorem exec_xori_run (e : Fin 256) (rd ra : BitVec 4) (imm : BitVec 18) : ∃ g : Dev → Dev, ∀ s, exec (.xori e rd ra imm) s = s.run g :=
  ⟨_, fun s => by show execXori e rd ra imm s = _; unfold execXori; rfl⟩

theorem exec_shli_run (e : Fin 256) (rd ra : BitVec 4) (imm : BitVec 5) : ∃ g : Dev → Dev, ∀ s, exec (.shli e rd ra imm) s = s.run g :=
  ⟨_, fun s => by show execShli e rd ra imm s = _; unfold execShli; rfl⟩

theorem exec_shri_run (e : Fin 256) (rd ra : BitVec 4) (imm : BitVec 5) : ∃ g : Dev → Dev, ∀ s, exec (.shri e rd ra imm) s = s.run g :=
  ⟨_, fun s => by show execShri e rd ra imm s = _; unfold execShri; rfl⟩

theorem exec_sari_run (e : Fin 256) (rd ra : BitVec 4) (imm : BitVec 5) : ∃ g : Dev → Dev, ∀ s, exec (.sari e rd ra imm) s = s.run g :=
  ⟨_, fun s => by show execSari e rd ra imm s = _; unfold execSari; rfl⟩

theorem exec_slti_run (e : Fin 256) (rd ra : BitVec 4) (imm : BitVec 18) : ∃ g : Dev → Dev, ∀ s, exec (.slti e rd ra imm) s = s.run g :=
  ⟨_, fun s => by show execSlti e rd ra imm s = _; unfold execSlti; rfl⟩

theorem exec_lui_run (e : Fin 256) (rd : BitVec 4) (imm : BitVec 22) : ∃ g : Dev → Dev, ∀ s, exec (.lui e rd imm) s = s.run g :=
  ⟨_, fun s => by show execLui e rd imm s = _; unfold execLui; rfl⟩

theorem exec_ldw_run (e : Fin 256) (rd ra : BitVec 4) (imm : BitVec 18) : ∃ g : Dev → Dev, ∀ s, exec (.ldw e rd ra imm) s = s.run g :=
  ⟨_, fun s => by show execLdw e rd ra imm s = _; unfold execLdw; rfl⟩

theorem exec_ldh_run (e : Fin 256) (rd ra : BitVec 4) (imm : BitVec 18) : ∃ g : Dev → Dev, ∀ s, exec (.ldh e rd ra imm) s = s.run g :=
  ⟨_, fun s => by show execLdh e rd ra imm s = _; unfold execLdh; rfl⟩

theorem exec_ldb_run (e : Fin 256) (rd ra : BitVec 4) (imm : BitVec 18) : ∃ g : Dev → Dev, ∀ s, exec (.ldb e rd ra imm) s = s.run g :=
  ⟨_, fun s => by show execLdb e rd ra imm s = _; unfold execLdb; rfl⟩

theorem exec_stw_run (e : Fin 256) (rd ra : BitVec 4) (imm : BitVec 18) : ∃ g : Dev → Dev, ∀ s, exec (.stw e rd ra imm) s = s.run g :=
  ⟨_, fun s => by show execStw e rd ra imm s = _; unfold execStw; rfl⟩

theorem exec_sth_run (e : Fin 256) (rd ra : BitVec 4) (imm : BitVec 18) : ∃ g : Dev → Dev, ∀ s, exec (.sth e rd ra imm) s = s.run g :=
  ⟨_, fun s => by show execSth e rd ra imm s = _; unfold execSth; rfl⟩

theorem exec_stb_run (e : Fin 256) (rd ra : BitVec 4) (imm : BitVec 18) : ∃ g : Dev → Dev, ∀ s, exec (.stb e rd ra imm) s = s.run g :=
  ⟨_, fun s => by show execStb e rd ra imm s = _; unfold execStb; rfl⟩

theorem exec_beq_run (e : Fin 256) (ra rb : BitVec 4) (off : BitVec 18) : ∃ g : Dev → Dev, ∀ s, exec (.beq e ra rb off) s = s.run g :=
  ⟨_, fun s => by show execBeq e ra rb off s = _; unfold execBeq; rfl⟩

theorem exec_bne_run (e : Fin 256) (ra rb : BitVec 4) (off : BitVec 18) : ∃ g : Dev → Dev, ∀ s, exec (.bne e ra rb off) s = s.run g :=
  ⟨_, fun s => by show execBne e ra rb off s = _; unfold execBne; rfl⟩

theorem exec_blt_run (e : Fin 256) (ra rb : BitVec 4) (off : BitVec 18) : ∃ g : Dev → Dev, ∀ s, exec (.blt e ra rb off) s = s.run g :=
  ⟨_, fun s => by show execBlt e ra rb off s = _; unfold execBlt; rfl⟩

theorem exec_bge_run (e : Fin 256) (ra rb : BitVec 4) (off : BitVec 18) : ∃ g : Dev → Dev, ∀ s, exec (.bge e ra rb off) s = s.run g :=
  ⟨_, fun s => by show execBge e ra rb off s = _; unfold execBge; rfl⟩

theorem exec_bltu_run (e : Fin 256) (ra rb : BitVec 4) (off : BitVec 18) : ∃ g : Dev → Dev, ∀ s, exec (.bltu e ra rb off) s = s.run g :=
  ⟨_, fun s => by show execBltu e ra rb off s = _; unfold execBltu; rfl⟩

theorem exec_bgeu_run (e : Fin 256) (ra rb : BitVec 4) (off : BitVec 18) : ∃ g : Dev → Dev, ∀ s, exec (.bgeu e ra rb off) s = s.run g :=
  ⟨_, fun s => by show execBgeu e ra rb off s = _; unfold execBgeu; rfl⟩

theorem exec_jal_run (e : Fin 256) (rd : BitVec 4) (imm : BitVec 18) : ∃ g : Dev → Dev, ∀ s, exec (.jal e rd imm) s = s.run g :=
  ⟨_, fun s => by show execJal e rd imm s = _; unfold execJal; rfl⟩

theorem exec_jr_run (e : Fin 256) (ra : BitVec 4) : ∃ g : Dev → Dev, ∀ s, exec (.jr e ra) s = s.run g :=
  ⟨_, fun s => by show execJr e ra s = _; unfold execJr; rfl⟩

theorem exec_bpany_run (e : Fin 256) (pa : BitVec 3) (off : BitVec 18) : ∃ g : Dev → Dev, ∀ s, exec (.bpany e pa off) s = s.run g :=
  ⟨_, fun s => by show execBpany e pa off s = _; unfold execBpany; rfl⟩

theorem exec_bpnone_run (e : Fin 256) (pa : BitVec 3) (off : BitVec 18) : ∃ g : Dev → Dev, ∀ s, exec (.bpnone e pa off) s = s.run g :=
  ⟨_, fun s => by show execBpnone e pa off s = _; unfold execBpnone; rfl⟩

theorem exec_xld_run (e : Fin 256) (rd ra rb : BitVec 4) (tag : BitVec 6) : ∃ g : Dev → Dev, ∀ s, exec (.xld e rd ra rb tag) s = s.run g :=
  ⟨_, fun s => by show execXld e rd ra rb tag s = _; unfold execXld; rfl⟩

theorem exec_xst_run (e : Fin 256) (rd ra rb : BitVec 4) (tag : BitVec 6) : ∃ g : Dev → Dev, ∀ s, exec (.xst e rd ra rb tag) s = s.run g :=
  ⟨_, fun s => by show execXst e rd ra rb tag s = _; unfold execXst; rfl⟩

theorem exec_xwait_run (e : Fin 256) (code : BitVec 6) : ∃ g : Dev → Dev, ∀ s, exec (.xwait e code) s = s.run g :=
  ⟨_, fun s => by show execXwait e code s = _; unfold execXwait; rfl⟩

theorem exec_xferComplete_run (e : Fin 256) (tag : Fin 4) : ∃ g : Dev → Dev, ∀ s, exec (.xferComplete e tag) s = s.run g :=
  ⟨_, fun s => by show execXferComplete e tag s = _; unfold execXferComplete; rfl⟩

theorem exec_emit_run (e : Fin 256) (rd ra : BitVec 4) : ∃ g : Dev → Dev, ∀ s, exec (.emit e rd ra) s = s.run g :=
  ⟨_, fun s => by show execEmit e rd ra s = _; unfold execEmit; rfl⟩

theorem exec_end_run (e : Fin 256) : ∃ g : Dev → Dev, ∀ s, exec (.endItem e) s = s.run g :=
  ⟨_, fun s => by show execEnd e s = _; unfold execEnd; rfl⟩

theorem exec_qmark_run (e : Fin 256) (rd ra rb : BitVec 4) : ∃ g : Dev → Dev, ∀ s, exec (.qmark e rd ra rb) s = s.run g :=
  ⟨_, fun s => by show execQmark e rd ra rb s = _; unfold execQmark; rfl⟩

theorem exec_qrew_run (e : Fin 256) (rd ra : BitVec 4) : ∃ g : Dev → Dev, ∀ s, exec (.qrew e rd ra) s = s.run g :=
  ⟨_, fun s => by show execQrew e rd ra s = _; unfold execQrew; rfl⟩

theorem exec_qcpy_run (e : Fin 256) (rd ra rb : BitVec 4) : ∃ g : Dev → Dev, ∀ s, exec (.qcpy e rd ra rb) s = s.run g :=
  ⟨_, fun s => by show execQcpy e rd ra rb s = _; unfold execQcpy; rfl⟩

theorem exec_qrel_run (e : Fin 256) (rd ra : BitVec 4) : ∃ g : Dev → Dev, ∀ s, exec (.qrel e rd ra) s = s.run g :=
  ⟨_, fun s => by show execQrel e rd ra s = _; unfold execQrel; rfl⟩

theorem exec_pub_run (e : Fin 256) : ∃ g : Dev → Dev, ∀ s, exec (.pub e) s = s.run g :=
  ⟨_, fun s => by show execPub e s = _; unfold execPub; rfl⟩

theorem exec_evwait_run (e : Fin 256) (ra : BitVec 4) : ∃ g : Dev → Dev, ∀ s, exec (.evwait e ra) s = s.run g :=
  ⟨_, fun s => by show execEvwait e ra s = _; unfold execEvwait; rfl⟩

theorem exec_rdsr_run (e : Fin 256) (rd : BitVec 4) (code : BitVec 6) : ∃ g : Dev → Dev, ∀ s, exec (.rdsr e rd code) s = s.run g :=
  ⟨_, fun s => by show execRdsr e rd code s = _; unfold execRdsr; rfl⟩

theorem exec_msync_run (e : Fin 256) : ∃ g : Dev → Dev, ∀ s, exec (.msync e) s = s.run g :=
  ⟨_, fun s => by show execMsync e s = _; unfold execMsync; rfl⟩

theorem exec_vnop_run (e : Fin 256) : ∃ g : Dev → Dev, ∀ s, exec (.vnop e) s = s.run g :=
  ⟨_, fun s => by show execVnop e s = _; unfold execVnop; rfl⟩

theorem exec_vadd_run (e : Fin 256) (vd va vb : BitVec 5) (pm : BitVec 3) (w : Bool) : ∃ g : Dev → Dev, ∀ s, exec (.vadd e vd va vb pm w) s = s.run g :=
  ⟨_, fun s => by show execVadd e vd va vb pm w s = _; unfold execVadd; rfl⟩

theorem exec_vsub_run (e : Fin 256) (vd va vb : BitVec 5) (pm : BitVec 3) (w : Bool) : ∃ g : Dev → Dev, ∀ s, exec (.vsub e vd va vb pm w) s = s.run g :=
  ⟨_, fun s => by show execVsub e vd va vb pm w s = _; unfold execVsub; rfl⟩

theorem exec_vadds_run (e : Fin 256) (vd va vb : BitVec 5) (pm : BitVec 3) (w : Bool) : ∃ g : Dev → Dev, ∀ s, exec (.vadds e vd va vb pm w) s = s.run g :=
  ⟨_, fun s => by show execVadds e vd va vb pm w s = _; unfold execVadds; rfl⟩

theorem exec_vsubs_run (e : Fin 256) (vd va vb : BitVec 5) (pm : BitVec 3) (w : Bool) : ∃ g : Dev → Dev, ∀ s, exec (.vsubs e vd va vb pm w) s = s.run g :=
  ⟨_, fun s => by show execVsubs e vd va vb pm w s = _; unfold execVsubs; rfl⟩

theorem exec_vabsd_run (e : Fin 256) (vd va vb : BitVec 5) (pm : BitVec 3) (w : Bool) : ∃ g : Dev → Dev, ∀ s, exec (.vabsd e vd va vb pm w) s = s.run g :=
  ⟨_, fun s => by show execVabsd e vd va vb pm w s = _; unfold execVabsd; rfl⟩

theorem exec_vmin_run (e : Fin 256) (vd va vb : BitVec 5) (pm : BitVec 3) (w : Bool) : ∃ g : Dev → Dev, ∀ s, exec (.vmin e vd va vb pm w) s = s.run g :=
  ⟨_, fun s => by show execVmin e vd va vb pm w s = _; unfold execVmin; rfl⟩

theorem exec_vmax_run (e : Fin 256) (vd va vb : BitVec 5) (pm : BitVec 3) (w : Bool) : ∃ g : Dev → Dev, ∀ s, exec (.vmax e vd va vb pm w) s = s.run g :=
  ⟨_, fun s => by show execVmax e vd va vb pm w s = _; unfold execVmax; rfl⟩

theorem exec_vand_run (e : Fin 256) (vd va vb : BitVec 5) (pm : BitVec 3) (w : Bool) : ∃ g : Dev → Dev, ∀ s, exec (.vand e vd va vb pm w) s = s.run g :=
  ⟨_, fun s => by show execVand e vd va vb pm w s = _; unfold execVand; rfl⟩

theorem exec_vor_run (e : Fin 256) (vd va vb : BitVec 5) (pm : BitVec 3) (w : Bool) : ∃ g : Dev → Dev, ∀ s, exec (.vor e vd va vb pm w) s = s.run g :=
  ⟨_, fun s => by show execVor e vd va vb pm w s = _; unfold execVor; rfl⟩

theorem exec_vxor_run (e : Fin 256) (vd va vb : BitVec 5) (pm : BitVec 3) (w : Bool) : ∃ g : Dev → Dev, ∀ s, exec (.vxor e vd va vb pm w) s = s.run g :=
  ⟨_, fun s => by show execVxor e vd va vb pm w s = _; unfold execVxor; rfl⟩

theorem exec_vmul_run (e : Fin 256) (vd va vb : BitVec 5) (pm : BitVec 3) (w : Bool) : ∃ g : Dev → Dev, ∀ s, exec (.vmul e vd va vb pm w) s = s.run g :=
  ⟨_, fun s => by show execVmul e vd va vb pm w s = _; unfold execVmul; rfl⟩

theorem exec_vmulh_run (e : Fin 256) (vd va vb : BitVec 5) (pm : BitVec 3) (w : Bool) : ∃ g : Dev → Dev, ∀ s, exec (.vmulh e vd va vb pm w) s = s.run g :=
  ⟨_, fun s => by show execVmulh e vd va vb pm w s = _; unfold execVmulh; rfl⟩

theorem exec_vavg_run (e : Fin 256) (vd va vb : BitVec 5) (pm : BitVec 3) (w : Bool) : ∃ g : Dev → Dev, ∀ s, exec (.vavg e vd va vb pm w) s = s.run g :=
  ⟨_, fun s => by show execVavg e vd va vb pm w s = _; unfold execVavg; rfl⟩

theorem exec_vshl_run (e : Fin 256) (vd va vb : BitVec 5) (pm : BitVec 3) (w : Bool) : ∃ g : Dev → Dev, ∀ s, exec (.vshl e vd va vb pm w) s = s.run g :=
  ⟨_, fun s => by show execVshl e vd va vb pm w s = _; unfold execVshl; rfl⟩

theorem exec_vshr_run (e : Fin 256) (vd va vb : BitVec 5) (pm : BitVec 3) (w : Bool) : ∃ g : Dev → Dev, ∀ s, exec (.vshr e vd va vb pm w) s = s.run g :=
  ⟨_, fun s => by show execVshr e vd va vb pm w s = _; unfold execVshr; rfl⟩

theorem exec_vsar_run (e : Fin 256) (vd va vb : BitVec 5) (pm : BitVec 3) (w : Bool) : ∃ g : Dev → Dev, ∀ s, exec (.vsar e vd va vb pm w) s = s.run g :=
  ⟨_, fun s => by show execVsar e vd va vb pm w s = _; unfold execVsar; rfl⟩

theorem exec_vcmpeq_run (e : Fin 256) (pd : BitVec 3) (va vb : BitVec 5) (pm : BitVec 3) (w : Bool) : ∃ g : Dev → Dev, ∀ s, exec (.vcmpeq e pd va vb pm w) s = s.run g :=
  ⟨_, fun s => by show execVcmpeq e pd va vb pm w s = _; unfold execVcmpeq; rfl⟩

theorem exec_vcmplt_run (e : Fin 256) (pd : BitVec 3) (va vb : BitVec 5) (pm : BitVec 3) (w : Bool) : ∃ g : Dev → Dev, ∀ s, exec (.vcmplt e pd va vb pm w) s = s.run g :=
  ⟨_, fun s => by show execVcmplt e pd va vb pm w s = _; unfold execVcmplt; rfl⟩

theorem exec_vcmpltu_run (e : Fin 256) (pd : BitVec 3) (va vb : BitVec 5) (pm : BitVec 3) (w : Bool) : ∃ g : Dev → Dev, ∀ s, exec (.vcmpltu e pd va vb pm w) s = s.run g :=
  ⟨_, fun s => by show execVcmpltu e pd va vb pm w s = _; unfold execVcmpltu; rfl⟩

theorem exec_vcmpge_run (e : Fin 256) (pd : BitVec 3) (va vb : BitVec 5) (pm : BitVec 3) (w : Bool) : ∃ g : Dev → Dev, ∀ s, exec (.vcmpge e pd va vb pm w) s = s.run g :=
  ⟨_, fun s => by show execVcmpge e pd va vb pm w s = _; unfold execVcmpge; rfl⟩

theorem exec_vcmpgeu_run (e : Fin 256) (pd : BitVec 3) (va vb : BitVec 5) (pm : BitVec 3) (w : Bool) : ∃ g : Dev → Dev, ∀ s, exec (.vcmpgeu e pd va vb pm w) s = s.run g :=
  ⟨_, fun s => by show execVcmpgeu e pd va vb pm w s = _; unfold execVcmpgeu; rfl⟩

theorem exec_pand_run (e : Fin 256) (pd pa pb pm : BitVec 3) (w : Bool) : ∃ g : Dev → Dev, ∀ s, exec (.pand e pd pa pb pm w) s = s.run g :=
  ⟨_, fun s => by show execPand e pd pa pb pm w s = _; unfold execPand; rfl⟩

theorem exec_por_run (e : Fin 256) (pd pa pb pm : BitVec 3) (w : Bool) : ∃ g : Dev → Dev, ∀ s, exec (.por e pd pa pb pm w) s = s.run g :=
  ⟨_, fun s => by show execPor e pd pa pb pm w s = _; unfold execPor; rfl⟩

theorem exec_pxor_run (e : Fin 256) (pd pa pb pm : BitVec 3) (w : Bool) : ∃ g : Dev → Dev, ∀ s, exec (.pxor e pd pa pb pm w) s = s.run g :=
  ⟨_, fun s => by show execPxor e pd pa pb pm w s = _; unfold execPxor; rfl⟩

theorem exec_pandn_run (e : Fin 256) (pd pa pb pm : BitVec 3) (w : Bool) : ∃ g : Dev → Dev, ∀ s, exec (.pandn e pd pa pb pm w) s = s.run g :=
  ⟨_, fun s => by show execPandn e pd pa pb pm w s = _; unfold execPandn; rfl⟩

theorem exec_pset_run (e : Fin 256) (pd pm : BitVec 3) (w : Bool) : ∃ g : Dev → Dev, ∀ s, exec (.pset e pd pm w) s = s.run g :=
  ⟨_, fun s => by show execPset e pd pm w s = _; unfold execPset; rfl⟩

theorem exec_pclr_run (e : Fin 256) (pd pm : BitVec 3) (w : Bool) : ∃ g : Dev → Dev, ∀ s, exec (.pclr e pd pm w) s = s.run g :=
  ⟨_, fun s => by show execPclr e pd pm w s = _; unfold execPclr; rfl⟩

theorem exec_vaddi_run (e : Fin 256) (vd va : BitVec 5) (pm : BitVec 3) (w : Bool) (imm : BitVec 12) : ∃ g : Dev → Dev, ∀ s, exec (.vaddi e vd va pm w imm) s = s.run g :=
  ⟨_, fun s => by show execVaddi e vd va pm w imm s = _; unfold execVaddi; rfl⟩

theorem exec_vshli_run (e : Fin 256) (vd va : BitVec 5) (pm : BitVec 3) (w : Bool) (imm : BitVec 4) : ∃ g : Dev → Dev, ∀ s, exec (.vshli e vd va pm w imm) s = s.run g :=
  ⟨_, fun s => by show execVshli e vd va pm w imm s = _; unfold execVshli; rfl⟩

theorem exec_vshri_run (e : Fin 256) (vd va : BitVec 5) (pm : BitVec 3) (w : Bool) (imm : BitVec 4) : ∃ g : Dev → Dev, ∀ s, exec (.vshri e vd va pm w imm) s = s.run g :=
  ⟨_, fun s => by show execVshri e vd va pm w imm s = _; unfold execVshri; rfl⟩

theorem exec_vsari_run (e : Fin 256) (vd va : BitVec 5) (pm : BitVec 3) (w : Bool) (imm : BitVec 4) : ∃ g : Dev → Dev, ∀ s, exec (.vsari e vd va pm w imm) s = s.run g :=
  ⟨_, fun s => by show execVsari e vd va pm w imm s = _; unfold execVsari; rfl⟩

theorem exec_vsplati_run (e : Fin 256) (vd : BitVec 5) (pm : BitVec 3) (w : Bool) (imm : BitVec 12) : ∃ g : Dev → Dev, ∀ s, exec (.vsplati e vd pm w imm) s = s.run g :=
  ⟨_, fun s => by show execVsplati e vd pm w imm s = _; unfold execVsplati; rfl⟩

theorem exec_vsel_run (e : Fin 256) (vd va vb : BitVec 5) (pm : BitVec 3) (w : Bool) : ∃ g : Dev → Dev, ∀ s, exec (.vsel e vd va vb pm w) s = s.run g :=
  ⟨_, fun s => by show execVsel e vd va vb pm w s = _; unfold execVsel; rfl⟩

theorem exec_vsplat_run (e : Fin 256) (vd : BitVec 5) (sb : BitVec 4) (pm : BitVec 3) (w : Bool) : ∃ g : Dev → Dev, ∀ s, exec (.vsplat e vd sb pm w) s = s.run g :=
  ⟨_, fun s => by show execVsplat e vd sb pm w s = _; unfold execVsplat; rfl⟩

theorem exec_vmuls_run (e : Fin 256) (vd va : BitVec 5) (sb : BitVec 4) (pm : BitVec 3) (w : Bool) (fn : BitVec 8) : ∃ g : Dev → Dev, ∀ s, exec (.vmuls e vd va sb pm w fn) s = s.run g :=
  ⟨_, fun s => by show execVmuls e vd va sb pm w fn s = _; unfold execVmuls; rfl⟩

theorem exec_vextr_run (e : Fin 256) (sd : BitVec 4) (va : BitVec 5) (w : Bool) (fn : BitVec 8) : ∃ g : Dev → Dev, ∀ s, exec (.vextr e sd va w fn) s = s.run g :=
  ⟨_, fun s => by show execVextr e sd va w fn s = _; unfold execVextr; rfl⟩

theorem exec_vins_run (e : Fin 256) (vd : BitVec 5) (sb : BitVec 4) (pm : BitVec 3) (w : Bool) (fn : BitVec 8) : ∃ g : Dev → Dev, ∀ s, exec (.vins e vd sb pm w fn) s = s.run g :=
  ⟨_, fun s => by show execVins e vd sb pm w fn s = _; unfold execVins; rfl⟩

theorem exec_vrsum_run (e : Fin 256) (sd : BitVec 4) (va : BitVec 5) (pm : BitVec 3) (w : Bool) : ∃ g : Dev → Dev, ∀ s, exec (.vrsum e sd va pm w) s = s.run g :=
  ⟨_, fun s => by show execVrsum e sd va pm w s = _; unfold execVrsum; rfl⟩

theorem exec_vrmax_run (e : Fin 256) (sd : BitVec 4) (va : BitVec 5) (pm : BitVec 3) (w : Bool) : ∃ g : Dev → Dev, ∀ s, exec (.vrmax e sd va pm w) s = s.run g :=
  ⟨_, fun s => by show execVrmax e sd va pm w s = _; unfold execVrmax; rfl⟩

theorem exec_vpcnt_run (e : Fin 256) (sd : BitVec 4) (pm : BitVec 3) (w : Bool) : ∃ g : Dev → Dev, ∀ s, exec (.vpcnt e sd pm w) s = s.run g :=
  ⟨_, fun s => by show execVpcnt e sd pm w s = _; unfold execVpcnt; rfl⟩

theorem exec_vpfirst_run (e : Fin 256) (sd : BitVec 4) (pm : BitVec 3) (w : Bool) : ∃ g : Dev → Dev, ∀ s, exec (.vpfirst e sd pm w) s = s.run g :=
  ⟨_, fun s => by show execVpfirst e sd pm w s = _; unfold execVpfirst; rfl⟩

theorem exec_vsad_run (e : Fin 256) (sd : BitVec 4) (va vb : BitVec 5) (pm : BitVec 3) (w : Bool) : ∃ g : Dev → Dev, ∀ s, exec (.vsad e sd va vb pm w) s = s.run g :=
  ⟨_, fun s => by show execVsad e sd va vb pm w s = _; unfold execVsad; rfl⟩

theorem exec_vdot_run (e : Fin 256) (sd : BitVec 4) (va vb : BitVec 5) (pm : BitVec 3) (w : Bool) : ∃ g : Dev → Dev, ∀ s, exec (.vdot e sd va vb pm w) s = s.run g :=
  ⟨_, fun s => by show execVdot e sd va vb pm w s = _; unfold execVdot; rfl⟩

theorem exec_vslide_run (e : Fin 256) (vd va : BitVec 5) (sb : BitVec 4) (pm : BitVec 3) (w : Bool) : ∃ g : Dev → Dev, ∀ s, exec (.vslide e vd va sb pm w) s = s.run g :=
  ⟨_, fun s => by show execVslide e vd va sb pm w s = _; unfold execVslide; rfl⟩

theorem exec_vslidei_run (e : Fin 256) (vd va vb : BitVec 5) (pm : BitVec 3) (w : Bool) (fn : BitVec 7) : ∃ g : Dev → Dev, ∀ s, exec (.vslidei e vd va vb pm w fn) s = s.run g :=
  ⟨_, fun s => by show execVslidei e vd va vb pm w fn s = _; unfold execVslidei; rfl⟩

theorem exec_vwidel_run (e : Fin 256) (vd va : BitVec 5) (pm : BitVec 3) (w : Bool) : ∃ g : Dev → Dev, ∀ s, exec (.vwidel e vd va pm w) s = s.run g :=
  ⟨_, fun s => by show execVwidel e vd va pm w s = _; unfold execVwidel; rfl⟩

theorem exec_vwideh_run (e : Fin 256) (vd va : BitVec 5) (pm : BitVec 3) (w : Bool) : ∃ g : Dev → Dev, ∀ s, exec (.vwideh e vd va pm w) s = s.run g :=
  ⟨_, fun s => by show execVwideh e vd va pm w s = _; unfold execVwideh; rfl⟩

theorem exec_vnarrow_run (e : Fin 256) (vd va vb : BitVec 5) (pm : BitVec 3) (w : Bool) : ∃ g : Dev → Dev, ∀ s, exec (.vnarrow e vd va vb pm w) s = s.run g :=
  ⟨_, fun s => by show execVnarrow e vd va vb pm w s = _; unfold execVnarrow; rfl⟩

theorem exec_vld_run (e : Fin 256) (vd : BitVec 5) (sa : BitVec 4) (pm : BitVec 3) (inc : Bool) (imm : BitVec 13) : ∃ g : Dev → Dev, ∀ s, exec (.vld e vd sa pm inc imm) s = s.run g :=
  ⟨_, fun s => by show execVld e vd sa pm inc imm s = _; unfold execVld; rfl⟩

theorem exec_vst_run (e : Fin 256) (vd : BitVec 5) (sa : BitVec 4) (pm : BitVec 3) (inc : Bool) (imm : BitVec 13) : ∃ g : Dev → Dev, ∀ s, exec (.vst e vd sa pm inc imm) s = s.run g :=
  ⟨_, fun s => by show execVst e vd sa pm inc imm s = _; unfold execVst; rfl⟩

theorem exec_steEvent_run (c : Fin 16) : ∃ g : Dev → Dev, ∀ s, exec (.steEvent c) s = s.run g :=
  ⟨_, fun s => by show execSteEvent c s = _; unfold execSteEvent; rfl⟩

theorem exec_jobStage_run : ∃ g : Dev → Dev, ∀ s, exec (.jobStage) s = s.run g :=
  ⟨_, fun s => by show execJobStage s = _; unfold execJobStage; rfl⟩

theorem exec_stagingDone_run : ∃ g : Dev → Dev, ∀ s, exec (.stagingDone) s = s.run g :=
  ⟨_, fun s => by show execStagingDone s = _; unfold execStagingDone; rfl⟩

theorem exec_jobStart_run : ∃ g : Dev → Dev, ∀ s, exec (.jobStart) s = s.run g :=
  ⟨_, fun s => by show execJobStart s = _; unfold execJobStart; rfl⟩

theorem exec_jobCtlArm_run : ∃ g : Dev → Dev, ∀ s, exec (.jobCtlArm) s = s.run g :=
  ⟨_, fun s => by show execJobCtlArm s = _; unfold execJobCtlArm; rfl⟩

theorem exec_jobArm_run : ∃ g : Dev → Dev, ∀ s, exec (.jobArm) s = s.run g :=
  ⟨_, fun s => by show execJobArm s = _; unfold execJobArm; rfl⟩

theorem exec_spliceSwitch_run : ∃ g : Dev → Dev, ∀ s, exec (.spliceSwitch) s = s.run g :=
  ⟨_, fun s => by show execSpliceSwitch s = _; unfold execSpliceSwitch; rfl⟩

theorem exec_jobRelease_run : ∃ g : Dev → Dev, ∀ s, exec (.jobRelease) s = s.run g :=
  ⟨_, fun s => by show execJobRelease s = _; unfold execJobRelease; rfl⟩

theorem exec_slotDrained_run : ∃ g : Dev → Dev, ∀ s, exec (.slotDrained) s = s.run g :=
  ⟨_, fun s => by show execSlotDrained s = _; unfold execSlotDrained; rfl⟩

theorem exec_jobCtlAbort_run : ∃ g : Dev → Dev, ∀ s, exec (.jobCtlAbort) s = s.run g :=
  ⟨_, fun s => by show execJobCtlAbort s = _; unfold execJobCtlAbort; rfl⟩

theorem exec_jobAbort_run : ∃ g : Dev → Dev, ∀ s, exec (.jobAbort) s = s.run g :=
  ⟨_, fun s => by show execJobAbort s = _; unfold execJobAbort; rfl⟩

theorem exec_swatchRestart_run : ∃ g : Dev → Dev, ∀ s, exec (.swatchRestart) s = s.run g :=
  ⟨_, fun s => by show execSwatchRestart s = _; unfold execSwatchRestart; rfl⟩

theorem exec_jobReset_run : ∃ g : Dev → Dev, ∀ s, exec (.jobReset) s = s.run g :=
  ⟨_, fun s => by show execJobReset s = _; unfold execJobReset; rfl⟩

theorem exec_swatchRepeatEnd_run (cam : Fin 48) : ∃ g : Dev → Dev, ∀ s, exec (.swatchRepeatEnd cam) s = s.run g :=
  ⟨_, fun s => by show execSwatchRepeatEnd cam s = _; unfold execSwatchRepeatEnd; rfl⟩

theorem exec_bankHandover_run (c b : Fin 16) (v : Word) : ∃ g : Dev → Dev, ∀ s, exec (.bankHandover c b v) s = s.run g :=
  ⟨_, fun s => by show execBankHandover c b v s = _; unfold execBankHandover; rfl⟩

theorem exec_handoverDone_run (c b : Fin 16) : ∃ g : Dev → Dev, ∀ s, exec (.handoverDone c b) s = s.run g :=
  ⟨_, fun s => by show execHandoverDone c b s = _; unfold execHandoverDone; rfl⟩

theorem exec_stashBankGrant_run (c b : Fin 16) (new : List BankReq) : ∃ g : Dev → Dev, ∀ s, exec (.stashBankGrant c b new) s = s.run g :=
  ⟨_, fun s => by show execStashBankGrant c b new s = _; unfold execStashBankGrant; rfl⟩

theorem exec_urgentPromote_run (c b : Fin 16) : ∃ g : Dev → Dev, ∀ s, exec (.urgentPromote c b) s = s.run g :=
  ⟨_, fun s => by show execUrgentPromote c b s = _; unfold execUrgentPromote; rfl⟩

theorem exec_stashTestStep_run (c : Fin 16) (fails : Bool) : ∃ g : Dev → Dev, ∀ s, exec (.stashTestStep c fails) s = s.run g :=
  ⟨_, fun s => by show execStashTestStep c fails s = _; unfold execStashTestStep; rfl⟩

theorem exec_stashTestEnable_run (v : Word) : ∃ g : Dev → Dev, ∀ s, exec (.stashTestEnable v) s = s.run g :=
  ⟨_, fun s => by show execStashTestEnable v s = _; unfold execStashTestEnable; rfl⟩

theorem exec_skeinInitDone_run : ∃ g : Dev → Dev, ∀ s, exec (.skeinInitDone) s = s.run g :=
  ⟨_, fun s => by show execSkeinInitDone s = _; unfold execSkeinInitDone; rfl⟩

theorem exec_skeinReadComplete_run (m block : Nat) (o : EccOutcome) (refused : Bool) : ∃ g : Dev → Dev, ∀ s, exec (.skeinReadComplete m block o refused) s = s.run g :=
  ⟨_, fun s => by show execSkeinReadComplete m block o refused s = _; unfold execSkeinReadComplete; rfl⟩

theorem exec_skeinRefresh_run (ch : Fin 16) : ∃ g : Dev → Dev, ∀ s, exec (.skeinRefresh ch) s = s.run g :=
  ⟨_, fun s => by show execSkeinRefresh ch s = _; unfold execSkeinRefresh; rfl⟩

theorem exec_skeinFlush_run : ∃ g : Dev → Dev, ∀ s, exec (.skeinFlush) s = s.run g :=
  ⟨_, fun s => by show execSkeinFlush s = _; unfold execSkeinFlush; rfl⟩

theorem exec_scrubRead_run (o : EccOutcome) : ∃ g : Dev → Dev, ∀ s, exec (.scrubRead o) s = s.run g :=
  ⟨_, fun s => by show execScrubRead o s = _; unfold execScrubRead; rfl⟩

theorem exec_histEnable_run (v : Word) : ∃ g : Dev → Dev, ∀ s, exec (.histEnable v) s = s.run g :=
  ⟨_, fun s => by show execHistEnable v s = _; unfold execHistEnable; rfl⟩

theorem exec_retroGo_run (v : Word) : ∃ g : Dev → Dev, ∀ s, exec (.retroGo v) s = s.run g :=
  ⟨_, fun s => by show execRetroGo v s = _; unfold execRetroGo; rfl⟩

theorem exec_retroScanDone_run : ∃ g : Dev → Dev, ∀ s, exec (.retroScanDone) s = s.run g :=
  ⟨_, fun s => by show execRetroScanDone s = _; unfold execRetroScanDone; rfl⟩

theorem exec_hookGo_run (master : Nat) (ch : Fin 16) (abort : Bool) : ∃ g : Dev → Dev, ∀ s, exec (.hookGo master ch abort) s = s.run g :=
  ⟨_, fun s => by show execHookGo master ch abort s = _; unfold execHookGo; rfl⟩

theorem exec_hookAbort_run (master : Nat) (ch : Fin 16) : ∃ g : Dev → Dev, ∀ s, exec (.hookAbort master ch) s = s.run g :=
  ⟨_, fun s => by show execHookAbort master ch s = _; unfold execHookAbort; rfl⟩

theorem exec_hookCheckDone_run (ch : Fin 16) : ∃ g : Dev → Dev, ∀ s, exec (.hookCheckDone ch) s = s.run g :=
  ⟨_, fun s => by show execHookCheckDone ch s = _; unfold execHookCheckDone; rfl⟩

theorem exec_hookSlotsGranted_run (ch : Fin 16) : ∃ g : Dev → Dev, ∀ s, exec (.hookSlotsGranted ch) s = s.run g :=
  ⟨_, fun s => by show execHookSlotsGranted ch s = _; unfold execHookSlotsGranted; rfl⟩

theorem exec_hookBurstRead_run : ∃ g : Dev → Dev, ∀ s, exec (.hookBurstRead) s = s.run g :=
  ⟨_, fun s => by show execHookBurstRead s = _; unfold execHookBurstRead; rfl⟩

theorem exec_hookBurstWrite_run : ∃ g : Dev → Dev, ∀ s, exec (.hookBurstWrite) s = s.run g :=
  ⟨_, fun s => by show execHookBurstWrite s = _; unfold execHookBurstWrite; rfl⟩

theorem exec_hookReadResponse_run (ch : Fin 16) (first : Nat) : ∃ g : Dev → Dev, ∀ s, exec (.hookReadResponse ch first) s = s.run g :=
  ⟨_, fun s => by show execHookReadResponse ch first s = _; unfold execHookReadResponse; rfl⟩

theorem exec_hookWriteAck_run (ch : Fin 16) : ∃ g : Dev → Dev, ∀ s, exec (.hookWriteAck ch) s = s.run g :=
  ⟨_, fun s => by show execHookWriteAck ch s = _; unfold execHookWriteAck; rfl⟩

theorem exec_hookReset_run (v : Word) : ∃ g : Dev → Dev, ∀ s, exec (.hookReset v) s = s.run g :=
  ⟨_, fun s => by show execHookReset v s = _; unfold execHookReset; rfl⟩

theorem exec_hookIrqWrite_run (en : Bool) (v : Word) : ∃ g : Dev → Dev, ∀ s, exec (.hookIrqWrite en v) s = s.run g :=
  ⟨_, fun s => by show execHookIrqWrite en v s = _; unfold execHookIrqWrite; rfl⟩

theorem exec_hostMemRead_run (rid : Nat) (bar : Option (Fin 3)) (off n : Nat) (hdr : List Byte) : ∃ g : Dev → Dev, ∀ s, exec (.hostMemRead rid bar off n hdr) s = s.run g :=
  ⟨_, fun s => by show execHostMemRead rid bar off n hdr s = _; unfold execHostMemRead; rfl⟩

theorem exec_hostMemWrite_run (rid : Nat) (bar : Option (Fin 3)) (off : Nat) (bs : List Byte) (poisoned : Bool) (hdr : List Byte) : ∃ g : Dev → Dev, ∀ s, exec (.hostMemWrite rid bar off bs poisoned hdr) s = s.run g :=
  ⟨_, fun s => by show execHostMemWrite rid bar off bs poisoned hdr s = _; unfold execHostMemWrite; rfl⟩

theorem exec_configWrite_run (i : CfgItem) : ∃ g : Dev → Dev, ∀ s, exec (.configWrite i) s = s.run g :=
  ⟨_, fun s => by show execConfigWrite i s = _; unfold execConfigWrite; rfl⟩

theorem exec_winApply_run (v : Word) : ∃ g : Dev → Dev, ∀ s, exec (.winApply v) s = s.run g :=
  ⟨_, fun s => by show execWinApply v s = _; unfold execWinApply; rfl⟩

theorem exec_completionReceive_run (tag : Nat) (c : Completion) (hdr : List Byte) : ∃ g : Dev → Dev, ∀ s, exec (.completionReceive tag c hdr) s = s.run g :=
  ⟨_, fun s => by show execCompletionReceive tag c hdr s = _; unfold execCompletionReceive; rfl⟩

theorem exec_completionTimeout_run (tag : Nat) : ∃ g : Dev → Dev, ∀ s, exec (.completionTimeout tag) s = s.run g :=
  ⟨_, fun s => by show execCompletionTimeout tag s = _; unfold execCompletionTimeout; rfl⟩

theorem exec_tagQuarantineEnd_run (tag : Nat) : ∃ g : Dev → Dev, ∀ s, exec (.tagQuarantineEnd tag) s = s.run g :=
  ⟨_, fun s => by show execTagQuarantineEnd tag s = _; unfold execTagQuarantineEnd; rfl⟩

theorem exec_atsTranslationMiss_run (user : AtsUser) (iova : Nat) (write : Bool) : ∃ g : Dev → Dev, ∀ s, exec (.atsTranslationMiss user iova write) s = s.run g :=
  ⟨_, fun s => by show execAtsTranslationMiss user iova write s = _; unfold execAtsTranslationMiss; rfl⟩

theorem exec_atsInvalidateRequest_run (itag base size : Nat) : ∃ g : Dev → Dev, ∀ s, exec (.atsInvalidateRequest itag base size) s = s.run g :=
  ⟨_, fun s => by show execAtsInvalidateRequest itag base size s = _; unfold execAtsInvalidateRequest; rfl⟩

theorem exec_atsInvalidateDone_run (itag : Nat) : ∃ g : Dev → Dev, ∀ s, exec (.atsInvalidateDone itag) s = s.run g :=
  ⟨_, fun s => by show execAtsInvalidateDone itag s = _; unfold execAtsInvalidateDone; rfl⟩

theorem exec_ringEnable_run (r : Fin 64) (v : Word) : ∃ g : Dev → Dev, ∀ s, exec (.ringEnable r v) s = s.run g :=
  ⟨_, fun s => by show execRingEnable r v s = _; unfold execRingEnable; rfl⟩

theorem exec_ringDisable_run (r : Fin 64) (v : Word) (issued : Nat) : ∃ g : Dev → Dev, ∀ s, exec (.ringDisable r v issued) s = s.run g :=
  ⟨_, fun s => by show execRingDisable r v issued s = _; unfold execRingDisable; rfl⟩

theorem exec_ringDtailWrite_run (r : Fin 64) (v : Word) : ∃ g : Dev → Dev, ∀ s, exec (.ringDtailWrite r v) s = s.run g :=
  ⟨_, fun s => by show execRingDtailWrite r v s = _; unfold execRingDtailWrite; rfl⟩

theorem exec_ringCheadWrite_run (r : Fin 64) (v : Word) : ∃ g : Dev → Dev, ∀ s, exec (.ringCheadWrite r v) s = s.run g :=
  ⟨_, fun s => by show execRingCheadWrite r v s = _; unfold execRingCheadWrite; rfl⟩

theorem exec_revoke_run (r : Fin 64) (issued : Nat) : ∃ g : Dev → Dev, ∀ s, exec (.revoke r issued) s = s.run g :=
  ⟨_, fun s => by show execRevoke r issued s = _; unfold execRevoke; rfl⟩

theorem exec_descFetch_run (r : Fin 64) : ∃ g : Dev → Dev, ∀ s, exec (.descFetch r) s = s.run g :=
  ⟨_, fun s => by show execDescFetch r s = _; unfold execDescFetch; rfl⟩

theorem exec_descFetchDone_run (r : Fin 64) (bytes : List Byte) : ∃ g : Dev → Dev, ∀ s, exec (.descFetchDone r bytes) s = s.run g :=
  ⟨_, fun s => by show execDescFetchDone r bytes s = _; unfold execDescFetchDone; rfl⟩

theorem exec_parcelStart_run (r : Fin 64) : ∃ g : Dev → Dev, ∀ s, exec (.parcelStart r) s = s.run g :=
  ⟨_, fun s => by show execParcelStart r s = _; unfold execParcelStart; rfl⟩

theorem exec_pieceComplete_run (r : Fin 64) : ∃ g : Dev → Dev, ∀ s, exec (.pieceComplete r) s = s.run g :=
  ⟨_, fun s => by show execPieceComplete r s = _; unfold execPieceComplete; rfl⟩

theorem exec_parcelStage_run (src : StageSource) : ∃ g : Dev → Dev, ∀ s, exec (.parcelStage src) s = s.run g :=
  ⟨_, fun s => by show execParcelStage src s = _; unfold execParcelStage; rfl⟩

theorem exec_ringIrqTimeExpire_run (r : Fin 64) : ∃ g : Dev → Dev, ∀ s, exec (.ringIrqTimeExpire r) s = s.run g :=
  ⟨_, fun s => by show execRingIrqTimeExpire r s = _; unfold execRingIrqTimeExpire; rfl⟩

theorem exec_msixUnmask_run (v : Fin 256) : ∃ g : Dev → Dev, ∀ s, exec (.msixUnmask v) s = s.run g :=
  ⟨_, fun s => by show execMsixUnmask v s = _; unfold execMsixUnmask; rfl⟩

theorem exec_intxPendWrite_run (i : Fin 8) (v : Word) : ∃ g : Dev → Dev, ∀ s, exec (.intxPendWrite i v) s = s.run g :=
  ⟨_, fun s => by show execIntxPendWrite i v s = _; unfold execIntxPendWrite; rfl⟩

theorem exec_linkEnterL0_run (rate : Fin 7) (width : Fin 17) (flit : Bool) : ∃ g : Dev → Dev, ∀ s, exec (.linkEnterL0 rate width flit) s = s.run g :=
  ⟨_, fun s => by show execLinkEnterL0 rate width flit s = _; unfold execLinkEnterL0; rfl⟩

theorem exec_linkRecoveryTimeout_run : ∃ g : Dev → Dev, ∀ s, exec (.linkRecoveryTimeout) s = s.run g :=
  ⟨_, fun s => by show execLinkRecoveryTimeout s = _; unfold execLinkRecoveryTimeout; rfl⟩

theorem exec_dataLinkDown_run : ∃ g : Dev → Dev, ∀ s, exec (.dataLinkDown) s = s.run g :=
  ⟨_, fun s => by show execDataLinkDown s = _; unfold execDataLinkDown; rfl⟩

theorem exec_functionLevelReset_run : ∃ g : Dev → Dev, ∀ s, exec (.functionLevelReset) s = s.run g :=
  ⟨_, fun s => by show execFunctionLevelReset s = _; unfold execFunctionLevelReset; rfl⟩

theorem exec_flrDone_run : ∃ g : Dev → Dev, ∀ s, exec (.flrDone) s = s.run g :=
  ⟨_, fun s => by show execFlrDone s = _; unfold execFlrDone; rfl⟩

theorem exec_dStateChange_run (d3 : Bool) : ∃ g : Dev → Dev, ∀ s, exec (.dStateChange d3) s = s.run g :=
  ⟨_, fun s => by show execDStateChange d3 s = _; unfold execDStateChange; rfl⟩

theorem exec_perstAssert_run : ∃ g : Dev → Dev, ∀ s, exec (.perstAssert) s = s.run g :=
  ⟨_, fun s => by show execPerstAssert s = _; unfold execPerstAssert; rfl⟩

theorem exec_perstDeassert_run : ∃ g : Dev → Dev, ∀ s, exec (.perstDeassert) s = s.run g :=
  ⟨_, fun s => by show execPerstDeassert s = _; unfold execPerstDeassert; rfl⟩

theorem exec_fabEnable_run (v : Word) : ∃ g : Dev → Dev, ∀ s, exec (.fabEnable v) s = s.run g :=
  ⟨_, fun s => by show execFabEnable v s = _; unfold execFabEnable; rfl⟩

theorem exec_fabPortEnable_run (p : Fin 4) (v : Word) : ∃ g : Dev → Dev, ∀ s, exec (.fabPortEnable p v) s = s.run g :=
  ⟨_, fun s => by show execFabPortEnable p v s = _; unfold execFabPortEnable; rfl⟩

theorem exec_fabTrainPhaseDone_run (p : Fin 4) : ∃ g : Dev → Dev, ∀ s, exec (.fabTrainPhaseDone p) s = s.run g :=
  ⟨_, fun s => by show execFabTrainPhaseDone p s = _; unfold execFabTrainPhaseDone; rfl⟩

theorem exec_fabTrainTimeout_run (p : Fin 4) : ∃ g : Dev → Dev, ∀ s, exec (.fabTrainTimeout p) s = s.run g :=
  ⟨_, fun s => by show execFabTrainTimeout p s = _; unfold execFabTrainTimeout; rfl⟩

theorem exec_fabBackoffEnd_run (p : Fin 4) : ∃ g : Dev → Dev, ∀ s, exec (.fabBackoffEnd p) s = s.run g :=
  ⟨_, fun s => by show execFabBackoffEnd p s = _; unfold execFabBackoffEnd; rfl⟩

theorem exec_fabLockLoss_run (p : Fin 4) : ∃ g : Dev → Dev, ∀ s, exec (.fabLockLoss p) s = s.run g :=
  ⟨_, fun s => by show execFabLockLoss p s = _; unfold execFabLockLoss; rfl⟩

theorem exec_fabTapRequest_run (p lane : Fin 4) (pre post preset : Fin 4) : ∃ g : Dev → Dev, ∀ s, exec (.fabTapRequest p lane pre post preset) s = s.run g :=
  ⟨_, fun s => by show execFabTapRequest p lane pre post preset s = _; unfold execFabTapRequest; rfl⟩

theorem exec_fabMarker_run (p : Fin 4) (bip : Nat) (deskewed : Bool) (arrive leave : Int) : ∃ g : Dev → Dev, ∀ s, exec (.fabMarker p bip deskewed arrive leave) s = s.run g :=
  ⟨_, fun s => by show execFabMarker p bip deskewed arrive leave s = _; unfold execFabMarker; rfl⟩

theorem exec_fabControlUnitRx_run (p : Fin 4) (good : Bool) (ack : Nat) (nak : Bool) (credit : List Nat) : ∃ g : Dev → Dev, ∀ s, exec (.fabControlUnitRx p good ack nak credit) s = s.run g :=
  ⟨_, fun s => by show execFabControlUnitRx p good ack nak credit s = _; unfold execFabControlUnitRx; rfl⟩

theorem exec_fabReadRx_run (p : Fin 4) (q : FabPacket) : ∃ g : Dev → Dev, ∀ s, exec (.fabReadRx p q) s = s.run g :=
  ⟨_, fun s => by show execFabReadRx p q s = _; unfold execFabReadRx; rfl⟩

theorem exec_fabWriteRx_run (p : Fin 4) (q : FabPacket) : ∃ g : Dev → Dev, ∀ s, exec (.fabWriteRx p q) s = s.run g :=
  ⟨_, fun s => by show execFabWriteRx p q s = _; unfold execFabWriteRx; rfl⟩

theorem exec_fabResponseRx_run (p : Fin 4) (q : FabPacket) : ∃ g : Dev → Dev, ∀ s, exec (.fabResponseRx p q) s = s.run g :=
  ⟨_, fun s => by show execFabResponseRx p q s = _; unfold execFabResponseRx; rfl⟩

theorem exec_fabHelloRx_run (p : Fin 4) (h : FabHello) : ∃ g : Dev → Dev, ∀ s, exec (.fabHelloRx p h) s = s.run g :=
  ⟨_, fun s => by show execFabHelloRx p h s = _; unfold execFabHelloRx; rfl⟩

theorem exec_fabRootRx_run (p : Fin 4) (src hops : Nat) (r : FabRoot) : ∃ g : Dev → Dev, ∀ s, exec (.fabRootRx p src hops r) s = s.run g :=
  ⟨_, fun s => by show execFabRootRx p src hops r s = _; unfold execFabRootRx; rfl⟩

theorem exec_fabClaimRx_run (p : Fin 4) (src hops : Nat) (c : FabClaim) : ∃ g : Dev → Dev, ∀ s, exec (.fabClaimRx p src hops c) s = s.run g :=
  ⟨_, fun s => by show execFabClaimRx p src hops c s = _; unfold execFabClaimRx; rfl⟩

theorem exec_fabAssignRx_run (p : Fin 4) (src hops : Nat) (a : FabAssign) : ∃ g : Dev → Dev, ∀ s, exec (.fabAssignRx p src hops a) s = s.run g :=
  ⟨_, fun s => by show execFabAssignRx p src hops a s = _; unfold execFabAssignRx; rfl⟩

theorem exec_fabKeepaliveRx_run (p : Fin 4) (src hops dst : Nat) (k : FabKeepalive) : ∃ g : Dev → Dev, ∀ s, exec (.fabKeepaliveRx p src hops dst k) s = s.run g :=
  ⟨_, fun s => by show execFabKeepaliveRx p src hops dst k s = _; unfold execFabKeepaliveRx; rfl⟩

theorem exec_fabSyncRx_run (p : Fin 4) (t2 t3 : Int) : ∃ g : Dev → Dev, ∀ s, exec (.fabSyncRx p t2 t3) s = s.run g :=
  ⟨_, fun s => by show execFabSyncRx p t2 t3 s = _; unfold execFabSyncRx; rfl⟩

theorem exec_fabMarkRx_run (p : Fin 4) (src hops : Nat) (m : FabMark) : ∃ g : Dev → Dev, ∀ s, exec (.fabMarkRx p src hops m) s = s.run g :=
  ⟨_, fun s => by show execFabMarkRx p src hops m s = _; unfold execFabMarkRx; rfl⟩

theorem exec_fabFenceRx_run (p : Fin 4) (src hops dst : Nat) : ∃ g : Dev → Dev, ∀ s, exec (.fabFenceRx p src hops dst) s = s.run g :=
  ⟨_, fun s => by show execFabFenceRx p src hops dst s = _; unfold execFabFenceRx; rfl⟩

theorem exec_fabRootAnnounce_run : ∃ g : Dev → Dev, ∀ s, exec (.fabRootAnnounce) s = s.run g :=
  ⟨_, fun s => by show execFabRootAnnounce s = _; unfold execFabRootAnnounce; rfl⟩

theorem exec_fabKeepaliveSend_run : ∃ g : Dev → Dev, ∀ s, exec (.fabKeepaliveSend) s = s.run g :=
  ⟨_, fun s => by show execFabKeepaliveSend s = _; unfold execFabKeepaliveSend; rfl⟩

theorem exec_fabClaimStart_run : ∃ g : Dev → Dev, ∀ s, exec (.fabClaimStart) s = s.run g :=
  ⟨_, fun s => by show execFabClaimStart s = _; unfold execFabClaimStart; rfl⟩

theorem exec_fabElectionEnd_run : ∃ g : Dev → Dev, ∀ s, exec (.fabElectionEnd) s = s.run g :=
  ⟨_, fun s => by show execFabElectionEnd s = _; unfold execFabElectionEnd; rfl⟩

theorem exec_fabRootTimeout_run : ∃ g : Dev → Dev, ∀ s, exec (.fabRootTimeout) s = s.run g :=
  ⟨_, fun s => by show execFabRootTimeout s = _; unfold execFabRootTimeout; rfl⟩

theorem exec_fabMemberTimeout_run (addr : Fin 64) : ∃ g : Dev → Dev, ∀ s, exec (.fabMemberTimeout addr) s = s.run g :=
  ⟨_, fun s => by show execFabMemberTimeout addr s = _; unfold execFabMemberTimeout; rfl⟩

theorem exec_fabReqTimeout_run (txid : Nat) : ∃ g : Dev → Dev, ∀ s, exec (.fabReqTimeout txid) s = s.run g :=
  ⟨_, fun s => by show execFabReqTimeout txid s = _; unfold execFabReqTimeout; rfl⟩

theorem exec_fabTxidQuarantineEnd_run (txid : Nat) : ∃ g : Dev → Dev, ∀ s, exec (.fabTxidQuarantineEnd txid) s = s.run g :=
  ⟨_, fun s => by show execFabTxidQuarantineEnd txid s = _; unfold execFabTxidQuarantineEnd; rfl⟩

theorem exec_fabTimeSync_run (t1 t4 : Int) : ∃ g : Dev → Dev, ∀ s, exec (.fabTimeSync t1 t4) s = s.run g :=
  ⟨_, fun s => by show execFabTimeSync t1 t4 s = _; unfold execFabTimeSync; rfl⟩

theorem exec_fabTimePulse_run : ∃ g : Dev → Dev, ∀ s, exec (.fabTimePulse) s = s.run g :=
  ⟨_, fun s => by show execFabTimePulse s = _; unfold execFabTimePulse; rfl⟩

theorem exec_clearSpare_run : ∃ g : Dev → Dev, ∀ s, exec (.clearSpare) s = s.run g :=
  ⟨_, fun s => by show execClearSpare s = _; unfold execClearSpare; rfl⟩

theorem exec_markTx_run : ∃ g : Dev → Dev, ∀ s, exec (.markTx) s = s.run g :=
  ⟨_, fun s => by show execMarkTx s = _; unfold execMarkTx; rfl⟩

theorem exec_timeCap_run : ∃ g : Dev → Dev, ∀ s, exec (.timeCap) s = s.run g :=
  ⟨_, fun s => by show execTimeCap s = _; unfold execTimeCap; rfl⟩

theorem exec_fabMarkTx_run : ∃ g : Dev → Dev, ∀ s, exec (.fabMarkTx) s = s.run g :=
  ⟨_, fun s => by show execFabMarkTx s = _; unfold execFabMarkTx; rfl⟩

theorem exec_fabTimeCap_run : ∃ g : Dev → Dev, ∀ s, exec (.fabTimeCap) s = s.run g :=
  ⟨_, fun s => by show execFabTimeCap s = _; unfold execFabTimeCap; rfl⟩

theorem exec_coldReset_run (c : ResetCause) (done : Nat) : ∃ g : Dev → Dev, ∀ s, exec (.coldReset c done) s = s.run g :=
  ⟨_, fun s => by show execColdReset c done s = _; unfold execColdReset; rfl⟩

theorem exec_deviceReset_run (done : Nat) : ∃ g : Dev → Dev, ∀ s, exec (.deviceReset done) s = s.run g :=
  ⟨_, fun s => by show execDeviceReset done s = _; unfold execDeviceReset; rfl⟩

theorem exec_stwReset_run (v : Word) (done : Nat) : ∃ g : Dev → Dev, ∀ s, exec (.stwReset v done) s = s.run g :=
  ⟨_, fun s => by show execStwReset v done s = _; unfold execStwReset; rfl⟩

theorem exec_stewardWdogExpire_run (done : Nat) : ∃ g : Dev → Dev, ∀ s, exec (.stewardWdogExpire done) s = s.run g :=
  ⟨_, fun s => by show execStewardWdogExpire done s = _; unfold execStewardWdogExpire; rfl⟩

theorem exec_resetRelease_run : ∃ g : Dev → Dev, ∀ s, exec (.resetRelease) s = s.run g :=
  ⟨_, fun s => by show execResetRelease s = _; unfold execResetRelease; rfl⟩

theorem exec_castonComplete_run (rep : CastonReport) : ∃ g : Dev → Dev, ∀ s, exec (.castonComplete rep) s = s.run g :=
  ⟨_, fun s => by show execCastonComplete rep s = _; unfold execCastonComplete; rfl⟩

theorem exec_nvmRead_run : ∃ g : Dev → Dev, ∀ s, exec (.nvmRead) s = s.run g :=
  ⟨_, fun s => by show execNvmRead s = _; unfold execNvmRead; rfl⟩

theorem exec_nvmBegin_run : ∃ g : Dev → Dev, ∀ s, exec (.nvmBegin) s = s.run g :=
  ⟨_, fun s => by show execNvmBegin s = _; unfold execNvmBegin; rfl⟩

theorem exec_nvmProgram_run : ∃ g : Dev → Dev, ∀ s, exec (.nvmProgram) s = s.run g :=
  ⟨_, fun s => by show execNvmProgram s = _; unfold execNvmProgram; rfl⟩

theorem exec_nvmVerify_run : ∃ g : Dev → Dev, ∀ s, exec (.nvmVerify) s = s.run g :=
  ⟨_, fun s => by show execNvmVerify s = _; unfold execNvmVerify; rfl⟩

theorem exec_nvmCommit_run : ∃ g : Dev → Dev, ∀ s, exec (.nvmCommit) s = s.run g :=
  ⟨_, fun s => by show execNvmCommit s = _; unfold execNvmCommit; rfl⟩

theorem exec_nvmBoard_run : ∃ g : Dev → Dev, ∀ s, exec (.nvmBoard) s = s.run g :=
  ⟨_, fun s => by show execNvmBoard s = _; unfold execNvmBoard; rfl⟩

theorem exec_nvmAbort_run : ∃ g : Dev → Dev, ∀ s, exec (.nvmAbort) s = s.run g :=
  ⟨_, fun s => by show execNvmAbort s = _; unfold execNvmAbort; rfl⟩

theorem exec_nvmOpComplete_run (done : Nat) (fails : Bool) : ∃ g : Dev → Dev, ∀ s, exec (.nvmOpComplete done fails) s = s.run g :=
  ⟨_, fun s => by show execNvmOpComplete done fails s = _; unfold execNvmOpComplete; rfl⟩

theorem exec_logPageWrite_run (fails : Bool) : ∃ g : Dev → Dev, ∀ s, exec (.logPageWrite fails) s = s.run g :=
  ⟨_, fun s => by show execLogPageWrite fails s = _; unfold execLogPageWrite; rfl⟩

theorem exec_logFlush_run : ∃ g : Dev → Dev, ∀ s, exec (.logFlush) s = s.run g :=
  ⟨_, fun s => by show execLogFlush s = _; unfold execLogFlush; rfl⟩

theorem exec_jtagReset_run : ∃ g : Dev → Dev, ∀ s, exec (.jtagReset) s = s.run g :=
  ⟨_, fun s => by show execJtagReset s = _; unfold execJtagReset; rfl⟩

theorem exec_extest_run : ∃ g : Dev → Dev, ∀ s, exec (.extest) s = s.run g :=
  ⟨_, fun s => by show execExtest s = _; unfold execExtest; rfl⟩

theorem exec_idcode_run : ∃ g : Dev → Dev, ∀ s, exec (.idcode) s = s.run g :=
  ⟨_, fun s => by show execIdcode s = _; unfold execIdcode; rfl⟩

theorem exec_samplePreload_run (pins : List Bool) : ∃ g : Dev → Dev, ∀ s, exec (.samplePreload pins) s = s.run g :=
  ⟨_, fun s => by show execSamplePreload pins s = _; unfold execSamplePreload; rfl⟩

theorem exec_clamp_run : ∃ g : Dev → Dev, ∀ s, exec (.clamp) s = s.run g :=
  ⟨_, fun s => by show execClamp s = _; unfold execClamp; rfl⟩

theorem exec_highz_run : ∃ g : Dev → Dev, ∀ s, exec (.highz) s = s.run g :=
  ⟨_, fun s => by show execHighz s = _; unfold execHighz; rfl⟩

theorem exec_bypass_run : ∃ g : Dev → Dev, ∀ s, exec (.bypass) s = s.run g :=
  ⟨_, fun s => by show execBypass s = _; unfold execBypass; rfl⟩

theorem exec_access_run : ∃ g : Dev → Dev, ∀ s, exec (.access) s = s.run g :=
  ⟨_, fun s => by show execAccess s = _; unfold execAccess; rfl⟩

theorem exec_jtagAccessGo_run (v : BitVec 100) : ∃ g : Dev → Dev, ∀ s, exec (.jtagAccessGo v) s = s.run g :=
  ⟨_, fun s => by show execJtagAccessGo v s = _; unfold execJtagAccessGo; rfl⟩

theorem exec_jtagAccessDone_run : ∃ g : Dev → Dev, ∀ s, exec (.jtagAccessDone) s = s.run g :=
  ⟨_, fun s => by show execJtagAccessDone s = _; unfold execJtagAccessDone; rfl⟩

theorem exec_pwrCtlWatch_run : ∃ g : Dev → Dev, ∀ s, exec (.pwrCtlWatch) s = s.run g :=
  ⟨_, fun s => by show execPwrCtlWatch s = _; unfold execPwrCtlWatch; rfl⟩

theorem exec_pwrCtlExit_run : ∃ g : Dev → Dev, ∀ s, exec (.pwrCtlExit) s = s.run g :=
  ⟨_, fun s => by show execPwrCtlExit s = _; unfold execPwrCtlExit; rfl⟩

theorem exec_pwrWake_run : ∃ g : Dev → Dev, ∀ s, exec (.pwrWake) s = s.run g :=
  ⟨_, fun s => by show execPwrWake s = _; unfold execPwrWake; rfl⟩

theorem exec_watchEntryStart_run : ∃ g : Dev → Dev, ∀ s, exec (.watchEntryStart) s = s.run g :=
  ⟨_, fun s => by show execWatchEntryStart s = _; unfold execWatchEntryStart; rfl⟩

theorem exec_watchEntryDone_run : ∃ g : Dev → Dev, ∀ s, exec (.watchEntryDone) s = s.run g :=
  ⟨_, fun s => by show execWatchEntryDone s = _; unfold execWatchEntryDone; rfl⟩

theorem exec_watchExitStart_run : ∃ g : Dev → Dev, ∀ s, exec (.watchExitStart) s = s.run g :=
  ⟨_, fun s => by show execWatchExitStart s = _; unfold execWatchExitStart; rfl⟩

theorem exec_watchExitDone_run : ∃ g : Dev → Dev, ∀ s, exec (.watchExitDone) s = s.run g :=
  ⟨_, fun s => by show execWatchExitDone s = _; unfold execWatchExitDone; rfl⟩

theorem exec_hkConversion_run (raw : BitVec 12) : ∃ g : Dev → Dev, ∀ s, exec (.hkConversion raw) s = s.run g :=
  ⟨_, fun s => by show execHkConversion raw s = _; unfold execHkConversion; rfl⟩

theorem exec_hkUrgent_run (v : Word) : ∃ g : Dev → Dev, ∀ s, exec (.hkUrgent v) s = s.run g :=
  ⟨_, fun s => by show execHkUrgent v s = _; unfold execHkUrgent; rfl⟩

theorem exec_hkResultRead_run : ∃ g : Dev → Dev, ∀ s, exec (.hkResultRead) s = s.run g :=
  ⟨_, fun s => by show execHkResultRead s = _; unfold execHkResultRead; rfl⟩

theorem exec_governorEval_run : ∃ g : Dev → Dev, ∀ s, exec (.governorEval) s = s.run g :=
  ⟨_, fun s => by show execGovernorEval s = _; unfold execGovernorEval; rfl⟩

theorem exec_throttleCapStep_run : ∃ g : Dev → Dev, ∀ s, exec (.throttleCapStep) s = s.run g :=
  ⟨_, fun s => by show execThrottleCapStep s = _; unfold execThrottleCapStep; rfl⟩

theorem exec_thermalTrip_run : ∃ g : Dev → Dev, ∀ s, exec (.thermalTrip) s = s.run g :=
  ⟨_, fun s => by show execThermalTrip s = _; unfold execThermalTrip; rfl⟩

theorem exec_tripEnd_run : ∃ g : Dev → Dev, ∀ s, exec (.tripEnd) s = s.run g :=
  ⟨_, fun s => by show execTripEnd s = _; unfold execTripEnd; rfl⟩

theorem exec_ilimHalve_run : ∃ g : Dev → Dev, ∀ s, exec (.ilimHalve) s = s.run g :=
  ⟨_, fun s => by show execIlimHalve s = _; unfold execIlimHalve; rfl⟩

theorem exec_ilimRelease_run : ∃ g : Dev → Dev, ∀ s, exec (.ilimRelease) s = s.run g :=
  ⟨_, fun s => by show execIlimRelease s = _; unfold execIlimRelease; rfl⟩

theorem exec_standbyPacketWake_run (n : Fin 48) : ∃ g : Dev → Dev, ∀ s, exec (.standbyPacketWake n) s = s.run g :=
  ⟨_, fun s => by show execStandbyPacketWake n s = _; unfold execStandbyPacketWake; rfl⟩

theorem exec_cdrLock_run (n : Fin 48) : ∃ g : Dev → Dev, ∀ s, exec (.cdrLock n) s = s.run g :=
  ⟨_, fun s => by show execCdrLock n s = _; unfold execCdrLock; rfl⟩

theorem exec_linkRecoveryStart_run : ∃ g : Dev → Dev, ∀ s, exec (.linkRecoveryStart) s = s.run g :=
  ⟨_, fun s => by show execLinkRecoveryStart s = _; unfold execLinkRecoveryStart; rfl⟩

/-- Every command answers a next state, whose device is a function of the device alone and whose queue is as before. -/
theorem exec_run (c : Instr) : ∃ g : Dev → Dev, ∀ s, exec c s = s.run g :=
  Instr.casesOn (motive := fun c => ∃ g : Dev → Dev, ∀ s, exec c s = s.run g) c
    exec_regWrite_run
    exec_reg64LowWordRead_run
    exec_reg64LowWordWrite_run
    exec_rcFieldRead_run
    exec_shedRaise_run
    exec_shedRaiseIntervalExpiry_run
    exec_shedLowerExpiry_run
    exec_engineBacklogDeadline_run
    exec_skeinPressureWindow_run
    exec_serviceModeRequest_run
    exec_bindoffStart_run
    exec_bindoffComplete_run
    exec_glbIntWrite_run
    exec_gaugeSample_run
    exec_ampLowDetect_run
    exec_corrEstimate_run
    exec_corrLoad_run
    exec_scaleApply_run
    exec_gaugeAxisZero_run
    exec_gaugeZero_run
    exec_snapTake_run
    exec_gaugeSnap_run
    exec_gaugeWpLowRead_run
    exec_refCfgWrite_run
    exec_positionRecord_run
    exec_axisEnable_run
    exec_axisDisable_run
    exec_settleEnd_run
    exec_watchCountEdge_run
    exec_convCheckStep_run
    exec_convCheckCfgWrite_run
    exec_cmpCycle_run
    exec_trigCmpCtlArm_run
    exec_trigCmpCtlStop_run
    exec_trigCmpArm_run
    exec_trigCmpStop_run
    exec_trigListWrite_run
    exec_trigOut_run
    exec_trigOutPulseEnd_run
    exec_trigOutModeWrite_run
    exec_bankSupplyChange_run
    exec_trigInEdge_run
    exec_trigInAccept_run
    exec_trigPkt_run
    exec_trigPktStart_run
    exec_trigPktFall_run
    exec_chainFire_run
    exec_chainFireMulti_run
    exec_chainHeldPublish_run
    exec_chainIrqWrite_run
    exec_chainConfigWrite_run
    exec_chainCtrInc_run
    exec_chainCtrClr_run
    exec_chainCtrValWrite_run
    exec_chainCtrWindowEnd_run
    exec_cllEnable_run
    exec_cllDisable_run
    exec_discoveryTick_run
    exec_rateDetectDone_run
    exec_alignAcquire_run
    exec_commaRealign_run
    exec_losAssert_run
    exec_losDeassert_run
    exec_lossOfLock_run
    exec_lossTimeout_run
    exec_rxCodeError_run
    exec_ctrlCommandStart_run
    exec_ctrlAckReceive_run
    exec_ctrlTimeout_run
    exec_groupJoinWaitEnd_run
    exec_discoverTimeout_run
    exec_trainTimeout_run
    exec_standby_run
    exec_park_run
    exec_wake_run
    exec_retrain_run
    exec_pwrReset_run
    exec_mailboxGo_run
    exec_heartbeatReceive_run
    exec_hbLost_run
    exec_eventPacketReceive_run
    exec_pocxpFaultPin_run
    exec_pocxpRetry_run
    exec_pocxpRetryReset_run
    exec_pocxpEnWrite_run
    exec_panelFrame_run
    exec_plyPacketCommit_run
    exec_ptrFault_run
    exec_queueResetEnd_run
    exec_qreset_run
    exec_close_run
    exec_flush_run
    exec_asmClose_run
    exec_asmCamEnable_run
    exec_asmCamDisable_run
    exec_asmPacketVisible_run
    exec_mergeSkewExpire_run
    exec_carLineIn_run
    exec_carMemFrameStart_run
    exec_carFrameEnd_run
    exec_carStatsDone_run
    exec_cpbPreloadDone_run
    exec_carReset_run
    exec_carSetGo_run
    exec_setIssueStart_run
    exec_tileWriteLine_run
    exec_dispatchQueuePush_run
    exec_selvedgeRewind_run
    exec_deferredBandLoad_run
    exec_engineTake_run
    exec_stealSearch_run
    exec_stealProbeAnswer_run
    exec_stealRetry_run
    exec_watchdogExpire_run
    exec_steFence_run
    exec_steReset_run
    exec_engineResetDone_run
    exec_engineResetTimeout_run
    exec_engineDisable_run
    exec_resultArrive_run
    exec_nop_run
    exec_add_run
    exec_sub_run
    exec_and_run
    exec_or_run
    exec_xor_run
    exec_shl_run
    exec_shr_run
    exec_sar_run
    exec_mul_run
    exec_mulh_run
    exec_slt_run
    exec_sltu_run
    exec_min_run
    exec_max_run
    exec_add64_run
    exec_sub64_run
    exec_addi_run
    exec_andi_run
    exec_ori_run
    exec_xori_run
    exec_shli_run
    exec_shri_run
    exec_sari_run
    exec_slti_run
    exec_lui_run
    exec_ldw_run
    exec_ldh_run
    exec_ldb_run
    exec_stw_run
    exec_sth_run
    exec_stb_run
    exec_beq_run
    exec_bne_run
    exec_blt_run
    exec_bge_run
    exec_bltu_run
    exec_bgeu_run
    exec_jal_run
    exec_jr_run
    exec_bpany_run
    exec_bpnone_run
    exec_xld_run
    exec_xst_run
    exec_xwait_run
    exec_xferComplete_run
    exec_emit_run
    exec_end_run
    exec_qmark_run
    exec_qrew_run
    exec_qcpy_run
    exec_qrel_run
    exec_pub_run
    exec_evwait_run
    exec_rdsr_run
    exec_msync_run
    exec_vnop_run
    exec_vadd_run
    exec_vsub_run
    exec_vadds_run
    exec_vsubs_run
    exec_vabsd_run
    exec_vmin_run
    exec_vmax_run
    exec_vand_run
    exec_vor_run
    exec_vxor_run
    exec_vmul_run
    exec_vmulh_run
    exec_vavg_run
    exec_vshl_run
    exec_vshr_run
    exec_vsar_run
    exec_vcmpeq_run
    exec_vcmplt_run
    exec_vcmpltu_run
    exec_vcmpge_run
    exec_vcmpgeu_run
    exec_pand_run
    exec_por_run
    exec_pxor_run
    exec_pandn_run
    exec_pset_run
    exec_pclr_run
    exec_vaddi_run
    exec_vshli_run
    exec_vshri_run
    exec_vsari_run
    exec_vsplati_run
    exec_vsel_run
    exec_vsplat_run
    exec_vmuls_run
    exec_vextr_run
    exec_vins_run
    exec_vrsum_run
    exec_vrmax_run
    exec_vpcnt_run
    exec_vpfirst_run
    exec_vsad_run
    exec_vdot_run
    exec_vslide_run
    exec_vslidei_run
    exec_vwidel_run
    exec_vwideh_run
    exec_vnarrow_run
    exec_vld_run
    exec_vst_run
    exec_steEvent_run
    exec_jobStage_run
    exec_stagingDone_run
    exec_jobStart_run
    exec_jobCtlArm_run
    exec_jobArm_run
    exec_spliceSwitch_run
    exec_jobRelease_run
    exec_slotDrained_run
    exec_jobCtlAbort_run
    exec_jobAbort_run
    exec_swatchRestart_run
    exec_jobReset_run
    exec_swatchRepeatEnd_run
    exec_bankHandover_run
    exec_handoverDone_run
    exec_stashBankGrant_run
    exec_urgentPromote_run
    exec_stashTestStep_run
    exec_stashTestEnable_run
    exec_skeinInitDone_run
    exec_skeinReadComplete_run
    exec_skeinRefresh_run
    exec_skeinFlush_run
    exec_scrubRead_run
    exec_histEnable_run
    exec_retroGo_run
    exec_retroScanDone_run
    exec_hookGo_run
    exec_hookAbort_run
    exec_hookCheckDone_run
    exec_hookSlotsGranted_run
    exec_hookBurstRead_run
    exec_hookBurstWrite_run
    exec_hookReadResponse_run
    exec_hookWriteAck_run
    exec_hookReset_run
    exec_hookIrqWrite_run
    exec_hostMemRead_run
    exec_hostMemWrite_run
    exec_configWrite_run
    exec_winApply_run
    exec_completionReceive_run
    exec_completionTimeout_run
    exec_tagQuarantineEnd_run
    exec_atsTranslationMiss_run
    exec_atsInvalidateRequest_run
    exec_atsInvalidateDone_run
    exec_ringEnable_run
    exec_ringDisable_run
    exec_ringDtailWrite_run
    exec_ringCheadWrite_run
    exec_revoke_run
    exec_descFetch_run
    exec_descFetchDone_run
    exec_parcelStart_run
    exec_pieceComplete_run
    exec_parcelStage_run
    exec_ringIrqTimeExpire_run
    exec_msixUnmask_run
    exec_intxPendWrite_run
    exec_linkEnterL0_run
    exec_linkRecoveryTimeout_run
    exec_dataLinkDown_run
    exec_functionLevelReset_run
    exec_flrDone_run
    exec_dStateChange_run
    exec_perstAssert_run
    exec_perstDeassert_run
    exec_fabEnable_run
    exec_fabPortEnable_run
    exec_fabTrainPhaseDone_run
    exec_fabTrainTimeout_run
    exec_fabBackoffEnd_run
    exec_fabLockLoss_run
    exec_fabTapRequest_run
    exec_fabMarker_run
    exec_fabControlUnitRx_run
    exec_fabReadRx_run
    exec_fabWriteRx_run
    exec_fabResponseRx_run
    exec_fabHelloRx_run
    exec_fabRootRx_run
    exec_fabClaimRx_run
    exec_fabAssignRx_run
    exec_fabKeepaliveRx_run
    exec_fabSyncRx_run
    exec_fabMarkRx_run
    exec_fabFenceRx_run
    exec_fabRootAnnounce_run
    exec_fabKeepaliveSend_run
    exec_fabClaimStart_run
    exec_fabElectionEnd_run
    exec_fabRootTimeout_run
    exec_fabMemberTimeout_run
    exec_fabReqTimeout_run
    exec_fabTxidQuarantineEnd_run
    exec_fabTimeSync_run
    exec_fabTimePulse_run
    exec_clearSpare_run
    exec_markTx_run
    exec_timeCap_run
    exec_fabMarkTx_run
    exec_fabTimeCap_run
    exec_coldReset_run
    exec_deviceReset_run
    exec_stwReset_run
    exec_stewardWdogExpire_run
    exec_resetRelease_run
    exec_castonComplete_run
    exec_nvmRead_run
    exec_nvmBegin_run
    exec_nvmProgram_run
    exec_nvmVerify_run
    exec_nvmCommit_run
    exec_nvmBoard_run
    exec_nvmAbort_run
    exec_nvmOpComplete_run
    exec_logPageWrite_run
    exec_logFlush_run
    exec_jtagReset_run
    exec_extest_run
    exec_idcode_run
    exec_samplePreload_run
    exec_clamp_run
    exec_highz_run
    exec_bypass_run
    exec_access_run
    exec_jtagAccessGo_run
    exec_jtagAccessDone_run
    exec_pwrCtlWatch_run
    exec_pwrCtlExit_run
    exec_pwrWake_run
    exec_watchEntryStart_run
    exec_watchEntryDone_run
    exec_watchExitStart_run
    exec_watchExitDone_run
    exec_hkConversion_run
    exec_hkUrgent_run
    exec_hkResultRead_run
    exec_governorEval_run
    exec_throttleCapStep_run
    exec_thermalTrip_run
    exec_tripEnd_run
    exec_ilimHalve_run
    exec_ilimRelease_run
    exec_standbyPacketWake_run
    exec_cdrLock_run
    exec_linkRecoveryStart_run

end Sys2Proof.Machine
end

