-- ==== Sys2Proof/Laws/Gauge.lean ====
section
/-! SUPPORT. What the parts of a Gauge sample leave alone: the counts and states of the axes and the blocks outside the Gauge. One lemma
per part; the sample itself is put together by its caller. -/

namespace Sys2Proof.Machine

/-- `y` has the counts and axis states of `x`, and its Stash, engines, assembler, camera connections and time base. -/
def SameCounts (x y : Dev) : Prop :=
  (∀ b : Nat, (y.axis b).c = (x.axis b).c ∧ (y.axis b).state = (x.axis b).state) ∧
    y.stash = x.stash ∧ y.ste = x.ste ∧ y.asm = x.asm ∧ y.cll = x.cll ∧ y.ts = x.ts

theorem SameCounts.refl (x : Dev) : SameCounts x x := ⟨fun _ => ⟨rfl, rfl⟩, rfl, rfl, rfl, rfl, rfl⟩

theorem SameCounts.trans {x y z : Dev} (h : SameCounts x y) (g : SameCounts y z) : SameCounts x z :=
  ⟨fun b => ⟨(g.1 b).1.trans (h.1 b).1, (g.1 b).2.trans (h.1 b).2⟩, g.2.1.trans h.2.1, g.2.2.1.trans h.2.2.1,
    g.2.2.2.1.trans h.2.2.2.1, g.2.2.2.2.1.trans h.2.2.2.2.1, g.2.2.2.2.2.trans h.2.2.2.2.2⟩

theorem SameCounts.ofGauge {x y : Dev} (h : y.gauge = x.gauge) (h1 : y.stash = x.stash) (h2 : y.ste = x.ste) (h3 : y.asm = x.asm)
    (h4 : y.cll = x.cll) (h5 : y.ts = x.ts) : SameCounts x y := by
  refine ⟨fun b => ?_, h1, h2, h3, h4, h5⟩
  have : y.axis b = x.axis b := by unfold Dev.axis; rw [h]
  rw [this]; exact ⟨rfl, rfl⟩

@[simp] theorem axis_setAxis_self (a : Nat) (z : Axis) (x : Dev) : (x.setAxis a z).axis a = z := Tbl.get_set_self _ _ _ _

theorem axis_setAxis_ne {a b : Nat} (z : Axis) (x : Dev) (h : b ≠ a) : (x.setAxis a z).axis b = x.axis b := Tbl.get_set_ne _ _ _ h

theorem sameCounts_setAxis (a : Nat) (z : Axis) (x : Dev) (h1 : z.c = (x.axis a).c) (h2 : z.state = (x.axis a).state) :
    SameCounts x (x.setAxis a z) := by
  refine ⟨fun k => ?_, rfl, rfl, rfl, rfl, rfl⟩
  by_cases hk : k = a
  · subst hk; rw [axis_setAxis_self]; exact ⟨h1, h2⟩
  · rw [axis_setAxis_ne _ _ hk]; exact ⟨rfl, rfl⟩

theorem sameCounts_wr64 (off : Nat) (v : DWord) (x : Dev) : SameCounts x (x.wr64 off v) := .ofGauge rfl rfl rfl rfl rfl rfl

theorem sameCounts_wr (off : Nat) (v : Word) (x : Dev) : SameCounts x (x.wr off v) := .ofGauge rfl rfl rfl rfl rfl rfl

theorem sameCounts_bump (off : Nat) (f : Fld) (n : Nat) (x : Dev) : SameCounts x (x.bump off f n) := .ofGauge rfl rfl rfl rfl rfl rfl

theorem sameCounts_count (off : Nat) (f : Fld) (n : Nat) (x : Dev) : SameCounts x (x.count off f n) := .ofGauge rfl rfl rfl rfl rfl rfl

theorem sameCounts_publish (s h : Nat) (x : Dev) : SameCounts x (x.publish s h) := by
  rw [publish_frame]; exact .ofGauge rfl rfl rfl rfl rfl rfl

theorem sameCounts_gaugeErr (a b : Nat) (x : Dev) : SameCounts x (x.gaugeErr a b) := by
  rw [gaugeErr_frame]; exact .ofGauge rfl rfl rfl rfl rfl rfl

theorem sameCounts_setUnc (a : Nat) (x : Dev) : SameCounts x (x.setUnc a) := by
  unfold Dev.setUnc
  split
  · exact .refl _
  · refine .trans ?_ (sameCounts_publish _ _ _)
    refine sameCounts_setAxis a _ _ ?_ ?_ <;> rfl

theorem sameCounts_unitStep (a u : Nat) (st : Int) (x : Dev) : SameCounts x (x.unitStep a st u) := by
  unfold Dev.unitStep
  dsimp only
  generalize (x.trig.units.get (fun _ => CmpUnit.init) u) = z
  by_cases h : (if z.state = .idle then x.f (R.TRIG_CMP_CFG u) F.TRIG_CMP_CFG_AXIS else z.axis) ≠ a
  · rw [if_pos h]; exact .refl _
  · rw [if_neg h]
    generalize (x.trig.units.set (fun _ => CmpUnit.init) u _) = us
    have k : SameCounts x { x with trig := { x.trig with units := us } } := .ofGauge rfl rfl rfl rfl rfl rfl
    split
    · exact k
    · exact k.trans (sameCounts_wr64 _ _ _)

theorem sameCounts_unitSteps (a : Nat) (st : Int) (l : List Nat) (x : Dev) : SameCounts x (l.foldl (fun y u => y.unitStep a st u) x) := by
  induction l generalizing x with
  | nil => exact .refl _
  | cons u l ih => exact (sameCounts_unitStep a u st x).trans (ih _)

theorem sameCounts_applyStep (a : Nat) (st : Int) (x : Dev) : SameCounts x (x.applyStep a st) := by
  unfold Dev.applyStep
  dsimp only
  have k := sameCounts_unitSteps a st (List.range 16) x
  generalize (List.range 16).foldl (fun y u => y.unitStep a st u) x = y at k
  split
  · exact k.trans (.ofGauge rfl rfl rfl rfl rfl rfl)
  · exact k

/-- A re-zero leaves every count as it is. -/
theorem sameCounts_reZero (a : Nat) (m w : Int) (x : Dev) : SameCounts x (x.reZero a m w) := by
  unfold Dev.reZero
  dsimp only
  refine .trans ?_ (sameCounts_applyStep a _ _)
  refine .trans ?_ (sameCounts_wr64 _ _ _)
  refine sameCounts_setAxis a _ _ ?_ ?_ <;> rfl

theorem sameCounts_scaleApply (a : Nat) (x : Dev) : SameCounts x (x.scaleApply a) := by
  unfold Dev.scaleApply
  dsimp only
  split
  · refine sameCounts_setAxis a _ _ ?_ ?_ <;> rfl
  · refine .trans ?_ (sameCounts_gaugeErr _ _ _)
    refine sameCounts_setAxis a _ _ ?_ ?_ <;> rfl

theorem sameCounts_refMark (a : Nat) (m ts : Int) (x : Dev) : SameCounts x (x.refMark a m ts).2 := by
  unfold Dev.refMark
  dsimp only
  split
  · exact .refl _
  · generalize hy : Dev.publish (Src.gaugeRef a) 0 _ = y
    have k : SameCounts x y := by
      rw [← hy]
      refine .trans ?_ (sameCounts_publish _ _ _)
      refine .trans ?_ (sameCounts_bump _ _ _ _)
      refine .trans ?_ (sameCounts_wr64 _ _ _)
      exact sameCounts_wr64 _ _ _
    have k2 : SameCounts x (y.modAxis a fun z => { z with refDone := true }) := by
      refine k.trans ?_
      refine sameCounts_setAxis a _ _ ?_ ?_ <;> rfl
    by_cases hm : x.f (R.GAUGE_REF_CFG a) F.GAUGE_REF_CFG_REF_MODE = 2
    · simp only [if_pos hm]
      split
      · dsimp only; exact k2.trans (sameCounts_reZero _ _ _ _)
      · exact k2
    · simp only [if_neg hm]
      split
      · dsimp only; exact k.trans (sameCounts_reZero _ _ _ _)
      · exact k

theorem sameCounts_takeMark (a : Nat) (x0 : Axis) (adv : Advance) (r : Bool) (x : Dev) : SameCounts x (x.takeMark a x0 adv r).2 := by
  unfold Dev.takeMark
  split
  · exact sameCounts_refMark _ _ _ _
  · exact .refl _

theorem sameCounts_takeZero (a : Nat) (m : Bool) (x : Dev) : SameCounts x (x.takeZero a m) := by
  unfold Dev.takeZero
  dsimp only
  split
  · cases m
    · rw [if_neg (by decide)]
      refine .trans ?_ (sameCounts_reZero _ _ _ _)
      refine sameCounts_setAxis a _ _ ?_ ?_ <;> rfl
    · rw [if_pos rfl]
      refine .trans ?_ (sameCounts_bump _ _ _ _)
      refine sameCounts_setAxis a _ _ ?_ ?_ <;> rfl
  · exact .refl _

theorem sameCounts_takeRequests (a : Nat) (x0 : Axis) (adv : Advance) (r : Bool) (x : Dev) :
    SameCounts x (x.takeRequests a x0 adv r) := by
  unfold Dev.takeRequests
  refine .trans ?_ (sameCounts_takeZero _ _ _)
  refine .trans ?_ (sameCounts_takeMark _ _ _ _ _)
  split
  · exact sameCounts_scaleApply _ _
  · exact .refl _

theorem sameCounts_sampleErrs (a : Nat) (x0 : Axis) (s : EncSample) (adv : Advance) (x : Dev) :
    SameCounts x (x.sampleErrs a x0 s adv) := by
  unfold Dev.sampleErrs
  dsimp only
  have k1 : SameCounts x (if adv.qerr then ((x.bump (R.GAUGE_CNT0 a) F.GAUGE_CNT0_QERR_CNT 1).gaugeErr a 1).setUnc a else x) := by
    split
    · exact ((sameCounts_bump _ _ _ _).trans (sameCounts_gaugeErr _ _ _)).trans (sameCounts_setUnc _ _)
    · exact .refl _
  generalize (if adv.qerr then ((x.bump (R.GAUGE_CNT0 a) F.GAUGE_CNT0_QERR_CNT 1).gaugeErr a 1).setUnc a else x) = y at k1
  have k2 : SameCounts x (if adv.ovr then (y.gaugeErr a 5).setUnc a else y) := by
    split
    · exact (k1.trans (sameCounts_gaugeErr _ _ _)).trans (sameCounts_setUnc _ _)
    · exact k1
  generalize (if adv.ovr then (y.gaugeErr a 5).setUnc a else y) = y2 at k2
  have k3 : ∀ p : Bool, SameCounts x (if p then y2.gaugeErr a 4 else y2) := by
    intro p
    cases p
    · exact k2
    · exact k2.trans (sameCounts_gaugeErr _ _ _)
  split
  · exact ((k3 _).trans (sameCounts_bump _ _ _ _)).trans (sameCounts_gaugeErr _ _ _)
  · exact k3 _

theorem sameCounts_judgeDir (a : Nat) (x : Dev) : SameCounts x (x.judgeDir a) := by
  unfold Dev.judgeDir
  extract_lets z h f
  have k : ∀ p : Prop, [Decidable p] → SameCounts x (if p then
      (x.setAxis a { z with dirRev := !z.dirRev, far := z.c, passes := [] }).publish (Src.gaugeReverse a) 0
      else x.setAxis a { z with far := f }) := by
    intro p _
    split
    · refine .trans ?_ (sameCounts_publish _ _ _)
      refine sameCounts_setAxis a _ _ ?_ ?_ <;> rfl
    · refine sameCounts_setAxis a _ _ ?_ ?_ <;> rfl
  exact k _

theorem sameCounts_judgeStill (a : Nat) (x : Dev) : SameCounts x (x.judgeStill a) := by
  unfold Dev.judgeStill
  dsimp only
  split
  · split
    · refine .trans ?_ (sameCounts_publish _ _ _)
      refine sameCounts_setAxis a _ _ ?_ ?_ <;> rfl
    · exact .refl _
  · split
    · exact .refl _
    · split
      · refine .trans ?_ (sameCounts_publish _ _ _)
        refine sameCounts_setAxis a _ _ ?_ ?_ <;> rfl
      · exact .refl _

theorem sameCounts_takeSpeed (a : Nat) (x : Dev) : SameCounts x (x.takeSpeed a) := (by refine sameCounts_setAxis a _ _ ?_ ?_ <;> rfl)

theorem sameCounts_takeSnap (a : Nat) (x : Dev) : SameCounts x (x.takeSnap a) := by
  unfold Dev.takeSnap
  dsimp only
  split
  · exact .refl _
  · split
    · exact .refl _
    · rename_i smp _ _
      have k : SameCounts x ((((x.setAxis a { x.axis a with reqSnap := false }).wr64 (R.GAUGE_SNAP_WP a) (wpWord (smp.wpFine / 65536))).wr64
          (R.GAUGE_SNAP_TS a) (wpWord smp.ts)).wr (R.GAUGE_SNAP_SPEED a) (BitVec.ofInt 32 (smp.speed.tdiv 65536))) := by
        refine .trans ?_ (sameCounts_wr _ _ _)
        refine .trans ?_ (sameCounts_wr64 _ _ _)
        refine .trans ?_ (sameCounts_wr64 _ _ _)
        refine sameCounts_setAxis a _ _ ?_ ?_ <;> rfl
      split
      · exact k
      · exact k.trans (sameCounts_count _ _ _ _)

end Sys2Proof.Machine
end

