-- ==== Sys2Proof/Laws/Issue.lean ====
section
/-! SUPPORT. What the issue of a bundle comes to: one lemma per outcome of the operations in its slots, so that no proof about an
operation unfolds the issue itself. -/

namespace Sys2Proof.Machine

theorem slotS_zero : slotS 0 = some (opNop 0) := by rfl

theorem slotV_zero : slotV 0 = some (opVnop 0) := by rfl

/-- The PC after the bundle, where the bundle is not the last one. -/
theorem bundleActs_none (k : Ctx) (f g : Dev → Dev) (d : Dev) (h : k.x.pc < 1023) :
    d.bundleActs k f g none = f (g (d.advance k)) := by
  unfold Dev.bundleActs Dev.advance
  have h1 : ¬ (1023 < (k.x.pc : Int) + 1) := by omega
  have h2 : ((k.x.pc : Int) + 1).toNat = k.x.pc + 1 := by omega
  simp [h1, h2]

theorem bundleActs_jump (k : Ctx) (f g : Dev → Dev) (t : Int) (d : Dev) (h : 0 ≤ t) (h' : t ≤ 1023) :
    d.bundleActs k f g (some t) = f (g (d.modEng k.e fun x => { x with pc := t.toNat })) := by
  unfold Dev.bundleActs
  have h1 : ¬ (t < 0) := by omega
  have h2 : ¬ (1023 < t) := by omega
  simp [h1, h2]

theorem bundleActs_out (k : Ctx) (f g : Dev → Dev) (t : Int) (d : Dev) (h : t < 0 ∨ 1023 < t) :
    d.bundleActs k f g (some t) = d.kernelFault k.e 5 0 0 := by
  unfold Dev.bundleActs
  simp [h]

/-- Two operations that both go. -/
theorem bundle_go (k : Ctx) (a b : SlotOp) (d : Dev) (f g : Dev → Dev) (j j' : Option Int) (h1 : a.legal = true) (h2 : b.legal = true)
    (h3 : a.dst.any (fun r => b.dst.contains r) = false) (h4 : a.run k d = .go f j) (h5 : b.run k d = .go g j') :
    d.bundle k a b = d.bundleActs k f g j := by
  unfold Dev.bundle
  simp only [h1, h2, h3, h4, h5]
  rfl

theorem SlotOp.zero_legal (o : SlotOp) (w m : Word) (h : o.legal = true) (hz : w &&& m = 0) : (o.zero w m).legal = true := by
  unfold SlotOp.zero; simp [h, hz]

theorem SlotOp.zero_illegal (o : SlotOp) (w m : Word) (h : o.legal = false ∨ w &&& m ≠ 0) : (o.zero w m).legal = false := by
  unfold SlotOp.zero
  simp only [Bool.and_eq_false_iff]
  rcases h with h | h
  · exact .inl h
  · exact .inr (by simpa using h)

theorem issueS_fetch {e : Nat} {k : Ctx} {w word care zero : Word} {o : SlotOp} {d : Dev} (h : IssuesS e k w d) (hw : w &&& care = word) :
    d.issueS e word care zero o = d.bundle k (o.zero w zero) (opVnop 0) := by
  unfold Dev.issueS
  rw [h.1]
  simp only [hw, slotV_zero]
  rfl

theorem issueV_fetch {e : Nat} {k : Ctx} {w word care zero : Word} {o : SlotOp} {d : Dev} (h : IssuesV e k w d) (hw : w &&& care = word) :
    d.issueV e word care zero o = d.bundle k (opNop 0) (o.zero w zero) := by
  unfold Dev.issueV
  rw [h.1]
  simp only [hw, slotS_zero]
  rfl

/-- The operation acts and the next bundle follows. -/
theorem issueS_go {e : Nat} {k : Ctx} {w word care zero : Word} {o : SlotOp} {d : Dev} {f : Dev → Dev} (h : IssuesS e k w d)
    (hw : w &&& care = word) (hz : w &&& zero = 0) (hl : o.legal = true) (hr : o.run k d = .go f none) :
    d.issueS e word care zero o = f (d.advance k) := by
  rw [issueS_fetch h hw, bundle_go k _ _ d f id none none (SlotOp.zero_legal o w zero hl hz) rfl (by simp [opVnop]) hr rfl,
    bundleActs_none k f id d h.2]
  rfl

/-- The operation acts and names the next bundle. -/
theorem issueS_jump {e : Nat} {k : Ctx} {w word care zero : Word} {o : SlotOp} {d : Dev} {f : Dev → Dev} {t : Int} (h : IssuesS e k w d)
    (hw : w &&& care = word) (hz : w &&& zero = 0) (hl : o.legal = true) (hr : o.run k d = .go f (some t)) (h0 : 0 ≤ t) (h1 : t ≤ 1023) :
    d.issueS e word care zero o = f (d.modEng k.e fun x => { x with pc := t.toNat }) := by
  rw [issueS_fetch h hw, bundle_go k _ _ d f id (some t) none (SlotOp.zero_legal o w zero hl hz) rfl (by simp [opVnop]) hr rfl,
    bundleActs_jump k f id t d h0 h1]
  rfl

/-- A jump out of instruction memory. -/
theorem issueS_out {e : Nat} {k : Ctx} {w word care zero : Word} {o : SlotOp} {d : Dev} {f : Dev → Dev} {t : Int} (h : IssuesS e k w d)
    (hw : w &&& care = word) (hz : w &&& zero = 0) (hl : o.legal = true) (hr : o.run k d = .go f (some t)) (h0 : t < 0 ∨ 1023 < t) :
    d.issueS e word care zero o = d.kernelFault k.e 5 0 0 := by
  rw [issueS_fetch h hw, bundle_go k _ _ d f id (some t) none (SlotOp.zero_legal o w zero hl hz) rfl (by simp [opVnop]) hr rfl,
    bundleActs_out k f id t d h0]

theorem issueS_fault {e : Nat} {k : Ctx} {w word care zero : Word} {o : SlotOp} {d y : Dev} {c : Nat} (h : IssuesS e k w d)
    (hw : w &&& care = word) (hz : w &&& zero = 0) (hl : o.legal = true) (hr : o.run k d = .fault c y) :
    d.issueS e word care zero o = y.kernelFault k.e c 0 0 := by
  rw [issueS_fetch h hw]
  have hr' : (o.zero w zero).run k d = .fault c y := hr
  unfold Dev.bundle
  rw [hr']
  simp [SlotOp.zero_legal o w zero hl hz, opVnop]

theorem issueS_stall {e : Nat} {k : Ctx} {w word care zero : Word} {o : SlotOp} {d y : Dev} (h : IssuesS e k w d)
    (hw : w &&& care = word) (hz : w &&& zero = 0) (hl : o.legal = true) (hr : o.run k d = .stall y) :
    d.issueS e word care zero o = y := by
  rw [issueS_fetch h hw]
  have hr' : (o.zero w zero).run k d = .stall y := hr
  unfold Dev.bundle
  rw [hr']
  simp [SlotOp.zero_legal o w zero hl hz, opVnop]

theorem issueS_illegal {e : Nat} {k : Ctx} {w word care zero : Word} {o : SlotOp} {d : Dev} (h : IssuesS e k w d)
    (hw : w &&& care = word) (hl : o.legal = false ∨ w &&& zero ≠ 0) :
    d.issueS e word care zero o = d.kernelFault k.e 1 0 0 := by
  rw [issueS_fetch h hw]
  have hr' : (o.zero w zero).legal = false := SlotOp.zero_illegal o w zero hl
  unfold Dev.bundle
  simp [hr']

theorem issueV_go {e : Nat} {k : Ctx} {w word care zero : Word} {o : SlotOp} {d : Dev} {f : Dev → Dev} (h : IssuesV e k w d)
    (hw : w &&& care = word) (hz : w &&& zero = 0) (hl : o.legal = true) (hr : o.run k d = .go f none) :
    d.issueV e word care zero o = f (d.advance k) := by
  rw [issueV_fetch h hw, bundle_go k _ _ d id f none none rfl (SlotOp.zero_legal o w zero hl hz) (by simp [opNop]) rfl hr,
    bundleActs_none k id f d h.2]
  rfl

theorem issueV_fault {e : Nat} {k : Ctx} {w word care zero : Word} {o : SlotOp} {d y : Dev} {c : Nat} (h : IssuesV e k w d)
    (hw : w &&& care = word) (hz : w &&& zero = 0) (hl : o.legal = true) (hr : o.run k d = .fault c y) :
    d.issueV e word care zero o = y.kernelFault k.e c 1 0 := by
  rw [issueV_fetch h hw]
  have hr' : (o.zero w zero).run k d = .fault c y := hr
  unfold Dev.bundle
  rw [hr']
  simp [SlotOp.zero_legal o w zero hl hz, opNop]

theorem issueV_illegal {e : Nat} {k : Ctx} {w word care zero : Word} {o : SlotOp} {d : Dev} (h : IssuesV e k w d)
    (hw : w &&& care = word) (hl : o.legal = false ∨ w &&& zero ≠ 0) :
    d.issueV e word care zero o = d.kernelFault k.e 1 1 0 := by
  rw [issueV_fetch h hw]
  have hr' : (o.zero w zero).legal = false := SlotOp.zero_illegal o w zero hl
  unfold Dev.bundle
  simp [hr', opNop]

end Sys2Proof.Machine
end

