-- ==== Sys2Proof/Laws/Lanes.lean ====
section
/-! SUPPORT. Lanes and predicate bits: a lane of a register built from lanes is that lane, and a merge keeps what its predicate does not
enable. -/

namespace Sys2Proof.Machine

theorem digits_lt (B : Nat) (hB : 0 < B) (g : Nat → Nat) (hg : ∀ i, g i < B) (n : Nat) :
    ((List.range n).map (fun i => g i * B ^ i)).sum < B ^ n := by
  induction n with
  | zero => simp
  | succ n ih =>
    rw [List.range_succ, List.map_append, List.sum_append]
    simp only [List.map_cons, List.map_nil, List.sum_cons, List.sum_nil, Nat.add_zero]
    have h : g n * B ^ n + B ^ n ≤ B * B ^ n := by
      have := Nat.mul_le_mul_right (B ^ n) (Nat.succ_le_of_lt (hg n))
      rwa [Nat.succ_mul] at this
    rw [pow_succ, Nat.mul_comm (B ^ n) B]
    omega

/-- A digit of a number written with its digits. -/
theorem digits_get (B : Nat) (hB : 0 < B) (g : Nat → Nat) (hg : ∀ i, g i < B) (n j : Nat) (hj : j < n) :
    ((List.range n).map (fun i => g i * B ^ i)).sum / B ^ j % B = g j := by
  induction n with
  | zero => omega
  | succ n ih =>
    rw [List.range_succ, List.map_append, List.sum_append]
    simp only [List.map_cons, List.map_nil, List.sum_cons, List.sum_nil, Nat.add_zero]
    by_cases h : j = n
    · subst h
      rw [Nat.add_mul_div_right _ _ (Nat.pow_pos hB), Nat.div_eq_of_lt (digits_lt B hB g hg j), Nat.zero_add, Nat.mod_eq_of_lt (hg j)]
    · have h1 : B ^ n = B ^ (n - j - 1) * B * B ^ j := by
        rw [← pow_succ, ← pow_add]; congr 1; omega
      rw [h1, ← Nat.mul_assoc, Nat.add_mul_div_right _ _ (Nat.pow_pos hB), ← Nat.mul_assoc, Nat.add_mul_mod_self_right]
      exact ih (by omega)

theorem laneBits_total (w : Bool) : laneBits w * laneCount w = 256 := by cases w <;> rfl

/-- A lane of a register built from lanes. -/
theorem lane_ofLanes (w : Bool) (f : Nat → Nat) {i : Nat} (h : i < laneCount w) : lane w (ofLanes w f) i = f i % 2 ^ laneBits w := by
  unfold lane ofLanes
  have hB : 0 < 2 ^ laneBits w := Nat.two_pow_pos _
  have hg : ∀ i, f i % 2 ^ laneBits w < 2 ^ laneBits w := fun i => Nat.mod_lt _ hB
  have he : (fun i => f i % 2 ^ laneBits w * 2 ^ (laneBits w * i)) = fun i => (f i % 2 ^ laneBits w) * (2 ^ laneBits w) ^ i := by
    funext i; rw [pow_mul]
  have hlt := digits_lt _ hB (fun i => f i % 2 ^ laneBits w) hg (laneCount w)
  rw [← pow_mul, laneBits_total] at hlt
  rw [he, BitVec.toNat_ofNat, Nat.mod_eq_of_lt hlt, pow_mul]
  exact digits_get _ hB (fun i => f i % 2 ^ laneBits w) hg _ _ h

theorem lane_lt (w : Bool) (v : VWord) (i : Nat) : lane w v i < 2 ^ laneBits w := Nat.mod_lt _ (Nat.two_pow_pos _)

/-- A lane after a merge. -/
theorem lane_mergeLanes (w : Bool) (p : Word) (old new : VWord) {i : Nat} (h : i < laneCount w) :
    lane w (mergeLanes w p old new) i = if enabled w p i then lane w new i else lane w old i := by
  unfold mergeLanes
  rw [lane_ofLanes w _ h]
  split <;> exact Nat.mod_eq_of_lt (lane_lt _ _ _)

theorem ofPlaces_getLsbD (f : Nat → Bool) {j : Nat} (h : j < 32) : (ofPlaces f).getLsbD j = f j := by
  unfold ofPlaces ofBits
  have hg : ∀ i, (if f i then 1 else 0) < 2 := fun i => by split <;> omega
  have he : ((List.range 32).map (fun j => (f j, j))).map (fun p => if p.1 then 2 ^ p.2 else 0)
      = (List.range 32).map (fun i => (if f i then 1 else 0) * 2 ^ i) := by
    rw [List.map_map]; congr 1; funext i; simp
  have hlt := digits_lt 2 (by decide) (fun i => if f i then 1 else 0) hg 32
  have hd := digits_get 2 (by decide) (fun i => if f i then 1 else 0) hg 32 j h
  rw [he, BitVec.getLsbD_ofNat, Nat.testBit_eq_decide_div_mod_eq, hd]
  simp [h]

end Sys2Proof.Machine
end

