-- ==== Sys2Proof/Laws/Slots.lean ====
section
/-! SUPPORT. The words of the slot formats bit by bit, and under the masks that the commands compare them with: the bits that must be 0
are 0, and a mask leaves out only bits that the operation does not use. -/

namespace Sys2Proof.Machine

theorem encR_bit (op : BitVec 6) (rd : BitVec 4) (ra : BitVec 4) (rb : BitVec 4) (fn : BitVec 6) (i : Nat) :
    (encR op rd ra rb fn).getLsbD i =
    if i < 8 then (0#8).getLsbD i
    else if i < 14 then fn.getLsbD (i - 8)
    else if i < 18 then rb.getLsbD (i - 14)
    else if i < 22 then ra.getLsbD (i - 18)
    else if i < 26 then rd.getLsbD (i - 22)
    else op.getLsbD (i - 26) := by
  show BitVec.getLsbD (op ++ rd ++ ra ++ rb ++ fn ++ 0#8) i = _
  simp only [BitVec.getLsbD_append]
  split_ifs <;> first | rfl | omega | (congr 1; omega)

theorem encI_bit (op : BitVec 6) (rd : BitVec 4) (ra : BitVec 4) (imm : BitVec 18) (i : Nat) :
    (encI op rd ra imm).getLsbD i =
    if i < 18 then imm.getLsbD i
    else if i < 22 then ra.getLsbD (i - 18)
    else if i < 26 then rd.getLsbD (i - 22)
    else op.getLsbD (i - 26) := by
  show BitVec.getLsbD (op ++ rd ++ ra ++ imm) i = _
  simp only [BitVec.getLsbD_append]
  split_ifs <;> first | rfl | omega | (congr 1; omega)

theorem encL_bit (op : BitVec 6) (rd : BitVec 4) (imm : BitVec 22) (i : Nat) :
    (encL op rd imm).getLsbD i =
    if i < 22 then imm.getLsbD i
    else if i < 26 then rd.getLsbD (i - 22)
    else op.getLsbD (i - 26) := by
  show BitVec.getLsbD (op ++ rd ++ imm) i = _
  simp only [BitVec.getLsbD_append]
  split_ifs <;> first | rfl | omega | (congr 1; omega)

theorem encVR_bit (op : BitVec 6) (vd : BitVec 5) (va : BitVec 5) (vb : BitVec 5) (pm : BitVec 3) (w : Bool) (fn : BitVec 7) (i : Nat) :
    (encVR op vd va vb pm w fn).getLsbD i =
    if i < 7 then fn.getLsbD i
    else if i < 8 then (bitw w).getLsbD (i - 7)
    else if i < 11 then pm.getLsbD (i - 8)
    else if i < 16 then vb.getLsbD (i - 11)
    else if i < 21 then va.getLsbD (i - 16)
    else if i < 26 then vd.getLsbD (i - 21)
    else op.getLsbD (i - 26) := by
  show BitVec.getLsbD (op ++ vd ++ va ++ vb ++ pm ++ bitw w ++ fn) i = _
  simp only [BitVec.getLsbD_append]
  split_ifs <;> first | rfl | omega | (congr 1; omega)

theorem encVI_bit (op : BitVec 6) (vd : BitVec 5) (va : BitVec 5) (pm : BitVec 3) (w : Bool) (imm : BitVec 12) (i : Nat) :
    (encVI op vd va pm w imm).getLsbD i =
    if i < 12 then imm.getLsbD i
    else if i < 13 then (bitw w).getLsbD (i - 12)
    else if i < 16 then pm.getLsbD (i - 13)
    else if i < 21 then va.getLsbD (i - 16)
    else if i < 26 then vd.getLsbD (i - 21)
    else op.getLsbD (i - 26) := by
  show BitVec.getLsbD (op ++ vd ++ va ++ pm ++ bitw w ++ imm) i = _
  simp only [BitVec.getLsbD_append]
  split_ifs <;> first | rfl | omega | (congr 1; omega)

theorem encVS_bit (op : BitVec 6) (vd : BitVec 5) (va : BitVec 5) (sb : BitVec 4) (pm : BitVec 3) (w : Bool) (fn : BitVec 8) (i : Nat) :
    (encVS op vd va sb pm w fn).getLsbD i =
    if i < 8 then fn.getLsbD i
    else if i < 9 then (bitw w).getLsbD (i - 8)
    else if i < 12 then pm.getLsbD (i - 9)
    else if i < 16 then sb.getLsbD (i - 12)
    else if i < 21 then va.getLsbD (i - 16)
    else if i < 26 then vd.getLsbD (i - 21)
    else op.getLsbD (i - 26) := by
  show BitVec.getLsbD (op ++ vd ++ va ++ sb ++ pm ++ bitw w ++ fn) i = _
  simp only [BitVec.getLsbD_append]
  split_ifs <;> first | rfl | omega | (congr 1; omega)

theorem encVM_bit (op : BitVec 6) (vd : BitVec 5) (sa : BitVec 4) (pm : BitVec 3) (inc : Bool) (imm : BitVec 13) (i : Nat) :
    (encVM op vd sa pm inc imm).getLsbD i =
    if i < 13 then imm.getLsbD i
    else if i < 14 then (bitw inc).getLsbD (i - 13)
    else if i < 17 then pm.getLsbD (i - 14)
    else if i < 21 then sa.getLsbD (i - 17)
    else if i < 26 then vd.getLsbD (i - 21)
    else op.getLsbD (i - 26) := by
  show BitVec.getLsbD (op ++ vd ++ sa ++ pm ++ bitw inc ++ imm) i = _
  simp only [BitVec.getLsbD_append]
  split_ifs <;> first | rfl | omega | (congr 1; omega)

theorem encR_care (op : BitVec 6) (rd ra rb : BitVec 4) (fn : BitVec 6) :
    encR op rd ra rb fn &&& 0xFFFFFF00 = encR op rd ra rb fn := by
  apply BitVec.eq_of_getLsbD_eq
  intro i hi
  simp only [BitVec.getLsbD_and, encR_bit]
  interval_cases i <;> simp [predField, scalarField]

theorem encR_zero (op : BitVec 6) (rd ra rb : BitVec 4) (fn : BitVec 6) :
    encR op rd ra rb fn &&& 0xFF = 0 := by
  apply BitVec.eq_of_getLsbD_eq
  intro i hi
  simp only [BitVec.getLsbD_and, encR_bit]
  interval_cases i <;> simp [predField, scalarField]

theorem encI_shift_care (op : BitVec 6) (rd ra : BitVec 4) (imm : BitVec 5) :
    encI op rd ra (imm.setWidth 18) &&& 0xFFFC001F = encI op rd ra (imm.setWidth 18) := by
  apply BitVec.eq_of_getLsbD_eq
  intro i hi
  simp only [BitVec.getLsbD_and, encI_bit]
  interval_cases i <;> simp [predField, scalarField]

theorem encI_shift_zero (op : BitVec 6) (rd ra : BitVec 4) (imm : BitVec 5) :
    encI op rd ra (imm.setWidth 18) &&& 0x3FFE0 = 0 := by
  apply BitVec.eq_of_getLsbD_eq
  intro i hi
  simp only [BitVec.getLsbD_and, encI_bit]
  interval_cases i <;> simp [predField, scalarField]

theorem encI_pred_care (op : BitVec 6) (pa : BitVec 3) (off : BitVec 18) :
    encI op (pa.setWidth 4) 0 off &&& 0xFDC3FFFF = encI op (pa.setWidth 4) 0 off := by
  apply BitVec.eq_of_getLsbD_eq
  intro i hi
  simp only [BitVec.getLsbD_and, encI_bit]
  interval_cases i <;> simp [predField, scalarField]

theorem encI_pred_zero (op : BitVec 6) (pa : BitVec 3) (off : BitVec 18) :
    encI op (pa.setWidth 4) 0 off &&& 0x23C0000 = 0 := by
  apply BitVec.eq_of_getLsbD_eq
  intro i hi
  simp only [BitVec.getLsbD_and, encI_bit]
  interval_cases i <;> simp [predField, scalarField]

theorem encVR_pred_care (op : BitVec 6) (pd : BitVec 3) (va vb : BitVec 5) (pm : BitVec 3) (w : Bool) (fn : BitVec 7) :
    encVR op (predField pd) va vb pm w fn &&& 0xFCFFFFFF = encVR op (predField pd) va vb pm w fn := by
  apply BitVec.eq_of_getLsbD_eq
  intro i hi
  simp only [BitVec.getLsbD_and, encVR_bit]
  interval_cases i <;> simp [predField, scalarField]

theorem encVR_pred_zero (op : BitVec 6) (pd : BitVec 3) (va vb : BitVec 5) (pm : BitVec 3) (w : Bool) (fn : BitVec 7) :
    encVR op (predField pd) va vb pm w fn &&& 0x3000000 = 0 := by
  apply BitVec.eq_of_getLsbD_eq
  intro i hi
  simp only [BitVec.getLsbD_and, encVR_bit]
  interval_cases i <;> simp [predField, scalarField]

theorem encVR_preds_care (op : BitVec 6) (pd pa pb pm : BitVec 3) (w : Bool) (fn : BitVec 7) :
    encVR op (predField pd) (predField pa) (predField pb) pm w fn &&& 0xFCE73FFF = encVR op (predField pd) (predField pa) (predField pb) pm w fn := by
  apply BitVec.eq_of_getLsbD_eq
  intro i hi
  simp only [BitVec.getLsbD_and, encVR_bit]
  interval_cases i <;> simp [predField, scalarField]

theorem encVR_preds_zero (op : BitVec 6) (pd pa pb pm : BitVec 3) (w : Bool) (fn : BitVec 7) :
    encVR op (predField pd) (predField pa) (predField pb) pm w fn &&& 0x318C000 = 0 := by
  apply BitVec.eq_of_getLsbD_eq
  intro i hi
  simp only [BitVec.getLsbD_and, encVR_bit]
  interval_cases i <;> simp [predField, scalarField]

theorem encVI_shift_care (op : BitVec 6) (vd va : BitVec 5) (pm : BitVec 3) (w : Bool) (imm : BitVec 4) :
    encVI op vd va pm w (imm.setWidth 12) &&& 0xFFFFF00F = encVI op vd va pm w (imm.setWidth 12) := by
  apply BitVec.eq_of_getLsbD_eq
  intro i hi
  simp only [BitVec.getLsbD_and, encVI_bit]
  interval_cases i <;> simp [predField, scalarField]

theorem encVI_shift_zero (op : BitVec 6) (vd va : BitVec 5) (pm : BitVec 3) (w : Bool) (imm : BitVec 4) :
    encVI op vd va pm w (imm.setWidth 12) &&& 0xFF0 = 0 := by
  apply BitVec.eq_of_getLsbD_eq
  intro i hi
  simp only [BitVec.getLsbD_and, encVI_bit]
  interval_cases i <;> simp [predField, scalarField]

theorem encVR_scalar_care (op : BitVec 6) (sd : BitVec 4) (va vb : BitVec 5) (pm : BitVec 3) (w : Bool) (fn : BitVec 7) :
    encVR op (scalarField sd) va vb pm w fn &&& 0xFDFFFFFF = encVR op (scalarField sd) va vb pm w fn := by
  apply BitVec.eq_of_getLsbD_eq
  intro i hi
  simp only [BitVec.getLsbD_and, encVR_bit]
  interval_cases i <;> simp [predField, scalarField]

theorem encVR_scalar_zero (op : BitVec 6) (sd : BitVec 4) (va vb : BitVec 5) (pm : BitVec 3) (w : Bool) (fn : BitVec 7) :
    encVR op (scalarField sd) va vb pm w fn &&& 0x2000000 = 0 := by
  apply BitVec.eq_of_getLsbD_eq
  intro i hi
  simp only [BitVec.getLsbD_and, encVR_bit]
  interval_cases i <;> simp [predField, scalarField]

theorem care_all (w : Word) : w &&& 0xFFFFFFFF = w := BitVec.and_allOnes

theorem zero_none (w : Word) : w &&& 0 = 0 := BitVec.and_zero

theorem encR_op (op : BitVec 6) (rd : BitVec 4) (ra : BitVec 4) (rb : BitVec 4) (fn : BitVec 6) : (encR op rd ra rb fn).extractLsb' 26 6 = op := by
  apply BitVec.eq_of_getLsbD_eq
  intro i hi
  rw [BitVec.getLsbD_extractLsb', encR_bit]
  interval_cases i <;> simp

theorem encR_rd (op : BitVec 6) (rd : BitVec 4) (ra : BitVec 4) (rb : BitVec 4) (fn : BitVec 6) : (encR op rd ra rb fn).extractLsb' 22 4 = rd := by
  apply BitVec.eq_of_getLsbD_eq
  intro i hi
  rw [BitVec.getLsbD_extractLsb', encR_bit]
  interval_cases i <;> simp

theorem encR_ra (op : BitVec 6) (rd : BitVec 4) (ra : BitVec 4) (rb : BitVec 4) (fn : BitVec 6) : (encR op rd ra rb fn).extractLsb' 18 4 = ra := by
  apply BitVec.eq_of_getLsbD_eq
  intro i hi
  rw [BitVec.getLsbD_extractLsb', encR_bit]
  interval_cases i <;> simp

theorem encR_rb (op : BitVec 6) (rd : BitVec 4) (ra : BitVec 4) (rb : BitVec 4) (fn : BitVec 6) : (encR op rd ra rb fn).extractLsb' 14 4 = rb := by
  apply BitVec.eq_of_getLsbD_eq
  intro i hi
  rw [BitVec.getLsbD_extractLsb', encR_bit]
  interval_cases i <;> simp

theorem encR_fn (op : BitVec 6) (rd : BitVec 4) (ra : BitVec 4) (rb : BitVec 4) (fn : BitVec 6) : (encR op rd ra rb fn).extractLsb' 8 6 = fn := by
  apply BitVec.eq_of_getLsbD_eq
  intro i hi
  rw [BitVec.getLsbD_extractLsb', encR_bit]
  interval_cases i <;> simp

theorem encI_op (op : BitVec 6) (rd : BitVec 4) (ra : BitVec 4) (imm : BitVec 18) : (encI op rd ra imm).extractLsb' 26 6 = op := by
  apply BitVec.eq_of_getLsbD_eq
  intro i hi
  rw [BitVec.getLsbD_extractLsb', encI_bit]
  interval_cases i <;> simp

theorem encI_rd (op : BitVec 6) (rd : BitVec 4) (ra : BitVec 4) (imm : BitVec 18) : (encI op rd ra imm).extractLsb' 22 4 = rd := by
  apply BitVec.eq_of_getLsbD_eq
  intro i hi
  rw [BitVec.getLsbD_extractLsb', encI_bit]
  interval_cases i <;> simp

theorem encI_ra (op : BitVec 6) (rd : BitVec 4) (ra : BitVec 4) (imm : BitVec 18) : (encI op rd ra imm).extractLsb' 18 4 = ra := by
  apply BitVec.eq_of_getLsbD_eq
  intro i hi
  rw [BitVec.getLsbD_extractLsb', encI_bit]
  interval_cases i <;> simp

theorem encI_imm (op : BitVec 6) (rd : BitVec 4) (ra : BitVec 4) (imm : BitVec 18) : (encI op rd ra imm).extractLsb' 0 18 = imm := by
  apply BitVec.eq_of_getLsbD_eq
  intro i hi
  rw [BitVec.getLsbD_extractLsb', encI_bit]
  interval_cases i <;> simp

theorem encL_op (op : BitVec 6) (rd : BitVec 4) (imm : BitVec 22) : (encL op rd imm).extractLsb' 26 6 = op := by
  apply BitVec.eq_of_getLsbD_eq
  intro i hi
  rw [BitVec.getLsbD_extractLsb', encL_bit]
  interval_cases i <;> simp

theorem encL_rd (op : BitVec 6) (rd : BitVec 4) (imm : BitVec 22) : (encL op rd imm).extractLsb' 22 4 = rd := by
  apply BitVec.eq_of_getLsbD_eq
  intro i hi
  rw [BitVec.getLsbD_extractLsb', encL_bit]
  interval_cases i <;> simp

theorem encL_imm (op : BitVec 6) (rd : BitVec 4) (imm : BitVec 22) : (encL op rd imm).extractLsb' 0 22 = imm := by
  apply BitVec.eq_of_getLsbD_eq
  intro i hi
  rw [BitVec.getLsbD_extractLsb', encL_bit]
  interval_cases i <;> simp

theorem encVR_op (op : BitVec 6) (vd : BitVec 5) (va : BitVec 5) (vb : BitVec 5) (pm : BitVec 3) (w : Bool) (fn : BitVec 7) : (encVR op vd va vb pm w fn).extractLsb' 26 6 = op := by
  apply BitVec.eq_of_getLsbD_eq
  intro i hi
  rw [BitVec.getLsbD_extractLsb', encVR_bit]
  interval_cases i <;> simp

theorem encVR_vd (op : BitVec 6) (vd : BitVec 5) (va : BitVec 5) (vb : BitVec 5) (pm : BitVec 3) (w : Bool) (fn : BitVec 7) : (encVR op vd va vb pm w fn).extractLsb' 21 5 = vd := by
  apply BitVec.eq_of_getLsbD_eq
  intro i hi
  rw [BitVec.getLsbD_extractLsb', encVR_bit]
  interval_cases i <;> simp

theorem encVR_va (op : BitVec 6) (vd : BitVec 5) (va : BitVec 5) (vb : BitVec 5) (pm : BitVec 3) (w : Bool) (fn : BitVec 7) : (encVR op vd va vb pm w fn).extractLsb' 16 5 = va := by
  apply BitVec.eq_of_getLsbD_eq
  intro i hi
  rw [BitVec.getLsbD_extractLsb', encVR_bit]
  interval_cases i <;> simp

theorem encVR_vb (op : BitVec 6) (vd : BitVec 5) (va : BitVec 5) (vb : BitVec 5) (pm : BitVec 3) (w : Bool) (fn : BitVec 7) : (encVR op vd va vb pm w fn).extractLsb' 11 5 = vb := by
  apply BitVec.eq_of_getLsbD_eq
  intro i hi
  rw [BitVec.getLsbD_extractLsb', encVR_bit]
  interval_cases i <;> simp

theorem encVR_pm (op : BitVec 6) (vd : BitVec 5) (va : BitVec 5) (vb : BitVec 5) (pm : BitVec 3) (w : Bool) (fn : BitVec 7) : (encVR op vd va vb pm w fn).extractLsb' 8 3 = pm := by
  apply BitVec.eq_of_getLsbD_eq
  intro i hi
  rw [BitVec.getLsbD_extractLsb', encVR_bit]
  interval_cases i <;> simp

theorem encVR_w (op : BitVec 6) (vd : BitVec 5) (va : BitVec 5) (vb : BitVec 5) (pm : BitVec 3) (w : Bool) (fn : BitVec 7) : (encVR op vd va vb pm w fn).getLsbD 7 = w := by
  rw [encVR_bit]
  cases w <;> rfl

theorem encVR_fn (op : BitVec 6) (vd : BitVec 5) (va : BitVec 5) (vb : BitVec 5) (pm : BitVec 3) (w : Bool) (fn : BitVec 7) : (encVR op vd va vb pm w fn).extractLsb' 0 7 = fn := by
  apply BitVec.eq_of_getLsbD_eq
  intro i hi
  rw [BitVec.getLsbD_extractLsb', encVR_bit]
  interval_cases i <;> simp

theorem encVI_op (op : BitVec 6) (vd : BitVec 5) (va : BitVec 5) (pm : BitVec 3) (w : Bool) (imm : BitVec 12) : (encVI op vd va pm w imm).extractLsb' 26 6 = op := by
  apply BitVec.eq_of_getLsbD_eq
  intro i hi
  rw [BitVec.getLsbD_extractLsb', encVI_bit]
  interval_cases i <;> simp

theorem encVI_vd (op : BitVec 6) (vd : BitVec 5) (va : BitVec 5) (pm : BitVec 3) (w : Bool) (imm : BitVec 12) : (encVI op vd va pm w imm).extractLsb' 21 5 = vd := by
  apply BitVec.eq_of_getLsbD_eq
  intro i hi
  rw [BitVec.getLsbD_extractLsb', encVI_bit]
  interval_cases i <;> simp

theorem encVI_va (op : BitVec 6) (vd : BitVec 5) (va : BitVec 5) (pm : BitVec 3) (w : Bool) (imm : BitVec 12) : (encVI op vd va pm w imm).extractLsb' 16 5 = va := by
  apply BitVec.eq_of_getLsbD_eq
  intro i hi
  rw [BitVec.getLsbD_extractLsb', encVI_bit]
  interval_cases i <;> simp

theorem encVI_pm (op : BitVec 6) (vd : BitVec 5) (va : BitVec 5) (pm : BitVec 3) (w : Bool) (imm : BitVec 12) : (encVI op vd va pm w imm).extractLsb' 13 3 = pm := by
  apply BitVec.eq_of_getLsbD_eq
  intro i hi
  rw [BitVec.getLsbD_extractLsb', encVI_bit]
  interval_cases i <;> simp

theorem encVI_w (op : BitVec 6) (vd : BitVec 5) (va : BitVec 5) (pm : BitVec 3) (w : Bool) (imm : BitVec 12) : (encVI op vd va pm w imm).getLsbD 12 = w := by
  rw [encVI_bit]
  cases w <;> rfl

theorem encVI_imm (op : BitVec 6) (vd : BitVec 5) (va : BitVec 5) (pm : BitVec 3) (w : Bool) (imm : BitVec 12) : (encVI op vd va pm w imm).extractLsb' 0 12 = imm := by
  apply BitVec.eq_of_getLsbD_eq
  intro i hi
  rw [BitVec.getLsbD_extractLsb', encVI_bit]
  interval_cases i <;> simp

theorem encVS_op (op : BitVec 6) (vd : BitVec 5) (va : BitVec 5) (sb : BitVec 4) (pm : BitVec 3) (w : Bool) (fn : BitVec 8) : (encVS op vd va sb pm w fn).extractLsb' 26 6 = op := by
  apply BitVec.eq_of_getLsbD_eq
  intro i hi
  rw [BitVec.getLsbD_extractLsb', encVS_bit]
  interval_cases i <;> simp

theorem encVS_vd (op : BitVec 6) (vd : BitVec 5) (va : BitVec 5) (sb : BitVec 4) (pm : BitVec 3) (w : Bool) (fn : BitVec 8) : (encVS op vd va sb pm w fn).extractLsb' 21 5 = vd := by
  apply BitVec.eq_of_getLsbD_eq
  intro i hi
  rw [BitVec.getLsbD_extractLsb', encVS_bit]
  interval_cases i <;> simp

theorem encVS_va (op : BitVec 6) (vd : BitVec 5) (va : BitVec 5) (sb : BitVec 4) (pm : BitVec 3) (w : Bool) (fn : BitVec 8) : (encVS op vd va sb pm w fn).extractLsb' 16 5 = va := by
  apply BitVec.eq_of_getLsbD_eq
  intro i hi
  rw [BitVec.getLsbD_extractLsb', encVS_bit]
  interval_cases i <;> simp

theorem encVS_sb (op : BitVec 6) (vd : BitVec 5) (va : BitVec 5) (sb : BitVec 4) (pm : BitVec 3) (w : Bool) (fn : BitVec 8) : (encVS op vd va sb pm w fn).extractLsb' 12 4 = sb := by
  apply BitVec.eq_of_getLsbD_eq
  intro i hi
  rw [BitVec.getLsbD_extractLsb', encVS_bit]
  interval_cases i <;> simp

theorem encVS_pm (op : BitVec 6) (vd : BitVec 5) (va : BitVec 5) (sb : BitVec 4) (pm : BitVec 3) (w : Bool) (fn : BitVec 8) : (encVS op vd va sb pm w fn).extractLsb' 9 3 = pm := by
  apply BitVec.eq_of_getLsbD_eq
  intro i hi
  rw [BitVec.getLsbD_extractLsb', encVS_bit]
  interval_cases i <;> simp

theorem encVS_w (op : BitVec 6) (vd : BitVec 5) (va : BitVec 5) (sb : BitVec 4) (pm : BitVec 3) (w : Bool) (fn : BitVec 8) : (encVS op vd va sb pm w fn).getLsbD 8 = w := by
  rw [encVS_bit]
  cases w <;> rfl

theorem encVS_fn (op : BitVec 6) (vd : BitVec 5) (va : BitVec 5) (sb : BitVec 4) (pm : BitVec 3) (w : Bool) (fn : BitVec 8) : (encVS op vd va sb pm w fn).extractLsb' 0 8 = fn := by
  apply BitVec.eq_of_getLsbD_eq
  intro i hi
  rw [BitVec.getLsbD_extractLsb', encVS_bit]
  interval_cases i <;> simp

theorem encVM_op (op : BitVec 6) (vd : BitVec 5) (sa : BitVec 4) (pm : BitVec 3) (w : Bool) (imm : BitVec 13) : (encVM op vd sa pm w imm).extractLsb' 26 6 = op := by
  apply BitVec.eq_of_getLsbD_eq
  intro i hi
  rw [BitVec.getLsbD_extractLsb', encVM_bit]
  interval_cases i <;> simp

theorem encVM_vd (op : BitVec 6) (vd : BitVec 5) (sa : BitVec 4) (pm : BitVec 3) (w : Bool) (imm : BitVec 13) : (encVM op vd sa pm w imm).extractLsb' 21 5 = vd := by
  apply BitVec.eq_of_getLsbD_eq
  intro i hi
  rw [BitVec.getLsbD_extractLsb', encVM_bit]
  interval_cases i <;> simp

theorem encVM_sa (op : BitVec 6) (vd : BitVec 5) (sa : BitVec 4) (pm : BitVec 3) (w : Bool) (imm : BitVec 13) : (encVM op vd sa pm w imm).extractLsb' 17 4 = sa := by
  apply BitVec.eq_of_getLsbD_eq
  intro i hi
  rw [BitVec.getLsbD_extractLsb', encVM_bit]
  interval_cases i <;> simp

theorem encVM_pm (op : BitVec 6) (vd : BitVec 5) (sa : BitVec 4) (pm : BitVec 3) (w : Bool) (imm : BitVec 13) : (encVM op vd sa pm w imm).extractLsb' 14 3 = pm := by
  apply BitVec.eq_of_getLsbD_eq
  intro i hi
  rw [BitVec.getLsbD_extractLsb', encVM_bit]
  interval_cases i <;> simp

theorem encVM_w (op : BitVec 6) (vd : BitVec 5) (sa : BitVec 4) (pm : BitVec 3) (w : Bool) (imm : BitVec 13) : (encVM op vd sa pm w imm).getLsbD 13 = w := by
  rw [encVM_bit]
  cases w <;> rfl

theorem encVM_imm (op : BitVec 6) (vd : BitVec 5) (sa : BitVec 4) (pm : BitVec 3) (w : Bool) (imm : BitVec 13) : (encVM op vd sa pm w imm).extractLsb' 0 13 = imm := by
  apply BitVec.eq_of_getLsbD_eq
  intro i hi
  rw [BitVec.getLsbD_extractLsb', encVM_bit]
  interval_cases i <;> simp

/-- A field that a mask covers is the field of what the mask leaves. -/
theorem field_of_care {w care word : Word} (lo n : Nat) (hc : ∀ i, i < n → care.getLsbD (lo + i) = true) (h : w &&& care = word) :
    w.extractLsb' lo n = word.extractLsb' lo n := by
  subst h
  apply BitVec.eq_of_getLsbD_eq
  intro i hi
  simp [BitVec.getLsbD_extractLsb', hi, hc i hi]

/-- The same of one bit. -/
theorem bit_of_care {w care word : Word} (i : Nat) (hc : care.getLsbD i = true) (h : w &&& care = word) : w.getLsbD i = word.getLsbD i := by
  subst h
  simp [hc]

end Sys2Proof.Machine
end

