-- ==== Sys2Proof/Tests/Slice0.lean ====
section
/-! SUPPORT. Tests: for every statement with hypotheses a state and operands that meet them, clause by clause; words of the
spec's own examples; the rules' worked examples; commands that the check refuses. -/

open Sys2Proof Sys2Proof.Machine

section

set_option Elab.async false

namespace Sys2Proof.Tests

/-- An item of camera 0, all else 0. -/
def wItem : Item := ⟨0, 0, 0, 0, 0, 0, 0, 0, 0, 0, 0, 0, 0, 0, 0, 0, 0, 0, 0, 0, 0, 0, 0, 0, 0, 0, 0, 0, 0, 0⟩

/-- An engine that runs the kernel of that item, with its PC and scalar registers given. -/
def wEng (pc : Nat) (s : Tbl Word) : Engine := { Engine.init with state := .run, item := some wItem, s := s, pc := pc }

/-- A device whose engine 0 is the one given, with one bundle (slot S, slot V) at its PC. -/
def wDev (x : Engine) (s v : Word) : Dev :=
  { Dev.init with regs := [(R.STE_CFG 0, 0x80000000)],
                  ste := { SteSt.init with engines := [(0, x)], imem := Tbl.setBytes zeroByte [] (8 * x.pc) (leBytes 4 v.toNat ++ leBytes 4 s.toNat) } }

/-- The context of that engine. -/
def wCtx (x : Engine) : Ctx := { e := 0, x := x, epoch := 0, item := wItem }

/-- One event in flight towards a task. -/
def wFlight (t : Nat) (d : Dev) : Dev := { d with chain := { d.chain with flight := [⟨t, 63, 511, 15, 0⟩] } }

theorem wDelay (p : Int) : delayField (p - p) ≤ Config.trigDelayMax := by
  have h : delayField (p - p) = 0 := by
    unfold delayField Config.trigDelayUnit
    generalize Config.trigDelayUnitPred = k
    rw [Int.sub_self]
    have : ((0 : Int) * 1000 * 2 + ((k + 1 : Nat) : Int)) / (2 * ((k + 1 : Nat) : Int)) = 0 := by
      apply Int.ediv_eq_zero_of_lt <;> omega
    rw [this]; rfl
  rw [h]; exact Nat.zero_le _


/-- A device with a memory-mode frame of camera 47 for Carriage 3, and its CPB at DA 64. -/
def wMem : Dev :=
  { Dev.init with regs := [(R.CAR_CFG 3, 0xC0000000), (R.SKEIN_RGN_SIZE 31, 1), (R.SKEIN_RGN_ACC 31, 0x8080FFFF)], skein := { SkeinSt.init with cap := 2 ^ 20, mem := [(64, 1)] }, car := { CarSt.init with cams := [(47, { CarCam.init with path := 2, car := 3, region := 31, cpbs := [(5, 64)], ring := [{ tag := { cam := 47, output := 0, seq := 0, trig := 0, job := 0, epoch := 0, psid := 5, flags := 0, wpFirst := 0, wpLast := 0, tsFirst := 0, lines := 1, width := 1, format := 0x0101, crc := 0, fid := 0 }, lines := [], size := 64, da := 0 }] })] } }

/-- The CPB that stands there. -/
def wCpb : CpbCopy := { psid := 5, da := 64, bytes := Tbl.bytes zeroByte [(64, 1)] 64 0x6100 }

theorem wBar : wMem.carBarred (3 : Fin 4) 64 0x100 = none ∧ wMem.carBarred (3 : Fin 4) 64 0x6100 = none := by
  unfold Dev.carBarred
  constructor
  · rw [if_neg (by decide +kernel), if_neg (by decide +kernel), if_neg (by decide +kernel)]
  · rw [if_neg (by decide +kernel), if_neg (by decide +kernel), if_neg (by decide +kernel)]

theorem wLoad : wMem.cpbLoad (3 : Fin 4) 5 64 = (wCpb, false, wMem) := by
  have hd : wMem.skeinRead (carMaster (3 : Fin 4)) 64 0x100 = (Tbl.bytes zeroByte [(64, 1)] 64 0x100, false, wMem) := rfl
  have hb : wMem.skeinRead (carMaster (3 : Fin 4)) 64 0x6100 = (Tbl.bytes zeroByte [(64, 1)] 64 0x6100, false, wMem) := rfl
  have hr : cpbRefused (Tbl.bytes zeroByte [(64, 1)] 64 0x100) = false := by decide +kernel
  have hl : cpbLength (Tbl.bytes zeroByte [(64, 1)] 64 0x100) = 0x6100 := by decide +kernel
  unfold Dev.cpbLoad
  simp only [wBar.1, hd, hr, hl, wBar.2, hb, Bool.false_eq_true, if_false]
  rfl

theorem wCpbNe : wCpb.bytes ≠ [] := List.cons_ne_nil _ _


theorem wFind (l : List FabMember) (m : FabMember) (h : m.serial = serial) : (m :: l).find? (fun k => k.serial == serial) = some m := by
  simp [h]

theorem wFind2 : ([({ serial := serial + 1, addr := 63, sinkPrio := 0, spare := false, dead := false, lastAt := 0, links := [] } : FabMember)]).find? (fun m => m.addr == (63 : Nat) && !m.dead && m.serial != serial) = some { serial := serial + 1, addr := 63, sinkPrio := 0, spare := false, dead := false, lastAt := 0, links := [] } := by
  simp


/-- The directory and the one SCALE entry of a minimal recipe package. -/
def wBody : List Byte := [1, 0, 0, 0, 80, 0, 0, 0, 16, 0, 0, 0, 0, 0, 0, 0] ++ leBytes 4 3 ++ leBytes 4 1 ++ leBytes 4 1 ++ leBytes 4 0

/-- A minimal recipe package of 96 bytes, job 7. -/
def wPkg : List Byte :=
  leBytes 4 0x50544C54 ++ leBytes 2 1 ++ leBytes 2 64 ++ leBytes 4 7 ++ leBytes 4 96 ++ leBytes 4 1 ++ zeros 12 ++
    leBytes 4 1262839420 ++ leBytes 4 787366653 ++ zeros 24 ++ wBody

/-- A device that stages that package. -/
def wPk : Dev :=
  { Dev.init with job := { JobSt.init with staging := some 0 }, skein := { SkeinSt.init with cap := 96, mem := Tbl.setBytes zeroByte [] 0 wPkg } }

/-- A device that stages a package of no size. -/
def wShort : Dev := { Dev.init with job := { JobSt.init with staging := some 0 }, skein := { SkeinSt.init with cap := 64 } }

/-- The hypotheses of StepKeepsQueueWellFormed are met: clause by clause. -/
theorem test_hyps_StepKeepsQueueWellFormed :
    ∃ (s : State) (t : State), QueueWf s ∧ step s = .next t :=
  ⟨({ State.reset with pending := [.extest] }), _, (by intro c h; rw [List.mem_singleton.mp h]; rfl), (rfl)⟩

/-- The hypotheses of ChainFiresChannel are met: clause by clause. -/
theorem test_hyps_ChainFiresChannel :
    (∃ (d : Dev) (m : Nat) (ch : Fin 64), d.mayFire m ch = true ∧ d.f (R.CHAIN_CH_CFG ch) F.CHAIN_CH_CFG_EN ≠ 0 ∧ (d.chan ch).held = none ∧ (((d.chan ch).used = false ∨ (d.chan ch).lastAt ≠ d.now ∧ (d.chan ch).freeAt ≤ d.now))) ∧
    (∃ (d : Dev) (m : Nat) (ch : Fin 64), d.mayFire m ch = true ∧ d.f (R.CHAIN_CH_CFG ch) F.CHAIN_CH_CFG_EN ≠ 0 ∧ (d.chan ch).held = none ∧ (d.chan ch).used = true ∧ (d.chan ch).lastAt ≠ d.now ∧ d.now < (d.chan ch).freeAt) ∧
    (∃ (d : Dev) (m : Nat) (ch : Fin 64) (src : Nat) (hop : Nat), d.mayFire m ch = true ∧ d.f (R.CHAIN_CH_CFG ch) F.CHAIN_CH_CFG_EN ≠ 0 ∧ (d.chan ch).held = some (src, hop)) ∧
    (∃ (d : Dev) (m : Nat) (ch : Fin 64), d.mayFire m ch = false) ∧
    (∃ (d : Dev) (m : Nat) (k : Fin 32), d.heldLow R.CHAIN_FIRE_MULTI = none ∧ d.mayFire m (32 + k) = true) ∧
    (∃ (d : Dev) (m : Nat) (k : Fin 32), d.heldLow R.CHAIN_FIRE_MULTI = none ∧ d.mayFire m (32 + k) = false) :=
  ⟨⟨({ Dev.init with now := 5, regs := [(R.CHAIN_CH_CFG 63, 0x80000000)], chain := { ChainSt.init with chans := [(63, { used := true, lastAt := 4, freeAt := 5, held := none })] } }), (1), (63), (by decide +kernel), (by decide +kernel), (by decide +kernel), (by decide +kernel)⟩,
   ⟨({ Dev.init with now := 5, regs := [(R.CHAIN_CH_CFG 63, 0x80000000)], chain := { ChainSt.init with chans := [(63, { used := true, lastAt := 4, freeAt := 6, held := none })] } }), (1), (63), (by decide +kernel), (by decide +kernel), (by decide +kernel), (by decide +kernel), (by decide +kernel), (by decide +kernel)⟩,
   ⟨({ Dev.init with now := 5, regs := [(R.CHAIN_CH_CFG 63, 0x80000000)], chain := { ChainSt.init with chans := [(63, { used := true, lastAt := 4, freeAt := 6, held := some (511, 15) })] } }), (1), (63), (511), (15), (by decide +kernel), (by decide +kernel), (by decide +kernel)⟩,
   ⟨({ Dev.init with regs := [(R.CHAIN_CH_OWN 63, 0x10)] }), (1), (63), (by decide +kernel)⟩,
   ⟨(Dev.init), (1), (31), (by decide +kernel), (by decide +kernel)⟩,
   ⟨({ Dev.init with regs := [(R.CHAIN_CH_OWN 63, 0x10)] }), (1), (31), (by decide +kernel), (by decide +kernel)⟩⟩

/-- The hypotheses of ChainRunsCommands are met: clause by clause. -/
theorem test_hyps_ChainRunsCommands :
    (∃ (d : Dev) (ch : Fin 64) (src : Nat) (hop : Nat), (d.chan ch).held = some (src, hop) ∧ (d.chan ch).freeAt ≤ d.now) ∧
    (∃ (d : Dev) (m : Nat) (off : Nat) (v : Word), isChainConfig off = true ∧ d.glb.mode ≠ .service ∧ ((∀ ch ∈ d.configNeeds off v, d.ownsCh m ch = true))) ∧
    (∃ (d : Dev) (m : Nat) (off : Nat) (v : Word) (ch : Nat), isChainConfig off = true ∧ d.glb.mode ≠ .service ∧ ch ∈ d.configNeeds off v ∧ d.ownsCh m ch = false) ∧
    (∃ (d : Dev) (d1 : Dev) (k : Fin 16) (a : Act), d.activate (Task.ctrInc k) = (some a, d1) ∧ d1.f (R.CHAIN_CTR_CFG k) F.CHAIN_CTR_CFG_EN ≠ 0 ∧ (d1.ctr k).window = false) ∧
    (∃ (d : Dev) (d1 : Dev) (k : Fin 16) (a : Act), d.activate (Task.ctrClr k) = (some a, d1) ∧ (d1.ctr k).window = false) ∧
    (∃ (d : Dev) (k : Fin 16) (v : Word), (d.ctr k).window = false) ∧
    (∃ (d : Dev) (k : Fin 16), (d.ctr k).window = true ∧ (d.ctr k).winAt + 1 ≤ d.now ∧ max 1 (d.f (R.CHAIN_CTR_CFG k) F.CHAIN_CTR_CFG_THRESH) ≤ d.f (R.CHAIN_CTR_VAL k) ⟨0, 24⟩ ∧ d.b (R.CHAIN_CTR_CFG k) F.CHAIN_CTR_CFG_RELOAD = false ∧ (d.ctr k).fired = false) :=
  ⟨⟨({ Dev.init with now := 5, regs := [(R.CHAIN_CH_CFG 63, 0x80000000)], chain := { ChainSt.init with chans := [(63, { used := true, lastAt := 4, freeAt := 5, held := some (511, 15) })] } }), (63), (511), (15), (by decide +kernel), (by decide +kernel)⟩,
   ⟨(Dev.init), (1), (R.CHAIN_CH_CFG 63), (0), (by decide +kernel), (by decide +kernel), (by decide +kernel)⟩,
   ⟨({ Dev.init with regs := [(R.CHAIN_CH_OWN 63, 0x10)] }), (1), (R.CHAIN_CH_CFG 63), (0), (63), (by decide +kernel), (by decide +kernel), (by decide +kernel), (by decide +kernel)⟩,
   ⟨(wFlight (Task.ctrInc 15) (Dev.init.sf (R.CHAIN_CTR_CFG 15) F.CHAIN_CTR_CFG_EN 1)), _, (15), _, (by rfl), (by first | decide +kernel | rfl), (by rfl)⟩,
   ⟨(wFlight (Task.ctrClr 15) Dev.init), _, (15), _, (by rfl), (by rfl)⟩,
   ⟨(Dev.init), (15), (0), (by decide +kernel)⟩,
   ⟨({ Dev.init with now := 1, regs := [(R.CHAIN_CTR_CFG 15, 1), (R.CHAIN_CTR_VAL 15, 1)], chain := { ChainSt.init with ctrs := [(15, { Ctr.init with window := true })] } }), (15), (by decide +kernel), (by decide +kernel), (by decide +kernel), (by decide +kernel), (by decide +kernel)⟩⟩

/-- The hypotheses of GaugeStepIsShorterWay are met: clause by clause. -/
theorem test_hyps_GaugeStepIsShorterWay :
    ∃ (rev : Bool) (old : Nat) (new : Nat), old < 4096 ∧ new < 4096 :=
  ⟨(true), (4095), (0), (by decide +kernel), (by decide +kernel)⟩

/-- The hypotheses of GaugeSampleMovesCount are met: clause by clause. -/
theorem test_hyps_GaugeSampleMovesCount :
    ∃ (d : Dev) (a : Fin 4) (smp : EncSample), (d.axis a).state = .run :=
  ⟨({ Dev.init with gauge := { GaugeSt.init with axes := [(3, { Axis.init with state := .run })] } }), (3), (⟨0, 2047, false, false, false⟩), (by decide +kernel)⟩

/-- The hypotheses of GaugeReZeroAndScale are met: clause by clause. -/
theorem test_hyps_GaugeReZeroAndScale :
    (∃ (d : Dev) (a : Fin 4), (d.axis a).state ≠ .off) ∧
    (∃ (d : Dev) (a : Fin 4), (d.axis a).state = .off) ∧
    (∃ (d : Dev) (d1 : Dev) (a : Fin 4) (x : Act), d.activate (Task.gaugeZero a) = (some x, d1) ∧ (d1.axis a).state ≠ .off) ∧
    (∃ (d : Dev) (a : Fin 4), (d.axis a).state ≠ .off) ∧
    (∃ (d : Dev), ((∀ a : Nat, a < 4 → (d.axis a).state ≠ .run))) ∧
    (∃ (d : Dev) (a : Nat), a < 4 ∧ (d.axis a).state = .run ∧ ((∀ b : Nat, b < 4 → b ≠ a → (d.axis b).state ≠ .run))) ∧
    (∃ (d : Dev) (d1 : Dev) (x : Act), d.activate Task.gaugeSnap = (some x, d1) ∧ ((∀ a : Nat, a < 4 → (d1.axis a).state ≠ .run))) ∧
    (∃ (d : Dev) (a : Fin 4) (s : Smp) (l : List Smp), (d.axis a).smps = s :: l) :=
  ⟨⟨({ Dev.init with gauge := { GaugeSt.init with axes := [(3, { Axis.init with state := .run })] } }), (3), (by decide +kernel)⟩,
   ⟨(Dev.init), (3), (by decide +kernel)⟩,
   ⟨(wFlight (Task.gaugeZero 3) ({ Dev.init with gauge := { GaugeSt.init with axes := [(3, { Axis.init with state := .run })] } })), _, (3), _, (by rfl), (by first | decide +kernel | rfl)⟩,
   ⟨({ Dev.init with gauge := { GaugeSt.init with axes := [(3, { Axis.init with state := .run })] } }), (3), (by decide +kernel)⟩,
   ⟨(Dev.init), (by decide +kernel)⟩,
   ⟨({ Dev.init with gauge := { GaugeSt.init with axes := [(3, { Axis.init with state := .run })] } }), (3), (by decide +kernel), (by decide +kernel), (by decide +kernel)⟩,
   ⟨(wFlight Task.gaugeSnap Dev.init), _, _, (by rfl), (by first | decide +kernel | rfl)⟩,
   ⟨({ Dev.init with gauge := { GaugeSt.init with axes := [(3, { Axis.init with smps := [{ at_ := 0, ts := 0, wpFine := 0, speed := 0, method := false, unc := false }] })] } }), (3), ({ at_ := 0, ts := 0, wpFine := 0, speed := 0, method := false, unc := false }), ([]), (by decide +kernel)⟩⟩

/-- The hypotheses of GaugeAxisLife are met: clause by clause. -/
theorem test_hyps_GaugeAxisLife :
    (∃ (d : Dev) (a : Fin 4), (d.axis a).state = .run ∧ 64 ≤ (d.axis a).lowRun ∧ (d.axis a).lowSeen = false) ∧
    (∃ (d : Dev) (a : Fin 4) (e : Extremes) (est : Nat → Int), (d.axis a).ext = some e ∧ 256 ≤ e.periods ∧ d.b (R.GAUGE_AXIS_CFG a) F.GAUGE_AXIS_CFG_AUTOCORR = true ∧ (d.axis a).state = .run ∧ est = Config.corrEstimate e.sinMin e.sinMax e.cosMin e.cosMax) ∧
    (∃ (d : Dev) (a : Fin 4) (s : Smp) (l : List Smp), (d.axis a).state = .run ∧ (d.axis a).smps = s :: l) ∧
    (∃ (d : Dev) (a : Fin 4) (smp : EncSample), (d.axis a).state = .settle ∧ d.due (.settle a) = true) ∧
    (∃ (d : Dev) (a : Fin 4) (fwd : Bool), (d.axis a).state = .watch ∧ d.b (R.GAUGE_WATCH a) F.GAUGE_WATCH_EN = true ∧ (d.axis a).watchPub = true) ∧
    (∃ (d : Dev) (a : Fin 4) (fwd : Bool), (d.axis a).state = .watch ∧ d.b (R.GAUGE_WATCH a) F.GAUGE_WATCH_EN = true) ∧
    (∃ (d : Dev) (lo : Int) (hi : Int), d.gauge.checkOn = true ∧ d.gauge.checkStep < 2) ∧
    (∃ (d : Dev) (v : Word), d.b R.GAUGE_CHECK_CFG F.GAUGE_CHECK_CFG_EN = false ∧ (d.plainWrite R.GAUGE_CHECK_CFG v).b R.GAUGE_CHECK_CFG F.GAUGE_CHECK_CFG_EN = true ∧ (d.plainWrite R.GAUGE_CHECK_CFG v).pwr.state = .active) ∧
    (∃ (d : Dev) (a : Fin 4) (v : Word), d.b (R.GAUGE_AXIS_CFG a) F.GAUGE_AXIS_CFG_EN = false ∧ fld ((d.plainWrite (R.GAUGE_AXIS_CFG a) v).rd (R.GAUGE_AXIS_CFG a)) F.GAUGE_AXIS_CFG_EN = 1 ∧ fld ((d.plainWrite (R.GAUGE_AXIS_CFG a) v).rd (R.GAUGE_AXIS_CFG a)) F.GAUGE_AXIS_CFG_MODE = 1) ∧
    (∃ (d : Dev) (a : Fin 4) (v : Word), d.b (R.GAUGE_AXIS_CFG a) F.GAUGE_AXIS_CFG_EN = true ∧ fld ((d.plainWrite (R.GAUGE_AXIS_CFG a) v).rd (R.GAUGE_AXIS_CFG a)) F.GAUGE_AXIS_CFG_EN = 0) :=
  ⟨⟨({ Dev.init with gauge := { GaugeSt.init with axes := [(3, { Axis.init with state := .run, lowRun := 64 })] } }), (3), (by decide +kernel), (by decide +kernel), (by decide +kernel)⟩,
   ⟨({ Dev.init with gauge := { GaugeSt.init with axes := [(3, { Axis.init with state := .run, ext := some { sinMin := 0, sinMax := 0, cosMin := 0, cosMax := 0, periods := 256 } })] }, regs := [(R.GAUGE_AXIS_CFG 3, 0xFFFFFFFF)] }), (3), _, _, (by rfl), (by rfl), (by decide +kernel), (by decide +kernel), (rfl)⟩,
   ⟨({ Dev.init with gauge := { GaugeSt.init with axes := [(3, { Axis.init with state := .run, smps := [{ at_ := 0, ts := 0, wpFine := 0, speed := 0, method := false, unc := false }] })] } }), (3), ({ at_ := 0, ts := 0, wpFine := 0, speed := 0, method := false, unc := false }), ([]), (by decide +kernel), (by decide +kernel)⟩,
   ⟨({ Dev.init with gauge := { GaugeSt.init with axes := [(3, { Axis.init with state := .settle })] }, timers := [(.settle 3, 0)] }), (3), (⟨0, 2047, false, false, false⟩), (by decide +kernel), (by decide +kernel)⟩,
   ⟨({ Dev.init with gauge := { GaugeSt.init with axes := [(3, { Axis.init with state := .watch, watchPub := true })] }, regs := [(R.GAUGE_WATCH 3, 0xFFFFFFFF)] }), (3), (true), (by decide +kernel), (by decide +kernel), (by decide +kernel)⟩,
   ⟨({ Dev.init with gauge := { GaugeSt.init with axes := [(3, { Axis.init with state := .watch })] }, regs := [(R.GAUGE_WATCH 3, 0xFFFFFFFF)] }), (3), (true), (by decide +kernel), (by decide +kernel)⟩,
   ⟨({ Dev.init with gauge := { GaugeSt.init with checkStep := 1 } }), (0), (0), (by decide +kernel), (by decide +kernel)⟩,
   ⟨({ Dev.init with regs := [(R.GAUGE_CHECK_CFG, 0x18)] }), (0x80000018), (by decide +kernel), (by decide +kernel), (by decide +kernel)⟩,
   ⟨({ Dev.init with regs := [(R.GAUGE_AXIS_CFG 3, 0x102D0100)] }), (3), (0xFFFFFFFF), (by decide +kernel), (by decide +kernel), (by decide +kernel)⟩,
   ⟨({ Dev.init with regs := [(R.GAUGE_AXIS_CFG 3, 0xFFFFFFFF)] }), (3), (0), (by decide +kernel), (by decide +kernel)⟩⟩

/-- The hypotheses of CompareUnitsArmAndFire are met: clause by clause. -/
theorem test_hyps_CompareUnitsArmAndFire :
    (∃ (d : Dev) (u : Fin 16) (set : Fin 2), (d.unit u).stopAt ≠ some d.now ∧ (d.axis (fld (d.rd (R.TRIG_CMP_CFG u)) F.TRIG_CMP_CFG_AXIS)).state = .run ∧ (d.axis (fld (d.rd (R.TRIG_CMP_CFG u)) F.TRIG_CMP_CFG_AXIS)).unc = false ∧ d.pwr.state = .active) ∧
    (∃ (d : Dev) (d1 : Dev) (u : Fin 16) (a : Act), d.activate (Task.cmpArm u) = (some a, d1) ∧ (d1.unit u).stopAt ≠ some d1.now ∧ (d1.axis (fld (d1.rd (R.TRIG_CMP_CFG u)) F.TRIG_CMP_CFG_AXIS)).state = .run ∧ (d1.axis (fld (d1.rd (R.TRIG_CMP_CFG u)) F.TRIG_CMP_CFG_AXIS)).unc = false ∧ d1.pwr.state = .active) ∧
    (∃ (d : Dev) (d1 : Dev) (u : Fin 16) (a : Act), d.activate (Task.cmpStop u) = (some a, d1)) ∧
    (∃ (d : Dev) (u : Fin 16), ((d.unit u).state = .idle ∨ (d.unit u).state = .done)) ∧
    (∃ (d : Dev) (u : Fin 16), (d.unit u).state = .armed ∧ (d.axis (d.unit u).axis).state ≠ .run) ∧
    (∃ (d : Dev) (u : Fin 16) (smp : Smp) (t : Int), (d.unit u).state = .armed ∧ d.holdCause u (d.unit u) = false ∧ d.sampleNow (d.unit u).axis = some smp ∧ d.job.swaps = [] ∧ (d.unit u).first = false ∧ d.target u (d.unit u) = some t ∧ (d.unit u).hwm < t ∧ t ≤ smp.predict ((d.ts : Int) + 7 + d.lead u)) :=
  ⟨⟨({ Dev.init with gauge := { GaugeSt.init with axes := [(0, { Axis.init with state := .run, smps := [{ at_ := 0, ts := 0, wpFine := 0, speed := 0, method := false, unc := false }] })] } }), (15), (1), (by decide +kernel), (by decide +kernel), (by decide +kernel), (by decide +kernel)⟩,
   ⟨(wFlight (Task.cmpArm 15) { Dev.init with gauge := { GaugeSt.init with axes := [(0, { Axis.init with state := .run, smps := [{ at_ := 0, ts := 0, wpFine := 0, speed := 0, method := false, unc := false }] })] } }), _, (15), _, (by rfl), (by first | decide +kernel | rfl), (by rfl), (by rfl), (by rfl)⟩,
   ⟨(wFlight (Task.cmpStop 15) Dev.init), _, (15), _, (by rfl)⟩,
   ⟨({ Dev.init with trig := { TrigSt.init with units := [(15, { CmpUnit.init with state := .done })] } }), (15), (by decide +kernel)⟩,
   ⟨({ Dev.init with trig := { TrigSt.init with units := [(15, { CmpUnit.init with state := .armed })] } }), (15), (by decide +kernel), (by decide +kernel)⟩,
   ⟨({ Dev.init with now := 28, trig := { TrigSt.init with units := [(15, { CmpUnit.init with state := .armed, pitch := true, hwm := -1 })] }, gauge := { GaugeSt.init with axes := [(0, { Axis.init with state := .run, smps := [{ at_ := 0, ts := 0, wpFine := 0, speed := 0, method := false, unc := false }] })] } }), (15), ({ at_ := 0, ts := 0, wpFine := 0, speed := 0, method := false, unc := false }), (0), (by decide +kernel), (by decide +kernel), (by decide +kernel), (by decide +kernel), (by decide +kernel), (by decide +kernel), (by decide +kernel), (by decide +kernel)⟩⟩

/-- The hypotheses of TriggerPinsAndInputs are met: clause by clause. -/
theorem test_hyps_TriggerPinsAndInputs :
    (∃ (d : Dev) (d1 : Dev) (p : Fin 32) (a : Act), d.activate (Task.trigOut p) = (some a, d1) ∧ d1.outHighZ p = false ∧ fld (d1.rd (R.TRIG_OUT_CFG p)) F.TRIG_OUT_CFG_MODE = 0 ∧ (d1.pin p).pulse = false ∧ d1.pwr.state ≠ .watch) ∧
    (∃ (d : Dev) (p : Fin 32), (d.pin p).pulse = true ∧ (d.pin p).endAt ≤ d.now ∧ d.outHighZ p = false) ∧
    (∃ (d : Dev) (p : Fin 32) (v : Word), fld (d.rd (R.TRIG_OUT_CFG p)) F.TRIG_OUT_CFG_MODE ≠ fld ((d.plainWrite (R.TRIG_OUT_CFG p) v).rd (R.TRIG_OUT_CFG p)) F.TRIG_OUT_CFG_MODE ∧ ((d.plainWrite (R.TRIG_OUT_CFG p) v).setPin p TrigPin.init).outHighZ p = true) ∧
    (∃ (d : Dev) (b : Fin 6) (sup : BankSupply), ((∀ k : Nat, k < 6 → ({ d with trig := { d.trig with supply := d.trig.supply.set (fun _ => BankSupply.absent) b sup } } : Dev).bankMismatch k = false))) ∧
    (∃ (d : Dev) (k : Fin 16) (level : Bool), (d.trigInput k).level = !level ∧ d.b (R.TRIG_IN_CFG k) F.TRIG_IN_CFG_EN = true ∧ d.bankMismatch (4 + k / 8) = false ∧ (d.trigInput k).accepted = !level) ∧
    (∃ (d : Dev) (k : Fin 16) (t0 : Nat) (ts0 : Nat), (d.trigInput k).since = some (t0, ts0) ∧ t0 + fld (d.rd (R.TRIG_IN_CFG k)) F.TRIG_IN_CFG_FILTER ≤ d.now ∧ edgeWanted (d.rd (R.TRIG_IN_CFG k)) (d.trigInput k).level = false) ∧
    (∃ (d : Dev) (t : Dev) (k : Fin 16) (t0 : Nat) (ts0 : Nat), (d.trigInput k).since = some (t0, ts0) ∧ t0 + fld (d.rd (R.TRIG_IN_CFG k)) F.TRIG_IN_CFG_FILTER ≤ d.now ∧ edgeWanted (d.rd (R.TRIG_IN_CFG k)) (d.trigInput k).level = true ∧ t = ((((d.setTrigInput k { d.trigInput k with accepted := (d.trigInput k).level, since := none }).wr64 (R.TRIG_IN_CAP_WP k) (wpWord ((d.extrapolate (fld (d.rd (R.TRIG_IN_CFG k)) F.TRIG_IN_CFG_AXIS) ts0).1 / 65536))).wr64 (R.TRIG_IN_CAP_TS k) (wpWord ts0)).bump (R.TRIG_IN_CNT k) F.TRIG_IN_CNT_EDGE_CNT 1).publish (Src.trigIn k) 0 ∧ t.ledgerCams 3 k = [] ∧ fld (d.rd (R.TRIG_IN_CFG k)) F.TRIG_IN_CFG_EN ≠ 0 ∧ d.bankMismatch (4 + k / 8) = false) ∧
    (∃ (d : Dev) (i : Fin 4096) (lo : Word) (v : Word), d.heldLow (R.TRIG_LIST i) = some lo) :=
  ⟨⟨(wFlight (Task.trigOut 31) { Dev.init with regs := [(R.TRIG_OUT_CFG 31, 0x80000001), (R.TRIG_BANK_CFG, 0x8000003F)], trig := { TrigSt.init with supply := [(0, .v33), (1, .v33), (2, .v33), (3, .v33), (4, .v33), (5, .v33)] } }), _, (31), _, (by rfl), (by rfl), (by rfl), (by rfl), (by first | decide +kernel | rfl)⟩,
   ⟨({ Dev.init with regs := [(R.TRIG_OUT_CFG 31, 0x80000001), (R.TRIG_BANK_CFG, 0x8000003F)], now := 7, trig := { TrigSt.init with supply := [(0, .v33), (1, .v33), (2, .v33), (3, .v33), (4, .v33), (5, .v33)], pins := [(31, { pulse := true, endAt := 7, toggle := false })] } }), (31), (by decide +kernel), (by decide +kernel), (by decide +kernel)⟩,
   ⟨({ Dev.init with regs := [(R.TRIG_OUT_CFG 31, 0)] }), (31), (0xFFFFFFFF), (by decide +kernel), (by decide +kernel)⟩,
   ⟨({ Dev.init with regs := [(R.TRIG_BANK_CFG, 0x8000003F)], trig := { TrigSt.init with supply := [(0, .v33), (1, .v33), (2, .v33), (3, .v33), (4, .v33), (5, .v33)] } }), (5), (.v33), (by decide +kernel)⟩,
   ⟨({ Dev.init with regs := [(R.TRIG_IN_CFG 15, 0x80000002), (R.TRIG_BANK_CFG, 0x8000003F)], trig := { TrigSt.init with supply := [(0, .v33), (1, .v33), (2, .v33), (3, .v33), (4, .v33), (5, .v33)], inputs := [(15, { level := false, accepted := false, since := none })] } }), (15), (true), (by decide +kernel), (by decide +kernel), (by decide +kernel), (by decide +kernel)⟩,
   ⟨({ Dev.init with regs := [(R.TRIG_IN_CFG 15, 0x80000002), (R.TRIG_BANK_CFG, 0x8000003F)], now := 7, trig := { TrigSt.init with supply := [(0, .v33), (1, .v33), (2, .v33), (3, .v33), (4, .v33), (5, .v33)], inputs := [(15, { level := false, accepted := true, since := some (5, 9) })] } }), (15), (5), (9), (by decide +kernel), (by decide +kernel), (by decide +kernel)⟩,
   ⟨({ Dev.init with regs := [(R.TRIG_IN_CFG 15, 0x80000002), (R.TRIG_BANK_CFG, 0x8000003F)], now := 7, trig := { TrigSt.init with supply := [(0, .v33), (1, .v33), (2, .v33), (3, .v33), (4, .v33), (5, .v33)], inputs := [(15, { level := true, accepted := false, since := some (5, 9) })] } }), _, (15), (5), (9), (by decide +kernel), (by decide +kernel), (by decide +kernel), (rfl), (by decide +kernel), (by decide +kernel), (by decide +kernel)⟩,
   ⟨({ Dev.init with held := [(R.TRIG_LIST 4095, 1)] }), (4095), (1), (0), (by decide +kernel)⟩⟩

/-- The hypotheses of TriggerPackets are met: clause by clause. -/
theorem test_hyps_TriggerPackets :
    (∃ (d : Dev) (d1 : Dev) (n : Fin 48) (a : Act) (u : Nat) (f : Fire), d.activate (Task.trigPkt n) = (some a, d1) ∧ d1.b (R.TRIG_PKT_CFG n) F.TRIG_PKT_CFG_EN = true ∧ d1.packetAllowed n = true ∧ d1.fireOf a = some (u, f)) ∧
    (∃ (d : Dev) (d1 : Dev) (n : Fin 48) (a : Act), d.activate (Task.trigPkt n) = (some a, d1) ∧ d1.b (R.TRIG_PKT_CFG n) F.TRIG_PKT_CFG_EN = true ∧ d1.packetAllowed n = false) ∧
    (∃ (d : Dev) (n : Fin 48) (ref : Int) (p : PktDue) (rest : List PktDue), (d.pkt n).rising = p :: rest ∧ d.packetAllowed n = true ∧ ref ≤ p.place ∧ delayField (p.place - ref) ≤ Config.trigDelayMax ∧ fld (d.rd (R.TRIG_PKT_CFG n)) F.TRIG_PKT_CFG_POL_EDGES = 0) ∧
    (∃ (d : Dev) (n : Fin 48) (ref : Int) (place : Int) (rest : List Int), (d.pkt n).falling = place :: rest ∧ d.packetAllowed n = true ∧ ref ≤ place ∧ delayField (place - ref) ≤ Config.trigDelayMax) :=
  ⟨⟨({ Dev.init with regs := [(R.TRIG_PKT_CFG 47, 0x80000000)], cll := { CllSt.init with conns := [(47, { Conn.init with state := .up })] }, chain := { ChainSt.init with flight := [⟨Task.trigPkt 47, 63, 47, 15, 0⟩] }, trig := { TrigSt.init with units := [(15, { CmpUnit.init with fires := [{ at_ := 0, wp := 0, ts := 0, idx := 0, set := 0, late := false, unc := false, speed := 0, axis := 0 }] })] } }), _, (47), _, (15), ({ at_ := 0, wp := 0, ts := 0, idx := 0, set := 0, late := false, unc := false, speed := 0, axis := 0 }), (by rfl), (by rfl), (by rfl), (by rfl)⟩,
   ⟨({ Dev.init with regs := [(R.TRIG_PKT_CFG 47, 0x80000000)], chain := { ChainSt.init with flight := [⟨Task.trigPkt 47, 63, 47, 15, 0⟩] } }), _, (47), _, (by rfl), (by rfl), (by rfl)⟩,
   ⟨({ Dev.init with regs := [(R.TRIG_PKT_CFG 47, 0x80000000)], cll := { CllSt.init with conns := [(47, { Conn.init with state := .up })] }, trig := { TrigSt.init with pkts := [(47, { rising := [{ place := 5, fire := none }], falling := [] })] } }), (47), (5), ({ place := 5, fire := none }), ([]), (by decide +kernel), (by decide +kernel), (by decide +kernel), (wDelay 5), (by decide +kernel)⟩,
   ⟨({ Dev.init with cll := { CllSt.init with conns := [(47, { Conn.init with state := .up })] }, trig := { TrigSt.init with pkts := [(47, { rising := [], falling := [5] })] } }), (47), (5), (5), ([]), (by decide +kernel), (by decide +kernel), (by decide +kernel), (wDelay 5)⟩⟩

/-- The hypotheses of LedgerKeepsNewestEntries are met: clause by clause. -/
theorem test_hyps_LedgerKeepsNewestEntries :
    ∃ (d : Dev) (cam : Nat) (e : LedgerEntry), (d.ledger cam).entries.length ≤ 1024 :=
  ⟨({ Dev.init with trig := { TrigSt.init with ledgers := [(47, { Ledger.init with entries := List.replicate 1024 { seq := 0, idx := 0, wp := 0, ts := 0, speed := 0, epoch := 0, axis := 0, kind := 0, unit := 0, unc := false, late := false, lost := false, pred := false, set := 0 } })] } }), (47), ({ seq := 0, idx := 0, wp := 0, ts := 0, speed := 0, epoch := 0, axis := 0, kind := 0, unit := 0, unc := false, late := false, lost := false, pred := false, set := 0 }), (by decide +kernel)⟩

/-- The hypotheses of ConnectionStatesChange are met: clause by clause. -/
theorem test_hyps_ConnectionStatesChange :
    (∃ (d : Dev) (n : Fin 48) (v : Word), d.b (R.CLL_CFG n) F.CLL_CFG_EN = false ∧ (d.plainWrite (R.CLL_CFG n) v).b (R.CLL_CFG n) F.CLL_CFG_EN = true ∧ ((d.plainWrite (R.CLL_CFG n) v).toState .absent n).ts % 250000000 ≠ 0) ∧
    (∃ (d : Dev) (n : Fin 48) (v : Word), d.b (R.CLL_CFG n) F.CLL_CFG_EN = true ∧ (d.plainWrite (R.CLL_CFG n) v).b (R.CLL_CFG n) F.CLL_CFG_EN = false) ∧
    (∃ (d : Dev), d.ts % 250000000 = 0 ∧ d.pwr.state = .active) ∧
    (∃ (d : Dev) (n : Fin 48) (r : Fin 7), (d.conn n).state = .discover ∧ (d.conn n).los = false) ∧
    (∃ (d : Dev) (n : Fin 48), (d.conn n).state = .discover ∧ (d.conn n).los = false) ∧
    (∃ (d : Dev) (n : Fin 48), (d.conn n).state = .discover ∧ (d.conn n).los = false) ∧
    (∃ (d : Dev) (n : Fin 48), (d.conn n).state = .discover ∧ (d.conn n).locked = true ∧ (d.conn n).los = false ∧ (d.conn n).disc = none ∧ (d.conn n).cmd = none ∧ (d.conn n).joined = false) ∧
    (∃ (d : Dev) (n : Fin 48), (d.conn n).state = .up ∧ (d.conn n).locked = true ∧ (d.conn n).los = false) ∧
    (∃ (d : Dev) (n : Fin 48), (d.conn n).aligned = true ∧ (d.conn n).state = .up) ∧
    (∃ (d : Dev) (n : Fin 48), (d.conn n).state = .up ∧ (d.conn n).los = false) ∧
    (∃ (d : Dev) (n : Fin 48), (d.conn n).state = .discover ∧ (d.conn n).los = false) ∧
    (∃ (d : Dev) (n : Fin 48), (d.conn n).state = .absent) ∧
    (∃ (d : Dev) (n : Fin 48), (d.conn n).state = .up) ∧
    (∃ (d : Dev) (n : Fin 48), d.due (.loss n) = true ∧ (d.conn n).state = .up ∧ (d.conn n).los = true ∧ (d.disarm (.loss n)).members (d.conn n).master = [n.val]) ∧
    (∃ (d : Dev) (n : Fin 48), (d.conn n).state = .up) ∧
    (∃ (d : Dev) (n : Fin 48), (d.conn n).state = .up) ∧
    (∃ (d : Dev) (n : Fin 48), (d.conn n).state = .discover ∧ (d.conn n).joined = false ∧ d.due (.discover n) = true) ∧
    (∃ (d : Dev) (n : Fin 48), (d.conn n).state = .train ∧ d.due (.train n) = true ∧ d.members (d.conn n).master = [n.val]) ∧
    (∃ (d : Dev) (n : Fin 48), (d.conn n).state = .standby) :=
  ⟨⟨({ Dev.init with regs := [(R.CLL_CFG 47, 0)], ts := 1 }), (47), (0x80000000), (by decide +kernel), (by decide +kernel), (by decide +kernel)⟩,
   ⟨({ Dev.init with regs := [(R.CLL_CFG 47, 0x80000000)] }), (47), (0), (by decide +kernel), (by decide +kernel)⟩,
   ⟨({ Dev.init with ts := 250000000 }), (by decide +kernel), (by decide +kernel)⟩,
   ⟨({ Dev.init with cll := { CllSt.init with conns := [(47, { Conn.init with state := .discover, los := false })] } }), (47), (6), (by decide +kernel), (by decide +kernel)⟩,
   ⟨({ Dev.init with cll := { CllSt.init with conns := [(47, { Conn.init with state := .discover, los := false })] } }), (47), (by decide +kernel), (by decide +kernel)⟩,
   ⟨({ Dev.init with cll := { CllSt.init with conns := [(47, { Conn.init with state := .discover, los := false })] } }), (47), (by decide +kernel), (by decide +kernel)⟩,
   ⟨({ Dev.init with cll := { CllSt.init with conns := [(47, { Conn.init with state := .discover, locked := true, los := false })] } }), (47), (by decide +kernel), (by decide +kernel), (by decide +kernel), (by decide +kernel), (by decide +kernel), (by decide +kernel)⟩,
   ⟨({ Dev.init with cll := { CllSt.init with conns := [(47, { Conn.init with state := .up, locked := true, los := false })] } }), (47), (by decide +kernel), (by decide +kernel), (by decide +kernel)⟩,
   ⟨({ Dev.init with cll := { CllSt.init with conns := [(47, { Conn.init with state := .up, aligned := true })] } }), (47), (by decide +kernel), (by decide +kernel)⟩,
   ⟨({ Dev.init with cll := { CllSt.init with conns := [(47, { Conn.init with state := .up, los := false })] } }), (47), (by decide +kernel), (by decide +kernel)⟩,
   ⟨({ Dev.init with cll := { CllSt.init with conns := [(47, { Conn.init with state := .discover, los := false })] } }), (47), (by decide +kernel), (by decide +kernel)⟩,
   ⟨({ Dev.init with cll := { CllSt.init with conns := [(47, { Conn.init with state := .absent })] } }), (47), (by decide +kernel)⟩,
   ⟨({ Dev.init with cll := { CllSt.init with conns := [(47, { Conn.init with state := .up })] } }), (47), (by decide +kernel)⟩,
   ⟨({ Dev.init with cll := { CllSt.init with conns := [(47, { Conn.init with state := .up, joined := true, master := 47 })] }, timers := [(.loss 47, 0)] }), (47), (by decide +kernel), (by decide +kernel), (by decide +kernel), (by decide +kernel)⟩,
   ⟨({ Dev.init with cll := { CllSt.init with conns := [(47, { Conn.init with state := .up })] } }), (47), (by decide +kernel)⟩,
   ⟨({ Dev.init with cll := { CllSt.init with conns := [(47, { Conn.init with state := .up })] } }), (47), (by decide +kernel)⟩,
   ⟨({ Dev.init with cll := { CllSt.init with conns := [(47, { Conn.init with state := .discover })] }, timers := [(.discover 47, 0)] }), (47), (by decide +kernel), (by decide +kernel), (by decide +kernel)⟩,
   ⟨({ Dev.init with cll := { CllSt.init with conns := [(47, { Conn.init with state := .train, joined := true, master := 47 })] }, timers := [(.train 47, 0)] }), (47), (by decide +kernel), (by decide +kernel), (by decide +kernel)⟩,
   ⟨({ Dev.init with cll := { CllSt.init with conns := [(47, { Conn.init with state := .standby })] } }), (47), (by decide +kernel)⟩⟩

/-- The hypotheses of ConnectionRequestsPowerEvents are met: clause by clause. -/
theorem test_hyps_ConnectionRequestsPowerEvents :
    (∃ (d : Dev) (n : Fin 48), d.due (.joinWait n) = true ∧ (d.conn n).state = .discover ∧ d.isMaster n = true ∧ d.members n = [n.val] ∧ (d.conn n).cap = 1 ∧ fld (d.rd (R.CLL_CFG n)) F.CLL_CFG_CHK = 0 ∧ (d.conn n).devId = 0) ∧
    (∃ (d : Dev) (n : Fin 48), d.isMaster n = true ∧ (d.conn n).state = .up) ∧
    (∃ (d : Dev) (n : Fin 48), d.isMaster n = false) ∧
    (∃ (d : Dev) (n : Fin 48), d.isMaster n = true ∧ (d.conn n).state = .up) ∧
    (∃ (d : Dev) (n : Fin 48), d.isMaster n = true ∧ (d.conn n).state = .standby) ∧
    (∃ (d : Dev) (n : Fin 48), d.isMaster n = true ∧ (d.conn n).state = .park) ∧
    (∃ (d : Dev) (n : Fin 48), d.isMaster n = true ∧ (d.conn n).state = .up) ∧
    (∃ (d : Dev) (n : Fin 48) (v : Word), d.b (R.CLL_PWR n) F.CLL_PWR_EN = true) ∧
    (∃ (d : Dev) (n : Fin 48) (v : Word), d.b (R.CLL_PWR n) F.CLL_PWR_EN = false ∧ (d.plainWrite (R.CLL_PWR n) v).b (R.CLL_PWR n) F.CLL_PWR_EN = true) ∧
    (∃ (d : Dev) (n : Fin 48), (d.conn n).pwrOn = true) ∧
    (∃ (d : Dev) (n : Fin 48), (d.conn n).fault = true ∧ d.due (.pwrRetry n) = true ∧ fld (d.rd (R.CLL_PWR n)) F.CLL_PWR_AUTO_RETRY = 1 ∧ (d.conn n).retries < fld (d.rd (R.CLL_PWR n)) F.CLL_PWR_RETRY_MAX) ∧
    (∃ (d : Dev) (n : Fin 48), d.due (.pwrClear n) = true ∧ (d.conn n).fault = false) ∧
    (∃ (d : Dev) (n : Fin 48) (time : DWord), (d.conn n).state = .up) ∧
    (∃ (d : Dev) (n : Fin 48) (t0 : Nat), d.timer (.hb n) = some t0 ∧ d.f (R.CLL_CFG n) F.CLL_CFG_HB_TMO ≠ 0 ∧ (d.conn n).state = .up ∧ t0 + d.f (R.CLL_CFG n) F.CLL_CFG_HB_TMO * 1000000 ≤ d.now) ∧
    (∃ (d : Dev) (n : Fin 48) (data : List Byte), (d.conn n).state = .up ∧ ((d.conn n).events.map (fun e => e.2.length)).sum + data.length ≤ 2048) ∧
    (∃ (d : Dev) (b : BitVec 48), d.b R.CLL_PNL_CFG F.CLL_PNL_CFG_EN = true ∧ d.pwr.state = .active) :=
  ⟨⟨({ Dev.init with regs := [(R.CLL_CFG 47, 0)], cll := { CllSt.init with conns := [(47, { Conn.init with state := .discover, cap := 1, joined := true, master := 47 })] }, timers := [(.joinWait 47, 0)] }), (47), (by decide +kernel), (by decide +kernel), (by decide +kernel), (by decide +kernel), (by decide +kernel), (by decide +kernel), (by decide +kernel)⟩,
   ⟨({ Dev.init with cll := { CllSt.init with conns := [(47, { Conn.init with state := .up, joined := true, master := 47 })] } }), (47), (by decide +kernel), (by decide +kernel)⟩,
   ⟨(Dev.init), (47), (by decide +kernel)⟩,
   ⟨({ Dev.init with cll := { CllSt.init with conns := [(47, { Conn.init with state := .up, joined := true, master := 47 })] } }), (47), (by decide +kernel), (by decide +kernel)⟩,
   ⟨({ Dev.init with cll := { CllSt.init with conns := [(47, { Conn.init with state := .standby, joined := true, master := 47 })] } }), (47), (by decide +kernel), (by decide +kernel)⟩,
   ⟨({ Dev.init with cll := { CllSt.init with conns := [(47, { Conn.init with state := .park, joined := true, master := 47 })] } }), (47), (by decide +kernel), (by decide +kernel)⟩,
   ⟨({ Dev.init with cll := { CllSt.init with conns := [(47, { Conn.init with state := .up, joined := true, master := 47 })] } }), (47), (by decide +kernel), (by decide +kernel)⟩,
   ⟨({ Dev.init with regs := [(R.CLL_PWR 47, 0x80000000)] }), (47), (0), (by decide +kernel)⟩,
   ⟨({ Dev.init with regs := [(R.CLL_PWR 47, 0)] }), (47), (0x80000000), (by decide +kernel), (by decide +kernel)⟩,
   ⟨({ Dev.init with cll := { CllSt.init with conns := [(47, { Conn.init with pwrOn := true })] } }), (47), (by decide +kernel)⟩,
   ⟨({ Dev.init with regs := [(R.CLL_PWR 47, 0xFF000000)], cll := { CllSt.init with conns := [(47, { Conn.init with fault := true, retries := 14 })] }, timers := [(.pwrRetry 47, 0)] }), (47), (by decide +kernel), (by decide +kernel), (by decide +kernel), (by decide +kernel)⟩,
   ⟨({ Dev.init with timers := [(.pwrClear 47, 0)] }), (47), (by decide +kernel), (by decide +kernel)⟩,
   ⟨({ Dev.init with cll := { CllSt.init with conns := [(47, { Conn.init with state := .up })] } }), (47), (0), (by decide +kernel)⟩,
   ⟨({ Dev.init with regs := [(R.CLL_CFG 47, 0x80000001)], cll := { CllSt.init with conns := [(47, { Conn.init with state := .up })] }, now := 1000000, timers := [(.hb 47, 0)] }), (47), (0), (by decide +kernel), (by decide +kernel), (by decide +kernel), (by decide +kernel)⟩,
   ⟨({ Dev.init with cll := { CllSt.init with conns := [(47, { Conn.init with state := .up, events := [(0, zeros 2047)] })] } }), (47), ([0]), (by decide +kernel), (by decide +kernel)⟩,
   ⟨({ Dev.init with regs := [(R.CLL_PNL_CFG, 0x80000000)] }), (281474976710655#48), (by decide +kernel), (by decide +kernel)⟩⟩

/-- The hypotheses of ControlCommandsRun are met: clause by clause. -/
theorem test_hyps_ControlCommandsRun :
    (∃ (d : Dev) (n : Fin 48) (m : MailCmd), (d.conn n).cmd = none ∧ d.pwr.state = .active ∧ (d.conn n).setQ = [] ∧ (d.conn n).disc = none ∧ (d.conn n).mailbox = some m ∧ (d.conn n).state = .up ∧ d.isMaster n = true) ∧
    (∃ (d : Dev) (n : Fin 48) (m : MailCmd) (a : ControlAck), (d.conn n).cmd = some .mailbox ∧ (d.conn n).mailbox = some m ∧ m.write = true ∧ a.crcOk = true ∧ a.wait = false ∧ a.fits = true ∧ a.code = 0) ∧
    (∃ (d : Dev) (n : Fin 48), (d.conn n).cmd = some .mailbox ∧ d.due (.ctrl n) = true) ∧
    (∃ (d : Dev) (n : Fin 48) (v : Word) (w : Word), v ||| 0x80000000 = w ∧ fld w F.CLL_CTRL_CMD_GO = 1 ∧ d.b (R.CLL_CTRL_STATUS n) F.CLL_CTRL_STATUS_BUSY = false ∧ d.isMaster n = false) ∧
    (∃ (d : Dev) (d1 : Dev) (n : Fin 48) (v : Word) (w : Word), v ||| 0x80000000 = w ∧ d.plainWrite (R.CLL_CTRL_CMD n) w = d1 ∧ fld w F.CLL_CTRL_CMD_GO = 1 ∧ d.b (R.CLL_CTRL_STATUS n) F.CLL_CTRL_STATUS_BUSY = false ∧ d.isMaster n = true ∧ (d.conn n).state = .up ∧ fld w F.CLL_CTRL_CMD_SIZE = 4 ∧ fld w F.CLL_CTRL_CMD_WRITE = 1) :=
  ⟨⟨({ Dev.init with cll := { CllSt.init with conns := [(47, { Conn.init with state := .up, mailbox := some { write := true, addr := 0, size := 4, data := [] }, joined := true, master := 47 })] } }), (47), ({ write := true, addr := 0, size := 4, data := [] }), (by decide +kernel), (by decide +kernel), (by decide +kernel), (by decide +kernel), (by decide +kernel), (by decide +kernel), (by decide +kernel)⟩,
   ⟨({ Dev.init with cll := { CllSt.init with conns := [(47, { Conn.init with cmd := some .mailbox, mailbox := some { write := true, addr := 0, size := 4, data := [] } })] } }), (47), ({ write := true, addr := 0, size := 4, data := [] }), ({ crcOk := true, wait := false, fits := true, code := 0, value := 0, conns := 0, rate := 0, data := [] }), (by decide +kernel), (by decide +kernel), (by decide +kernel), (by decide +kernel), (by decide +kernel), (by decide +kernel), (by decide +kernel)⟩,
   ⟨({ Dev.init with cll := { CllSt.init with conns := [(47, { Conn.init with cmd := some .mailbox })] }, timers := [(.ctrl 47, 0)] }), (47), (by decide +kernel), (by decide +kernel)⟩,
   ⟨(Dev.init), (47), (0), (0x80000000), (by decide +kernel), (by decide +kernel), (by decide +kernel), (by decide +kernel)⟩,
   ⟨({ Dev.init with cll := { CllSt.init with conns := [(47, { Conn.init with state := .up, joined := true, master := 47 })] } }), _, (47), (0x40000004), (0xC0000004), (by decide +kernel), (rfl), (by decide +kernel), (by decide +kernel), (by decide +kernel), (by decide +kernel), (by decide +kernel), (by decide +kernel)⟩⟩

/-- The hypotheses of EventBufferNeverOverflows are met: clause by clause. -/
theorem test_hyps_EventBufferNeverOverflows :
    ∃ (d : Dev) (n : Fin 48) (ok : Bool) (data : List Byte), ((∀ k : Nat, ((d.conn k).events.map (fun e => e.2.length)).sum ≤ 2048)) :=
  ⟨(Dev.init), (47), (true), (zeros 2049), (fun _ => Nat.zero_le _)⟩

/-- The hypotheses of PlyAndAssemblerRun are met: clause by clause. -/
theorem test_hyps_PlyAndAssemblerRun :
    (∃ (d : Dev) (d0 : Dev) (q : Fin 48) (k : StreamPacket) (span : Nat), (d.conn q).state = .up ∧ (d.ply q).resetting = false ∧ d0 = d.modConn q (fun y => { y with streamAt := some d.now }) ∧ max 4 (d0.f (R.ASM_Q_CFG q) F.ASM_Q_CFG_FORFEIT) * 32 + packetEntries k ≤ (d.ply q).free ∧ k.bytes ≤ 16384) ∧
    (∃ (d : Dev) (d0 : Dev) (q : Fin 48) (k : StreamPacket) (cut : Bool) (span : Nat), (d.conn q).state = .up ∧ (d.ply q).resetting = false ∧ d0 = d.modConn q (fun y => { y with streamAt := some d.now }) ∧ max 4 (d0.f (R.ASM_Q_CFG q) F.ASM_Q_CFG_FORFEIT) * 32 + packetEntries k ≤ (d.ply q).free) ∧
    (∃ (d : Dev) (q : Fin 48) (room : Bool) (cam : Nat) (p : PlyPacket), d.camOfQueue q = some cam ∧ p.pkt.imageId = true ∧ (d.asmCam cam).waiting = [] ∧ (d.asmCam cam).expected = none ∧ (d.ply q).packets.find? (fun k => !k.taken) = some p) ∧
    (∃ (d : Dev) (cam : Fin 48) (room : Bool) (e : Nat) (w : Nat × Nat × PlyPacket), (d.asmCam cam).expected = some e ∧ (d.asmCam cam).waiting = [w] ∧ d.due (.mergeSkew cam) = true ∧ tagAfter w.2.2.pkt.tag e = 1) ∧
    (∃ (d : Dev) (d1 : Dev) (cam : Fin 48) (a : Act), d.activate (Task.asmClose cam) = (some a, d1)) ∧
    (∃ (d : Dev) (d1 : Dev) (cam : Fin 48) (v : Word), d1 = d.plainWrite (R.ASM_CAM_CFG cam) (v ||| 0x80000000) ∧ d.b (R.ASM_CAM_CFG cam) F.ASM_CAM_CFG_EN = false ∧ d1.b (R.ASM_CAM_CFG cam) F.ASM_CAM_CFG_EN = true) ∧
    (∃ (d : Dev) (d1 : Dev) (cam : Fin 48) (v : Word) (room : Bool), d1 = d.plainWrite (R.ASM_CAM_CFG cam) (v &&& 0x7FFFFFFF) ∧ d.b (R.ASM_CAM_CFG cam) F.ASM_CAM_CFG_EN = true ∧ d1.b (R.ASM_CAM_CFG cam) F.ASM_CAM_CFG_EN = false) :=
  ⟨⟨({ Dev.init with regs := [(R.ASM_Q_CFG 47, 0)], cll := { CllSt.init with conns := [(47, { Conn.init with state := .up })] }, asm := { AsmSt.init with plys := [(47, { Ply.init with commit := 7552 })] } }), _, (47), ({ tag := 255, imageId := true, bytes := 16384, parts := [] }), (0), (by decide +kernel), (by decide +kernel), (rfl), (by decide +kernel), (by decide +kernel)⟩,
   ⟨({ Dev.init with regs := [(R.ASM_Q_CFG 47, 0)], cll := { CllSt.init with conns := [(47, { Conn.init with state := .up })] }, asm := { AsmSt.init with plys := [(47, { Ply.init with commit := 7552 })] } }), _, (47), ({ tag := 255, imageId := true, bytes := 16384, parts := [] }), (true), (0), (by decide +kernel), (by decide +kernel), (rfl), (by decide +kernel)⟩,
   ⟨({ Dev.init with cll := { CllSt.init with conns := [(47, { Conn.init with joined := true, master := 47 })] }, asm := { AsmSt.init with plys := [(47, { Ply.init with commit := 1, packets := [{ start := 0, len := 1, ts := 0, frame := 0, taken := false, pkt := { tag := 255, imageId := true, bytes := 0, parts := [] } }] })], cams := [(47, { AsmCam.init with on := true, conn := 47 })] } }), (47), (true), (47), ({ start := 0, len := 1, ts := 0, frame := 0, taken := false, pkt := { tag := 255, imageId := true, bytes := 0, parts := [] } }), (by decide +kernel), (by decide +kernel), (by decide +kernel), (by decide +kernel), (by decide +kernel)⟩,
   ⟨({ Dev.init with timers := [(.mergeSkew 47, 0)], asm := { AsmSt.init with cams := [(47, { AsmCam.init with on := true, expected := some 254, waiting := [(47, 0, { start := 0, len := 1, ts := 0, frame := 0, taken := false, pkt := { tag := 255, imageId := true, bytes := 0, parts := [] } })] })] } }), (47), (true), (254), ((47, 0, { start := 0, len := 1, ts := 0, frame := 0, taken := false, pkt := { tag := 255, imageId := true, bytes := 0, parts := [] } })), (by decide +kernel), (by decide +kernel), (by decide +kernel), (by decide +kernel)⟩,
   ⟨(wFlight (Task.asmClose 47) Dev.init), _, (47), _, (by rfl)⟩,
   ⟨({ Dev.init with regs := [(R.ASM_CAM_CFG 47, 0)] }), _, (47), (0), (rfl), (by decide +kernel), (by decide +kernel)⟩,
   ⟨({ Dev.init with regs := [(R.ASM_CAM_CFG 47, 0x80000000)] }), _, (47), (0xFFFFFFFF), (true), (rfl), (by decide +kernel), (by decide +kernel)⟩⟩

/-- The hypotheses of ParameterSetsAndCarriages are met: clause by clause. -/
theorem test_hyps_ParameterSetsAndCarriages :
    (∃ (d : Dev) (d1 : Dev) (cam : Fin 48) (v : Word) (w : Word), v ||| 0x80000000 = w ∧ d1 = d.plainWrite (R.CAR_SET_CTL cam) w ∧ fld w F.CAR_SET_CTL_GO = 1 ∧ fld (d1.rd (R.CAR_MDL_CFG cam)) F.CAR_MDL_CFG_EN = 0) ∧
    (∃ (d : Dev) (d1 : Dev) (cam : Fin 48) (v : Word) (w : Word), v ||| 0x80000000 = w ∧ d1 = d.plainWrite (R.CAR_SET_CTL cam) w ∧ fld w F.CAR_SET_CTL_GO = 1 ∧ fld w F.CAR_SET_CTL_COUNT = 0 ∧ fld (d1.rd (R.CAR_MDL_CFG cam)) F.CAR_MDL_CFG_EN = 1 ∧ fld (d1.rd (R.CAR_MDL_CFG cam)) F.CAR_MDL_CFG_UNIT = 1 ∧ (d1.conn (d1.masterConn cam)).state = .up ∧ (d1.carCam cam).pending = none) ∧
    (∃ (d : Dev) (cam : Fin 48) (late : Bool) (q : SetRec) (f : Nat × Int × Int × Nat), (d.carCam cam).pending = some q ∧ (d.carCam cam).issuing = none ∧ d.pwr.state = .active ∧ d.openWindow cam q = some f ∧ d.setTarget cam q f = (true, false) ∧ q.lines = false ∧ q.cmds ≠ []) ∧
    (∃ (d : Dev) (k : Fin 4) (drained : Nat) (l : LineRec) (rest : List CarIn), (d.carriage k).cross = .line l :: rest ∧ (d.carriage k).closed = none ∧ (d.carriage k).abandon ≠ some (l.cam, l.frame) ∧ (d.carriage k).fill - drained + lineBytes l ≤ 256 * 1024 ∧ (d.carriage k).cur.filter (fun m => m.cam == l.cam && m.frame == l.frame) ≠ []) ∧
    (∃ (d : Dev) (k : Fin 4) (drained : Nat) (t : FrameTag) (rest : List CarIn), (d.carriage k).cross = .close t :: rest ∧ (d.carriage k).closed = none ∧ (d.carriage k).abandon ≠ some (t.cam, t.seq)) ∧
    (∃ (d : Dev) (k : Fin 4) (cam : Nat) (f : MemFrame) (q : CpbCopy) (a : Nat), fld (d.rd (R.CAR_CFG k)) F.CAR_CFG_EN = 1 ∧ fld (d.rd (R.CAR_CFG k)) F.CAR_CFG_MEM_EN = 1 ∧ (d.carriage k).mem = none ∧ d.carRuns = true ∧ d.memNext k = some (cam, f) ∧ d.carBarred k f.da f.size = none ∧ d.badBlocks f.da f.size = [] ∧ d.cpbOf cam f.tag.psid = (a, false) ∧ a ≠ 0 ∧ (d.cpbLoad k f.tag.psid a).1 = q ∧ (d.cpbLoad k f.tag.psid a).2.1 = false ∧ q.bytes ≠ []) ∧
    (∃ (d : Dev) (k : Fin 4) (t : FrameTag), d.carRuns = true ∧ (d.carriage k).closed = some t) ∧
    (∃ (d : Dev) (k : Fin 4) (p : Parcel) (rest : List Parcel), (d.carriage k).stats = p :: rest) ∧
    (∃ (d : Dev) (k : Fin 4) (cam : Nat) (p : Nat × Nat) (rest : List (Nat × Nat)), d.boundCam k = some cam ∧ (d.carCam cam).cpbs = p :: rest ∧ p.2 ≠ 0 ∧ (d.carriage k).work = none ∧ (d.carriage k).shadow = none ∧ d.carRuns = true ∧ (d.cpbLoad k p.1 p.2).2.1 = false) ∧
    (∃ (d : Dev) (k : Fin 4) (v : Word), fld v F.CAR_CTL_RESET = 1 ∧ (d.carriage k).cur = [] ∧ (d.carriage k).closed = none ∧ (d.carriage k).mem = none) ∧
    (∃ (d : Dev) (cam : Fin 48), d.swatching cam = true ∧ d.ste.order = [] ∧ (d.swatchOf cam).phase = .accumulate ∧ (d.swatchOf cam).bad.contains (d.swatchOf cam).rep = false ∧ (d.swatchOf cam).good + 1 < (d.swatchOf cam).k ∧ d.skein.hist.recs = [] ∧ (d.swatchOf cam).rep + 1 - (d.swatchOf cam).from_ < (d.swatchOf cam).k + (d.swatchOf cam).extra ∧ d.pwr.trip = false) :=
  ⟨⟨(Dev.init), _, (47), (1), (0x80000001), (by decide +kernel), (rfl), (by decide +kernel), (by decide +kernel)⟩,
   ⟨({ Dev.init with regs := [(R.CAR_MDL_CFG 47, 0xC0000000)], cll := { CllSt.init with conns := [(0, { Conn.init with state := .up })] } }), _, (47), (0), (0x80000000), (by decide +kernel), (rfl), (by decide +kernel), (by decide +kernel), (by decide +kernel), (by decide +kernel), (by decide +kernel), (by decide +kernel)⟩,
   ⟨({ Dev.init with car := { CarSt.init with cams := [(47, { CarCam.init with pending := some { psid := 1, job := false, cpb := 0, cmds := [(0, [1])], kind := 0, axis := 0, tgt := 0, delay := 0, lines := false, winLo := 0, winHi := 5, dur := 5, at_ := 0 }, frames := [(0, 0, 0)] })] } }), (47), (true), ({ psid := 1, job := false, cpb := 0, cmds := [(0, [1])], kind := 0, axis := 0, tgt := 0, delay := 0, lines := false, winLo := 0, winHi := 5, dur := 5, at_ := 0 }), ((0, 0, 0, 0)), (by decide +kernel), (by decide +kernel), (by decide +kernel), (by decide +kernel), (by decide +kernel), (by decide +kernel), (by decide +kernel)⟩,
   ⟨({ Dev.init with car := { CarSt.init with cars := [(3, { Carriage.init with cross := [.line { cam := 0, frame := 0, row := 0, epoch := 0, psid := 0, info := { wp := 0, ts := 0, seq := 0, filled := false }, format := 0x0101, px := [255], fill := [], unc := false, src := [] }], fill := 262143, cur := [{ cam := 0, frame := 0, row := 0, epoch := 0, psid := 0, info := { wp := 0, ts := 0, seq := 0, filled := false }, format := 0x0101, px := [255], fill := [], unc := false, src := [] }] })] } }), (3), (0), ({ cam := 0, frame := 0, row := 0, epoch := 0, psid := 0, info := { wp := 0, ts := 0, seq := 0, filled := false }, format := 0x0101, px := [255], fill := [], unc := false, src := [] }), ([]), (by decide +kernel), (by decide +kernel), (by decide +kernel), (by decide +kernel), (by decide +kernel)⟩,
   ⟨({ Dev.init with car := { CarSt.init with cars := [(3, { Carriage.init with cross := [.close { cam := 0, output := 0, seq := 0, trig := 0, job := 0, epoch := 0, psid := 0, flags := 0, wpFirst := 0, wpLast := 0, tsFirst := 0, lines := 1, width := 1, format := 0x0101, crc := 0, fid := 0 }] })] } }), (3), (0), ({ cam := 0, output := 0, seq := 0, trig := 0, job := 0, epoch := 0, psid := 0, flags := 0, wpFirst := 0, wpLast := 0, tsFirst := 0, lines := 1, width := 1, format := 0x0101, crc := 0, fid := 0 }), ([]), (by decide +kernel), (by decide +kernel), (by decide +kernel)⟩,
   ⟨(wMem), (3), (47), ({ tag := { cam := 47, output := 0, seq := 0, trig := 0, job := 0, epoch := 0, psid := 5, flags := 0, wpFirst := 0, wpLast := 0, tsFirst := 0, lines := 1, width := 1, format := 0x0101, crc := 0, fid := 0 }, lines := [], size := 64, da := 0 }), (wCpb), (64), (by decide +kernel), (by decide +kernel), (by decide +kernel), (by decide +kernel), (by decide +kernel), (by decide +kernel), (by decide +kernel), (by decide +kernel), (by decide +kernel), (congrArg (·.1) wLoad), (congrArg (·.2.1) wLoad), (wCpbNe)⟩,
   ⟨({ Dev.init with car := { CarSt.init with cars := [(3, { Carriage.init with closed := some { cam := 0, output := 0, seq := 0, trig := 0, job := 0, epoch := 0, psid := 0, flags := 0, wpFirst := 0, wpLast := 0, tsFirst := 0, lines := 1, width := 1, format := 0x0101, crc := 0, fid := 0 } })] } }), (3), ({ cam := 0, output := 0, seq := 0, trig := 0, job := 0, epoch := 0, psid := 0, flags := 0, wpFirst := 0, wpLast := 0, tsFirst := 0, lines := 1, width := 1, format := 0x0101, crc := 0, fid := 0 }), (by decide +kernel), (by decide +kernel)⟩,
   ⟨({ Dev.init with car := { CarSt.init with cars := [(3, { Carriage.init with stats := [{ kind := .stats, ring := 0, cam := 0, seq := 0, bytes := [], number := 0, waited := false, carriage := 0, output := 0 }] })] } }), (3), ({ kind := .stats, ring := 0, cam := 0, seq := 0, bytes := [], number := 0, waited := false, carriage := 0, output := 0 }), ([]), (by decide +kernel)⟩,
   ⟨({ Dev.init with asm := { AsmSt.init with cams := [(47, { AsmCam.init with on := true })] }, car := { CarSt.init with cams := [(47, { CarCam.init with path := 1, car := 3, cpbs := [(5, 64)] })] } }), (3), (47), ((5, 64)), ([]), (by decide +kernel), (by decide +kernel), (by decide +kernel), (by decide +kernel), (by decide +kernel), (by decide +kernel), (by decide +kernel)⟩,
   ⟨(Dev.init), (3), (1), (by decide +kernel), (by decide +kernel), (by decide +kernel), (by decide +kernel)⟩,
   ⟨({ Dev.init with job := { JobSt.init with swatching := [47], swatch := [(47, { Swatch.init with phase := .accumulate, k := 8, extra := 1, rep := 8, good := 6 })] } }), (47), (by decide +kernel), (by decide +kernel), (by decide +kernel), (by decide +kernel), (by decide +kernel), (by decide +kernel), (by decide +kernel), (by decide +kernel)⟩⟩

/-- The hypotheses of ScalarArithmetic are met: clause by clause. -/
theorem test_hyps_ScalarArithmetic :
    (∃ (d : Dev) (k : Ctx) (e : Fin 256) (rd : BitVec 4) (ra : BitVec 4) (rb : BitVec 4), IssuesS e k (encR 0x01 rd ra rb 0) d) ∧
    (∃ (d : Dev) (k : Ctx) (e : Fin 256) (rd : BitVec 4) (ra : BitVec 4) (rb : BitVec 4), IssuesS e k (encR 0x01 rd ra rb 1) d) ∧
    (∃ (d : Dev) (k : Ctx) (e : Fin 256) (rd : BitVec 4) (ra : BitVec 4) (rb : BitVec 4), IssuesS e k (encR 0x01 rd ra rb 2) d) ∧
    (∃ (d : Dev) (k : Ctx) (e : Fin 256) (rd : BitVec 4) (ra : BitVec 4) (rb : BitVec 4), IssuesS e k (encR 0x01 rd ra rb 3) d) ∧
    (∃ (d : Dev) (k : Ctx) (e : Fin 256) (rd : BitVec 4) (ra : BitVec 4) (rb : BitVec 4), IssuesS e k (encR 0x01 rd ra rb 4) d) ∧
    (∃ (d : Dev) (k : Ctx) (e : Fin 256) (rd : BitVec 4) (ra : BitVec 4) (rb : BitVec 4), IssuesS e k (encR 0x01 rd ra rb 5) d) ∧
    (∃ (d : Dev) (k : Ctx) (e : Fin 256) (rd : BitVec 4) (ra : BitVec 4) (rb : BitVec 4), IssuesS e k (encR 0x01 rd ra rb 6) d) ∧
    (∃ (d : Dev) (k : Ctx) (e : Fin 256) (rd : BitVec 4) (ra : BitVec 4) (rb : BitVec 4), IssuesS e k (encR 0x01 rd ra rb 7) d) ∧
    (∃ (d : Dev) (k : Ctx) (e : Fin 256) (rd : BitVec 4) (ra : BitVec 4) (rb : BitVec 4), IssuesS e k (encR 0x01 rd ra rb 8) d) ∧
    (∃ (d : Dev) (k : Ctx) (e : Fin 256) (rd : BitVec 4) (ra : BitVec 4) (rb : BitVec 4), IssuesS e k (encR 0x01 rd ra rb 9) d) ∧
    (∃ (d : Dev) (k : Ctx) (e : Fin 256) (rd : BitVec 4) (ra : BitVec 4) (rb : BitVec 4), IssuesS e k (encR 0x01 rd ra rb 10) d) ∧
    (∃ (d : Dev) (k : Ctx) (e : Fin 256) (rd : BitVec 4) (ra : BitVec 4) (rb : BitVec 4), IssuesS e k (encR 0x01 rd ra rb 11) d) ∧
    (∃ (d : Dev) (k : Ctx) (e : Fin 256) (rd : BitVec 4) (ra : BitVec 4) (rb : BitVec 4), IssuesS e k (encR 0x01 rd ra rb 12) d) ∧
    (∃ (d : Dev) (k : Ctx) (e : Fin 256) (rd : BitVec 4) (ra : BitVec 4) (rb : BitVec 4), IssuesS e k (encR 0x01 rd ra rb 13) d) ∧
    (∃ (d : Dev) (k : Ctx) (e : Fin 256) (rd : BitVec 4) (ra : BitVec 4) (rb : BitVec 4), IssuesS e k (encR 0x01 rd ra rb 14) d ∧ rd.getLsbD 0 = false ∧ ra.getLsbD 0 = false ∧ rb.getLsbD 0 = false) ∧
    (∃ (d : Dev) (k : Ctx) (e : Fin 256) (rd : BitVec 4) (ra : BitVec 4) (rb : BitVec 4), IssuesS e k (encR 0x01 rd ra rb 14) d ∧ (rd.getLsbD 0 || ra.getLsbD 0 || rb.getLsbD 0) = true) ∧
    (∃ (d : Dev) (k : Ctx) (e : Fin 256) (rd : BitVec 4) (ra : BitVec 4) (rb : BitVec 4), IssuesS e k (encR 0x01 rd ra rb 15) d ∧ rd.getLsbD 0 = false ∧ ra.getLsbD 0 = false ∧ rb.getLsbD 0 = false) ∧
    (∃ (d : Dev) (k : Ctx) (e : Fin 256) (rd : BitVec 4) (ra : BitVec 4) (rb : BitVec 4), IssuesS e k (encR 0x01 rd ra rb 15) d ∧ (rd.getLsbD 0 || ra.getLsbD 0 || rb.getLsbD 0) = true) ∧
    (∃ (d : Dev) (k : Ctx) (e : Fin 256) (rd : BitVec 4) (ra : BitVec 4) (imm : BitVec 18), IssuesS e k (encI 0x02 rd ra imm) d) ∧
    (∃ (d : Dev) (k : Ctx) (e : Fin 256) (rd : BitVec 4) (ra : BitVec 4) (imm : BitVec 18), IssuesS e k (encI 0x03 rd ra imm) d) ∧
    (∃ (d : Dev) (k : Ctx) (e : Fin 256) (rd : BitVec 4) (ra : BitVec 4) (imm : BitVec 18), IssuesS e k (encI 0x04 rd ra imm) d) ∧
    (∃ (d : Dev) (k : Ctx) (e : Fin 256) (rd : BitVec 4) (ra : BitVec 4) (imm : BitVec 18), IssuesS e k (encI 0x05 rd ra imm) d) ∧
    (∃ (d : Dev) (k : Ctx) (e : Fin 256) (rd : BitVec 4) (ra : BitVec 4) (imm : BitVec 18), IssuesS e k (encI 0x09 rd ra imm) d) ∧
    (∃ (d : Dev) (k : Ctx) (e : Fin 256) (rd : BitVec 4) (ra : BitVec 4) (imm : BitVec 5), IssuesS e k (encI 0x06 rd ra (imm.setWidth 18)) d) ∧
    (∃ (d : Dev) (k : Ctx) (e : Fin 256) (rd : BitVec 4) (ra : BitVec 4) (imm : BitVec 5), IssuesS e k (encI 0x07 rd ra (imm.setWidth 18)) d) ∧
    (∃ (d : Dev) (k : Ctx) (e : Fin 256) (rd : BitVec 4) (ra : BitVec 4) (imm : BitVec 5), IssuesS e k (encI 0x08 rd ra (imm.setWidth 18)) d) ∧
    (∃ (d : Dev) (k : Ctx) (e : Fin 256) (rd : BitVec 4) (imm : BitVec 22), IssuesS e k (encL 0x0A rd imm) d) :=
  ⟨⟨(wDev (wEng 1022 []) ((encR 0x01 (15#4) (15#4) (15#4) 0)) 0), (wCtx (wEng 1022 [])), (0), (15#4), (15#4), (15#4), (⟨rfl, by decide⟩)⟩,
   ⟨(wDev (wEng 1022 []) ((encR 0x01 (15#4) (15#4) (15#4) 1)) 0), (wCtx (wEng 1022 [])), (0), (15#4), (15#4), (15#4), (⟨rfl, by decide⟩)⟩,
   ⟨(wDev (wEng 1022 []) ((encR 0x01 (15#4) (15#4) (15#4) 2)) 0), (wCtx (wEng 1022 [])), (0), (15#4), (15#4), (15#4), (⟨rfl, by decide⟩)⟩,
   ⟨(wDev (wEng 1022 []) ((encR 0x01 (15#4) (15#4) (15#4) 3)) 0), (wCtx (wEng 1022 [])), (0), (15#4), (15#4), (15#4), (⟨rfl, by decide⟩)⟩,
   ⟨(wDev (wEng 1022 []) ((encR 0x01 (15#4) (15#4) (15#4) 4)) 0), (wCtx (wEng 1022 [])), (0), (15#4), (15#4), (15#4), (⟨rfl, by decide⟩)⟩,
   ⟨(wDev (wEng 1022 []) ((encR 0x01 (15#4) (15#4) (15#4) 5)) 0), (wCtx (wEng 1022 [])), (0), (15#4), (15#4), (15#4), (⟨rfl, by decide⟩)⟩,
   ⟨(wDev (wEng 1022 []) ((encR 0x01 (15#4) (15#4) (15#4) 6)) 0), (wCtx (wEng 1022 [])), (0), (15#4), (15#4), (15#4), (⟨rfl, by decide⟩)⟩,
   ⟨(wDev (wEng 1022 []) ((encR 0x01 (15#4) (15#4) (15#4) 7)) 0), (wCtx (wEng 1022 [])), (0), (15#4), (15#4), (15#4), (⟨rfl, by decide⟩)⟩,
   ⟨(wDev (wEng 1022 []) ((encR 0x01 (15#4) (15#4) (15#4) 8)) 0), (wCtx (wEng 1022 [])), (0), (15#4), (15#4), (15#4), (⟨rfl, by decide⟩)⟩,
   ⟨(wDev (wEng 1022 []) ((encR 0x01 (15#4) (15#4) (15#4) 9)) 0), (wCtx (wEng 1022 [])), (0), (15#4), (15#4), (15#4), (⟨rfl, by decide⟩)⟩,
   ⟨(wDev (wEng 1022 []) ((encR 0x01 (15#4) (15#4) (15#4) 10)) 0), (wCtx (wEng 1022 [])), (0), (15#4), (15#4), (15#4), (⟨rfl, by decide⟩)⟩,
   ⟨(wDev (wEng 1022 []) ((encR 0x01 (15#4) (15#4) (15#4) 11)) 0), (wCtx (wEng 1022 [])), (0), (15#4), (15#4), (15#4), (⟨rfl, by decide⟩)⟩,
   ⟨(wDev (wEng 1022 []) ((encR 0x01 (15#4) (15#4) (15#4) 12)) 0), (wCtx (wEng 1022 [])), (0), (15#4), (15#4), (15#4), (⟨rfl, by decide⟩)⟩,
   ⟨(wDev (wEng 1022 []) ((encR 0x01 (15#4) (15#4) (15#4) 13)) 0), (wCtx (wEng 1022 [])), (0), (15#4), (15#4), (15#4), (⟨rfl, by decide⟩)⟩,
   ⟨(wDev (wEng 1022 []) ((encR 0x01 (14#4) (14#4) (14#4) 14)) 0), (wCtx (wEng 1022 [])), (0), (14#4), (14#4), (14#4), (⟨rfl, by decide⟩), (by decide +kernel), (by decide +kernel), (by decide +kernel)⟩,
   ⟨(wDev (wEng 1022 []) ((encR 0x01 (14#4) (14#4) (15#4) 14)) 0), (wCtx (wEng 1022 [])), (0), (14#4), (14#4), (15#4), (⟨rfl, by decide⟩), (by decide +kernel)⟩,
   ⟨(wDev (wEng 1022 []) ((encR 0x01 (14#4) (14#4) (14#4) 15)) 0), (wCtx (wEng 1022 [])), (0), (14#4), (14#4), (14#4), (⟨rfl, by decide⟩), (by decide +kernel), (by decide +kernel), (by decide +kernel)⟩,
   ⟨(wDev (wEng 1022 []) ((encR 0x01 (14#4) (14#4) (15#4) 15)) 0), (wCtx (wEng 1022 [])), (0), (14#4), (14#4), (15#4), (⟨rfl, by decide⟩), (by decide +kernel)⟩,
   ⟨(wDev (wEng 1022 []) ((encI 0x02 (15#4) (15#4) (262143#18))) 0), (wCtx (wEng 1022 [])), (0), (15#4), (15#4), (262143#18), (⟨rfl, by decide⟩)⟩,
   ⟨(wDev (wEng 1022 []) ((encI 0x03 (15#4) (15#4) (262143#18))) 0), (wCtx (wEng 1022 [])), (0), (15#4), (15#4), (262143#18), (⟨rfl, by decide⟩)⟩,
   ⟨(wDev (wEng 1022 []) ((encI 0x04 (15#4) (15#4) (262143#18))) 0), (wCtx (wEng 1022 [])), (0), (15#4), (15#4), (262143#18), (⟨rfl, by decide⟩)⟩,
   ⟨(wDev (wEng 1022 []) ((encI 0x05 (15#4) (15#4) (262143#18))) 0), (wCtx (wEng 1022 [])), (0), (15#4), (15#4), (262143#18), (⟨rfl, by decide⟩)⟩,
   ⟨(wDev (wEng 1022 []) ((encI 0x09 (15#4) (15#4) (262143#18))) 0), (wCtx (wEng 1022 [])), (0), (15#4), (15#4), (262143#18), (⟨rfl, by decide⟩)⟩,
   ⟨(wDev (wEng 1022 []) ((encI 0x06 (15#4) (15#4) ((31#5).setWidth 18))) 0), (wCtx (wEng 1022 [])), (0), (15#4), (15#4), (31#5), (⟨rfl, by decide⟩)⟩,
   ⟨(wDev (wEng 1022 []) ((encI 0x07 (15#4) (15#4) ((31#5).setWidth 18))) 0), (wCtx (wEng 1022 [])), (0), (15#4), (15#4), (31#5), (⟨rfl, by decide⟩)⟩,
   ⟨(wDev (wEng 1022 []) ((encI 0x08 (15#4) (15#4) ((31#5).setWidth 18))) 0), (wCtx (wEng 1022 [])), (0), (15#4), (15#4), (31#5), (⟨rfl, by decide⟩)⟩,
   ⟨(wDev (wEng 1022 []) ((encL 0x0A (15#4) (4194303#22))) 0), (wCtx (wEng 1022 [])), (0), (15#4), (4194303#22), (⟨rfl, by decide⟩)⟩⟩

/-- The hypotheses of ScalarLoadsAndStores are met: clause by clause. -/
theorem test_hyps_ScalarLoadsAndStores :
    (∃ (d : Dev) (k : Ctx) (e : Fin 256) (rd : BitVec 4) (ra : BitVec 4) (imm : BitVec 18) (x : Nat), IssuesS e k (encI 0x10 rd ra imm) d ∧ (k.addr ra imm) % 4 = 0 ∧ k.access false (k.addr ra imm) 4 d = .ok x) ∧
    (∃ (d : Dev) (k : Ctx) (e : Fin 256) (rd : BitVec 4) (ra : BitVec 4) (imm : BitVec 18), IssuesS e k (encI 0x10 rd ra imm) d ∧ (k.addr ra imm) % 4 ≠ 0) ∧
    (∃ (d : Dev) (k : Ctx) (e : Fin 256) (rd : BitVec 4) (ra : BitVec 4) (imm : BitVec 18), IssuesS e k (encI 0x10 rd ra imm) d ∧ (k.addr ra imm) % 4 = 0 ∧ engOffset k.e k.item.home (k.addr ra imm) 4 = none) ∧
    (∃ (d : Dev) (k : Ctx) (e : Fin 256) (rd : BitVec 4) (ra : BitVec 4) (imm : BitVec 18) (x : Nat), IssuesS e k (encI 0x11 rd ra imm) d ∧ (k.addr ra imm) % 2 = 0 ∧ k.access false (k.addr ra imm) 2 d = .ok x) ∧
    (∃ (d : Dev) (k : Ctx) (e : Fin 256) (rd : BitVec 4) (ra : BitVec 4) (imm : BitVec 18), IssuesS e k (encI 0x11 rd ra imm) d ∧ (k.addr ra imm) % 2 ≠ 0) ∧
    (∃ (d : Dev) (k : Ctx) (e : Fin 256) (rd : BitVec 4) (ra : BitVec 4) (imm : BitVec 18), IssuesS e k (encI 0x11 rd ra imm) d ∧ (k.addr ra imm) % 2 = 0 ∧ engOffset k.e k.item.home (k.addr ra imm) 2 = none) ∧
    (∃ (d : Dev) (k : Ctx) (e : Fin 256) (rd : BitVec 4) (ra : BitVec 4) (imm : BitVec 18) (x : Nat), IssuesS e k (encI 0x12 rd ra imm) d ∧ k.access false (k.addr ra imm) 1 d = .ok x) ∧
    (∃ (d : Dev) (k : Ctx) (e : Fin 256) (rd : BitVec 4) (ra : BitVec 4) (imm : BitVec 18), IssuesS e k (encI 0x12 rd ra imm) d ∧ engOffset k.e k.item.home (k.addr ra imm) 1 = none) ∧
    (∃ (d : Dev) (k : Ctx) (e : Fin 256) (rd : BitVec 4) (ra : BitVec 4) (imm : BitVec 18) (x : Nat), IssuesS e k (encI 0x13 rd ra imm) d ∧ (k.addr ra imm) % 4 = 0 ∧ k.access true (k.addr ra imm) 4 d = .ok x) ∧
    (∃ (d : Dev) (k : Ctx) (e : Fin 256) (rd : BitVec 4) (ra : BitVec 4) (imm : BitVec 18), IssuesS e k (encI 0x13 rd ra imm) d ∧ (k.addr ra imm) % 4 ≠ 0) ∧
    (∃ (d : Dev) (k : Ctx) (e : Fin 256) (rd : BitVec 4) (ra : BitVec 4) (imm : BitVec 18), IssuesS e k (encI 0x13 rd ra imm) d ∧ (k.addr ra imm) % 4 = 0 ∧ engOffset k.e k.item.home (k.addr ra imm) 4 = none) ∧
    (∃ (d : Dev) (k : Ctx) (e : Fin 256) (rd : BitVec 4) (ra : BitVec 4) (imm : BitVec 18) (x : Nat), IssuesS e k (encI 0x14 rd ra imm) d ∧ (k.addr ra imm) % 2 = 0 ∧ k.access true (k.addr ra imm) 2 d = .ok x) ∧
    (∃ (d : Dev) (k : Ctx) (e : Fin 256) (rd : BitVec 4) (ra : BitVec 4) (imm : BitVec 18), IssuesS e k (encI 0x14 rd ra imm) d ∧ (k.addr ra imm) % 2 ≠ 0) ∧
    (∃ (d : Dev) (k : Ctx) (e : Fin 256) (rd : BitVec 4) (ra : BitVec 4) (imm : BitVec 18), IssuesS e k (encI 0x14 rd ra imm) d ∧ (k.addr ra imm) % 2 = 0 ∧ engOffset k.e k.item.home (k.addr ra imm) 2 = none) ∧
    (∃ (d : Dev) (k : Ctx) (e : Fin 256) (rd : BitVec 4) (ra : BitVec 4) (imm : BitVec 18) (x : Nat), IssuesS e k (encI 0x15 rd ra imm) d ∧ k.access true (k.addr ra imm) 1 d = .ok x) ∧
    (∃ (d : Dev) (k : Ctx) (e : Fin 256) (rd : BitVec 4) (ra : BitVec 4) (imm : BitVec 18), IssuesS e k (encI 0x15 rd ra imm) d ∧ engOffset k.e k.item.home (k.addr ra imm) 1 = none) :=
  ⟨⟨(wDev (wEng 1022 []) ((encI 0x10 (15#4) (15#4) (32764#18))) 0), (wCtx (wEng 1022 [])), (0), (15#4), (15#4), (32764#18), _, (⟨rfl, by decide⟩), (by decide +kernel), (by rfl)⟩,
   ⟨(wDev (wEng 1022 []) ((encI 0x10 (15#4) (15#4) (1#18))) 0), (wCtx (wEng 1022 [])), (0), (15#4), (15#4), (1#18), (⟨rfl, by decide⟩), (by decide +kernel)⟩,
   ⟨(wDev (wEng 1022 []) ((encI 0x10 (15#4) (15#4) (32768#18))) 0), (wCtx (wEng 1022 [])), (0), (15#4), (15#4), (32768#18), (⟨rfl, by decide⟩), (by decide +kernel), (by decide +kernel)⟩,
   ⟨(wDev (wEng 1022 []) ((encI 0x11 (15#4) (15#4) (32766#18))) 0), (wCtx (wEng 1022 [])), (0), (15#4), (15#4), (32766#18), _, (⟨rfl, by decide⟩), (by decide +kernel), (by rfl)⟩,
   ⟨(wDev (wEng 1022 []) ((encI 0x11 (15#4) (15#4) (1#18))) 0), (wCtx (wEng 1022 [])), (0), (15#4), (15#4), (1#18), (⟨rfl, by decide⟩), (by decide +kernel)⟩,
   ⟨(wDev (wEng 1022 []) ((encI 0x11 (15#4) (15#4) (32768#18))) 0), (wCtx (wEng 1022 [])), (0), (15#4), (15#4), (32768#18), (⟨rfl, by decide⟩), (by decide +kernel), (by decide +kernel)⟩,
   ⟨(wDev (wEng 1022 []) ((encI 0x12 (15#4) (15#4) (32767#18))) 0), (wCtx (wEng 1022 [])), (0), (15#4), (15#4), (32767#18), _, (⟨rfl, by decide⟩), (by rfl)⟩,
   ⟨(wDev (wEng 1022 []) ((encI 0x12 (15#4) (15#4) (32768#18))) 0), (wCtx (wEng 1022 [])), (0), (15#4), (15#4), (32768#18), (⟨rfl, by decide⟩), (by decide +kernel)⟩,
   ⟨(wDev (wEng 1022 []) ((encI 0x13 (15#4) (15#4) (32764#18))) 0), (wCtx (wEng 1022 [])), (0), (15#4), (15#4), (32764#18), _, (⟨rfl, by decide⟩), (by decide +kernel), (by rfl)⟩,
   ⟨(wDev (wEng 1022 []) ((encI 0x13 (15#4) (15#4) (2#18))) 0), (wCtx (wEng 1022 [])), (0), (15#4), (15#4), (2#18), (⟨rfl, by decide⟩), (by decide +kernel)⟩,
   ⟨(wDev (wEng 1022 []) ((encI 0x13 (15#4) (15#4) (32768#18))) 0), (wCtx (wEng 1022 [])), (0), (15#4), (15#4), (32768#18), (⟨rfl, by decide⟩), (by decide +kernel), (by decide +kernel)⟩,
   ⟨(wDev (wEng 1022 []) ((encI 0x14 (15#4) (15#4) (32766#18))) 0), (wCtx (wEng 1022 [])), (0), (15#4), (15#4), (32766#18), _, (⟨rfl, by decide⟩), (by decide +kernel), (by rfl)⟩,
   ⟨(wDev (wEng 1022 []) ((encI 0x14 (15#4) (15#4) (1#18))) 0), (wCtx (wEng 1022 [])), (0), (15#4), (15#4), (1#18), (⟨rfl, by decide⟩), (by decide +kernel)⟩,
   ⟨(wDev (wEng 1022 []) ((encI 0x14 (15#4) (15#4) (32768#18))) 0), (wCtx (wEng 1022 [])), (0), (15#4), (15#4), (32768#18), (⟨rfl, by decide⟩), (by decide +kernel), (by decide +kernel)⟩,
   ⟨(wDev (wEng 1022 []) ((encI 0x15 (15#4) (15#4) (32767#18))) 0), (wCtx (wEng 1022 [])), (0), (15#4), (15#4), (32767#18), _, (⟨rfl, by decide⟩), (by rfl)⟩,
   ⟨(wDev (wEng 1022 []) ((encI 0x15 (15#4) (15#4) (32768#18))) 0), (wCtx (wEng 1022 [])), (0), (15#4), (15#4), (32768#18), (⟨rfl, by decide⟩), (by decide +kernel)⟩⟩

/-- The hypotheses of BranchesAndJumps are met: clause by clause. -/
theorem test_hyps_BranchesAndJumps :
    (∃ (d : Dev) (k : Ctx) (e : Fin 256) (ra : BitVec 4) (rb : BitVec 4) (off : BitVec 18), IssuesS e k (encI 0x20 ra rb off) d ∧ k.x.sreg ra.toNat = k.x.sreg rb.toNat ∧ 0 ≤ k.x.pc + off.toInt ∧ k.x.pc + off.toInt ≤ 1023) ∧
    (∃ (d : Dev) (k : Ctx) (e : Fin 256) (ra : BitVec 4) (rb : BitVec 4) (off : BitVec 18), IssuesS e k (encI 0x20 ra rb off) d ∧ ¬ (k.x.sreg ra.toNat = k.x.sreg rb.toNat)) ∧
    (∃ (d : Dev) (k : Ctx) (e : Fin 256) (ra : BitVec 4) (rb : BitVec 4) (off : BitVec 18), IssuesS e k (encI 0x20 ra rb off) d ∧ k.x.sreg ra.toNat = k.x.sreg rb.toNat ∧ ((k.x.pc + off.toInt < 0 ∨ 1023 < k.x.pc + off.toInt))) ∧
    (∃ (d : Dev) (k : Ctx) (e : Fin 256) (ra : BitVec 4) (rb : BitVec 4) (off : BitVec 18), IssuesS e k (encI 0x21 ra rb off) d ∧ k.x.sreg ra.toNat ≠ k.x.sreg rb.toNat ∧ 0 ≤ k.x.pc + off.toInt ∧ k.x.pc + off.toInt ≤ 1023) ∧
    (∃ (d : Dev) (k : Ctx) (e : Fin 256) (ra : BitVec 4) (rb : BitVec 4) (off : BitVec 18), IssuesS e k (encI 0x21 ra rb off) d ∧ ¬ (k.x.sreg ra.toNat ≠ k.x.sreg rb.toNat)) ∧
    (∃ (d : Dev) (k : Ctx) (e : Fin 256) (ra : BitVec 4) (rb : BitVec 4) (off : BitVec 18), IssuesS e k (encI 0x21 ra rb off) d ∧ k.x.sreg ra.toNat ≠ k.x.sreg rb.toNat ∧ ((k.x.pc + off.toInt < 0 ∨ 1023 < k.x.pc + off.toInt))) ∧
    (∃ (d : Dev) (k : Ctx) (e : Fin 256) (ra : BitVec 4) (rb : BitVec 4) (off : BitVec 18), IssuesS e k (encI 0x22 ra rb off) d ∧ (k.x.sreg ra.toNat).toInt < (k.x.sreg rb.toNat).toInt ∧ 0 ≤ k.x.pc + off.toInt ∧ k.x.pc + off.toInt ≤ 1023) ∧
    (∃ (d : Dev) (k : Ctx) (e : Fin 256) (ra : BitVec 4) (rb : BitVec 4) (off : BitVec 18), IssuesS e k (encI 0x22 ra rb off) d ∧ ¬ ((k.x.sreg ra.toNat).toInt < (k.x.sreg rb.toNat).toInt)) ∧
    (∃ (d : Dev) (k : Ctx) (e : Fin 256) (ra : BitVec 4) (rb : BitVec 4) (off : BitVec 18), IssuesS e k (encI 0x22 ra rb off) d ∧ (k.x.sreg ra.toNat).toInt < (k.x.sreg rb.toNat).toInt ∧ ((k.x.pc + off.toInt < 0 ∨ 1023 < k.x.pc + off.toInt))) ∧
    (∃ (d : Dev) (k : Ctx) (e : Fin 256) (ra : BitVec 4) (rb : BitVec 4) (off : BitVec 18), IssuesS e k (encI 0x23 ra rb off) d ∧ (k.x.sreg rb.toNat).toInt ≤ (k.x.sreg ra.toNat).toInt ∧ 0 ≤ k.x.pc + off.toInt ∧ k.x.pc + off.toInt ≤ 1023) ∧
    (∃ (d : Dev) (k : Ctx) (e : Fin 256) (ra : BitVec 4) (rb : BitVec 4) (off : BitVec 18), IssuesS e k (encI 0x23 ra rb off) d ∧ ¬ ((k.x.sreg rb.toNat).toInt ≤ (k.x.sreg ra.toNat).toInt)) ∧
    (∃ (d : Dev) (k : Ctx) (e : Fin 256) (ra : BitVec 4) (rb : BitVec 4) (off : BitVec 18), IssuesS e k (encI 0x23 ra rb off) d ∧ (k.x.sreg rb.toNat).toInt ≤ (k.x.sreg ra.toNat).toInt ∧ ((k.x.pc + off.toInt < 0 ∨ 1023 < k.x.pc + off.toInt))) ∧
    (∃ (d : Dev) (k : Ctx) (e : Fin 256) (ra : BitVec 4) (rb : BitVec 4) (off : BitVec 18), IssuesS e k (encI 0x24 ra rb off) d ∧ (k.x.sreg ra.toNat).toNat < (k.x.sreg rb.toNat).toNat ∧ 0 ≤ k.x.pc + off.toInt ∧ k.x.pc + off.toInt ≤ 1023) ∧
    (∃ (d : Dev) (k : Ctx) (e : Fin 256) (ra : BitVec 4) (rb : BitVec 4) (off : BitVec 18), IssuesS e k (encI 0x24 ra rb off) d ∧ ¬ ((k.x.sreg ra.toNat).toNat < (k.x.sreg rb.toNat).toNat)) ∧
    (∃ (d : Dev) (k : Ctx) (e : Fin 256) (ra : BitVec 4) (rb : BitVec 4) (off : BitVec 18), IssuesS e k (encI 0x24 ra rb off) d ∧ (k.x.sreg ra.toNat).toNat < (k.x.sreg rb.toNat).toNat ∧ ((k.x.pc + off.toInt < 0 ∨ 1023 < k.x.pc + off.toInt))) ∧
    (∃ (d : Dev) (k : Ctx) (e : Fin 256) (ra : BitVec 4) (rb : BitVec 4) (off : BitVec 18), IssuesS e k (encI 0x25 ra rb off) d ∧ (k.x.sreg rb.toNat).toNat ≤ (k.x.sreg ra.toNat).toNat ∧ 0 ≤ k.x.pc + off.toInt ∧ k.x.pc + off.toInt ≤ 1023) ∧
    (∃ (d : Dev) (k : Ctx) (e : Fin 256) (ra : BitVec 4) (rb : BitVec 4) (off : BitVec 18), IssuesS e k (encI 0x25 ra rb off) d ∧ ¬ ((k.x.sreg rb.toNat).toNat ≤ (k.x.sreg ra.toNat).toNat)) ∧
    (∃ (d : Dev) (k : Ctx) (e : Fin 256) (ra : BitVec 4) (rb : BitVec 4) (off : BitVec 18), IssuesS e k (encI 0x25 ra rb off) d ∧ (k.x.sreg rb.toNat).toNat ≤ (k.x.sreg ra.toNat).toNat ∧ ((k.x.pc + off.toInt < 0 ∨ 1023 < k.x.pc + off.toInt))) ∧
    (∃ (d : Dev) (k : Ctx) (e : Fin 256) (pa : BitVec 3) (off : BitVec 18), IssuesS e k (encI 0x28 (pa.setWidth 4) 0 off) d ∧ k.x.preg pa.toNat ≠ 0 ∧ 0 ≤ k.x.pc + off.toInt ∧ k.x.pc + off.toInt ≤ 1023) ∧
    (∃ (d : Dev) (k : Ctx) (e : Fin 256) (pa : BitVec 3) (off : BitVec 18), IssuesS e k (encI 0x28 (pa.setWidth 4) 0 off) d ∧ ¬ (k.x.preg pa.toNat ≠ 0)) ∧
    (∃ (d : Dev) (k : Ctx) (e : Fin 256) (pa : BitVec 3) (off : BitVec 18), IssuesS e k (encI 0x29 (pa.setWidth 4) 0 off) d ∧ k.x.preg pa.toNat = 0 ∧ 0 ≤ k.x.pc + off.toInt ∧ k.x.pc + off.toInt ≤ 1023) ∧
    (∃ (d : Dev) (k : Ctx) (e : Fin 256) (pa : BitVec 3) (off : BitVec 18), IssuesS e k (encI 0x29 (pa.setWidth 4) 0 off) d ∧ ¬ (k.x.preg pa.toNat = 0)) ∧
    (∃ (d : Dev) (k : Ctx) (e : Fin 256) (rd : BitVec 4) (imm : BitVec 18) (w : Word), w &&& 0xFFC3FFFF = encI 0x26 rd 0 imm ∧ IssuesS e k w d ∧ 0 ≤ k.x.pc + imm.toInt ∧ k.x.pc + imm.toInt ≤ 1023) ∧
    (∃ (d : Dev) (k : Ctx) (e : Fin 256) (rd : BitVec 4) (imm : BitVec 18) (w : Word), w &&& 0xFFC3FFFF = encI 0x26 rd 0 imm ∧ IssuesS e k w d ∧ ((k.x.pc + imm.toInt < 0 ∨ 1023 < k.x.pc + imm.toInt))) ∧
    (∃ (d : Dev) (k : Ctx) (e : Fin 256) (ra : BitVec 4) (w : Word), w &&& 0xFC3C3F00 = encR 0x27 0 ra 0 0 ∧ w &&& 0xFF = 0 ∧ IssuesS e k w d ∧ 16 ≤ (k.x.sreg ra.toNat).toNat % 1024) ∧
    (∃ (d : Dev) (k : Ctx) (e : Fin 256) (ra : BitVec 4) (w : Word), w &&& 0xFC3C3F00 = encR 0x27 0 ra 0 0 ∧ w &&& 0xFF = 0 ∧ IssuesS e k w d ∧ (k.x.sreg ra.toNat).toNat % 1024 < 16) :=
  ⟨⟨(wDev (wEng 1022 []) ((encI 0x20 (15#4) (14#4) (1#18))) 0), (wCtx (wEng 1022 [])), (0), (15#4), (14#4), (1#18), (⟨rfl, by decide⟩), (by decide +kernel), (by decide +kernel), (by decide +kernel)⟩,
   ⟨(wDev (wEng 1022 [(15, 1)]) ((encI 0x20 (15#4) (14#4) (2#18))) 0), (wCtx (wEng 1022 [(15, 1)])), (0), (15#4), (14#4), (2#18), (⟨rfl, by decide⟩), (by decide +kernel)⟩,
   ⟨(wDev (wEng 1022 []) ((encI 0x20 (15#4) (14#4) (2#18))) 0), (wCtx (wEng 1022 [])), (0), (15#4), (14#4), (2#18), (⟨rfl, by decide⟩), (by decide +kernel), (by decide +kernel)⟩,
   ⟨(wDev (wEng 1022 [(15, 1)]) ((encI 0x21 (15#4) (14#4) (1#18))) 0), (wCtx (wEng 1022 [(15, 1)])), (0), (15#4), (14#4), (1#18), (⟨rfl, by decide⟩), (by decide +kernel), (by decide +kernel), (by decide +kernel)⟩,
   ⟨(wDev (wEng 1022 []) ((encI 0x21 (15#4) (14#4) (2#18))) 0), (wCtx (wEng 1022 [])), (0), (15#4), (14#4), (2#18), (⟨rfl, by decide⟩), (by decide +kernel)⟩,
   ⟨(wDev (wEng 1022 [(15, 1)]) ((encI 0x21 (15#4) (14#4) (2#18))) 0), (wCtx (wEng 1022 [(15, 1)])), (0), (15#4), (14#4), (2#18), (⟨rfl, by decide⟩), (by decide +kernel), (by decide +kernel)⟩,
   ⟨(wDev (wEng 1022 [(15, 4294967295)]) ((encI 0x22 (15#4) (14#4) (1#18))) 0), (wCtx (wEng 1022 [(15, 4294967295)])), (0), (15#4), (14#4), (1#18), (⟨rfl, by decide⟩), (by decide +kernel), (by decide +kernel), (by decide +kernel)⟩,
   ⟨(wDev (wEng 1022 []) ((encI 0x22 (15#4) (14#4) (2#18))) 0), (wCtx (wEng 1022 [])), (0), (15#4), (14#4), (2#18), (⟨rfl, by decide⟩), (by decide +kernel)⟩,
   ⟨(wDev (wEng 1022 [(15, 4294967295)]) ((encI 0x22 (15#4) (14#4) (2#18))) 0), (wCtx (wEng 1022 [(15, 4294967295)])), (0), (15#4), (14#4), (2#18), (⟨rfl, by decide⟩), (by decide +kernel), (by decide +kernel)⟩,
   ⟨(wDev (wEng 1022 []) ((encI 0x23 (15#4) (14#4) (1#18))) 0), (wCtx (wEng 1022 [])), (0), (15#4), (14#4), (1#18), (⟨rfl, by decide⟩), (by decide +kernel), (by decide +kernel), (by decide +kernel)⟩,
   ⟨(wDev (wEng 1022 [(15, 4294967295)]) ((encI 0x23 (15#4) (14#4) (2#18))) 0), (wCtx (wEng 1022 [(15, 4294967295)])), (0), (15#4), (14#4), (2#18), (⟨rfl, by decide⟩), (by decide +kernel)⟩,
   ⟨(wDev (wEng 1022 []) ((encI 0x23 (15#4) (14#4) (2#18))) 0), (wCtx (wEng 1022 [])), (0), (15#4), (14#4), (2#18), (⟨rfl, by decide⟩), (by decide +kernel), (by decide +kernel)⟩,
   ⟨(wDev (wEng 1022 [(14, 1)]) ((encI 0x24 (15#4) (14#4) (1#18))) 0), (wCtx (wEng 1022 [(14, 1)])), (0), (15#4), (14#4), (1#18), (⟨rfl, by decide⟩), (by decide +kernel), (by decide +kernel), (by decide +kernel)⟩,
   ⟨(wDev (wEng 1022 []) ((encI 0x24 (15#4) (14#4) (2#18))) 0), (wCtx (wEng 1022 [])), (0), (15#4), (14#4), (2#18), (⟨rfl, by decide⟩), (by decide +kernel)⟩,
   ⟨(wDev (wEng 1022 [(14, 1)]) ((encI 0x24 (15#4) (14#4) (2#18))) 0), (wCtx (wEng 1022 [(14, 1)])), (0), (15#4), (14#4), (2#18), (⟨rfl, by decide⟩), (by decide +kernel), (by decide +kernel)⟩,
   ⟨(wDev (wEng 1022 []) ((encI 0x25 (15#4) (14#4) (1#18))) 0), (wCtx (wEng 1022 [])), (0), (15#4), (14#4), (1#18), (⟨rfl, by decide⟩), (by decide +kernel), (by decide +kernel), (by decide +kernel)⟩,
   ⟨(wDev (wEng 1022 [(14, 1)]) ((encI 0x25 (15#4) (14#4) (2#18))) 0), (wCtx (wEng 1022 [(14, 1)])), (0), (15#4), (14#4), (2#18), (⟨rfl, by decide⟩), (by decide +kernel)⟩,
   ⟨(wDev (wEng 1022 []) ((encI 0x25 (15#4) (14#4) (2#18))) 0), (wCtx (wEng 1022 [])), (0), (15#4), (14#4), (2#18), (⟨rfl, by decide⟩), (by decide +kernel), (by decide +kernel)⟩,
   ⟨(wDev (wEng 1022 []) ((encI 0x28 ((0#3).setWidth 4) 0 (1#18))) 0), (wCtx (wEng 1022 [])), (0), (0#3), (1#18), (⟨rfl, by decide⟩), (by decide +kernel), (by decide +kernel), (by decide +kernel)⟩,
   ⟨(wDev (wEng 1022 []) ((encI 0x28 ((1#3).setWidth 4) 0 (262143#18))) 0), (wCtx (wEng 1022 [])), (0), (1#3), (262143#18), (⟨rfl, by decide⟩), (by decide +kernel)⟩,
   ⟨(wDev (wEng 1022 []) ((encI 0x29 ((7#3).setWidth 4) 0 (1#18))) 0), (wCtx (wEng 1022 [])), (0), (7#3), (1#18), (⟨rfl, by decide⟩), (by decide +kernel), (by decide +kernel), (by decide +kernel)⟩,
   ⟨(wDev (wEng 1022 []) ((encI 0x29 ((0#3).setWidth 4) 0 (262143#18))) 0), (wCtx (wEng 1022 [])), (0), (0#3), (262143#18), (⟨rfl, by decide⟩), (by decide +kernel)⟩,
   ⟨(wDev (wEng 1022 []) (encI 0x26 (15#4) 0 (1#18)) 0), (wCtx (wEng 1022 [])), (0), (15#4), (1#18), (encI 0x26 (15#4) 0 (1#18)), (by decide +kernel), (⟨rfl, by decide⟩), (by decide +kernel), (by decide +kernel)⟩,
   ⟨(wDev (wEng 1022 []) (encI 0x26 (15#4) 0 (2#18)) 0), (wCtx (wEng 1022 [])), (0), (15#4), (2#18), (encI 0x26 (15#4) 0 (2#18)), (by decide +kernel), (⟨rfl, by decide⟩), (by decide +kernel)⟩,
   ⟨(wDev (wEng 1022 [(15, 16)]) (encR 0x27 0 (15#4) 0 0) 0), (wCtx (wEng 1022 [(15, 16)])), (0), (15#4), (encR 0x27 0 (15#4) 0 0), (by decide +kernel), (by decide +kernel), (⟨rfl, by decide⟩), (by decide +kernel)⟩,
   ⟨(wDev (wEng 1022 [(15, 15)]) (encR 0x27 0 (15#4) 0 0) 0), (wCtx (wEng 1022 [(15, 15)])), (0), (15#4), (encR 0x27 0 (15#4) 0 0), (by decide +kernel), (by decide +kernel), (⟨rfl, by decide⟩), (by decide +kernel)⟩⟩

/-- The hypotheses of EngineSystemOperations are met: clause by clause. -/
theorem test_hyps_EngineSystemOperations :
    (∃ (d : Dev) (k : Ctx) (e : Fin 256), IssuesS e k 0 d) ∧
    (∃ (d : Dev) (k : Ctx) (e : Fin 256) (s : Word) (v : Word), d.fetch e = some (k, s, v) ∧ slotS s = none) ∧
    (∃ (d : Dev) (k : Ctx) (e : Fin 256) (code : BitVec 6) (w : Word), w &&& 0xFC003F00 = encR 0x32 0 0 0 code ∧ w &&& 0xFF = 0 ∧ IssuesS e k w d ∧ code.toNat < 8 ∧ k.x.xfers.any (fun q => code.getLsbD 2 || q.tag == code.toNat % 4) = false) ∧
    (∃ (d : Dev) (k : Ctx) (e : Fin 256) (code : BitVec 6) (w : Word), w &&& 0xFC003F00 = encR 0x32 0 0 0 code ∧ w &&& 0xFF = 0 ∧ IssuesS e k w d ∧ code.toNat < 8 ∧ k.x.xfers.any (fun q => code.getLsbD 2 || q.tag == code.toNat % 4) = true) ∧
    (∃ (d : Dev) (k : Ctx) (e : Fin 256) (rd : BitVec 4) (ra : BitVec 4) (rb : BitVec 4) (t : Fin 4) (x : Nat) (da : Nat) (ea : Nat) (n : Nat), IssuesS e k (encR 0x30 rd ra rb (BitVec.ofNat 6 t)) d ∧ ra.getLsbD 0 = false ∧ (k.x.pair ra.toNat).toNat = da ∧ (k.x.sreg rb.toNat).toNat = ea ∧ (k.x.sreg rd.toNat).toNat = n ∧ k.x.xfers.any (fun q => q.tag == t.val) = false ∧ da % 32 = 0 ∧ ea % 32 = 0 ∧ n % 32 = 0 ∧ 32 ≤ n ∧ n ≤ 32768 ∧ xferDa da = true ∧ k.access true ea n d = .ok x ∧ d.runStop (0x30 + k.e / 16) false da n = none) ∧
    (∃ (d : Dev) (k : Ctx) (e : Fin 256) (rd : BitVec 4) (ra : BitVec 4) (rb : BitVec 4) (t : Fin 4), IssuesS e k (encR 0x30 rd ra rb (BitVec.ofNat 6 t)) d ∧ ra.getLsbD 0 = false ∧ k.x.xfers.any (fun q => q.tag == t.val) = false ∧ (k.x.sreg rd.toNat).toNat % 32 ≠ 0) ∧
    (∃ (d : Dev) (k : Ctx) (e : Fin 256) (rd : BitVec 4) (ra : BitVec 4) (rb : BitVec 4) (t : Fin 4) (x : Nat) (da : Nat) (ea : Nat) (n : Nat), IssuesS e k (encR 0x31 rd ra rb (BitVec.ofNat 6 t)) d ∧ ra.getLsbD 0 = false ∧ (k.x.pair ra.toNat).toNat = da ∧ (k.x.sreg rb.toNat).toNat = ea ∧ (k.x.sreg rd.toNat).toNat = n ∧ k.x.xfers.any (fun q => q.tag == t.val) = false ∧ da % 32 = 0 ∧ ea % 32 = 0 ∧ n % 32 = 0 ∧ 32 ≤ n ∧ n ≤ 32768 ∧ xferDa da = true ∧ k.access false ea n d = .ok x ∧ d.runStop (0x30 + k.e / 16) true da n = none) ∧
    (∃ (d : Dev) (k : Ctx) (e : Fin 256) (rd : BitVec 4) (ra : BitVec 4) (rb : BitVec 4) (t : Fin 4), IssuesS e k (encR 0x31 rd ra rb (BitVec.ofNat 6 t)) d ∧ ra.getLsbD 0 = false ∧ k.x.xfers.any (fun q => q.tag == t.val) = false ∧ (k.x.sreg rd.toNat).toNat % 32 ≠ 0) ∧
    (∃ (d : Dev) (k : Ctx) (e : Fin 256) (rd : BitVec 4) (ra : BitVec 4) (x : Nat) (w : Word), w &&& 0xFFFC3F00 = encR 0x33 rd ra 0 0 ∧ w &&& 0xFF = 0 ∧ IssuesS e k w d ∧ (k.x.sreg ra.toNat).toNat % 8 = 0 ∧ k.access false (k.x.sreg ra.toNat).toNat 64 d = .ok x ∧ k.x.emitted < k.x.maxSnag ∧ d.heldResults + d.ste.flights.length < 8192 ∧ leAt (d.engBytes x 64) 0x24 2 = 0) ∧
    (∃ (d : Dev) (k : Ctx) (e : Fin 256) (rd : BitVec 4) (ra : BitVec 4) (x : Nat) (w : Word), w &&& 0xFFFC3F00 = encR 0x33 rd ra 0 0 ∧ w &&& 0xFF = 0 ∧ IssuesS e k w d ∧ (k.x.sreg ra.toNat).toNat % 8 = 0 ∧ k.access false (k.x.sreg ra.toNat).toNat 64 d = .ok x ∧ k.x.maxSnag ≤ k.x.emitted) ∧
    (∃ (d : Dev) (k : Ctx) (e : Fin 256) (rd : BitVec 4) (ra : BitVec 4) (w : Word), w &&& 0xFFFC3F00 = encR 0x33 rd ra 0 0 ∧ w &&& 0xFF = 0 ∧ IssuesS e k w d ∧ (k.x.sreg ra.toNat).toNat % 8 ≠ 0) ∧
    (∃ (d : Dev) (k : Ctx) (e : Fin 256) (w : Word), w &&& 0xFC003F00 = encR 0x34 0 0 0 0 ∧ w &&& 0xFF = 0 ∧ IssuesS e k w d ∧ ((d.advance k).eng k.e).state ≠ .fenced) ∧
    (∃ (d : Dev) (k : Ctx) (e : Fin 256) (rd : BitVec 4) (ra : BitVec 4) (rb : BitVec 4) (i : Nat) (s : Nat) (y : Dev), IssuesS e k (encR 0x35 rd ra rb 0) d ∧ k.fenced = false ∧ k.ownsQueue (k.x.sreg ra.toNat).toNat (d.advance k) = true ∧ (d.advance k).markRequest (k.x.sreg ra.toNat).toNat (((d.advance k).ply (k.x.sreg ra.toNat).toNat).read - (k.x.sreg rb.toNat).toNat) (.engine k.e) k.epoch k.item.cam (((d.advance k).ply (k.x.sreg ra.toNat).toNat).frameAt (max ((d.advance k).ply (k.x.sreg ra.toNat).toNat).release (((d.advance k).ply (k.x.sreg ra.toNat).toNat).read - (k.x.sreg rb.toNat).toNat))) = (some (i, s), y)) ∧
    (∃ (d : Dev) (k : Ctx) (e : Fin 256) (rd : BitVec 4) (ra : BitVec 4) (rb : BitVec 4), IssuesS e k (encR 0x35 rd ra rb 0) d ∧ k.fenced = false ∧ k.ownsQueue (k.x.sreg ra.toNat).toNat (d.advance k) = false) ∧
    (∃ (d : Dev) (k : Ctx) (e : Fin 256) (rd : BitVec 4) (ra : BitVec 4) (m : MarkHandle) (p : Mark) (w : Word), w &&& 0xFFFC3F00 = encR 0x36 rd ra 0 0 ∧ w &&& 0xFF = 0 ∧ IssuesS e k w d ∧ k.handle (k.x.sreg ra.toNat).toNat = some m ∧ k.fenced = false ∧ (d.advance k).heldMark m = some p) ∧
    (∃ (d : Dev) (k : Ctx) (e : Fin 256) (rd : BitVec 4) (ra : BitVec 4) (w : Word), w &&& 0xFFFC3F00 = encR 0x36 rd ra 0 0 ∧ w &&& 0xFF = 0 ∧ IssuesS e k w d ∧ k.handle (k.x.sreg ra.toNat).toNat = none) ∧
    (∃ (d : Dev) (k : Ctx) (e : Fin 256) (rd : BitVec 4) (ra : BitVec 4) (m : MarkHandle) (p : Mark) (w : Word), w &&& 0xFFFC3F00 = encR 0x38 rd ra 0 0 ∧ w &&& 0xFF = 0 ∧ IssuesS e k w d ∧ k.handle (k.x.sreg ra.toNat).toNat = some m ∧ k.fenced = false ∧ (d.advance k).heldMark m = some p) ∧
    (∃ (d : Dev) (k : Ctx) (e : Fin 256) (rd : BitVec 4) (ra : BitVec 4) (w : Word), w &&& 0xFFFC3F00 = encR 0x38 rd ra 0 0 ∧ w &&& 0xFF = 0 ∧ IssuesS e k w d ∧ k.handle (k.x.sreg ra.toNat).toNat = none) ∧
    (∃ (d : Dev) (k : Ctx) (e : Fin 256) (rd : BitVec 4) (ra : BitVec 4) (rb : BitVec 4) (m : MarkHandle) (p : Mark) (cur : Nat) (n : Nat) (x : Nat), IssuesS e k (encR 0x37 rd ra rb 0) d ∧ k.handle (k.x.sreg ra.toNat).toNat = some m ∧ k.fenced = false ∧ d.heldMark m = some p ∧ m.cursor = some cur ∧ n = min (k.x.sreg rd.toNat).toNat ((d.ply m.queue).read - cur) ∧ n ≠ 0 ∧ k.access true (k.x.sreg rb.toNat).toNat (32 * n) d = .ok x) ∧
    (∃ (d : Dev) (k : Ctx) (e : Fin 256) (rd : BitVec 4) (ra : BitVec 4) (rb : BitVec 4), IssuesS e k (encR 0x37 rd ra rb 0) d ∧ k.handle (k.x.sreg ra.toNat).toNat = none) ∧
    (∃ (d : Dev) (k : Ctx) (e : Fin 256) (w : Word), w &&& 0xFC003F00 = encR 0x39 0 0 0 0 ∧ w &&& 0xFF = 0 ∧ IssuesS e k w d) ∧
    (∃ (d : Dev) (k : Ctx) (e : Fin 256) (ra : BitVec 4) (w : Word), w &&& 0xFC3C3F00 = encR 0x3A 0 ra 0 0 ∧ w &&& 0xFF = 0 ∧ IssuesS e k w d ∧ BitVec.ofNat 32 (d.cluster (k.e / 16)).events ≠ k.x.sreg ra.toNat) ∧
    (∃ (d : Dev) (k : Ctx) (e : Fin 256) (ra : BitVec 4) (w : Word), w &&& 0xFC3C3F00 = encR 0x3A 0 ra 0 0 ∧ w &&& 0xFF = 0 ∧ IssuesS e k w d ∧ BitVec.ofNat 32 (d.cluster (k.e / 16)).events = k.x.sreg ra.toNat) ∧
    (∃ (d : Dev) (k : Ctx) (e : Fin 256) (rd : BitVec 4) (w : Word), w &&& 0xFFC03F00 = encR 0x3B rd 0 0 0 ∧ w &&& 0xFF = 0 ∧ IssuesS e k w d) ∧
    (∃ (d : Dev) (k : Ctx) (e : Fin 256) (rd : BitVec 4) (w : Word), w &&& 0xFFC03F00 = encR 0x3B rd 0 0 1 ∧ w &&& 0xFF = 0 ∧ IssuesS e k w d) ∧
    (∃ (d : Dev) (k : Ctx) (e : Fin 256) (rd : BitVec 4) (w : Word), w &&& 0xFFC03F00 = encR 0x3B rd 0 0 2 ∧ w &&& 0xFF = 0 ∧ IssuesS e k w d) ∧
    (∃ (d : Dev) (k : Ctx) (e : Fin 256) (rd : BitVec 4) (w : Word), w &&& 0xFFC03F00 = encR 0x3B rd 0 0 5 ∧ w &&& 0xFF = 0 ∧ IssuesS e k w d) ∧
    (∃ (d : Dev) (k : Ctx) (e : Fin 256) (rd : BitVec 4) (w : Word), w &&& 0xFFC03F00 = encR 0x3B rd 0 0 6 ∧ w &&& 0xFF = 0 ∧ IssuesS e k w d) ∧
    (∃ (d : Dev) (k : Ctx) (e : Fin 256) (rd : BitVec 4) (w : Word), w &&& 0xFFC03F00 = encR 0x3B rd 0 0 7 ∧ w &&& 0xFF = 0 ∧ IssuesS e k w d) ∧
    (∃ (d : Dev) (k : Ctx) (e : Fin 256) (rd : BitVec 4) (w : Word), w &&& 0xFFC03F00 = encR 0x3B rd 0 0 3 ∧ w &&& 0xFF = 0 ∧ IssuesS e k w d) ∧
    (∃ (d : Dev) (k : Ctx) (e : Fin 256) (rd : BitVec 4) (w : Word), w &&& 0xFFC03F00 = encR 0x3B rd 0 0 4 ∧ w &&& 0xFF = 0 ∧ IssuesS e k w d) ∧
    (∃ (d : Dev) (k : Ctx) (e : Fin 256) (w : Word), w &&& 0xFC003F00 = encR 0x3C 0 0 0 0 ∧ w &&& 0xFF = 0 ∧ IssuesS e k w d ∧ k.x.xfers.any (·.store) = false) ∧
    (∃ (d : Dev) (k : Ctx) (e : Fin 256) (w : Word), w &&& 0xFC003F00 = encR 0x3C 0 0 0 0 ∧ w &&& 0xFF = 0 ∧ IssuesS e k w d ∧ k.x.xfers.any (·.store) = true) :=
  ⟨⟨(wDev (wEng 1022 []) (0) 0), (wCtx (wEng 1022 [])), (0), (⟨rfl, by decide⟩)⟩,
   ⟨(wDev (wEng 1023 []) 0xFFFFFFFF 0), (wCtx (wEng 1023 [])), (0), (0xFFFFFFFF), _, (rfl), (by decide +kernel)⟩,
   ⟨(wDev (wEng 1022 []) (encR 0x32 0 0 0 (7#6)) 0), (wCtx (wEng 1022 [])), (0), (7#6), (encR 0x32 0 0 0 (7#6)), (by decide +kernel), (by decide +kernel), (⟨rfl, by decide⟩), (by decide +kernel), (by decide +kernel)⟩,
   ⟨(wDev ({ wEng 1022 [] with xfers := [{ tag := 3, store := true, da := 0, at_ := 0x4000000, op := .plain, len := 32, data := zeros 32, run := 0 }] }) (encR 0x32 0 0 0 (3#6)) 0), (wCtx ({ wEng 1022 [] with xfers := [{ tag := 3, store := true, da := 0, at_ := 0x4000000, op := .plain, len := 32, data := zeros 32, run := 0 }] })), (0), (3#6), (encR 0x32 0 0 0 (3#6)), (by decide +kernel), (by decide +kernel), (⟨rfl, by decide⟩), (by decide +kernel), (by decide +kernel)⟩,
   ⟨(wDev (wEng 1022 [(15, 32), (12, 0x4000000), (13, 0x10), (14, 32736)]) ((encR 0x30 (15#4) (12#4) (14#4) (BitVec.ofNat 6 3))) 0), (wCtx (wEng 1022 [(15, 32), (12, 0x4000000), (13, 0x10), (14, 32736)])), (0), (15#4), (12#4), (14#4), (3), (67141600), (0x1004000000), (32736), (32), (⟨rfl, by decide⟩), (by decide +kernel), (by decide +kernel), (by decide +kernel), (by decide +kernel), (by decide +kernel), (by decide +kernel), (by decide +kernel), (by decide +kernel), (by decide +kernel), (by decide +kernel), (by decide +kernel), (by decide +kernel), (by decide +kernel)⟩,
   ⟨(wDev (wEng 1022 [(15, 31)]) ((encR 0x30 (15#4) (12#4) (14#4) (BitVec.ofNat 6 3))) 0), (wCtx (wEng 1022 [(15, 31)])), (0), (15#4), (12#4), (14#4), (3), (⟨rfl, by decide⟩), (by decide +kernel), (by decide +kernel), (by decide +kernel)⟩,
   ⟨(wDev (wEng 1022 [(15, 32), (12, 0x4000000), (13, 0x10), (14, 32736)]) ((encR 0x31 (15#4) (12#4) (14#4) (BitVec.ofNat 6 3))) 0), (wCtx (wEng 1022 [(15, 32), (12, 0x4000000), (13, 0x10), (14, 32736)])), (0), (15#4), (12#4), (14#4), (3), (67141600), (0x1004000000), (32736), (32), (⟨rfl, by decide⟩), (by decide +kernel), (by decide +kernel), (by decide +kernel), (by decide +kernel), (by decide +kernel), (by decide +kernel), (by decide +kernel), (by decide +kernel), (by decide +kernel), (by decide +kernel), (by decide +kernel), (by decide +kernel), (by decide +kernel)⟩,
   ⟨(wDev (wEng 1022 [(15, 31)]) ((encR 0x31 (15#4) (12#4) (14#4) (BitVec.ofNat 6 3))) 0), (wCtx (wEng 1022 [(15, 31)])), (0), (15#4), (12#4), (14#4), (3), (⟨rfl, by decide⟩), (by decide +kernel), (by decide +kernel), (by decide +kernel)⟩,
   ⟨(wDev ({ wEng 1022 [(14, 32704)] with emitted := 63 }) (encR 0x33 (15#4) (14#4) 0 0) 0), (wCtx ({ wEng 1022 [(14, 32704)] with emitted := 63 })), (0), (15#4), (14#4), _, (encR 0x33 (15#4) (14#4) 0 0), (by decide +kernel), (by decide +kernel), (⟨rfl, by decide⟩), (by decide +kernel), (by rfl), (by decide +kernel), (by decide +kernel), (by rfl)⟩,
   ⟨(wDev ({ wEng 1022 [(14, 32704)] with emitted := 64 }) (encR 0x33 (15#4) (14#4) 0 0) 0), (wCtx ({ wEng 1022 [(14, 32704)] with emitted := 64 })), (0), (15#4), (14#4), _, (encR 0x33 (15#4) (14#4) 0 0), (by decide +kernel), (by decide +kernel), (⟨rfl, by decide⟩), (by decide +kernel), (by rfl), (by decide +kernel)⟩,
   ⟨(wDev (wEng 1022 [(14, 1)]) (encR 0x33 (15#4) (14#4) 0 0) 0), (wCtx (wEng 1022 [(14, 1)])), (0), (15#4), (14#4), (encR 0x33 (15#4) (14#4) 0 0), (by decide +kernel), (by decide +kernel), (⟨rfl, by decide⟩), (by decide +kernel)⟩,
   ⟨(wDev (wEng 1022 []) (encR 0x34 0 0 0 0) 0), (wCtx (wEng 1022 [])), (0), (encR 0x34 0 0 0 0), (by decide +kernel), (by decide +kernel), (⟨rfl, by decide⟩), (by decide +kernel)⟩,
   ⟨(({ (wDev (wEng 1022 [(14, 47)]) ((encR 0x35 (15#4) (14#4) (15#4) 0)) 0) with cll := { CllSt.init with conns := [(0, { Conn.init with joined := true }), (47, { Conn.init with joined := true })] } } : Dev)), (wCtx (wEng 1022 [(14, 47)])), (0), (15#4), (14#4), (15#4), _, _, _, (⟨rfl, by decide⟩), (by decide +kernel), (by decide +kernel), (by rfl)⟩,
   ⟨(({ (wDev (wEng 1022 [(14, 48)]) ((encR 0x35 (15#4) (14#4) (15#4) 0)) 0) with cll := { CllSt.init with conns := [(0, { Conn.init with joined := true }), (47, { Conn.init with joined := true })] } } : Dev)), (wCtx (wEng 1022 [(14, 48)])), (0), (15#4), (14#4), (15#4), (⟨rfl, by decide⟩), (by decide +kernel), (by decide +kernel)⟩,
   ⟨(({ (wDev ({ wEng 1022 [(14, 191)] with marks := [{ queue := 47, idx := 3, mark := 9, cursor := some 0 }] }) (encR 0x36 (15#4) (14#4) 0 0) 0) with asm := { AsmSt.init with plys := [(47, { Ply.init with commit := 4, read := 1, marks := [{ id := 9, slot := 3, entry := 0, holder := .engine 0, epoch := 0, lost := false, cam := 0, frame := 0 }] })] } } : Dev)), (wCtx ({ wEng 1022 [(14, 191)] with marks := [{ queue := 47, idx := 3, mark := 9, cursor := some 0 }] })), (0), (15#4), (14#4), ({ queue := 47, idx := 3, mark := 9, cursor := some 0 }), ({ id := 9, slot := 3, entry := 0, holder := .engine 0, epoch := 0, lost := false, cam := 0, frame := 0 }), (encR 0x36 (15#4) (14#4) 0 0), (by decide +kernel), (by decide +kernel), (⟨rfl, by decide⟩), (by decide +kernel), (by decide +kernel), (by decide +kernel)⟩,
   ⟨(wDev (wEng 1022 []) (encR 0x36 (15#4) (14#4) 0 0) 0), (wCtx (wEng 1022 [])), (0), (15#4), (14#4), (encR 0x36 (15#4) (14#4) 0 0), (by decide +kernel), (by decide +kernel), (⟨rfl, by decide⟩), (by decide +kernel)⟩,
   ⟨(({ (wDev ({ wEng 1022 [(14, 191)] with marks := [{ queue := 47, idx := 3, mark := 9, cursor := some 0 }] }) (encR 0x38 (15#4) (14#4) 0 0) 0) with asm := { AsmSt.init with plys := [(47, { Ply.init with commit := 4, read := 1, marks := [{ id := 9, slot := 3, entry := 0, holder := .engine 0, epoch := 0, lost := false, cam := 0, frame := 0 }] })] } } : Dev)), (wCtx ({ wEng 1022 [(14, 191)] with marks := [{ queue := 47, idx := 3, mark := 9, cursor := some 0 }] })), (0), (15#4), (14#4), ({ queue := 47, idx := 3, mark := 9, cursor := some 0 }), ({ id := 9, slot := 3, entry := 0, holder := .engine 0, epoch := 0, lost := false, cam := 0, frame := 0 }), (encR 0x38 (15#4) (14#4) 0 0), (by decide +kernel), (by decide +kernel), (⟨rfl, by decide⟩), (by decide +kernel), (by decide +kernel), (by decide +kernel)⟩,
   ⟨(wDev (wEng 1022 []) (encR 0x38 (15#4) (14#4) 0 0) 0), (wCtx (wEng 1022 [])), (0), (15#4), (14#4), (encR 0x38 (15#4) (14#4) 0 0), (by decide +kernel), (by decide +kernel), (⟨rfl, by decide⟩), (by decide +kernel)⟩,
   ⟨(({ (wDev ({ wEng 1022 [(14, 191), (15, 5), (13, 32736)] with marks := [{ queue := 47, idx := 3, mark := 9, cursor := some 0 }] }) ((encR 0x37 (15#4) (14#4) (13#4) 0)) 0) with asm := { AsmSt.init with plys := [(47, { Ply.init with commit := 4, read := 1, marks := [{ id := 9, slot := 3, entry := 0, holder := .engine 0, epoch := 0, lost := false, cam := 0, frame := 0 }] })] } } : Dev)), (wCtx ({ wEng 1022 [(14, 191), (15, 5), (13, 32736)] with marks := [{ queue := 47, idx := 3, mark := 9, cursor := some 0 }] })), (0), (15#4), (14#4), (13#4), ({ queue := 47, idx := 3, mark := 9, cursor := some 0 }), ({ id := 9, slot := 3, entry := 0, holder := .engine 0, epoch := 0, lost := false, cam := 0, frame := 0 }), (0), (1), _, (⟨rfl, by decide⟩), (by decide +kernel), (by decide +kernel), (by decide +kernel), (by decide +kernel), (by decide +kernel), (by decide +kernel), (by rfl)⟩,
   ⟨(wDev (wEng 1022 []) ((encR 0x37 (15#4) (14#4) (15#4) 0)) 0), (wCtx (wEng 1022 [])), (0), (15#4), (14#4), (15#4), (⟨rfl, by decide⟩), (by decide +kernel)⟩,
   ⟨(wDev (wEng 1022 []) (encR 0x39 0 0 0 0) 0), (wCtx (wEng 1022 [])), (0), (encR 0x39 0 0 0 0), (by decide +kernel), (by decide +kernel), (⟨rfl, by decide⟩)⟩,
   ⟨(wDev (wEng 1022 [(14, 1)]) (encR 0x3A 0 (14#4) 0 0) 0), (wCtx (wEng 1022 [(14, 1)])), (0), (14#4), (encR 0x3A 0 (14#4) 0 0), (by decide +kernel), (by decide +kernel), (⟨rfl, by decide⟩), (by decide +kernel)⟩,
   ⟨(wDev (wEng 1022 []) (encR 0x3A 0 (14#4) 0 0) 0), (wCtx (wEng 1022 [])), (0), (14#4), (encR 0x3A 0 (14#4) 0 0), (by decide +kernel), (by decide +kernel), (⟨rfl, by decide⟩), (by decide +kernel)⟩,
   ⟨(wDev (wEng 1022 []) (encR 0x3B (15#4) 0 0 0) 0), (wCtx (wEng 1022 [])), (0), (15#4), (encR 0x3B (15#4) 0 0 0), (by decide +kernel), (by decide +kernel), (⟨rfl, by decide⟩)⟩,
   ⟨(wDev (wEng 1022 []) (encR 0x3B (15#4) 0 0 1) 0), (wCtx (wEng 1022 [])), (0), (15#4), (encR 0x3B (15#4) 0 0 1), (by decide +kernel), (by decide +kernel), (⟨rfl, by decide⟩)⟩,
   ⟨(wDev (wEng 1022 []) (encR 0x3B (15#4) 0 0 2) 0), (wCtx (wEng 1022 [])), (0), (15#4), (encR 0x3B (15#4) 0 0 2), (by decide +kernel), (by decide +kernel), (⟨rfl, by decide⟩)⟩,
   ⟨(wDev (wEng 1022 []) (encR 0x3B (15#4) 0 0 5) 0), (wCtx (wEng 1022 [])), (0), (15#4), (encR 0x3B (15#4) 0 0 5), (by decide +kernel), (by decide +kernel), (⟨rfl, by decide⟩)⟩,
   ⟨(wDev (wEng 1022 []) (encR 0x3B (15#4) 0 0 6) 0), (wCtx (wEng 1022 [])), (0), (15#4), (encR 0x3B (15#4) 0 0 6), (by decide +kernel), (by decide +kernel), (⟨rfl, by decide⟩)⟩,
   ⟨(wDev (wEng 1022 []) (encR 0x3B (15#4) 0 0 7) 0), (wCtx (wEng 1022 [])), (0), (15#4), (encR 0x3B (15#4) 0 0 7), (by decide +kernel), (by decide +kernel), (⟨rfl, by decide⟩)⟩,
   ⟨(wDev (wEng 1022 []) (encR 0x3B (15#4) 0 0 3) 0), (wCtx (wEng 1022 [])), (0), (15#4), (encR 0x3B (15#4) 0 0 3), (by decide +kernel), (by decide +kernel), (⟨rfl, by decide⟩)⟩,
   ⟨(wDev (wEng 1022 []) (encR 0x3B (15#4) 0 0 4) 0), (wCtx (wEng 1022 [])), (0), (15#4), (encR 0x3B (15#4) 0 0 4), (by decide +kernel), (by decide +kernel), (⟨rfl, by decide⟩)⟩,
   ⟨(wDev (wEng 1022 []) (encR 0x3C 0 0 0 0) 0), (wCtx (wEng 1022 [])), (0), (encR 0x3C 0 0 0 0), (by decide +kernel), (by decide +kernel), (⟨rfl, by decide⟩), (by decide +kernel)⟩,
   ⟨(wDev ({ wEng 1022 [] with xfers := [{ tag := 3, store := true, da := 0, at_ := 0x4000000, op := .plain, len := 32, data := zeros 32, run := 0 }] }) (encR 0x3C 0 0 0 0) 0), (wCtx ({ wEng 1022 [] with xfers := [{ tag := 3, store := true, da := 0, at_ := 0x4000000, op := .plain, len := 32, data := zeros 32, run := 0 }] })), (0), (encR 0x3C 0 0 0 0), (by decide +kernel), (by decide +kernel), (⟨rfl, by decide⟩), (by decide +kernel)⟩⟩

/-- The hypotheses of VectorArithmetic are met: clause by clause. -/
theorem test_hyps_VectorArithmetic :
    (∃ (d : Dev) (k : Ctx) (e : Fin 256), IssuesV e k 0 d) ∧
    (∃ (d : Dev) (k : Ctx) (e : Fin 256) (v : Word), d.fetch e = some (k, 0, v) ∧ slotV v = none) ∧
    (∃ (d : Dev) (k : Ctx) (e : Fin 256) (vd : BitVec 5) (va : BitVec 5) (vb : BitVec 5) (pm : BitVec 3) (w : Bool), IssuesV e k (encVR 0x01 vd va vb pm w 0) d) ∧
    (∃ (d : Dev) (k : Ctx) (e : Fin 256) (vd : BitVec 5) (va : BitVec 5) (vb : BitVec 5) (pm : BitVec 3) (w : Bool), IssuesV e k (encVR 0x01 vd va vb pm w 1) d) ∧
    (∃ (d : Dev) (k : Ctx) (e : Fin 256) (vd : BitVec 5) (va : BitVec 5) (vb : BitVec 5) (pm : BitVec 3) (w : Bool), IssuesV e k (encVR 0x01 vd va vb pm w 2) d) ∧
    (∃ (d : Dev) (k : Ctx) (e : Fin 256) (vd : BitVec 5) (va : BitVec 5) (vb : BitVec 5) (pm : BitVec 3) (w : Bool), IssuesV e k (encVR 0x01 vd va vb pm w 3) d) ∧
    (∃ (d : Dev) (k : Ctx) (e : Fin 256) (vd : BitVec 5) (va : BitVec 5) (vb : BitVec 5) (pm : BitVec 3) (w : Bool), IssuesV e k (encVR 0x01 vd va vb pm w 4) d) ∧
    (∃ (d : Dev) (k : Ctx) (e : Fin 256) (vd : BitVec 5) (va : BitVec 5) (vb : BitVec 5) (pm : BitVec 3) (w : Bool), IssuesV e k (encVR 0x01 vd va vb pm w 5) d) ∧
    (∃ (d : Dev) (k : Ctx) (e : Fin 256) (vd : BitVec 5) (va : BitVec 5) (vb : BitVec 5) (pm : BitVec 3) (w : Bool), IssuesV e k (encVR 0x01 vd va vb pm w 6) d) ∧
    (∃ (d : Dev) (k : Ctx) (e : Fin 256) (vd : BitVec 5) (va : BitVec 5) (vb : BitVec 5) (pm : BitVec 3) (w : Bool), IssuesV e k (encVR 0x01 vd va vb pm w 7) d) ∧
    (∃ (d : Dev) (k : Ctx) (e : Fin 256) (vd : BitVec 5) (va : BitVec 5) (vb : BitVec 5) (pm : BitVec 3) (w : Bool), IssuesV e k (encVR 0x01 vd va vb pm w 8) d) ∧
    (∃ (d : Dev) (k : Ctx) (e : Fin 256) (vd : BitVec 5) (va : BitVec 5) (vb : BitVec 5) (pm : BitVec 3) (w : Bool), IssuesV e k (encVR 0x01 vd va vb pm w 9) d) ∧
    (∃ (d : Dev) (k : Ctx) (e : Fin 256) (vd : BitVec 5) (va : BitVec 5) (vb : BitVec 5) (pm : BitVec 3) (w : Bool), IssuesV e k (encVR 0x01 vd va vb pm w 10) d) ∧
    (∃ (d : Dev) (k : Ctx) (e : Fin 256) (vd : BitVec 5) (va : BitVec 5) (vb : BitVec 5) (pm : BitVec 3) (w : Bool), IssuesV e k (encVR 0x01 vd va vb pm w 11) d) ∧
    (∃ (d : Dev) (k : Ctx) (e : Fin 256) (vd : BitVec 5) (va : BitVec 5) (vb : BitVec 5) (pm : BitVec 3) (w : Bool), IssuesV e k (encVR 0x01 vd va vb pm w 12) d) ∧
    (∃ (d : Dev) (k : Ctx) (e : Fin 256) (vd : BitVec 5) (va : BitVec 5) (vb : BitVec 5) (pm : BitVec 3) (w : Bool), IssuesV e k (encVR 0x01 vd va vb pm w 13) d) ∧
    (∃ (d : Dev) (k : Ctx) (e : Fin 256) (vd : BitVec 5) (va : BitVec 5) (vb : BitVec 5) (pm : BitVec 3) (w : Bool), IssuesV e k (encVR 0x01 vd va vb pm w 14) d) ∧
    (∃ (d : Dev) (k : Ctx) (e : Fin 256) (vd : BitVec 5) (va : BitVec 5) (vb : BitVec 5) (pm : BitVec 3) (w : Bool), IssuesV e k (encVR 0x01 vd va vb pm w 15) d) ∧
    (∃ (d : Dev) (k : Ctx) (e : Fin 256) (vd : BitVec 5) (va : BitVec 5) (pm : BitVec 3) (w : Bool) (imm : BitVec 12), IssuesV e k (encVI 0x04 vd va pm w imm) d) ∧
    (∃ (d : Dev) (k : Ctx) (e : Fin 256) (vd : BitVec 5) (va : BitVec 5) (pm : BitVec 3) (w : Bool) (imm : BitVec 4), IssuesV e k (encVI 0x05 vd va pm w (imm.setWidth 12)) d) ∧
    (∃ (d : Dev) (k : Ctx) (e : Fin 256) (vd : BitVec 5) (va : BitVec 5) (pm : BitVec 3) (w : Bool) (imm : BitVec 4), IssuesV e k (encVI 0x06 vd va pm w (imm.setWidth 12)) d) ∧
    (∃ (d : Dev) (k : Ctx) (e : Fin 256) (vd : BitVec 5) (va : BitVec 5) (pm : BitVec 3) (w : Bool) (imm : BitVec 4), IssuesV e k (encVI 0x07 vd va pm w (imm.setWidth 12)) d) ∧
    (∃ (d : Dev) (k : Ctx) (e : Fin 256) (vd : BitVec 5) (pm : BitVec 3) (w : Bool) (imm : BitVec 12) (u : Word), u &&& 0xFFE0FFFF = encVI 0x08 vd 0 pm w imm ∧ u &&& 0x1F0000 = 0 ∧ IssuesV e k u d) :=
  ⟨⟨(wDev (wEng 1022 []) 0 (0)), (wCtx (wEng 1022 [])), (0), (⟨rfl, by decide⟩)⟩,
   ⟨(wDev (wEng 1023 []) 0 0xFFFFFFFF), (wCtx (wEng 1023 [])), (0), (0xFFFFFFFF), (rfl), (by decide +kernel)⟩,
   ⟨(wDev (wEng 1022 []) 0 ((encVR 0x01 (31#5) (31#5) (31#5) (7#3) true 0))), (wCtx (wEng 1022 [])), (0), (31#5), (31#5), (31#5), (7#3), (true), (⟨rfl, by decide⟩)⟩,
   ⟨(wDev (wEng 1022 []) 0 ((encVR 0x01 (31#5) (31#5) (31#5) (7#3) true 1))), (wCtx (wEng 1022 [])), (0), (31#5), (31#5), (31#5), (7#3), (true), (⟨rfl, by decide⟩)⟩,
   ⟨(wDev (wEng 1022 []) 0 ((encVR 0x01 (31#5) (31#5) (31#5) (7#3) true 2))), (wCtx (wEng 1022 [])), (0), (31#5), (31#5), (31#5), (7#3), (true), (⟨rfl, by decide⟩)⟩,
   ⟨(wDev (wEng 1022 []) 0 ((encVR 0x01 (31#5) (31#5) (31#5) (7#3) true 3))), (wCtx (wEng 1022 [])), (0), (31#5), (31#5), (31#5), (7#3), (true), (⟨rfl, by decide⟩)⟩,
   ⟨(wDev (wEng 1022 []) 0 ((encVR 0x01 (31#5) (31#5) (31#5) (7#3) true 4))), (wCtx (wEng 1022 [])), (0), (31#5), (31#5), (31#5), (7#3), (true), (⟨rfl, by decide⟩)⟩,
   ⟨(wDev (wEng 1022 []) 0 ((encVR 0x01 (31#5) (31#5) (31#5) (7#3) true 5))), (wCtx (wEng 1022 [])), (0), (31#5), (31#5), (31#5), (7#3), (true), (⟨rfl, by decide⟩)⟩,
   ⟨(wDev (wEng 1022 []) 0 ((encVR 0x01 (31#5) (31#5) (31#5) (7#3) true 6))), (wCtx (wEng 1022 [])), (0), (31#5), (31#5), (31#5), (7#3), (true), (⟨rfl, by decide⟩)⟩,
   ⟨(wDev (wEng 1022 []) 0 ((encVR 0x01 (31#5) (31#5) (31#5) (7#3) true 7))), (wCtx (wEng 1022 [])), (0), (31#5), (31#5), (31#5), (7#3), (true), (⟨rfl, by decide⟩)⟩,
   ⟨(wDev (wEng 1022 []) 0 ((encVR 0x01 (31#5) (31#5) (31#5) (7#3) true 8))), (wCtx (wEng 1022 [])), (0), (31#5), (31#5), (31#5), (7#3), (true), (⟨rfl, by decide⟩)⟩,
   ⟨(wDev (wEng 1022 []) 0 ((encVR 0x01 (31#5) (31#5) (31#5) (7#3) true 9))), (wCtx (wEng 1022 [])), (0), (31#5), (31#5), (31#5), (7#3), (true), (⟨rfl, by decide⟩)⟩,
   ⟨(wDev (wEng 1022 []) 0 ((encVR 0x01 (31#5) (31#5) (31#5) (7#3) true 10))), (wCtx (wEng 1022 [])), (0), (31#5), (31#5), (31#5), (7#3), (true), (⟨rfl, by decide⟩)⟩,
   ⟨(wDev (wEng 1022 []) 0 ((encVR 0x01 (31#5) (31#5) (31#5) (7#3) true 11))), (wCtx (wEng 1022 [])), (0), (31#5), (31#5), (31#5), (7#3), (true), (⟨rfl, by decide⟩)⟩,
   ⟨(wDev (wEng 1022 []) 0 ((encVR 0x01 (31#5) (31#5) (31#5) (7#3) true 12))), (wCtx (wEng 1022 [])), (0), (31#5), (31#5), (31#5), (7#3), (true), (⟨rfl, by decide⟩)⟩,
   ⟨(wDev (wEng 1022 []) 0 ((encVR 0x01 (31#5) (31#5) (31#5) (7#3) true 13))), (wCtx (wEng 1022 [])), (0), (31#5), (31#5), (31#5), (7#3), (true), (⟨rfl, by decide⟩)⟩,
   ⟨(wDev (wEng 1022 []) 0 ((encVR 0x01 (31#5) (31#5) (31#5) (7#3) true 14))), (wCtx (wEng 1022 [])), (0), (31#5), (31#5), (31#5), (7#3), (true), (⟨rfl, by decide⟩)⟩,
   ⟨(wDev (wEng 1022 []) 0 ((encVR 0x01 (31#5) (31#5) (31#5) (7#3) true 15))), (wCtx (wEng 1022 [])), (0), (31#5), (31#5), (31#5), (7#3), (true), (⟨rfl, by decide⟩)⟩,
   ⟨(wDev (wEng 1022 []) 0 ((encVI 0x04 (31#5) (31#5) (7#3) true (4095#12)))), (wCtx (wEng 1022 [])), (0), (31#5), (31#5), (7#3), (true), (4095#12), (⟨rfl, by decide⟩)⟩,
   ⟨(wDev (wEng 1022 []) 0 ((encVI 0x05 (31#5) (31#5) (7#3) true ((15#4).setWidth 12)))), (wCtx (wEng 1022 [])), (0), (31#5), (31#5), (7#3), (true), (15#4), (⟨rfl, by decide⟩)⟩,
   ⟨(wDev (wEng 1022 []) 0 ((encVI 0x06 (31#5) (31#5) (7#3) true ((15#4).setWidth 12)))), (wCtx (wEng 1022 [])), (0), (31#5), (31#5), (7#3), (true), (15#4), (⟨rfl, by decide⟩)⟩,
   ⟨(wDev (wEng 1022 []) 0 ((encVI 0x07 (31#5) (31#5) (7#3) true ((15#4).setWidth 12)))), (wCtx (wEng 1022 [])), (0), (31#5), (31#5), (7#3), (true), (15#4), (⟨rfl, by decide⟩)⟩,
   ⟨(wDev (wEng 1022 []) 0 (encVI 0x08 (31#5) 0 (7#3) true (4095#12))), (wCtx (wEng 1022 [])), (0), (31#5), (7#3), (true), (4095#12), (encVI 0x08 (31#5) 0 (7#3) true (4095#12)), (by decide +kernel), (by decide +kernel), (⟨rfl, by decide⟩)⟩⟩

/-- The hypotheses of VectorSelectionAndReduction are met: clause by clause. -/
theorem test_hyps_VectorSelectionAndReduction :
    (∃ (d : Dev) (k : Ctx) (e : Fin 256) (pd : BitVec 3) (va : BitVec 5) (vb : BitVec 5) (pm : BitVec 3) (w : Bool), IssuesV e k (encVR 0x02 (predField pd) va vb pm w 0) d) ∧
    (∃ (d : Dev) (k : Ctx) (e : Fin 256) (pd : BitVec 3) (va : BitVec 5) (vb : BitVec 5) (pm : BitVec 3) (w : Bool), IssuesV e k (encVR 0x02 (predField pd) va vb pm w 1) d) ∧
    (∃ (d : Dev) (k : Ctx) (e : Fin 256) (pd : BitVec 3) (va : BitVec 5) (vb : BitVec 5) (pm : BitVec 3) (w : Bool), IssuesV e k (encVR 0x02 (predField pd) va vb pm w 2) d) ∧
    (∃ (d : Dev) (k : Ctx) (e : Fin 256) (pd : BitVec 3) (va : BitVec 5) (vb : BitVec 5) (pm : BitVec 3) (w : Bool), IssuesV e k (encVR 0x02 (predField pd) va vb pm w 3) d) ∧
    (∃ (d : Dev) (k : Ctx) (e : Fin 256) (pd : BitVec 3) (va : BitVec 5) (vb : BitVec 5) (pm : BitVec 3) (w : Bool), IssuesV e k (encVR 0x02 (predField pd) va vb pm w 4) d) ∧
    (∃ (d : Dev) (k : Ctx) (e : Fin 256) (pd : BitVec 3) (pa : BitVec 3) (pb : BitVec 3) (pm : BitVec 3) (w : Bool), IssuesV e k (encVR 0x03 (predField pd) (predField pa) (predField pb) pm w 0) d) ∧
    (∃ (d : Dev) (k : Ctx) (e : Fin 256) (pd : BitVec 3) (pa : BitVec 3) (pb : BitVec 3) (pm : BitVec 3) (w : Bool), IssuesV e k (encVR 0x03 (predField pd) (predField pa) (predField pb) pm w 1) d) ∧
    (∃ (d : Dev) (k : Ctx) (e : Fin 256) (pd : BitVec 3) (pa : BitVec 3) (pb : BitVec 3) (pm : BitVec 3) (w : Bool), IssuesV e k (encVR 0x03 (predField pd) (predField pa) (predField pb) pm w 2) d) ∧
    (∃ (d : Dev) (k : Ctx) (e : Fin 256) (pd : BitVec 3) (pa : BitVec 3) (pb : BitVec 3) (pm : BitVec 3) (w : Bool), IssuesV e k (encVR 0x03 (predField pd) (predField pa) (predField pb) pm w 3) d) ∧
    (∃ (d : Dev) (k : Ctx) (e : Fin 256) (pd : BitVec 3) (pm : BitVec 3) (w : Bool) (u : Word), u &&& 0xFCE007FF = encVR 0x03 (predField pd) 0 0 pm w 4 ∧ u &&& 0x3000000 = 0 ∧ IssuesV e k u d) ∧
    (∃ (d : Dev) (k : Ctx) (e : Fin 256) (pd : BitVec 3) (pm : BitVec 3) (w : Bool) (u : Word), u &&& 0xFCE007FF = encVR 0x03 (predField pd) 0 0 pm w 5 ∧ u &&& 0x3000000 = 0 ∧ IssuesV e k u d) ∧
    (∃ (d : Dev) (k : Ctx) (e : Fin 256) (vd : BitVec 5) (va : BitVec 5) (vb : BitVec 5) (pm : BitVec 3) (w : Bool), IssuesV e k (encVR 0x09 vd va vb pm w 0) d) ∧
    (∃ (d : Dev) (k : Ctx) (e : Fin 256) (vd : BitVec 5) (sb : BitVec 4) (pm : BitVec 3) (w : Bool) (u : Word), u &&& 0xFFE0FFFF = encVS 0x0A vd 0 sb pm w 0 ∧ IssuesV e k u d) ∧
    (∃ (d : Dev) (k : Ctx) (e : Fin 256) (vd : BitVec 5) (va : BitVec 5) (sb : BitVec 4) (pm : BitVec 3) (w : Bool) (fn : BitVec 8), IssuesV e k (encVS 0x0B vd va sb pm w fn) d ∧ fn.toNat < 32) ∧
    (∃ (d : Dev) (k : Ctx) (e : Fin 256) (sd : BitVec 4) (va : BitVec 5) (w : Bool) (fn : BitVec 8) (u : Word), u &&& 0xFDFF01FF = encVS 0x0C (scalarField sd) va 0 0 w fn ∧ u &&& 0x2000000 = 0 ∧ IssuesV e k u d ∧ fn.toNat < laneCount w) ∧
    (∃ (d : Dev) (k : Ctx) (e : Fin 256) (vd : BitVec 5) (sb : BitVec 4) (pm : BitVec 3) (w : Bool) (fn : BitVec 8) (u : Word), u &&& 0xFFE0FFFF = encVS 0x0D vd 0 sb pm w fn ∧ IssuesV e k u d ∧ fn.toNat < laneCount w) ∧
    (∃ (d : Dev) (k : Ctx) (e : Fin 256) (sd : BitVec 4) (va : BitVec 5) (pm : BitVec 3) (w : Bool) (u : Word), u &&& 0xFDFF0FFF = encVS 0x0E (scalarField sd) va 0 pm w 0 ∧ u &&& 0x2000000 = 0 ∧ IssuesV e k u d) ∧
    (∃ (d : Dev) (k : Ctx) (e : Fin 256) (sd : BitVec 4) (va : BitVec 5) (pm : BitVec 3) (w : Bool) (u : Word), u &&& 0xFDFF0FFF = encVS 0x0F (scalarField sd) va 0 pm w 0 ∧ u &&& 0x2000000 = 0 ∧ IssuesV e k u d ∧ enabledLanes w (k.x.preg pm.toNat) ≠ []) ∧
    (∃ (d : Dev) (k : Ctx) (e : Fin 256) (sd : BitVec 4) (va : BitVec 5) (pm : BitVec 3) (w : Bool) (u : Word), u &&& 0xFDFF0FFF = encVS 0x0F (scalarField sd) va 0 pm w 0 ∧ u &&& 0x2000000 = 0 ∧ IssuesV e k u d ∧ enabledLanes w (k.x.preg pm.toNat) = []) ∧
    (∃ (d : Dev) (k : Ctx) (e : Fin 256) (sd : BitVec 4) (pm : BitVec 3) (w : Bool) (u : Word), u &&& 0xFDE00FFF = encVS 0x10 (scalarField sd) 0 0 pm w 0 ∧ u &&& 0x2000000 = 0 ∧ IssuesV e k u d) ∧
    (∃ (d : Dev) (k : Ctx) (e : Fin 256) (sd : BitVec 4) (pm : BitVec 3) (w : Bool) (u : Word), u &&& 0xFDE00FFF = encVS 0x11 (scalarField sd) 0 0 pm w 0 ∧ u &&& 0x2000000 = 0 ∧ IssuesV e k u d) ∧
    (∃ (d : Dev) (k : Ctx) (e : Fin 256) (sd : BitVec 4) (va : BitVec 5) (vb : BitVec 5) (pm : BitVec 3) (w : Bool), IssuesV e k (encVR 0x12 (scalarField sd) va vb pm w 0) d) ∧
    (∃ (d : Dev) (k : Ctx) (e : Fin 256) (sd : BitVec 4) (va : BitVec 5) (vb : BitVec 5) (pm : BitVec 3), IssuesV e k (encVR 0x13 (scalarField sd) va vb pm false 0) d) ∧
    (∃ (d : Dev) (k : Ctx) (e : Fin 256) (sd : BitVec 4) (va : BitVec 5) (vb : BitVec 5) (pm : BitVec 3), IssuesV e k (encVR 0x13 (scalarField sd) va vb pm true 0) d) ∧
    (∃ (d : Dev) (k : Ctx) (e : Fin 256) (vd : BitVec 5) (va : BitVec 5) (sb : BitVec 4) (pm : BitVec 3) (w : Bool), IssuesV e k (encVS 0x14 vd va sb pm w 0) d) ∧
    (∃ (d : Dev) (k : Ctx) (e : Fin 256) (vd : BitVec 5) (va : BitVec 5) (vb : BitVec 5) (pm : BitVec 3) (w : Bool) (fn : BitVec 7), IssuesV e k (encVR 0x15 vd va vb pm w fn) d ∧ fn.toNat < 64) ∧
    (∃ (d : Dev) (k : Ctx) (e : Fin 256) (vd : BitVec 5) (va : BitVec 5) (pm : BitVec 3) (u : Word), u &&& 0xFFFF07FF = encVR 0x16 vd va 0 pm false 0 ∧ IssuesV e k u d) ∧
    (∃ (d : Dev) (k : Ctx) (e : Fin 256) (vd : BitVec 5) (va : BitVec 5) (pm : BitVec 3) (u : Word), u &&& 0xFFFF07FF = encVR 0x17 vd va 0 pm false 0 ∧ IssuesV e k u d) ∧
    (∃ (d : Dev) (k : Ctx) (e : Fin 256) (vd : BitVec 5) (va : BitVec 5) (vb : BitVec 5) (pm : BitVec 3), IssuesV e k (encVR 0x18 vd va vb pm true 0) d) :=
  ⟨⟨(wDev (wEng 1022 []) 0 ((encVR 0x02 (predField (7#3)) (31#5) (31#5) (7#3) true 0))), (wCtx (wEng 1022 [])), (0), (7#3), (31#5), (31#5), (7#3), (true), (⟨rfl, by decide⟩)⟩,
   ⟨(wDev (wEng 1022 []) 0 ((encVR 0x02 (predField (7#3)) (31#5) (31#5) (7#3) true 1))), (wCtx (wEng 1022 [])), (0), (7#3), (31#5), (31#5), (7#3), (true), (⟨rfl, by decide⟩)⟩,
   ⟨(wDev (wEng 1022 []) 0 ((encVR 0x02 (predField (7#3)) (31#5) (31#5) (7#3) true 2))), (wCtx (wEng 1022 [])), (0), (7#3), (31#5), (31#5), (7#3), (true), (⟨rfl, by decide⟩)⟩,
   ⟨(wDev (wEng 1022 []) 0 ((encVR 0x02 (predField (7#3)) (31#5) (31#5) (7#3) true 3))), (wCtx (wEng 1022 [])), (0), (7#3), (31#5), (31#5), (7#3), (true), (⟨rfl, by decide⟩)⟩,
   ⟨(wDev (wEng 1022 []) 0 ((encVR 0x02 (predField (7#3)) (31#5) (31#5) (7#3) true 4))), (wCtx (wEng 1022 [])), (0), (7#3), (31#5), (31#5), (7#3), (true), (⟨rfl, by decide⟩)⟩,
   ⟨(wDev (wEng 1022 []) 0 ((encVR 0x03 (predField (7#3)) (predField (7#3)) (predField (7#3)) (7#3) true 0))), (wCtx (wEng 1022 [])), (0), (7#3), (7#3), (7#3), (7#3), (true), (⟨rfl, by decide⟩)⟩,
   ⟨(wDev (wEng 1022 []) 0 ((encVR 0x03 (predField (7#3)) (predField (7#3)) (predField (7#3)) (7#3) true 1))), (wCtx (wEng 1022 [])), (0), (7#3), (7#3), (7#3), (7#3), (true), (⟨rfl, by decide⟩)⟩,
   ⟨(wDev (wEng 1022 []) 0 ((encVR 0x03 (predField (7#3)) (predField (7#3)) (predField (7#3)) (7#3) true 2))), (wCtx (wEng 1022 [])), (0), (7#3), (7#3), (7#3), (7#3), (true), (⟨rfl, by decide⟩)⟩,
   ⟨(wDev (wEng 1022 []) 0 ((encVR 0x03 (predField (7#3)) (predField (7#3)) (predField (7#3)) (7#3) true 3))), (wCtx (wEng 1022 [])), (0), (7#3), (7#3), (7#3), (7#3), (true), (⟨rfl, by decide⟩)⟩,
   ⟨(wDev (wEng 1022 []) 0 (encVR 0x03 (predField (7#3)) 0 0 (7#3) true 4)), (wCtx (wEng 1022 [])), (0), (7#3), (7#3), (true), (encVR 0x03 (predField (7#3)) 0 0 (7#3) true 4), (by decide +kernel), (by decide +kernel), (⟨rfl, by decide⟩)⟩,
   ⟨(wDev (wEng 1022 []) 0 (encVR 0x03 (predField (7#3)) 0 0 (7#3) true 5)), (wCtx (wEng 1022 [])), (0), (7#3), (7#3), (true), (encVR 0x03 (predField (7#3)) 0 0 (7#3) true 5), (by decide +kernel), (by decide +kernel), (⟨rfl, by decide⟩)⟩,
   ⟨(wDev (wEng 1022 []) 0 ((encVR 0x09 (31#5) (31#5) (31#5) (7#3) true 0))), (wCtx (wEng 1022 [])), (0), (31#5), (31#5), (31#5), (7#3), (true), (⟨rfl, by decide⟩)⟩,
   ⟨(wDev (wEng 1022 []) 0 (encVS 0x0A (31#5) 0 (15#4) (7#3) true 0)), (wCtx (wEng 1022 [])), (0), (31#5), (15#4), (7#3), (true), (encVS 0x0A (31#5) 0 (15#4) (7#3) true 0), (by decide +kernel), (⟨rfl, by decide⟩)⟩,
   ⟨(wDev (wEng 1022 []) 0 ((encVS 0x0B (31#5) (31#5) (15#4) (7#3) true (31#8)))), (wCtx (wEng 1022 [])), (0), (31#5), (31#5), (15#4), (7#3), (true), (31#8), (⟨rfl, by decide⟩), (by decide +kernel)⟩,
   ⟨(wDev (wEng 1022 []) 0 (encVS 0x0C (scalarField (15#4)) (31#5) 0 0 true (31#8))), (wCtx (wEng 1022 [])), (0), (15#4), (31#5), (true), (31#8), (encVS 0x0C (scalarField (15#4)) (31#5) 0 0 true (31#8)), (by decide +kernel), (by decide +kernel), (⟨rfl, by decide⟩), (by decide +kernel)⟩,
   ⟨(wDev (wEng 1022 []) 0 (encVS 0x0D (31#5) 0 (15#4) (7#3) false (15#8))), (wCtx (wEng 1022 [])), (0), (31#5), (15#4), (7#3), (false), (15#8), (encVS 0x0D (31#5) 0 (15#4) (7#3) false (15#8)), (by decide +kernel), (⟨rfl, by decide⟩), (by decide +kernel)⟩,
   ⟨(wDev (wEng 1022 []) 0 (encVS 0x0E (scalarField (15#4)) (31#5) 0 (7#3) true 0)), (wCtx (wEng 1022 [])), (0), (15#4), (31#5), (7#3), (true), (encVS 0x0E (scalarField (15#4)) (31#5) 0 (7#3) true 0), (by decide +kernel), (by decide +kernel), (⟨rfl, by decide⟩)⟩,
   ⟨(wDev ({ wEng 1022 [] with p := [(7, 0x80000000)] }) 0 (encVS 0x0F (scalarField (15#4)) (31#5) 0 (7#3) true 0)), (wCtx ({ wEng 1022 [] with p := [(7, 0x80000000)] })), (0), (15#4), (31#5), (7#3), (true), (encVS 0x0F (scalarField (15#4)) (31#5) 0 (7#3) true 0), (by decide +kernel), (by decide +kernel), (⟨rfl, by decide⟩), (by decide +kernel)⟩,
   ⟨(wDev (wEng 1022 []) 0 (encVS 0x0F (scalarField (15#4)) (31#5) 0 (7#3) true 0)), (wCtx (wEng 1022 [])), (0), (15#4), (31#5), (7#3), (true), (encVS 0x0F (scalarField (15#4)) (31#5) 0 (7#3) true 0), (by decide +kernel), (by decide +kernel), (⟨rfl, by decide⟩), (by decide +kernel)⟩,
   ⟨(wDev (wEng 1022 []) 0 (encVS 0x10 (scalarField (15#4)) 0 0 (7#3) true 0)), (wCtx (wEng 1022 [])), (0), (15#4), (7#3), (true), (encVS 0x10 (scalarField (15#4)) 0 0 (7#3) true 0), (by decide +kernel), (by decide +kernel), (⟨rfl, by decide⟩)⟩,
   ⟨(wDev (wEng 1022 []) 0 (encVS 0x11 (scalarField (15#4)) 0 0 (7#3) true 0)), (wCtx (wEng 1022 [])), (0), (15#4), (7#3), (true), (encVS 0x11 (scalarField (15#4)) 0 0 (7#3) true 0), (by decide +kernel), (by decide +kernel), (⟨rfl, by decide⟩)⟩,
   ⟨(wDev (wEng 1022 []) 0 ((encVR 0x12 (scalarField (15#4)) (31#5) (31#5) (7#3) true 0))), (wCtx (wEng 1022 [])), (0), (15#4), (31#5), (31#5), (7#3), (true), (⟨rfl, by decide⟩)⟩,
   ⟨(wDev (wEng 1022 []) 0 ((encVR 0x13 (scalarField (15#4)) (31#5) (31#5) (7#3) false 0))), (wCtx (wEng 1022 [])), (0), (15#4), (31#5), (31#5), (7#3), (⟨rfl, by decide⟩)⟩,
   ⟨(wDev (wEng 1022 []) 0 ((encVR 0x13 (scalarField (15#4)) (31#5) (31#5) (7#3) true 0))), (wCtx (wEng 1022 [])), (0), (15#4), (31#5), (31#5), (7#3), (⟨rfl, by decide⟩)⟩,
   ⟨(wDev (wEng 1022 []) 0 ((encVS 0x14 (31#5) (31#5) (15#4) (7#3) true 0))), (wCtx (wEng 1022 [])), (0), (31#5), (31#5), (15#4), (7#3), (true), (⟨rfl, by decide⟩)⟩,
   ⟨(wDev (wEng 1022 []) 0 ((encVR 0x15 (31#5) (31#5) (31#5) (7#3) true (63#7)))), (wCtx (wEng 1022 [])), (0), (31#5), (31#5), (31#5), (7#3), (true), (63#7), (⟨rfl, by decide⟩), (by decide +kernel)⟩,
   ⟨(wDev (wEng 1022 []) 0 (encVR 0x16 (31#5) (31#5) 0 (7#3) false 0)), (wCtx (wEng 1022 [])), (0), (31#5), (31#5), (7#3), (encVR 0x16 (31#5) (31#5) 0 (7#3) false 0), (by decide +kernel), (⟨rfl, by decide⟩)⟩,
   ⟨(wDev (wEng 1022 []) 0 (encVR 0x17 (31#5) (31#5) 0 (7#3) false 0)), (wCtx (wEng 1022 [])), (0), (31#5), (31#5), (7#3), (encVR 0x17 (31#5) (31#5) 0 (7#3) false 0), (by decide +kernel), (⟨rfl, by decide⟩)⟩,
   ⟨(wDev (wEng 1022 []) 0 ((encVR 0x18 (31#5) (31#5) (31#5) (7#3) true 0))), (wCtx (wEng 1022 [])), (0), (31#5), (31#5), (31#5), (7#3), (⟨rfl, by decide⟩)⟩⟩

/-- The hypotheses of VectorMemoryAndCompletions are met: clause by clause. -/
theorem test_hyps_VectorMemoryAndCompletions :
    (∃ (d : Dev) (k : Ctx) (e : Fin 256) (vd : BitVec 5) (sa : BitVec 4) (pm : BitVec 3) (imm : BitVec 13) (x : Nat), IssuesV e k (encVM 0x20 vd sa pm false imm) d ∧ k.access false ((k.x.sreg sa.toNat + imm.signExtend 32).toNat) 32 d = .ok x) ∧
    (∃ (d : Dev) (k : Ctx) (e : Fin 256) (vd : BitVec 5) (sa : BitVec 4) (pm : BitVec 3) (imm : BitVec 13), IssuesV e k (encVM 0x20 vd sa pm false imm) d ∧ engOffset k.e k.item.home ((k.x.sreg sa.toNat + imm.signExtend 32).toNat) 32 = none) ∧
    (∃ (d : Dev) (k : Ctx) (e : Fin 256) (vd : BitVec 5) (sa : BitVec 4) (pm : BitVec 3) (imm : BitVec 13) (x : Nat), IssuesV e k (encVM 0x21 vd sa pm false imm) d ∧ k.access true ((k.x.sreg sa.toNat + imm.signExtend 32).toNat) 32 d = .ok x) ∧
    (∃ (d : Dev) (k : Ctx) (e : Fin 256) (vd : BitVec 5) (sa : BitVec 4) (pm : BitVec 3) (imm : BitVec 13), IssuesV e k (encVM 0x21 vd sa pm false imm) d ∧ engOffset k.e k.item.home ((k.x.sreg sa.toNat + imm.signExtend 32).toNat) 32 = none) ∧
    (∃ (d : Dev) (k : Ctx) (e : Fin 256) (vd : BitVec 5) (sa : BitVec 4) (pm : BitVec 3) (imm : BitVec 13) (x : Nat), IssuesV e k (encVM 0x20 vd sa pm true imm) d ∧ k.access false ((k.x.sreg sa.toNat).toNat) 32 d = .ok x) ∧
    (∃ (d : Dev) (k : Ctx) (e : Fin 256) (vd : BitVec 5) (sa : BitVec 4) (pm : BitVec 3) (imm : BitVec 13), IssuesV e k (encVM 0x20 vd sa pm true imm) d ∧ engOffset k.e k.item.home ((k.x.sreg sa.toNat).toNat) 32 = none) ∧
    (∃ (d : Dev) (k : Ctx) (e : Fin 256) (vd : BitVec 5) (sa : BitVec 4) (pm : BitVec 3) (imm : BitVec 13) (x : Nat), IssuesV e k (encVM 0x21 vd sa pm true imm) d ∧ k.access true ((k.x.sreg sa.toNat).toNat) 32 d = .ok x) ∧
    (∃ (d : Dev) (k : Ctx) (e : Fin 256) (vd : BitVec 5) (sa : BitVec 4) (pm : BitVec 3) (imm : BitVec 13), IssuesV e k (encVM 0x21 vd sa pm true imm) d ∧ engOffset k.e k.item.home ((k.x.sreg sa.toNat).toNat) 32 = none) ∧
    (∃ (d : Dev) (e : Fin 256) (t : Fin 4) (q : Xfer), (d.eng e).xfers.find? (fun p => p.tag == t.val) = some q ∧ q.store = false ∧ (d.eng e).kernel.isSome = true ∧ q.run = (d.eng e).runs ∧ (∃ (bs : List Byte) (y : Dev), d.runRead (0x30 + e / 16) q.da q.len = (.ok, bs, y))) ∧
    (∃ (d : Dev) (e : Fin 256) (t : Fin 4) (q : Xfer), (d.eng e).xfers.find? (fun p => p.tag == t.val) = some q ∧ q.store = true ∧ d.engBytes q.at_ q.len = q.data ∧ (∃ (y : Dev), d.runWrite (0x30 + e / 16) q.da q.data = (.ok, y))) ∧
    (∃ (d : Dev) (d1 : Dev) (c : Fin 16) (a : Act), d.clusterOn c = true ∧ d.activate (Task.steEvent c) = (some a, d1)) :=
  ⟨⟨(wDev (wEng 1022 [(15, 32736)]) 0 ((encVM 0x20 (31#5) (15#4) (7#3) false (0#13)))), (wCtx (wEng 1022 [(15, 32736)])), (0), (31#5), (15#4), (7#3), (0#13), _, (⟨rfl, by decide⟩), (by rfl)⟩,
   ⟨(wDev (wEng 1022 [(15, 32736)]) 0 ((encVM 0x20 (31#5) (15#4) (7#3) false (1#13)))), (wCtx (wEng 1022 [(15, 32736)])), (0), (31#5), (15#4), (7#3), (1#13), (⟨rfl, by decide⟩), (by decide +kernel)⟩,
   ⟨(wDev (wEng 1022 [(15, 32736)]) 0 ((encVM 0x21 (31#5) (15#4) (7#3) false (0#13)))), (wCtx (wEng 1022 [(15, 32736)])), (0), (31#5), (15#4), (7#3), (0#13), _, (⟨rfl, by decide⟩), (by rfl)⟩,
   ⟨(wDev (wEng 1022 [(15, 32736)]) 0 ((encVM 0x21 (31#5) (15#4) (7#3) false (1#13)))), (wCtx (wEng 1022 [(15, 32736)])), (0), (31#5), (15#4), (7#3), (1#13), (⟨rfl, by decide⟩), (by decide +kernel)⟩,
   ⟨(wDev (wEng 1022 [(15, 32736)]) 0 ((encVM 0x20 (31#5) (15#4) (7#3) true (32#13)))), (wCtx (wEng 1022 [(15, 32736)])), (0), (31#5), (15#4), (7#3), (32#13), _, (⟨rfl, by decide⟩), (by rfl)⟩,
   ⟨(wDev (wEng 1022 [(15, 32737)]) 0 ((encVM 0x20 (31#5) (15#4) (7#3) true (32#13)))), (wCtx (wEng 1022 [(15, 32737)])), (0), (31#5), (15#4), (7#3), (32#13), (⟨rfl, by decide⟩), (by decide +kernel)⟩,
   ⟨(wDev (wEng 1022 [(15, 32736)]) 0 ((encVM 0x21 (31#5) (15#4) (7#3) true (32#13)))), (wCtx (wEng 1022 [(15, 32736)])), (0), (31#5), (15#4), (7#3), (32#13), _, (⟨rfl, by decide⟩), (by rfl)⟩,
   ⟨(wDev (wEng 1022 [(15, 32737)]) 0 ((encVM 0x21 (31#5) (15#4) (7#3) true (32#13)))), (wCtx (wEng 1022 [(15, 32737)])), (0), (31#5), (15#4), (7#3), (32#13), (⟨rfl, by decide⟩), (by decide +kernel)⟩,
   ⟨(wDev ({ wEng 1022 [] with xfers := [{ tag := 3, store := false, da := 0x1004000000, at_ := 0x4000000, op := .plain, len := 32, data := zeros 32, run := 0 }] }) 0 0), (0), (3), ({ tag := 3, store := false, da := 0x1004000000, at_ := 0x4000000, op := .plain, len := 32, data := zeros 32, run := 0 }), (by decide +kernel), (by decide +kernel), (by decide +kernel), (by decide +kernel), _, _, rfl⟩,
   ⟨(wDev ({ wEng 1022 [] with xfers := [{ tag := 3, store := true, da := 0x1004000000, at_ := 0x4000000, op := .plain, len := 32, data := zeros 32, run := 0 }] }) 0 0), (0), (3), ({ tag := 3, store := true, da := 0x1004000000, at_ := 0x4000000, op := .plain, len := 32, data := zeros 32, run := 0 }), (by decide +kernel), (by decide +kernel), (by decide +kernel), _, rfl⟩,
   ⟨(wFlight (Task.steEvent 15) (Dev.init.wr (R.STE_CFG 15) 0x80000000)), _, (15), _, (by decide +kernel), (by rfl)⟩⟩

/-- The hypotheses of EnginesTakeStealAndFence are met: clause by clause. -/
theorem test_hyps_EnginesTakeStealAndFence :
    (∃ (d : Dev) (k : Fin 16) (i : Item) (rest : List Item) (e : Nat), (d.cluster k).queue = i :: rest ∧ d.mayPush i = true ∧ d.pushTarget k none = some e ∧ d.clusterOn k = true ∧ ((∀ j ∈ i :: rest, j.cam = i.cam → j.deferred = i.deferred → 0 < (i.seq + 2 ^ 32 - j.seq) % 2 ^ 32 → 2 ^ 31 ≤ (i.seq + 2 ^ 32 - j.seq) % 2 ^ 32))) ∧
    (∃ (d : Dev) (k : Fin 16), (d.cluster k).queue = []) ∧
    (∃ (d : Dev) (e : Fin 256) (i : Item) (rest : List Item), (d.eng e).deque = i :: rest ∧ (((d.eng e).state = .idle ∨ (d.eng e).state = .steal)) ∧ d.clusterOn (e / 16) = true ∧ d.rowsFinal i = true ∧ (d.cluster (e / 16)).probe = none ∧ (d.cluster (e / 16)).retry = []) ∧
    (∃ (d : Dev) (k : Fin 16) (e : Nat) (v : Nat), (d.cluster k).probe = none ∧ d.clusterOn k = true ∧ ((List.range 16).map (fun i => 16 * k.val + i)).find? (fun e => (d.eng e).state == .steal && (d.eng e).deque.isEmpty) = some e ∧ d.victim k e d.stealable = some v) ∧
    (∃ (d : Dev) (k : Fin 16) (e : Nat) (p : Nat) (rest : List Nat), (d.cluster k).probe = some (e, p :: rest) ∧ rest ≠ [] ∧ (d.clusterOn p && d.b (R.STE_CFG p) F.STE_CFG_STEAL_IN) = false) ∧
    (∃ (d : Dev) (k : Fin 16) (e : Nat) (p : Nat) (v : Nat) (rest : List Nat) (ok : Engine → Bool), (d.cluster k).probe = some (e, p :: rest) ∧ (d.clusterOn p && d.b (R.STE_CFG p) F.STE_CFG_STEAL_IN) = true ∧ ((∀ (x : Engine) (i : Item), x.deque.getLast? = some i → ok x = (i.kind == 0 && bitOf (d.kmask k) i.kernel && d.rowsFinal i))) ∧ ((∀ x : Engine, x.deque.getLast? = none → ok x = false)) ∧ d.victim p e ok = some v) ∧
    (∃ (d : Dev) (e : Fin 256), (d.cluster (e / 16)).retry.any (fun p => p.1 == e.val && decide (p.2 ≤ d.now)) = true ∧ (d.eng e).state = .idle) ∧
    (∃ (d : Dev) (e : Fin 256), (d.eng e).state = .run ∧ (d.eng e).item.isSome = true ∧ d.f (R.STE_WDOG (e / 16)) F.STE_WDOG_LIMIT ≠ 0 ∧ d.f (R.STE_WDOG (e / 16)) F.STE_WDOG_LIMIT * 1000 ≤ d.runTime e ∧ d.pwr.trip = false) ∧
    (∃ (d : Dev) (e : Fin 256), ((d.f (R.STE_WDOG (e / 16)) F.STE_WDOG_LIMIT = 0 ∨ d.runTime e < d.f (R.STE_WDOG (e / 16)) F.STE_WDOG_LIMIT * 1000))) ∧
    (∃ (d : Dev) (k : Fin 16) (i : Fin 16), (d.eng (16 * k + i)).state.active = true) ∧
    (∃ (d : Dev) (k : Fin 16) (i : Fin 16), (d.eng (16 * k + i)).state.active = false) ∧
    (∃ (d : Dev) (e : Fin 256), (d.eng e).state = .fenced) ∧
    (∃ (d : Dev) (e : Fin 256), (d.eng e).state = .fenced ∧ (d.eng e).fenceAt + 1000 ≤ d.now) ∧
    (∃ (d : Dev) (k : Fin 16) (v : Word), ((∀ i : Fin 16, ((d.plainWrite (R.STE_CFG k) v).eng (16 * k + i)).item = none ∧ ((d.plainWrite (R.STE_CFG k) v).eng (16 * k + i)).deque = []))) ∧
    (∃ (d : Dev) (e : Fin 256) (f : ResultFlight) (mine : OrderItem → Bool), d.ste.flights.find? (fun f => f.engine == e.val) = some f ∧ mine = (fun o => o.item.cam == f.cam && o.item.deferred == f.defer && o.item.seq == f.seq && o.holder == some (f.engine, f.epoch) && !o.ended) ∧ d.ste.order.any mine = true) ∧
    (∃ (d : Dev) (e : Fin 256) (f : ResultFlight) (mine : OrderItem → Bool), d.ste.flights.find? (fun f => f.engine == e.val) = some f ∧ mine = (fun o => o.item.cam == f.cam && o.item.deferred == f.defer && o.item.seq == f.seq && o.holder == some (f.engine, f.epoch) && !o.ended) ∧ d.ste.order.any mine = false) :=
  ⟨⟨({ Dev.init with regs := [(R.STE_CFG 15, 0xFFFFFFFF)], ste := { SteSt.init with engines := [(255, { Engine.init with state := .idle, deque := List.replicate 31 wItem })], clusters := [(15, { Cluster.init with queue := [wItem] })] } }), (15), (wItem), ([]), (255), (by decide +kernel), (by decide +kernel), (by decide +kernel), (by decide +kernel), (by decide +kernel)⟩,
   ⟨(Dev.init), (15), (by decide +kernel)⟩,
   ⟨({ Dev.init with regs := [(R.STE_CFG 15, 0xFFFFFFFF)], ste := { SteSt.init with engines := [(255, { Engine.init with state := .steal, deque := [wItem] })] } }), (255), (wItem), ([]), (by decide +kernel), (by decide +kernel), (by decide +kernel), (by decide +kernel), (by decide +kernel), (by decide +kernel)⟩,
   ⟨({ Dev.init with regs := [(R.STE_CFG 15, 0xFFFFFFFF)], ste := { SteSt.init with engines := [(240, { Engine.init with state := .idle, deque := [wItem] }), (255, { Engine.init with state := .steal })] } }), (15), (255), (240), (by decide +kernel), (by decide +kernel), (by decide +kernel), (by decide +kernel)⟩,
   ⟨({ Dev.init with regs := [(R.STE_CFG 15, 0xFFFFFFFF)], ste := { SteSt.init with clusters := [(15, { Cluster.init with probe := some (255, [0, 1]) })] } }), (15), (255), (0), ([1]), (by decide +kernel), (by decide +kernel), (by decide +kernel)⟩,
   ⟨({ Dev.init with regs := [(R.STE_CFG 15, 0xFFFFFFFF), (R.STE_CFG 0, 0xFFFFFFFF)], ste := { SteSt.init with engines := [(15, { Engine.init with state := .idle, deque := [{ wItem with kernel := 31 }] }), (255, { Engine.init with state := .steal })], imem := [(245887, 0x80)], clusters := [(15, { Cluster.init with probe := some (255, [0]) })] } }), (15), (255), (0), (15), ([]), (fun x => match x.deque.getLast? with
    | some i => i.kind == 0 && bitOf (Dev.kmask (15 : Fin 16) ({ Dev.init with regs := [(R.STE_CFG 15, 0xFFFFFFFF), (R.STE_CFG 0, 0xFFFFFFFF)], ste := { SteSt.init with engines := [(15, { Engine.init with state := .idle, deque := [{ wItem with kernel := 31 }] }), (255, { Engine.init with state := .steal })], imem := [(245887, 0x80)], clusters := [(15, { Cluster.init with probe := some (255, [0]) })] } })) i.kernel && Dev.rowsFinal i ({ Dev.init with regs := [(R.STE_CFG 15, 0xFFFFFFFF), (R.STE_CFG 0, 0xFFFFFFFF)], ste := { SteSt.init with engines := [(15, { Engine.init with state := .idle, deque := [{ wItem with kernel := 31 }] }), (255, { Engine.init with state := .steal })], imem := [(245887, 0x80)], clusters := [(15, { Cluster.init with probe := some (255, [0]) })] } })
    | none => false), (by decide +kernel), (by decide +kernel), (fun x i h => by simp only [h]), (fun x h => by simp only [h]), (by decide +kernel)⟩,
   ⟨({ Dev.init with now := 5, ste := { SteSt.init with engines := [(255, { Engine.init with state := .idle })], clusters := [(15, { Cluster.init with retry := [(255, 5)] })] } }), (255), (by decide +kernel), (by decide +kernel)⟩,
   ⟨({ Dev.init with regs := [(R.STE_WDOG 15, 1)], now := 1000, ste := { SteSt.init with engines := [(255, { Engine.init with state := .run, item := some wItem })] } }), (255), (by decide +kernel), (by decide +kernel), (by decide +kernel), (by decide +kernel), (by decide +kernel)⟩,
   ⟨({ Dev.init with regs := [(R.STE_WDOG 15, 1)], now := 999, ste := { SteSt.init with engines := [(255, { Engine.init with state := .run, item := some wItem })] } }), (255), (Or.inr (by decide +kernel))⟩,
   ⟨({ Dev.init with ste := { SteSt.init with engines := [(255, { Engine.init with state := .run })] } }), (15), (15), (by decide +kernel)⟩,
   ⟨({ Dev.init with ste := { SteSt.init with engines := [(255, { Engine.init with state := .fault })] } }), (15), (15), (by decide +kernel)⟩,
   ⟨({ Dev.init with now := 1000, ste := { SteSt.init with engines := [(255, { Engine.init with state := .fenced })] } }), (255), (by decide +kernel)⟩,
   ⟨({ Dev.init with now := 1000, ste := { SteSt.init with engines := [(255, { Engine.init with state := .fenced })] } }), (255), (by decide +kernel), (by decide +kernel)⟩,
   ⟨(Dev.init), (15), (0), (by decide +kernel)⟩,
   ⟨({ Dev.init with ste := { SteSt.init with flights := [{ engine := 255, epoch := 9, cam := 0, defer := false, seq := 0, result := { record := zeros 64, snagRing := 0, cropRing := 0, crop := none } }], order := [{ item := wItem, holder := some (255, 9), ended := false, results := [] }] } }), (255), ({ engine := 255, epoch := 9, cam := 0, defer := false, seq := 0, result := { record := zeros 64, snagRing := 0, cropRing := 0, crop := none } }), _, (by decide +kernel), (rfl), (by decide +kernel)⟩,
   ⟨({ Dev.init with ste := { SteSt.init with flights := [{ engine := 255, epoch := 9, cam := 0, defer := false, seq := 0, result := { record := zeros 64, snagRing := 0, cropRing := 0, crop := none } }], order := [{ item := wItem, holder := some (255, 10), ended := false, results := [] }] } }), (255), ({ engine := 255, epoch := 9, cam := 0, defer := false, seq := 0, result := { record := zeros 64, snagRing := 0, cropRing := 0, crop := none } }), _, (by decide +kernel), (rfl), (by decide +kernel)⟩⟩

/-- The hypotheses of TileWriterAndDeferredLoader are met: clause by clause. -/
theorem test_hyps_TileWriterAndDeferredLoader :
    (∃ (d : Dev) (cam : Fin 48) (rest : List TileIn), (d.tiles cam).queue = .gap :: rest) ∧
    (∃ (d : Dev) (cam : Fin 48) (rest : List TileIn) (f : TileFrame), (d.tiles cam).queue = .frame f :: rest ∧ f.edgeTop = false ∧ (d.tiles cam).bands = []) ∧
    (∃ (d : Dev) (cam : Fin 48) (rest : List TileIn) (f : TileFrame) (r : TileRow), (d.tiles cam).queue = .row r :: rest ∧ (d.tiles cam).frame = some f) ∧
    (∃ (d : Dev) (cam : Fin 48) (f : TileFrame) (b : Nat) (ok : Bool), (d.tiles cam).frame = some f ∧ (d.tiles cam).late = true ∧ (d.tiles cam).next = none ∧ d.freeBuf cam f.cfg.bands = some b ∧ ok = ((d.tiles cam).marks != [] && (d.tiles cam).marks.all fun m => (d.ply m.1).live.any (fun k => k.id == m.2))) ∧
    (∃ (d : Dev) (d0 : Dev) (d2 : Dev) (w : Dev) (q : Deferred) (rows : List TileRow) (top : Bool) (bot : Bool) (buf : Nat) (b : Band), d.retroList = d0 ∧ d0.level ≤ 2 ∧ d0.glb.bindoff = .none ∧ d0.pwr.trip = false ∧ d0.skeinServes = true ∧ d0.ste.deferred = [q] ∧ d0.mayDefer q = true ∧ d0.deferRead q = d2 ∧ d2.deferRegion q = some (rows, top, bot) ∧ d2.freeBuf q.cam q.frame.cfg.bands = some buf ∧ q.cols ≠ [] ∧ b = { id := ((d2.modSte fun y => { y with deferred := y.deferred.erase q }).tiles q.cam).nextId, buf := buf, frame := q.frame, kind := 1, y0 := q.y0, coreH := q.coreH, rows := rows, full := true, edgeT := top, edgeB := bot, selFill := false, made := true, left := q.cols.length, last := decide (q.y0 + q.coreH = q.frame.expect) } ∧ ((d2.modSte fun y => { y with deferred := y.deferred.erase q }).modTiles q.cam fun y => { y with bands := y.bands ++ [b], nextId := y.nextId + 1 }).bandRows q.frame buf 0 rows = (true, w)) ∧
    (∃ (d : Dev), 2 < d.retroList.level) :=
  ⟨⟨({ Dev.init with ste := { SteSt.init with cams := [(47, { CamTiles.init with queue := [.gap] })] } }), (47), ([]), (by decide +kernel)⟩,
   ⟨({ Dev.init with ste := { SteSt.init with cams := [(47, { CamTiles.init with queue := [.frame { cam := 47, seq := 0, job := 0, epoch := 0, psid := 0, axis := 0, format := 0x0101, bpp := 1, width := 1, expect := 1, edgeTop := false, straddle := false, cfg := { homes := [15], kernel := 0, selX := 0, selY := 0, tileW := 32, tileH := 8, bands := 2, base := 0, param := 0, scan := false } }] })] } }), (47), ([]), ({ cam := 47, seq := 0, job := 0, epoch := 0, psid := 0, axis := 0, format := 0x0101, bpp := 1, width := 1, expect := 1, edgeTop := false, straddle := false, cfg := { homes := [15], kernel := 0, selX := 0, selY := 0, tileW := 32, tileH := 8, bands := 2, base := 0, param := 0, scan := false } }), (by decide +kernel), (by decide +kernel), (by decide +kernel)⟩,
   ⟨({ Dev.init with ste := { SteSt.init with cams := [(47, { CamTiles.init with queue := [.row { px := [[255]], info := { wp := 0, ts := 0, seq := 0, filled := false }, fill := [], unc := false, src := [] }], frame := some { cam := 47, seq := 0, job := 0, epoch := 0, psid := 0, axis := 0, format := 0x0101, bpp := 1, width := 1, expect := 1, edgeTop := false, straddle := false, cfg := { homes := [15], kernel := 0, selX := 0, selY := 0, tileW := 32, tileH := 8, bands := 2, base := 0, param := 0, scan := false } } })] } }), (47), ([]), ({ cam := 47, seq := 0, job := 0, epoch := 0, psid := 0, axis := 0, format := 0x0101, bpp := 1, width := 1, expect := 1, edgeTop := false, straddle := false, cfg := { homes := [15], kernel := 0, selX := 0, selY := 0, tileW := 32, tileH := 8, bands := 2, base := 0, param := 0, scan := false } }), ({ px := [[255]], info := { wp := 0, ts := 0, seq := 0, filled := false }, fill := [], unc := false, src := [] }), (by decide +kernel), (by decide +kernel)⟩,
   ⟨({ Dev.init with ste := { SteSt.init with cams := [(47, { CamTiles.init with frame := some { cam := 47, seq := 0, job := 0, epoch := 0, psid := 0, axis := 0, format := 0x0101, bpp := 1, width := 1, expect := 1, edgeTop := false, straddle := false, cfg := { homes := [15], kernel := 0, selX := 0, selY := 0, tileW := 32, tileH := 8, bands := 2, base := 0, param := 0, scan := false } }, late := true })] } }), (47), ({ cam := 47, seq := 0, job := 0, epoch := 0, psid := 0, axis := 0, format := 0x0101, bpp := 1, width := 1, expect := 1, edgeTop := false, straddle := false, cfg := { homes := [15], kernel := 0, selX := 0, selY := 0, tileW := 32, tileH := 8, bands := 2, base := 0, param := 0, scan := false } }), (0), _, (by decide +kernel), (by decide +kernel), (by decide +kernel), (by decide +kernel), (rfl)⟩,
   ⟨({ Dev.init with ste := { SteSt.init with deferred := [{ cam := 47, frame := { cam := 47, seq := 0, job := 0, epoch := 0, psid := 0, axis := 0, format := 0x0101, bpp := 1, width := 1, expect := 1, edgeTop := false, straddle := false, cfg := { homes := [15], kernel := 0, selX := 0, selY := 0, tileW := 32, tileH := 8, bands := 2, base := 0, param := 0, scan := false } }, y0 := 0, coreH := 1, cols := [0], lo := 0, hi := 0, ts := 0 }] }, skein := { SkeinSt.init with cap := 2 ^ 36, hist := { HistSt.init with on := true, recs := [{ start := 0, stop := 65, cam := 47, frame := 0, row := 0, ts := 0, info := { wp := 0, ts := 0, seq := 0, filled := false } }], frames := [{ slot := 0, tag := { cam := 47, output := 0, seq := 0, trig := 0, job := 0, epoch := 0, psid := 0, flags := 0, wpFirst := 0, wpLast := 0, tsFirst := 0, lines := 1, width := 1, format := 0x0101, crc := 0, fid := 0 }, first := 0, last := 1, valid := true, inspect := true, deliver := false, retro := false }] } } }), _, _, _, ({ cam := 47, frame := { cam := 47, seq := 0, job := 0, epoch := 0, psid := 0, axis := 0, format := 0x0101, bpp := 1, width := 1, expect := 1, edgeTop := false, straddle := false, cfg := { homes := [15], kernel := 0, selX := 0, selY := 0, tileW := 32, tileH := 8, bands := 2, base := 0, param := 0, scan := false } }, y0 := 0, coreH := 1, cols := [0], lo := 0, hi := 0, ts := 0 }), _, _, _, (0), _, (rfl), (by decide +kernel), (by decide +kernel), (by decide +kernel), (by decide +kernel), (by decide +kernel), (by decide +kernel), (rfl), (by rfl), (by decide +kernel), (by decide +kernel), (rfl), (rfl)⟩,
   ⟨({ Dev.init with glb := { GlbSt.init with shed := 3 } }), (by decide +kernel)⟩⟩

/-- The hypotheses of StashBanksServeAndChangeHands are met: clause by clause. -/
theorem test_hyps_StashBanksServeAndChangeHands :
    (∃ (d : Dev) (k : Fin 16) (b : Fin 16) (v : Word), d.stash.bad.contains (16 * k.val + b.val) = false ∧ fld v F.STASH_BANK_OWN_OWNER ≠ 0xFF ∧ ((fld v F.STASH_BANK_OWN_EXPECT = 0xFF ∨ fld v F.STASH_BANK_OWN_EXPECT = d.lastOwner (16 * k + b))) ∧ d.stash.waits.get (fun _ => []) (16 * k.val + b.val) = []) ∧
    (∃ (d : Dev) (k : Fin 16) (b : Fin 16) (v : Word), fld v F.STASH_BANK_OWN_EXPECT ≠ 0xFF ∧ fld v F.STASH_BANK_OWN_EXPECT ≠ d.lastOwner (16 * k + b)) ∧
    (∃ (d : Dev) (k : Fin 16) (b : Fin 16) (p : Nat × Nat), d.stash.hand.find? (fun q => q.1 == 16 * k.val + b.val) = some p) ∧
    (∃ (d : Dev) (k : Fin 16) (b : Fin 16) (q : BankReq), d.stash.waits.get (fun _ => []) (16 * k.val + b.val) = [] ∧ d.bankGrants (16 * k + b) (portMaster k q.port) = true ∧ q.op = .read) ∧
    (∃ (d : Dev) (k : Fin 16) (b : Fin 16) (q : BankReq), d.stash.waits.get (fun _ => []) (16 * k.val + b.val) = [] ∧ d.bankGrants (16 * k + b) (portMaster k q.port) = false) ∧
    (∃ (d : Dev) (k : Fin 16) (b : Fin 16) (old : BankWait → Bool), old = BankWait.aged (d.bankCycle (16 * k + b))) ∧
    (∃ (d : Dev) (k : Fin 16) (x : TestSt), d.stash.tests.get (fun _ => TestSt.init) k = x ∧ d.pwr.state = .active ∧ x.line < testLines ∧ x.step = 2) ∧
    (∃ (d : Dev) (k : Fin 16) (x : TestSt) (fails : Bool), d.stash.tests.get (fun _ => TestSt.init) k = x ∧ d.pwr.state = .active ∧ x.line < testLines ∧ x.step = 0 ∧ d.b R.STASH_TEST_CFG F.STASH_TEST_CFG_EN = true) ∧
    (∃ (d : Dev) (d1 : Dev) (v : Word), d1 = d.plainWrite R.STASH_TEST_CFG v ∧ d.b R.STASH_TEST_CFG F.STASH_TEST_CFG_EN = false ∧ d1.b R.STASH_TEST_CFG F.STASH_TEST_CFG_EN = true) :=
  ⟨⟨(Dev.init), (15), (15), (0xFF10), (by decide +kernel), (by decide +kernel), (Or.inl (by decide)), (by decide +kernel)⟩,
   ⟨(Dev.init), (15), (15), (0x10), (by decide +kernel), (by decide +kernel)⟩,
   ⟨({ Dev.init with stash := { StashSt.init with hand := [(255, 16)] } }), (15), (15), ((255, 16)), (by decide +kernel)⟩,
   ⟨(Dev.init), (15), (15), ({ port := .eng 15, op := .read, line := 4095, data := [] }), (by decide +kernel), (by decide +kernel), (by decide +kernel)⟩,
   ⟨(Dev.init), (15), (15), ({ port := .sys 0, op := .read, line := 4095, data := [] }), (by decide +kernel), (by decide +kernel)⟩,
   ⟨(Dev.init), (15), (15), _, (rfl)⟩,
   ⟨({ Dev.init with stash := { StashSt.init with tests := [(15, { line := 81919, step := 2, save := [] })] } }), (15), ({ line := 81919, step := 2, save := [] }), (by decide +kernel), (by decide +kernel), (by decide +kernel), (by decide +kernel)⟩,
   ⟨({ Dev.init with regs := [(R.STASH_TEST_CFG, 0x80000000)], stash := { StashSt.init with tests := [(15, { line := 81919, step := 0, save := [] })] } }), (15), ({ line := 81919, step := 0, save := [] }), (true), (by decide +kernel), (by decide +kernel), (by decide +kernel), (by decide +kernel), (by decide +kernel)⟩,
   ⟨({ Dev.init with regs := [(R.STASH_TEST_CFG, 0)] }), _, (0x80000000), (rfl), (by decide +kernel), (by decide +kernel)⟩⟩

/-- The hypotheses of SkeinReadsScrubsAndRetro are met: clause by clause. -/
theorem test_hyps_SkeinReadsScrubsAndRetro :
    (∃ (d : Dev), d.skein.cap ≠ 0 ∧ d.skeinServes = true) ∧
    (∃ (d : Dev) (m : Nat) (a : Nat), d.skeinServes = true ∧ d.skeinExists (a * 64) 64 = true ∧ a ∉ d.skein.bad) ∧
    (∃ (d : Dev) (m : Nat) (a : Nat), d.skeinServes = true ∧ d.skeinExists (a * 64) 64 = true ∧ a ∉ d.skein.bad) ∧
    (∃ (d : Dev), d.b R.SKEIN_SCRUB_CFG F.SKEIN_SCRUB_CFG_EN = true ∧ d.skeinServes = true ∧ d.skein.cap ≠ 0 ∧ d.skein.scrub ∉ d.skein.bad ∧ (d.skein.scrub + 1) % (d.skein.cap / 64) ≠ 0) ∧
    (∃ (d : Dev) (d1 : Dev) (v : Word) (r : Nat), d1 = d.plainWrite R.SKEIN_HIST_CFG v ∧ d.b R.SKEIN_HIST_CFG F.SKEIN_HIST_CFG_EN = false ∧ fld (d1.rd R.SKEIN_HIST_CFG) F.SKEIN_HIST_CFG_EN = 1 ∧ r = fld (d1.rd R.SKEIN_HIST_CFG) F.SKEIN_HIST_CFG_REGION ∧ d1.f (R.SKEIN_RGN_SIZE r) ⟨0, 17⟩ * 2 ^ 20 < max 1 (fld (d1.rd R.SKEIN_HIST_CFG) F.SKEIN_HIST_CFG_INDEX) * 2 ^ 20 + 64 * 2 ^ 20) ∧
    (∃ (d : Dev) (d1 : Dev) (v : Word) (r : Nat) (base : Nat) (size : Nat) (index : Nat), d1 = d.plainWrite R.SKEIN_HIST_CFG v ∧ d.b R.SKEIN_HIST_CFG F.SKEIN_HIST_CFG_EN = false ∧ fld (d1.rd R.SKEIN_HIST_CFG) F.SKEIN_HIST_CFG_EN = 1 ∧ r = fld (d1.rd R.SKEIN_HIST_CFG) F.SKEIN_HIST_CFG_REGION ∧ index = max 1 (fld (d1.rd R.SKEIN_HIST_CFG) F.SKEIN_HIST_CFG_INDEX) * 2 ^ 20 ∧ base = (d1.rd64 (R.SKEIN_RGN_BASE r)).toNat / 2 ^ 20 * 2 ^ 20 ∧ size = d1.f (R.SKEIN_RGN_SIZE r) ⟨0, 17⟩ * 2 ^ 20 ∧ index + 64 * 2 ^ 20 ≤ size) ∧
    (∃ (d : Dev) (d1 : Dev) (v : Word) (q : Retro), d1 = d.plainWrite R.SKEIN_RETRO_CTL v ∧ fld v F.SKEIN_RETRO_CTL_GO ≠ 0 ∧ d1.b R.SKEIN_RETRO_STATUS F.SKEIN_RETRO_STATUS_BUSY = false ∧ q = { cams := (d1.rd64 R.SKEIN_RETRO_CAM).toNat, lo := d1.int64 R.SKEIN_RETRO_WP_LO, hi := d1.int64 R.SKEIN_RETRO_WP_HI, axis := d1.f R.SKEIN_RETRO_CTL F.SKEIN_RETRO_CTL_AXIS }) ∧
    (∃ (d : Dev) (d1 : Dev) (v : Word), d1 = d.plainWrite R.SKEIN_RETRO_CTL v ∧ fld v F.SKEIN_RETRO_CTL_GO ≠ 0 ∧ d1.b R.SKEIN_RETRO_STATUS F.SKEIN_RETRO_STATUS_BUSY = true) ∧
    (∃ (d : Dev) (q : Retro), d.skein.retro = some q) :=
  ⟨⟨({ Dev.init with skein := { SkeinSt.init with cap := 64 } }), (by decide +kernel), (by decide +kernel)⟩,
   ⟨({ Dev.init with skein := { SkeinSt.init with cap := 64 } }), (1), (0), (by decide +kernel), (by decide +kernel), (by decide +kernel)⟩,
   ⟨({ Dev.init with skein := { SkeinSt.init with cap := 64 } }), (1), (0), (by decide +kernel), (by decide +kernel), (by decide +kernel)⟩,
   ⟨({ Dev.init with regs := [(R.SKEIN_SCRUB_CFG, 0x80000000)], skein := { SkeinSt.init with cap := 128 } }), (by decide +kernel), (by decide +kernel), (by decide +kernel), (by decide +kernel), (by decide +kernel)⟩,
   ⟨({ Dev.init with regs := [(R.SKEIN_HIST_CFG, 0), (R.SKEIN_RGN_SIZE 31, 64)] }), _, (0x801F0001), (31), (rfl), (by decide +kernel), (by decide +kernel), (by decide +kernel), (by decide +kernel)⟩,
   ⟨({ Dev.init with regs := [(R.SKEIN_HIST_CFG, 0), (R.SKEIN_RGN_SIZE 31, 65)] }), _, (0x801F0001), (31), _, _, _, (rfl), (by decide +kernel), (by decide +kernel), (by decide +kernel), (rfl), (rfl), (rfl), (by decide +kernel)⟩,
   ⟨(Dev.init), _, (0x80000000), _, (rfl), (by decide +kernel), (by decide +kernel), (rfl)⟩,
   ⟨({ Dev.init with regs := [(R.SKEIN_RETRO_STATUS, 0x80000000)] }), _, (0x80000000), (rfl), (by decide +kernel), (by decide +kernel)⟩,
   ⟨({ Dev.init with skein := { SkeinSt.init with retro := some { cams := 1, lo := 0, hi := 0, axis := 3 } } }), ({ cams := 1, lo := 0, hi := 0, axis := 3 }), (by decide +kernel)⟩⟩

/-- The hypotheses of HookChannelsRun are met: clause by clause. -/
theorem test_hyps_HookChannelsRun :
    (∃ (d : Dev) (m : Nat) (ch : Fin 16), ((m < 0x10 ∨ 0x1F < m)) ∧ (d.hookCh ch).state = .idle ∧ d.glb.bindoff ≠ .inProgress ∧ d.pwr.state = .active) ∧
    (∃ (d : Dev) (m : Nat) (ch : Fin 16), ((m < 0x10 ∨ 0x1F < m)) ∧ (d.hookCh ch).state ≠ .idle) ∧
    (∃ (d : Dev) (m : Nat) (ch : Fin 16), 0x10 ≤ m ∧ m ≤ 0x1F) ∧
    (∃ (d : Dev) (m : Nat) (ch : Fin 16), ((m < 0x10 ∨ 0x1F < m))) ∧
    (∃ (d : Dev) (m : Nat) (ch : Fin 16), ((m < 0x10 ∨ 0x1F < m)) ∧ (d.hookCh ch).state = .check) ∧
    (∃ (d : Dev) (m : Nat) (ch : Fin 16), ((m < 0x10 ∨ 0x1F < m)) ∧ (d.hookCh ch).state = .flush) ∧
    (∃ (d : Dev) (m : Nat) (ch : Fin 16), ((m < 0x10 ∨ 0x1F < m)) ∧ (d.hookCh ch).state = .idle ∧ d.b (R.HOOK_CH_STATUS ch) F.HOOK_CH_STATUS_DONE = false) ∧
    (∃ (d : Dev) (ch : Fin 16), (d.hookCh ch).state = .check ∧ d.hookCheck (d.hookCh ch).desc = 0 ∧ (d.hookCh ch).desc.overlaps = false) ∧
    (∃ (d : Dev) (ch : Fin 16), (d.hookCh ch).state = .check ∧ d.hookCheck (d.hookCh ch).desc ≠ 0) ∧
    (∃ (d : Dev) (ch : Fin 16), (d.hookCh ch).state = .waitBuf ∧ 16 ≤ (d.hookCh ch).slots) ∧
    (∃ (d : Dev) (v : Word), fld v F.HOOK_CTL_RESET = 1) ∧
    (∃ (d : Dev) (d1 : Dev) (en : Bool) (v : Word), d1 = d.plainWrite (if en then R.HOOK_IRQ_EN else R.HOOK_IRQ_STATUS) v ∧ ((∀ ch < 16, ¬ (d1.f R.HOOK_IRQ_STATUS (bitF ch) = 1 ∧ d1.f R.HOOK_IRQ_EN (bitF ch) = 1)))) ∧
    (∃ (d : Dev) (d1 : Dev) (en : Bool) (v : Word), d1 = d.plainWrite (if en then R.HOOK_IRQ_EN else R.HOOK_IRQ_STATUS) v ∧ ((∀ ch < 15, ¬ (d1.f R.HOOK_IRQ_STATUS (bitF ch) = 1 ∧ d1.f R.HOOK_IRQ_EN (bitF ch) = 1))) ∧ d1.f R.HOOK_IRQ_STATUS (bitF 15) = 1 ∧ d1.f R.HOOK_IRQ_EN (bitF 15) = 1) ∧
    (∃ (d : Dev) (ch : Nat) (da : Nat), d.readPick = some ch ∧ d.hookTarget ch false (d.hookCh ch).nextRead.2.1 = .here da ∧ ({ d with hook := { d.hook with last := ch } } : Dev).runStop (0x10 + ch) false da (d.hookCh ch).nextRead.2.2 = none) ∧
    (∃ (d : Dev) (y : Dev) (ch : Fin 16) (first : Nat) (da : Nat) (b : HookBurst) (bs : List Byte), (d.hookCh ch).bursts.find? (fun b => decide (b.first = first) && b.data.isNone) = some b ∧ d.hookTarget ch false ((d.hookCh ch).readDa first) = .here da ∧ d.waitsForSkein da = false ∧ d.runRead (0x10 + ch) da b.len = (.ok, bs, y)) ∧
    (∃ (d : Dev) (y : Dev) (ch : Nat) (n : Nat) (da : Nat) (bs : List Byte), d.writePick = some (ch, n, bs) ∧ d.hookTarget ch true ((d.hookCh ch).desc.dstOf n) = .here da ∧ (d.hookCh ch).desc.dstOf n < 2 ^ 62 ∧ d.writeHere ch da bs = (.ok, y)) ∧
    (∃ (d : Dev) (ch : Fin 16), (d.hookCh ch).acks ≠ 0) :=
  ⟨⟨(Dev.init), (0x20), (15), (by decide +kernel), (by decide +kernel), (by decide +kernel), (by decide +kernel)⟩,
   ⟨({ Dev.init with hook := { HookSt.init with chs := [(15, { HookCh.init with state := .run })] } }), (0xF), (15), (by decide +kernel), (by decide +kernel)⟩,
   ⟨(Dev.init), (0x1F), (15), (by decide +kernel), (by decide +kernel)⟩,
   ⟨(Dev.init), (0xF), (15), (by decide +kernel)⟩,
   ⟨({ Dev.init with hook := { HookSt.init with chs := [(15, { HookCh.init with state := .check })] } }), (0x20), (15), (by decide +kernel), (by decide +kernel)⟩,
   ⟨({ Dev.init with hook := { HookSt.init with chs := [(15, { HookCh.init with state := .flush })] } }), (0x20), (15), (by decide +kernel), (by decide +kernel)⟩,
   ⟨(Dev.init), (0x20), (15), (by decide +kernel), (by decide +kernel), (by decide +kernel)⟩,
   ⟨({ Dev.init with hook := { HookSt.init with chs := [(15, { HookCh.init with state := .check, desc := { HookDesc.init with src := 0x1004000000, dst := 0x1004000004 } })] } }), (15), (by decide +kernel), (by decide +kernel), (by decide +kernel)⟩,
   ⟨({ Dev.init with hook := { HookSt.init with chs := [(15, { HookCh.init with state := .check, desc := { HookDesc.init with esize := 5 } })] } }), (15), (by decide +kernel), (by decide +kernel)⟩,
   ⟨({ Dev.init with hook := { HookSt.init with chs := [(15, { HookCh.init with state := .waitBuf, slots := 16 })] } }), (15), (by decide +kernel), (by decide +kernel)⟩,
   ⟨(Dev.init), (1), (by decide +kernel)⟩,
   ⟨({ Dev.init with regs := [(R.HOOK_IRQ_STATUS, 0x8000)] }), _, (true), (0x7FFF), (rfl), (by decide +kernel)⟩,
   ⟨({ Dev.init with regs := [(R.HOOK_IRQ_STATUS, 0x8000)] }), _, (true), (0x8000), (rfl), (by decide +kernel), (by decide +kernel), (by decide +kernel)⟩,
   ⟨({ Dev.init with hook := { HookSt.init with chs := [(15, { HookCh.init with state := .run, desc := { HookDesc.init with src := 0x1004000000, dst := 0x1004000004 } })] } }), (15), (0x1004000000), (by decide +kernel), (by decide +kernel), (by decide +kernel)⟩,
   ⟨({ Dev.init with hook := { HookSt.init with chs := [(15, { HookCh.init with state := .run, desc := { HookDesc.init with src := 0x1004000000, dst := 0x1004000004 }, next := 1, bursts := [{ first := 0, len := 4, parts := [], data := none, order := 0 }] })] } }), _, (15), (0), (0x1004000000), ({ first := 0, len := 4, parts := [], data := none, order := 0 }), _, (by decide +kernel), (by decide +kernel), (by decide +kernel), (rfl)⟩,
   ⟨({ Dev.init with hook := { HookSt.init with chs := [(15, { HookCh.init with state := .run, desc := { HookDesc.init with src := 0x1004000000, dst := 0x1004000004 }, next := 1, bursts := [{ first := 0, len := 4, parts := [], data := some [1, 2, 3, 4], order := 0 }] })] } }), _, (15), (0), (0x1004000004), ([1, 2, 3, 4]), (by decide +kernel), (by decide +kernel), (by decide +kernel), (rfl)⟩,
   ⟨({ Dev.init with hook := { HookSt.init with chs := [(15, { HookCh.init with acks := 1 })] } }), (15), (by decide +kernel)⟩⟩

/-- The hypotheses of JobsStageArmAndSwitch are met: clause by clause. -/
theorem test_hyps_JobsStageArmAndSwitch :
    (∃ (d : Dev), d.job.staging = none ∧ ((d.job.slot d.job.target = .free ∨ d.job.slot d.job.target = .staged ∧ d.job.armed = false))) ∧
    (∃ (d : Dev), d.job.staging.isSome = true) ∧
    (∃ (d : Dev) (r : Recipe), d.job.slot d.job.target = .staged ∧ d.job.armed = false ∧ d.job.recipe d.job.target = some r) ∧
    (∃ (d : Dev), d.job.slot d.job.target ≠ .staged) ∧
    (∃ (d : Dev) (r : Recipe), d.armCheck (d.f R.JOB_SPLICE_CFG F.JOB_SPLICE_CFG_AXIS) (d.int64 R.JOB_MARK) false = 0 ∧ d.job.recipe d.job.target = some r) ∧
    (∃ (d : Dev) (n : Nat), d.armCheck (d.f R.JOB_SPLICE_CFG F.JOB_SPLICE_CFG_AXIS) (d.int64 R.JOB_MARK) false = n + 3) ∧
    (∃ (d : Dev) (d1 : Dev) (a : Act) (r : Recipe), d.activate Task.jobArm = (some a, d1) ∧ d1.armCheck (d1.f R.JOB_SPLICE_CFG F.JOB_SPLICE_CFG_AXIS) (d1.int64 R.JOB_MARK) false = 0 ∧ d1.job.recipe d1.job.target = some r) ∧
    (∃ (d : Dev) (d1 : Dev) (a : Act) (n : Nat), d.activate Task.jobArm = (some a, d1) ∧ d1.armCheck (d1.f R.JOB_SPLICE_CFG F.JOB_SPLICE_CFG_AXIS) (d1.int64 R.JOB_MARK) false = n + 3) ∧
    (∃ (d : Dev) (p : Int), d.job.armed = true ∧ d.splicePos = some p ∧ d.job.mark * 65536 ≤ p) ∧
    (∃ (d : Dev) (p : Int), d.job.armed = true ∧ d.splicePos = some p ∧ p < d.job.mark * 65536) ∧
    (∃ (d : Dev) (h : Nat), d.job.draining = some h) ∧
    (∃ (d : Dev), d.job.draining = none) ∧
    (∃ (d : Dev) (h : Nat), d.job.draining = some h ∧ d.epochRemains d.job.prev = false) ∧
    (∃ (d : Dev) (h : Nat), d.job.draining = some h ∧ d.epochRemains d.job.prev = true) ∧
    (∃ (d : Dev), d.job.armed = true ∧ d.switchDue = none) ∧
    (∃ (d : Dev), d.job.armed = false ∧ d.job.hit = true) ∧
    (∃ (d : Dev), d.job.armed = false ∧ d.job.hit = false) ∧
    (∃ (d : Dev) (d1 : Dev) (a : Act), d.activate Task.jobAbort = (some a, d1) ∧ d1.job.armed = true ∧ d1.switchDue = none) ∧
    (∃ (d : Dev) (d1 : Dev) (a : Act), d.activate Task.jobAbort = (some a, d1) ∧ d1.job.armed = false ∧ d1.job.hit = true) ∧
    (∃ (d : Dev) (d1 : Dev) (a : Act), d.activate Task.jobAbort = (some a, d1) ∧ d1.job.armed = false ∧ d1.job.hit = false) ∧
    (∃ (d : Dev) (a : Nat), d.job.armed = false ∧ d.job.staging = some a ∧ d.job.swatching = []) ∧
    (∃ (d : Dev), d.job.armed = true ∧ d.abortArmed.job.staging = none ∧ d.abortArmed.job.swatching = []) ∧
    (∃ (d : Dev) (y : Dev) (z : Dev) (p : Fin 4) (src : Nat) (hops : Nat) (m : FabMark), d.fabArrive p = (true, y) ∧ z = y.fabForward p (headOf src hops true 0 (.mark m)) ∧ (m.origin, m.seq) ∉ z.fab.marks ∧ m.origin ≠ z.fabAddr ∧ ∃ w : Dev, w = ((z.modFab fun f => { f with marks := ((m.origin, m.seq) :: f.marks).take 64 }).bump R.FAB_CNT2 F.FAB_CNT2_MARK_RX_CNT 1).publish Src.fabMark 0 ∧ w.b R.JOB_SPLICE_CFG F.JOB_SPLICE_CFG_FAB_ACCEPT = false) ∧
    (∃ (d : Dev) (y : Dev) (z : Dev) (p : Fin 4) (src : Nat) (hops : Nat) (m : FabMark), d.fabArrive p = (true, y) ∧ z = y.fabForward p (headOf src hops true 0 (.mark m)) ∧ (m.origin, m.seq) ∉ z.fab.marks ∧ m.origin ≠ z.fabAddr ∧ ∃ w : Dev, w = ((z.modFab fun f => { f with marks := ((m.origin, m.seq) :: f.marks).take 64 }).bump R.FAB_CNT2 F.FAB_CNT2_MARK_RX_CNT 1).publish Src.fabMark 0 ∧ w.b R.JOB_SPLICE_CFG F.JOB_SPLICE_CFG_FAB_ACCEPT = true ∧ m.abort = false) ∧
    (∃ (d : Dev), d.job.armed = true) ∧
    (∃ (d : Dev), d.job.armed = false) ∧
    (∃ (d : Dev) (d1 : Dev) (a : Act), d.activate Task.fabMarkTx = (some a, d1) ∧ d1.job.armed = true) ∧
    (∃ (d : Dev) (d1 : Dev) (a : Act), d.activate Task.fabMarkTx = (some a, d1) ∧ d1.job.armed = false) :=
  ⟨⟨({ Dev.init with job := { JobSt.init with slot1 := .staged } }), (by decide +kernel), (Or.inr (by decide))⟩,
   ⟨({ Dev.init with job := { JobSt.init with staging := some 0 } }), (by decide +kernel)⟩,
   ⟨({ Dev.init with job := { JobSt.init with slot1 := .staged, rec1 := some { jobId := 1, swatchK := 8, extra := 0, deadline := 0, scales := [], trigs := [], cams := [], sets := [] } } }), ({ jobId := 1, swatchK := 8, extra := 0, deadline := 0, scales := [], trigs := [], cams := [], sets := [] }), (by decide +kernel), (by decide +kernel), (by decide +kernel)⟩,
   ⟨(Dev.init), (by decide +kernel)⟩,
   ⟨({ Dev.init with regs := [(R.JOB_MARK, 5), (R.JOB_ARM_MIN, 5)], job := { JobSt.init with slot1 := .staged, rec1 := some { jobId := 1, swatchK := 8, extra := 0, deadline := 0, scales := [], trigs := [], cams := [], sets := [] } }, gauge := { GaugeSt.init with axes := [(0, { Axis.init with state := .run })] } }), ({ jobId := 1, swatchK := 8, extra := 0, deadline := 0, scales := [], trigs := [], cams := [], sets := [] }), (by decide +kernel), (by decide +kernel)⟩,
   ⟨({ Dev.init with job := { JobSt.init with slot1 := .staged } }), (0), (by decide +kernel)⟩,
   ⟨(wFlight Task.jobArm { Dev.init with regs := [(R.JOB_MARK, 5), (R.JOB_ARM_MIN, 5)], job := { JobSt.init with slot1 := .staged, rec1 := some { jobId := 1, swatchK := 8, extra := 0, deadline := 0, scales := [], trigs := [], cams := [], sets := [] } }, gauge := { GaugeSt.init with axes := [(0, { Axis.init with state := .run })] } }), _, _, ({ jobId := 1, swatchK := 8, extra := 0, deadline := 0, scales := [], trigs := [], cams := [], sets := [] }), (by rfl), (by rfl), (by rfl)⟩,
   ⟨(wFlight Task.jobArm { Dev.init with job := { JobSt.init with slot1 := .staged } }), _, _, (0), (by rfl), (by rfl)⟩,
   ⟨({ Dev.init with job := { JobSt.init with armed := true }, now := 28, gauge := { GaugeSt.init with axes := [(0, { Axis.init with state := .run, smps := [{ at_ := 0, ts := 0, wpFine := 0, speed := 0, method := false, unc := false }] })] } }), (0), (by decide +kernel), (by decide +kernel), (by decide +kernel)⟩,
   ⟨({ Dev.init with job := { JobSt.init with armed := true, mark := 1 }, now := 28, gauge := { GaugeSt.init with axes := [(0, { Axis.init with state := .run, smps := [{ at_ := 0, ts := 0, wpFine := 0, speed := 0, method := false, unc := false }] })] } }), (0), (by decide +kernel), (by decide +kernel), (by decide +kernel)⟩,
   ⟨({ Dev.init with job := { JobSt.init with slot0 := .draining, prev := 5 } }), _, (rfl)⟩,
   ⟨(Dev.init), (by decide +kernel)⟩,
   ⟨({ Dev.init with job := { JobSt.init with slot0 := .draining, prev := 5 } }), _, (rfl), (by decide +kernel)⟩,
   ⟨({ Dev.init with job := { JobSt.init with slot0 := .draining, prev := 5 }, asm := { AsmSt.init with cams := [(47, { AsmCam.init with openF := some { seq := 0, k := 0, count := 1, first := some { wp := 0, ts := 0, axis := 0, seq := 0, epoch := 5, unc := false, late := false, lost := false }, last := none, arrival := 0, lines := 0, rows := 0, crc := 0, flags := 0, width := 1, format := 0, fid := 0, chunks := [] } })] } }), _, (rfl), (by decide +kernel)⟩,
   ⟨({ Dev.init with job := { JobSt.init with armed := true } }), (by decide +kernel), (by decide +kernel)⟩,
   ⟨({ Dev.init with job := { JobSt.init with hit := true } }), (by decide +kernel), (by decide +kernel)⟩,
   ⟨(Dev.init), (by decide +kernel), (by decide +kernel)⟩,
   ⟨(wFlight Task.jobAbort { Dev.init with job := { JobSt.init with armed := true } }), _, _, (by rfl), (by rfl), (by rfl)⟩,
   ⟨(wFlight Task.jobAbort { Dev.init with job := { JobSt.init with hit := true } }), _, _, (by rfl), (by rfl), (by rfl)⟩,
   ⟨(wFlight Task.jobAbort Dev.init), _, _, (by rfl), (by rfl), (by rfl)⟩,
   ⟨({ Dev.init with job := { JobSt.init with staging := some 0 } }), (0), (by decide +kernel), (by decide +kernel), (by decide +kernel)⟩,
   ⟨({ Dev.init with job := { JobSt.init with armed := true } }), (by decide +kernel), (by decide +kernel), (by decide +kernel)⟩,
   ⟨({ Dev.init with fab := { FabSt.init with ports := [(3, { FabPort.init with state := .up })] } }), _, _, (3), (63), (0), ({ abort := false, origin := 63, seq := 1, job := 1, epoch := 2, axis := 0, speed := 0, mark := 0, ts := 0 }), (rfl), (rfl), (by decide +kernel), (by decide +kernel), _, rfl, (by decide +kernel)⟩,
   ⟨({ Dev.init with regs := [(R.JOB_SPLICE_CFG, 0x10000000)], fab := { FabSt.init with ports := [(3, { FabPort.init with state := .up })] } }), _, _, (3), (63), (15), ({ abort := false, origin := 63, seq := 1, job := 1, epoch := 2, axis := 0, speed := 0, mark := 0, ts := 0 }), (rfl), (rfl), (by decide +kernel), (by decide +kernel), _, rfl, (by decide +kernel), (by decide +kernel)⟩,
   ⟨({ Dev.init with job := { JobSt.init with armed := true } }), (by decide +kernel)⟩,
   ⟨(Dev.init), (by decide +kernel)⟩,
   ⟨(wFlight Task.fabMarkTx { Dev.init with job := { JobSt.init with armed := true } }), _, _, (by rfl), (by rfl)⟩,
   ⟨(wFlight Task.fabMarkTx Dev.init), _, _, (by rfl), (by rfl)⟩⟩

/-- The hypotheses of HostRingsDeliver are met: clause by clause. -/
theorem test_hyps_HostRingsDeliver :
    (∃ (d : Dev) (u : AtsUser) (iova : Nat) (t : Nat) (w : Bool), d.host.cfg.atsEn = true ∧ d.canRequest = true ∧ d.xlate iova w = none ∧ d.host.reqs = [] ∧ d.freeTag = some t) ∧
    (∃ (d : Dev) (t : Nat) (base : Nat) (size : Nat), d.host.invals.length < 32 ∧ d.host.reqs = []) ∧
    (∃ (d : Dev) (t : Nat) (p : Nat × List Nat), d.host.invals.find? (fun q => q.1 == t) = some p ∧ p.2.any (fun t => d.host.reqs.any (fun q => q.tag == t)) = false) ∧
    (∃ (d : Dev) (t : Nat) (p : Nat × List Nat), d.host.invals.find? (fun q => q.1 == t) = some p ∧ p.2.any (fun t => d.host.reqs.any (fun q => q.tag == t)) = true) ∧
    (∃ (d : Dev) (d1 : Dev) (r : Fin 64) (v : Word), d1 = d.plainWrite (R.HOST_RING_CFG r) v ∧ d.b (R.HOST_RING_CFG r) F.HOST_RING_CFG_EN = false ∧ fld (d1.rd (R.HOST_RING_CFG r)) F.HOST_RING_CFG_EN = 1) ∧
    (∃ (d : Dev) (d1 : Dev) (r : Fin 64) (v : Word) (n : Nat), d1 = d.plainWrite (R.HOST_RING_CFG r) v ∧ d.b (R.HOST_RING_CFG r) F.HOST_RING_CFG_EN = true ∧ fld (d1.rd (R.HOST_RING_CFG r)) F.HOST_RING_CFG_EN = 0 ∧ (d1.ring r).state ≠ .error) ∧
    (∃ (d : Dev) (r : Fin 64) (v : Word), (v - d.rd (R.HOST_RING_DHEAD r)).toNat ≤ 2 ^ (d.ring r).dlog) ∧
    (∃ (d : Dev) (r : Fin 64) (v : Word), 2 ^ (d.ring r).dlog < (v - d.rd (R.HOST_RING_DHEAD r)).toNat) ∧
    (∃ (d : Dev) (r : Fin 64) (v : Word), 0 ≤ (d.rd (R.HOST_RING_CSEQ r) - v).toInt) ∧
    (∃ (d : Dev) (r : Fin 64) (v : Word), (d.rd (R.HOST_RING_CSEQ r) - v).toInt < 0) ∧
    (∃ (d : Dev) (r : Fin 64) (n : Nat), (d.ring r).state = .run ∧ (d.ring r).piece = none ∧ (d.ring r).rest = none) ∧
    (∃ (d : Dev) (r : Fin 64) (n : Nat), (d.ring r).state = .off) ∧
    (∃ (d : Dev) (r : Fin 64) (a : Nat) (t : Nat) (n : Nat) (tg : Nat), (d.ring r).state = .run ∧ (d.ring r).unbegun.length < 2 ∧ d.delivers = true ∧ (d.ring r).fetching = 0 ∧ (d.rd (R.HOST_RING_DTAIL r) - BitVec.ofNat 32 (d.ring r).fetched).toNat ≠ 0 ∧ n = min (min 8 (d.rd (R.HOST_RING_DTAIL r) - BitVec.ofNat 32 (d.ring r).fetched).toNat) (2 ^ (d.ring r).dlog - (d.ring r).fetched % 2 ^ (d.ring r).dlog) ∧ a = (d.ring r).dbase + 32 * ((d.ring r).fetched % 2 ^ (d.ring r).dlog) ∧ d.xlate a false = some t ∧ d.freeTag = some tg) ∧
    (∃ (d : Dev) (d1 : Dev) (r : Fin 64) (bytes : List Byte) (q : OutReq) (n : Nat), d.host.reqs = [q] ∧ q.kind = .desc r n ∧ d1 = (d.modHost fun x => { x with reqs := x.reqs.filter (fun y => y.tag ≠ q.tag) })) ∧
    (∃ (d : Dev) (r : Fin 64) (p : Parcel), (d.ring r).piece = none ∧ d.delivers = true ∧ (d.ring r).state = .run ∧ (d.ring r).rest = none ∧ d.headRaw r = none ∧ d.headStaged r = some p ∧ d.cropBefore p = false ∧ (d.place r p 0 0).1 = true) ∧
    (∃ (d : Dev) (r : Fin 64) (p : Parcel) (pos : Nat) (no : Nat), (d.ring r).piece = none ∧ d.delivers = true ∧ (d.ring r).state = .run ∧ (d.ring r).rest = some (p, pos, no) ∧ (d.place r p pos no).1 = true) ∧
    (∃ (d : Dev) (d1 : Dev) (d2 : Dev) (r : Fin 64) (p : Piece) (b : Desc) (used : Nat), (d.ring r).piece = some p ∧ (d.ring r).buf = some (b, used) ∧ d.canRequest = true ∧ (d.ring r).state ≠ .error ∧ d.cqFree r ≠ 0 ∧ d.b (R.HOST_RING_CFG r) F.HOST_RING_CFG_PACK = false ∧ p.pos + p.len = p.parcel.bytes.length ∧ p.parcel.kind = .snag ∧ d.hostWrite (b.addr + p.offset) (d.b (R.HOST_RING_CFG r) F.HOST_RING_CFG_RO) ((p.parcel.bytes.drop p.pos).take p.len) = some d1 ∧ d1.complete r (pieceCqe b p p.len 0 true true) = some d2) ∧
    (∃ (d : Dev) (r : Fin 64), ((d.cqFree r = 0 ∨ d.canRequest = false))) ∧
    (∃ (d : Dev) (p : Parcel), d.host.offers = [p] ∧ d.ringDiscards p.ring = false ∧ d.stageRoom p = true ∧ p.kind = .snag) ∧
    (∃ (d : Dev) (p : Parcel), d.host.offers = [p] ∧ d.ringDiscards p.ring = true) ∧
    (∃ (d : Dev) (n : Fin 48) (p : Parcel), d.eventParcel n = some p ∧ d.b R.HOST_DLV_CFG F.HOST_DLV_CFG_EVT_EN = true ∧ d.ringDiscards p.ring = false ∧ d.stageRoom p = true) ∧
    (∃ (d : Dev) (r : Fin 64) (t : Nat), (d.ring r).oldest = some t ∧ fld (d.rd (R.HOST_RING_IRQ r)) F.HOST_RING_IRQ_EN = 1 ∧ fld (d.rd (R.HOST_RING_IRQ r)) F.HOST_RING_IRQ_TIME ≠ 0 ∧ t + fld (d.rd (R.HOST_RING_IRQ r)) F.HOST_RING_IRQ_TIME * 1000 ≤ d.now) ∧
    (∃ (d : Dev) (r : Fin 64), (d.ring r).oldest = none) :=
  ⟨⟨({ Dev.init with host := { HostSt.init with cfg := { CfgSpace.init with atsEn := true }, l0 := true, bme := true } }), (.ring 63), (0), (0), (true), (by decide +kernel), (by decide +kernel), (by decide +kernel), (by decide +kernel), (by decide +kernel)⟩,
   ⟨({ Dev.init with host := { HostSt.init with invals := List.replicate 31 (0, []) } }), (31), (0), (4096), (by decide +kernel), (by decide +kernel)⟩,
   ⟨({ Dev.init with host := { HostSt.init with invals := [(31, [5])] } }), (31), ((31, [5])), (by decide +kernel), (by decide +kernel)⟩,
   ⟨({ Dev.init with host := { HostSt.init with invals := [(31, [5])], reqs := [{ tag := 5, kind := .desc 63 8, addr := 0, len := 256, sent := 0 }] } }), (31), ((31, [5])), (by decide +kernel), (by decide +kernel)⟩,
   ⟨({ Dev.init with regs := [(R.HOST_RING_CFG 63, 0)] }), _, (63), (0x80000000), (rfl), (by decide +kernel), (by decide +kernel)⟩,
   ⟨({ Dev.init with regs := [(R.HOST_RING_CFG 63, 0x80000000)], host := { HostSt.init with rings := [(63, { Ring.init with state := .run })] } }), _, (63), (0), (0), (rfl), (by decide +kernel), (by decide +kernel), (by decide +kernel)⟩,
   ⟨(Dev.init), (63), (16), (by decide +kernel)⟩,
   ⟨(Dev.init), (63), (17), (by decide +kernel)⟩,
   ⟨({ Dev.init with regs := [(R.HOST_RING_CSEQ 63, 5)] }), (63), (5), (by decide +kernel)⟩,
   ⟨({ Dev.init with regs := [(R.HOST_RING_CSEQ 63, 5)] }), (63), (6), (by decide +kernel)⟩,
   ⟨({ Dev.init with host := { HostSt.init with rings := [(63, { Ring.init with state := .run })] } }), (63), (0), (by decide +kernel), (by decide +kernel), (by decide +kernel)⟩,
   ⟨(Dev.init), (63), (0), (by decide +kernel)⟩,
   ⟨({ Dev.init with regs := [(R.HOST_RING_DTAIL 63, 9)], host := { HostSt.init with rings := [(63, { Ring.init with state := .run, dlog := 3, fetched := 1, unbegun := [{ addr := 0, len := 4096, cookie := 0, idx := 0 }] })], l0 := true, bme := true } }), (63), _, _, _, (0), (by decide +kernel), (by decide +kernel), (by decide +kernel), (by decide +kernel), (by decide +kernel), (rfl), (rfl), (rfl), (by decide +kernel)⟩,
   ⟨({ Dev.init with host := { HostSt.init with reqs := [{ tag := 5, kind := .desc 63 8, addr := 0, len := 256, sent := 0 }] } }), _, (63), (zeros 256), ({ tag := 5, kind := .desc 63 8, addr := 0, len := 256, sent := 0 }), (8), (by decide +kernel), (by decide +kernel), (rfl)⟩,
   ⟨({ Dev.init with host := { HostSt.init with rings := [(63, { Ring.init with state := .run, buf := some ({ addr := 0, len := 64, cookie := 0, idx := 0 }, 0) })], staged := [{ kind := .snag, ring := 63, cam := 0, seq := 0, bytes := zeros 64, number := 0, waited := false, carriage := 0, output := 0 }], l0 := true, bme := true } }), (63), ({ kind := .snag, ring := 63, cam := 0, seq := 0, bytes := zeros 64, number := 0, waited := false, carriage := 0, output := 0 }), (by decide +kernel), (by decide +kernel), (by decide +kernel), (by decide +kernel), (by decide +kernel), (by decide +kernel), (by decide +kernel), (by decide +kernel)⟩,
   ⟨({ Dev.init with host := { HostSt.init with rings := [(63, { Ring.init with state := .run, buf := some ({ addr := 0, len := 64, cookie := 0, idx := 0 }, 0), rest := some ({ kind := .snag, ring := 63, cam := 0, seq := 0, bytes := zeros 64, number := 0, waited := false, carriage := 0, output := 0 }, 0, 0) })], l0 := true, bme := true } }), (63), ({ kind := .snag, ring := 63, cam := 0, seq := 0, bytes := zeros 64, number := 0, waited := false, carriage := 0, output := 0 }), (0), (0), (by decide +kernel), (by decide +kernel), (by decide +kernel), (by decide +kernel), (by decide +kernel)⟩,
   ⟨({ Dev.init with host := { HostSt.init with rings := [(63, { Ring.init with state := .run, buf := some ({ addr := 0, len := 64, cookie := 0, idx := 0 }, 0), piece := some { parcel := { kind := .snag, ring := 63, cam := 0, seq := 0, bytes := zeros 64, number := 0, waited := false, carriage := 0, output := 0 }, pos := 0, len := 64, offset := 0, no := 0 } })], l0 := true, bme := true } }), _, _, (63), ({ parcel := { kind := .snag, ring := 63, cam := 0, seq := 0, bytes := zeros 64, number := 0, waited := false, carriage := 0, output := 0 }, pos := 0, len := 64, offset := 0, no := 0 }), ({ addr := 0, len := 64, cookie := 0, idx := 0 }), (0), (by decide +kernel), (by decide +kernel), (by decide +kernel), (by decide +kernel), (by decide +kernel), (by decide +kernel), (by decide +kernel), (by decide +kernel), (rfl), (rfl)⟩,
   ⟨(Dev.init), (63), (Or.inr rfl)⟩,
   ⟨({ Dev.init with host := { HostSt.init with offers := [{ kind := .snag, ring := 63, cam := 0, seq := 0, bytes := zeros 64, number := 0, waited := false, carriage := 0, output := 0 }] } }), ({ kind := .snag, ring := 63, cam := 0, seq := 0, bytes := zeros 64, number := 0, waited := false, carriage := 0, output := 0 }), (by decide +kernel), (by decide +kernel), (by decide +kernel), (by decide +kernel)⟩,
   ⟨({ Dev.init with regs := [(R.HOST_RING_CFG 63, 0x10000000)], host := { HostSt.init with offers := [{ kind := .snag, ring := 63, cam := 0, seq := 0, bytes := zeros 64, number := 0, waited := false, carriage := 0, output := 0 }] } }), ({ kind := .snag, ring := 63, cam := 0, seq := 0, bytes := zeros 64, number := 0, waited := false, carriage := 0, output := 0 }), (by decide +kernel), (by decide +kernel)⟩,
   ⟨({ Dev.init with regs := [(R.HOST_DLV_CFG, 0xFFFFFFFF)], cll := { CllSt.init with conns := [(47, { Conn.init with events := [(5, [1])] })] } }), (47), _, (rfl), (by decide +kernel), (by decide +kernel), (by decide +kernel)⟩,
   ⟨({ Dev.init with regs := [(R.HOST_RING_IRQ 63, 0xFFFFFFFF)], host := { HostSt.init with rings := [(63, { Ring.init with oldest := some 0 })] }, now := 100000000000 }), (63), (0), (by decide +kernel), (by decide +kernel), (by decide +kernel), (by decide +kernel)⟩,
   ⟨(Dev.init), (63), (by decide +kernel)⟩⟩

/-- The hypotheses of HostLinkAndFunction are met: clause by clause. -/
theorem test_hyps_HostLinkAndFunction :
    (∃ (d : Dev) (i : CfgItem), d.host.perst = false ∧ d.host.dlUp = true ∧ d.host.flrBusy = false) ∧
    (∃ (d : Dev) (i : CfgItem), d.host.perst = false ∧ d.host.dlUp = true ∧ d.host.flrBusy = true) ∧
    (∃ (d : Dev) (v : Word), fld v ⟨0, 1⟩ = 1 ∧ d.host.winPend = none) ∧
    (∃ (d : Dev) (tag : Nat) (co : Completion) (hdr : List Byte), d.host.reqs.find? (fun q => q.tag == tag) = none) ∧
    (∃ (d : Dev) (tag : Nat) (q : OutReq) (r : Nat) (n : Nat) (bytes : List Byte) (hdr : List Byte), d.host.reqs.find? (fun q => q.tag == tag) = some q ∧ q.kind = .desc r n ∧ bytes.length = q.len) ∧
    (∃ (d : Dev) (tag : Nat) (q : OutReq), d.host.reqs.find? (fun q => q.tag == tag) = some q ∧ d.host.cfg.ctoOff = false ∧ q.sent + ctoNs d.host.cfg.ctoSub ≤ d.now) ∧
    (∃ (d : Dev) (tag : Nat) (q : OutReq), d.host.reqs.find? (fun q => q.tag == tag) = some q ∧ d.now < q.sent + ctoNs d.host.cfg.ctoSub) ∧
    (∃ (d : Dev) (v : Fin 256) (g : Nat → Word), g = (fun i => if i % 4 = 3 then 1 else 0)) ∧
    (∃ (d : Dev) (rate : Fin 7) (width : Fin 17) (flit : Bool), d.host.perst = false ∧ d.host.l0 = true) ∧
    (∃ (d : Dev) (rate : Fin 7) (width : Fin 17) (flit : Bool), d.host.perst = false ∧ d.host.l0 = false) ∧
    (∃ (d : Dev), d.host.dlUp = true ∧ ((d.host.ltssm = true ∨ d.host.l1 = true))) ∧
    (∃ (d : Dev), d.due .recovery = true ∧ d.host.l0 = true) ∧
    (∃ (d : Dev), d.due .recovery = false) ∧
    (∃ (d : Dev), d.host.dlUp = true) ∧
    (∃ (d : Dev), d.host.dlUp = false) ∧
    (∃ (d : Dev) (d1 : Dev), d.host.perst = false ∧ d.host.dlUp = true ∧ d.host.flrBusy = false ∧ d.host.reqs = [] ∧ d1 = (d.modHost fun x => { x with reqs := [], flrBusy := true })) ∧
    (∃ (d : Dev), d.host.perst = false ∧ d.host.dlUp = true ∧ d.host.flrBusy = false ∧ d.host.d0 = true) ∧
    (∃ (d : Dev), d.host.perst = false ∧ d.host.dlUp = true ∧ d.host.flrBusy = false ∧ d.host.d0 = false) ∧
    (∃ (d : Dev), d.host.perst = false) ∧
    (∃ (d : Dev), d.host.perst = true) :=
  ⟨⟨({ Dev.init with host := { HostSt.init with perst := false, dlUp := true } }), (.maxPayload 512), (by decide +kernel), (by decide +kernel), (by decide +kernel)⟩,
   ⟨({ Dev.init with host := { HostSt.init with flrBusy := true, perst := false, dlUp := true } }), (.maxPayload 512), (by decide +kernel), (by decide +kernel), (by decide +kernel)⟩,
   ⟨(Dev.init), (1), (by decide +kernel), (by decide +kernel)⟩,
   ⟨(Dev.init), (255), (.failed), ([]), (by decide +kernel)⟩,
   ⟨({ Dev.init with host := { HostSt.init with reqs := [{ tag := 255, kind := .desc 63 8, addr := 0, len := 256, sent := 0 }] } }), (255), ({ tag := 255, kind := .desc 63 8, addr := 0, len := 256, sent := 0 }), (63), (8), (zeros 256), ([]), (by decide +kernel), (by decide +kernel), (by decide +kernel)⟩,
   ⟨({ Dev.init with host := { HostSt.init with reqs := [{ tag := 255, kind := .desc 63 8, addr := 0, len := 256, sent := 0 }] }, now := 50000000 }), (255), ({ tag := 255, kind := .desc 63 8, addr := 0, len := 256, sent := 0 }), (by decide +kernel), (by decide +kernel), (by decide +kernel)⟩,
   ⟨({ Dev.init with host := { HostSt.init with reqs := [{ tag := 255, kind := .desc 63 8, addr := 0, len := 256, sent := 0 }] }, now := 49999999 }), (255), ({ tag := 255, kind := .desc 63 8, addr := 0, len := 256, sent := 0 }), (by decide +kernel), (by decide +kernel)⟩,
   ⟨(Dev.init), (255), _, (rfl)⟩,
   ⟨({ Dev.init with host := { HostSt.init with perst := false, l0 := true } }), (6), (16), (true), (by decide +kernel), (by decide +kernel)⟩,
   ⟨({ Dev.init with host := { HostSt.init with perst := false } }), (6), (16), (true), (by decide +kernel), (by decide +kernel)⟩,
   ⟨({ Dev.init with host := { HostSt.init with dlUp := true, l1 := true } }), (by decide +kernel), (Or.inr rfl)⟩,
   ⟨({ Dev.init with host := { HostSt.init with l0 := true }, timers := [(.recovery, 0)] }), (by decide +kernel), (by decide +kernel)⟩,
   ⟨(Dev.init), (by decide +kernel)⟩,
   ⟨({ Dev.init with host := { HostSt.init with dlUp := true } }), (by decide +kernel)⟩,
   ⟨(Dev.init), (by decide +kernel)⟩,
   ⟨({ Dev.init with host := { HostSt.init with perst := false, dlUp := true } }), _, (by decide +kernel), (by decide +kernel), (by decide +kernel), (by decide +kernel), (rfl)⟩,
   ⟨({ Dev.init with host := { HostSt.init with perst := false, dlUp := true } }), (by decide +kernel), (by decide +kernel), (by decide +kernel), (by decide +kernel)⟩,
   ⟨({ Dev.init with host := { HostSt.init with d0 := false, perst := false, dlUp := true } }), (by decide +kernel), (by decide +kernel), (by decide +kernel), (by decide +kernel)⟩,
   ⟨({ Dev.init with host := { HostSt.init with perst := false } }), (by decide +kernel)⟩,
   ⟨(Dev.init), (by decide +kernel)⟩⟩

/-- The hypotheses of FabricPortsTrainAndReplay are met: clause by clause. -/
theorem test_hyps_FabricPortsTrainAndReplay :
    (∃ (d : Dev) (d1 : Dev) (v : Word), d1 = d.plainWrite R.FAB_CFG v ∧ d.b R.FAB_CFG F.FAB_CFG_EN = false ∧ d1.b R.FAB_CFG F.FAB_CFG_EN = true) ∧
    (∃ (d : Dev) (d1 : Dev) (v : Word), d1 = d.plainWrite R.FAB_CFG v ∧ d.b R.FAB_CFG F.FAB_CFG_EN = d1.b R.FAB_CFG F.FAB_CFG_EN) ∧
    (∃ (d : Dev) (d1 : Dev) (p : Fin 4) (v : Word), d1 = d.plainWrite (R.FAB_PORT_CFG p) v ∧ d1.b R.FAB_CFG F.FAB_CFG_EN = true ∧ d1.b (R.FAB_PORT_CFG p) F.FAB_PORT_CFG_EN = true ∧ d1.pwr.state = .active ∧ (d1.fport p).state = .off) ∧
    (∃ (d : Dev) (d1 : Dev) (p : Fin 4) (v : Word), d1 = d.plainWrite (R.FAB_PORT_CFG p) v ∧ d1.b (R.FAB_PORT_CFG p) F.FAB_PORT_CFG_EN = false ∧ (d1.fport p).state ≠ .off) ∧
    (∃ (d : Dev) (p : Fin 4) (x : FabPort), d.fport p = x ∧ x.state = .train ∧ x.phase < 2) ∧
    (∃ (d : Dev) (p : Fin 4) (x : FabPort), d.fport p = x ∧ x.state = .train ∧ 3 ≤ x.phase ∧ d.fab.state ≠ .alone) ∧
    (∃ (d : Dev) (p : Fin 4) (x : FabPort), d.fport p = x ∧ x.state = .train ∧ 3 ≤ x.phase ∧ d.fab.state = .alone) ∧
    (∃ (d : Dev) (p : Fin 4) (x : FabPort), d.fport p = x ∧ x.state = .train ∧ x.since + 100000000 ≤ d.now) ∧
    (∃ (d : Dev) (p : Fin 4) (x : FabPort), d.fport p = x ∧ d.now < x.since + 100000000) ∧
    (∃ (d : Dev) (p : Fin 4) (x : FabPort), d.fport p = x ∧ x.state = .down ∧ x.since + 100000000 * 2 ^ x.back ≤ d.now) ∧
    (∃ (d : Dev) (p : Fin 4), (d.fport p).state = .up) ∧
    (∃ (d : Dev) (p : Fin 4), (d.fport p).state ≠ .up) ∧
    (∃ (d : Dev) (p : Fin 4) (lane : Fin 4) (x : FabPort) (t : Nat × Nat) (pre : Fin 4) (post : Fin 4), d.fport p = x ∧ x.state = .train ∧ x.phase = 1 ∧ x.taps.getD lane (0, 0) = t) ∧
    (∃ (d : Dev) (p : Fin 4) (lane : Fin 4) (x : FabPort) (pre : Fin 4) (post : Fin 4), d.fport p = x ∧ x.state = .train ∧ x.phase = 1) ∧
    (∃ (d : Dev) (p : Fin 4) (bip : Nat) (a : Int) (l : Int), (d.fport p).state = .up ∧ ((d.fport p).markers + 1) % 4 ≠ 0) ∧
    (∃ (d : Dev) (p : Fin 4) (bip : Nat) (a : Int) (l : Int), (d.fport p).state = .up) ∧
    (∃ (d : Dev) (p : Fin 4) (x : FabPort) (ack : Nat) (cr : List Nat), d.fport p = x ∧ x.state = .up ∧ x.unacked = [] ∧ x.queue = []) ∧
    (∃ (d : Dev) (p : Fin 4) (x : FabPort) (ack : Nat) (cr : List Nat), d.fport p = x ∧ x.state = .up ∧ x.unacked = [] ∧ x.queue = [] ∧ x.replays < 7) ∧
    (∃ (d : Dev) (p : Fin 4) (x : FabPort) (ack : Nat) (nak : Bool) (cr : List Nat), d.fport p = x ∧ x.state ≠ .up) :=
  ⟨⟨({ Dev.init with regs := [(R.FAB_CFG, 0)] }), _, (0x80000000), (rfl), (by decide +kernel), (by decide +kernel)⟩,
   ⟨({ Dev.init with regs := [(R.FAB_CFG, 0)] }), _, (0x7FFFFFFF), (rfl), (by decide +kernel)⟩,
   ⟨({ Dev.init with regs := [(R.FAB_CFG, 0x80000000), (R.FAB_PORT_CFG 3, 0)] }), _, (3), (0x80000000), (rfl), (by decide +kernel), (by decide +kernel), (by decide +kernel), (by decide +kernel)⟩,
   ⟨({ Dev.init with regs := [(R.FAB_PORT_CFG 3, 0x80000000)], fab := { FabSt.init with ports := [(3, { FabPort.init with state := .up })] } }), _, (3), (0), (rfl), (by decide +kernel), (by decide +kernel)⟩,
   ⟨({ Dev.init with fab := { FabSt.init with ports := [(3, { FabPort.init with state := .train, phase := 1 })] } }), (3), _, (rfl), (by decide +kernel), (by decide +kernel)⟩,
   ⟨({ Dev.init with fab := { FabSt.init with ports := [(3, { FabPort.init with state := .train, phase := 3 })], state := .member } }), (3), _, (rfl), (by decide +kernel), (by decide +kernel), (by decide +kernel)⟩,
   ⟨({ Dev.init with fab := { FabSt.init with ports := [(3, { FabPort.init with state := .train, phase := 3 })], state := .alone } }), (3), _, (rfl), (by decide +kernel), (by decide +kernel), (by decide +kernel)⟩,
   ⟨({ Dev.init with fab := { FabSt.init with ports := [(3, { FabPort.init with state := .train })] }, now := 100000000 }), (3), _, (rfl), (by decide +kernel), (by decide +kernel)⟩,
   ⟨({ Dev.init with fab := { FabSt.init with ports := [(3, { FabPort.init with state := .train })] }, now := 99999999 }), (3), _, (rfl), (by decide +kernel)⟩,
   ⟨({ Dev.init with fab := { FabSt.init with ports := [(3, { FabPort.init with state := .down, back := 3 })] }, now := 800000000 }), (3), _, (rfl), (by decide +kernel), (by decide +kernel)⟩,
   ⟨({ Dev.init with fab := { FabSt.init with ports := [(3, { FabPort.init with state := .up })] } }), (3), (by decide +kernel)⟩,
   ⟨(Dev.init), (3), (by decide +kernel)⟩,
   ⟨({ Dev.init with fab := { FabSt.init with ports := [(3, { FabPort.init with state := .train, phase := 1 })] } }), (3), (3), _, _, (3), (3), (rfl), (by decide +kernel), (by decide +kernel), (rfl)⟩,
   ⟨({ Dev.init with fab := { FabSt.init with ports := [(3, { FabPort.init with state := .train, phase := 1 })] } }), (3), (3), _, (3), (3), (rfl), (by decide +kernel), (by decide +kernel)⟩,
   ⟨({ Dev.init with fab := { FabSt.init with ports := [(3, { FabPort.init with state := .up, markers := 2 })] } }), (3), (8), (0), (0), (by decide +kernel), (by decide +kernel)⟩,
   ⟨({ Dev.init with fab := { FabSt.init with ports := [(3, { FabPort.init with state := .up })] } }), (3), (8), (0), (0), (by decide +kernel)⟩,
   ⟨({ Dev.init with fab := { FabSt.init with ports := [(3, { FabPort.init with state := .up })] } }), (3), _, (4095), ([0, 0, 0, 0]), (rfl), (by decide +kernel), (by decide +kernel), (by decide +kernel)⟩,
   ⟨({ Dev.init with fab := { FabSt.init with ports := [(3, { FabPort.init with state := .up, replays := 6 })] } }), (3), _, (4095), ([0, 0, 0, 0]), (rfl), (by decide +kernel), (by decide +kernel), (by decide +kernel), (by decide +kernel)⟩,
   ⟨({ Dev.init with fab := { FabSt.init with ports := [(3, { FabPort.init with state := .train })] } }), (3), _, (4095), (true), ([0, 0, 0, 0]), (rfl), (by decide +kernel)⟩⟩

/-- The hypotheses of FabricMembersAgree are met: clause by clause. -/
theorem test_hyps_FabricMembersAgree :
    (∃ (d : Dev) (p : Fin 4) (h : FabHello), (d.fport p).state = .up ∧ d.fab.heldRoot = none ∧ d.fab.heldSink = none) ∧
    (∃ (d : Dev) (p : Fin 4) (h : FabHello) (e : Nat), (d.fport p).state = .up ∧ d.fab.heldSink = some e ∧ epochNewer h.sinkEp e = true) ∧
    (∃ (d : Dev) (p : Fin 4) (src : Nat) (hops : Nat) (r : FabRoot), (d.fabArrive p).1 = true ∧ d.fab.state ≠ .off ∧ r.serial ≠ serial ∧ (d.fabArrive p).2.fab.root = false ∧ (d.fabArrive p).2.fab.rootAddr = none) ∧
    (∃ (d : Dev) (p : Fin 4) (src : Nat) (hops : Nat) (r : FabRoot), r.serial = serial) ∧
    (∃ (d : Dev) (p : Fin 4) (src : Nat) (hops : Nat) (k : FabClaim), (d.fabArrive p).1 = true ∧ d.fab.root = false ∧ d.fab.claims.contains k = false) ∧
    (∃ (d : Dev) (p : Fin 4) (src : Nat) (hops : Nat) (x : Nat) (a : FabAssign), (d.fabArrive p).1 = true ∧ a.serial = serial ∧ a.conflict = false ∧ a.addr = some x) ∧
    (∃ (d : Dev) (p : Fin 4) (src : Nat) (hops : Nat) (a : FabAssign), (d.fabArrive p).1 = true ∧ a.serial = serial ∧ a.conflict = false ∧ a.addr = none) ∧
    (∃ (d : Dev) (p : Fin 4) (src : Nat) (hops : Nat) (dst : Nat) (k : FabKeepalive), (d.fabArrive p).1 = true ∧ d.fab.root = false) ∧
    (∃ (d : Dev) (d1 : Dev) (p : Fin 4) (src : Nat) (hops : Nat) (dst : Nat) (a : Nat) (k : FabKeepalive) (m : FabMember) (n : FabMember), d.fabArrive p = (true, d1) ∧ d.fab.root = true ∧ d1.fab.table.find? (fun m => m.serial == k.serial) = some m ∧ m.links = k.links ∧ m.dead = false ∧ d1.fab.sinkAddr = some a ∧ n = { m with sinkPrio := k.sinkPrio, spare := k.spare, dead := false, lastAt := d.now, links := k.links }) ∧
    (∃ (d : Dev) (p : Fin 4) (t2 : Int) (t3 : Int), (d.fabArrive p).1 = true ∧ d.fab.upPort = p) ∧
    (∃ (d : Dev) (p : Fin 4) (src : Nat) (hops : Nat) (dst : Nat), (d.fabArrive p).1 = true ∧ d.fab.addr = some dst) ∧
    (∃ (d : Dev) (p : Fin 4) (src : Nat) (hops : Nat) (dst : Nat), (d.fabArrive p).1 = true ∧ d.fab.addr ≠ some dst) ∧
    (∃ (d : Dev), d.fab.root = true ∧ d.fab.table.any (fun m => m.serial == serial && m.links == (d.selfMember d.fabAddr).links) = true) ∧
    (∃ (d : Dev), d.fab.root = false) ∧
    (∃ (d : Dev) (a : Nat) (k : FabKeepalive), d.fab.root = false ∧ d.fab.rootAddr = some a ∧ d.fab.state ≠ .off ∧ d.fab.state ≠ .alone ∧ k = { serial := serial, addr := d.fab.addr, pref := (d.hello d.fab.upPort).pref, sinkPrio := (d.hello d.fab.upPort).sinkPrio, spare := d.fab.state == .spare, links := (d.selfMember 0).links }) ∧
    (∃ (d : Dev), d.fab.state = .joining ∧ d.fab.rootAddr = none ∧ d.fab.stateAt + 3000000 ≤ d.now ∧ d.f R.FAB_CFG F.FAB_CFG_ROOT_PRIO ≠ 0 ∧ d.fab.claimAt = none) ∧
    (∃ (d : Dev), d.now < d.fab.stateAt + 3000000) ∧
    (∃ (d : Dev) (t : Nat), d.fab.claimAt = some t ∧ t + 3000000 ≤ d.now ∧ ((∃ k ∈ d.fab.claims, k.prio ≠ 0 ∧ (k.prio < d.ownClaim.prio ∨ k.prio = d.ownClaim.prio ∧ k.serial < serial)))) ∧
    (∃ (d : Dev) (t : Nat), d.fab.claimAt = some t ∧ t + 3000000 ≤ d.now ∧ d.fab.claims = [d.ownClaim] ∧ epochNewer d.ownClaim.rootEp d.fab.rootEp = false) ∧
    (∃ (d : Dev) (t : Nat), d.fab.state ≠ .off ∧ d.fab.state ≠ .alone ∧ d.fab.lostAt = some t ∧ t + d.rootTmo ≤ d.now) ∧
    (∃ (d : Dev), d.fab.state = .member ∧ d.fab.root = false ∧ d.fab.lostAt = none ∧ d.fab.rootAt + d.rootTmo ≤ d.now) ∧
    (∃ (d : Dev) (a : Fin 64) (m : FabMember), d.fab.root = true ∧ d.fab.table.find? (fun m => m.addr == a.val && !m.dead && m.serial != serial) = some m ∧ m.lastAt + d.fabTmo F.FAB_TMO_MEMBER_TMO * 1000000 ≤ d.now ∧ d.fab.sinkAddr ≠ some a.val) ∧
    (∃ (d : Dev) (t : Nat) (r : FabReq), d.fab.reqs.find? (fun r => r.txid == t) = some r ∧ r.sent + d.reqTmo ≤ d.now) ∧
    (∃ (d : Dev) (t1 : Int) (t2 : Int) (t3 : Int) (t4 : Int) (del : Int) (ofs : Int), d.fab.stamps = some (t2, t3) ∧ d.fab.root = false ∧ d.fab.state = .member ∧ del = ((t4 - t1) - (t3 - t2) + ((d.rd (R.FAB_PORT_CFG d.fab.upPort)).extractLsb' 0 16).toInt) / 2 ∧ ofs = t3 + del - t4 ∧ d.fab.exchanged = true ∧ ofs.natAbs ≤ 1000000) ∧
    (∃ (d : Dev) (t1 : Int) (t4 : Int), d.fab.stamps = none) ∧
    (∃ (d : Dev), d.f R.FAB_TIME_CFG F.FAB_TIME_CFG_PULSE_EN = 1 ∧ d.ts % (max 1 (d.f R.FAB_TIME_CFG F.FAB_TIME_CFG_PERIOD) * 1000) = 0 ∧ d.fab.locked = true) ∧
    (∃ (d : Dev), d.fab.root = false ∧ d.fab.locked = false) ∧
    (∃ (d : Dev), d.fab.state = .spare) ∧
    (∃ (d : Dev), d.fab.state ≠ .spare) ∧
    (∃ (d : Dev) (d1 : Dev) (a : Act), d.activate Task.fabTimeCap = (some a, d1)) :=
  ⟨⟨({ Dev.init with fab := { FabSt.init with ports := [(3, { FabPort.init with state := .up })] } }), (3), ({ serial := 1, rootPrio := 0, sinkPrio := 0, pref := none, addr := none, rootEp := 0, sinkEp := 32767, root := false, sink := true, port := 3 }), (by decide +kernel), (by decide +kernel), (by decide +kernel)⟩,
   ⟨({ Dev.init with fab := { FabSt.init with ports := [(3, { FabPort.init with state := .up })], heldSink := some 0 } }), (3), ({ serial := 1, rootPrio := 0, sinkPrio := 0, pref := none, addr := none, rootEp := 0, sinkEp := 32767, root := false, sink := true, port := 3 }), (0), (by decide +kernel), (by decide +kernel), (by decide +kernel)⟩,
   ⟨({ Dev.init with fab := { FabSt.init with ports := [(3, { FabPort.init with state := .up })], state := .joining } }), (3), (63), (15), ({ serial := serial + 1, prio := 1, rootEp := 0, sinkEp := 0, sinkAddr := none, members := 0 }), (by decide +kernel), (by decide +kernel), (Nat.succ_ne_self serial), (by decide +kernel), (by decide +kernel)⟩,
   ⟨(Dev.init), (3), (63), (0), ({ serial := serial, prio := 1, rootEp := 0, sinkEp := 0, sinkAddr := none, members := 0 }), (rfl)⟩,
   ⟨({ Dev.init with fab := { FabSt.init with ports := [(3, { FabPort.init with state := .up })] } }), (3), (63), (15), ({ serial := serial, prio := 1, rootEp := 0 }), (by decide +kernel), (by decide +kernel), (by decide +kernel)⟩,
   ⟨({ Dev.init with fab := { FabSt.init with ports := [(3, { FabPort.init with state := .up })] } }), (3), (63), (0), (63), ({ serial := serial, addr := some 63, conflict := false, routes := [], tree := [] }), (by decide +kernel), (rfl), (by decide +kernel), (by decide +kernel)⟩,
   ⟨({ Dev.init with fab := { FabSt.init with ports := [(3, { FabPort.init with state := .up })] } }), (3), (63), (0), ({ serial := serial, addr := none, conflict := false, routes := [], tree := [] }), (by decide +kernel), (rfl), (by decide +kernel), (by decide +kernel)⟩,
   ⟨({ Dev.init with fab := { FabSt.init with ports := [(3, { FabPort.init with state := .up })] } }), (3), (63), (0), (0), ({ serial := serial, addr := some 63, pref := none, sinkPrio := 0, spare := false, links := [] }), (by decide +kernel), (by decide +kernel)⟩,
   ⟨({ Dev.init with fab := { FabSt.init with ports := [(3, { FabPort.init with state := .up })], root := true, table := [{ serial := serial, addr := 63, sinkPrio := 0, spare := false, dead := false, lastAt := 0, links := [] }], sinkAddr := some 0 } }), _, (3), (63), (0), (0), (0), ({ serial := serial, addr := some 63, pref := none, sinkPrio := 0, spare := false, links := [] }), ({ serial := serial, addr := 63, sinkPrio := 0, spare := false, dead := false, lastAt := 0, links := [] }), _, (rfl), (by decide +kernel), (wFind _ _ rfl), (rfl), (by decide +kernel), (by decide +kernel), (rfl)⟩,
   ⟨({ Dev.init with fab := { FabSt.init with ports := [(3, { FabPort.init with state := .up })], upPort := 3 } }), (3), (0), (0), (by decide +kernel), (by decide +kernel)⟩,
   ⟨({ Dev.init with fab := { FabSt.init with ports := [(3, { FabPort.init with state := .up })], addr := some 63 } }), (3), (0), (15), (63), (by decide +kernel), (by decide +kernel)⟩,
   ⟨({ Dev.init with fab := { FabSt.init with ports := [(3, { FabPort.init with state := .up })], addr := some 63 } }), (3), (0), (15), (62), (by decide +kernel), (by decide +kernel)⟩,
   ⟨({ Dev.init with fab := { FabSt.init with ports := [(3, { FabPort.init with state := .up })], root := true, table := [{ serial := serial, addr := 0, sinkPrio := 0, spare := false, dead := false, lastAt := 0, links := [(3, 0, 0)] }] } }), (by decide +kernel), (by simp [Dev.selfMember, Dev.fabAddr]; decide)⟩,
   ⟨(Dev.init), (by decide +kernel)⟩,
   ⟨({ Dev.init with fab := { FabSt.init with ports := [(3, { FabPort.init with state := .up })], state := .member, rootAddr := some 0 } }), (0), _, (by decide +kernel), (by decide +kernel), (by decide +kernel), (by decide +kernel), (rfl)⟩,
   ⟨({ Dev.init with regs := [(R.FAB_CFG, 0xFFFFFFFF)], now := 3000000, fab := { FabSt.init with state := .joining } }), (by decide +kernel), (by decide +kernel), (by decide +kernel), (by decide +kernel), (by decide +kernel)⟩,
   ⟨({ Dev.init with now := 2999999 }), (by decide +kernel)⟩,
   ⟨({ Dev.init with regs := [(R.FAB_CFG, 0xFFFFFFFF)], now := 3000000, fab := { FabSt.init with claimAt := some 0, claims := [{ serial := serial, prio := 1, rootEp := 0 }] } }), (0), (by decide +kernel), (by decide +kernel), _, List.mem_singleton.mpr rfl, by decide, Or.inl (by decide +kernel)⟩,
   ⟨({ Dev.init with regs := [(R.FAB_CFG, 0xFFFFFFFF)], now := 3000000, fab := { FabSt.init with claimAt := some 0, claims := [{ serial := serial, prio := 255, rootEp := 0 }] } }), (0), (by decide +kernel), (by decide +kernel), (rfl), (by decide +kernel)⟩,
   ⟨({ Dev.init with regs := [(R.FAB_TMO, 0xFFFFFFFF)], now := 1000000000000, fab := { FabSt.init with state := .member, lostAt := some 0 } }), (0), (by decide +kernel), (by decide +kernel), (by decide +kernel), (by decide +kernel)⟩,
   ⟨({ Dev.init with regs := [(R.FAB_TMO, 0xFFFFFFFF)], now := 1000000000000, fab := { FabSt.init with state := .member } }), (by decide +kernel), (by decide +kernel), (by decide +kernel), (by decide +kernel)⟩,
   ⟨({ Dev.init with regs := [(R.FAB_TMO, 0xFFFFFFFF)], now := 1000000000000, fab := { FabSt.init with root := true, table := [{ serial := serial + 1, addr := 63, sinkPrio := 0, spare := false, dead := false, lastAt := 0, links := [] }] } }), (63), ({ serial := serial + 1, addr := 63, sinkPrio := 0, spare := false, dead := false, lastAt := 0, links := [] }), (by decide +kernel), (wFind2), (by decide +kernel), (by decide +kernel)⟩,
   ⟨({ Dev.init with regs := [(R.FAB_TMO, 0)], now := 1000, fab := { FabSt.init with reqs := [{ txid := 255, use := .write 15 0 true, len := 4, sent := 0 }] } }), (255), ({ txid := 255, use := .write 15 0 true, len := 4, sent := 0 }), (by decide +kernel), (by decide +kernel)⟩,
   ⟨({ Dev.init with regs := [(R.FAB_PORT_CFG 0, 0)], fab := { FabSt.init with stamps := some (1000500, 1000500), state := .member, exchanged := true } }), (0), (1000500), (1000500), (1000), _, _, (by decide +kernel), (by decide +kernel), (by decide +kernel), (rfl), (rfl), (by decide +kernel), (by decide +kernel)⟩,
   ⟨(Dev.init), (0), (0), (by decide +kernel)⟩,
   ⟨({ Dev.init with regs := [(R.FAB_TIME_CFG, 0xFFFFFFFF)], ts := 0, fab := { FabSt.init with locked := true } }), (by decide +kernel), (by decide +kernel), (by decide +kernel)⟩,
   ⟨(Dev.init), (by decide +kernel), (by decide +kernel)⟩,
   ⟨({ Dev.init with fab := { FabSt.init with state := .spare } }), (by decide +kernel)⟩,
   ⟨(Dev.init), (by decide +kernel)⟩,
   ⟨(wFlight Task.fabTimeCap Dev.init), _, _, (by rfl)⟩⟩

/-- The hypotheses of PeerAndTestAccesses are met: clause by clause. -/
theorem test_hyps_PeerAndTestAccesses :
    (∃ (d : Dev) (d1 : Dev) (p : Fin 4) (q : FabPacket) (da : Nat) (n : Nat) (r : Acc × List Byte × Dev), q.msg = .read da n ∧ d.fabArrive p = (true, d1) ∧ d.fab.addr = some q.dst ∧ d1.fab.rootEp = q.rootEp ∧ q.sink = false ∧ d1.runRead (0x40 + q.src) (d1.servedDa da) n = r ∧ r.1 = .ok) ∧
    (∃ (d : Dev) (d1 : Dev) (p : Fin 4) (q : FabPacket) (da : Nat) (n : Nat), q.msg = .read da n ∧ d.fabArrive p = (true, d1) ∧ d.fab.addr = some q.dst ∧ q.rootEp ≠ d1.fab.rootEp) ∧
    (∃ (d : Dev) (d1 : Dev) (p : Fin 4) (q : FabPacket) (da : Nat) (n : Nat), q.msg = .read da n ∧ d.fabArrive p = (true, d1) ∧ d.fab.addr ≠ some q.dst) ∧
    (∃ (d : Dev) (d1 : Dev) (p : Fin 4) (q : FabPacket) (da : Nat) (bs : List Byte) (r : Acc × Dev), q.msg = .write da bs ∧ d.fabArrive p = (true, d1) ∧ d.fab.addr = some q.dst ∧ d1.fab.rootEp = q.rootEp ∧ q.sink = false ∧ d1.runWrite (0x40 + q.src) (d1.servedDa da) bs = r) ∧
    (∃ (d : Dev) (d1 : Dev) (p : Fin 4) (q : FabPacket) (da : Nat) (bs : List Byte), q.msg = .write da bs ∧ d.fabArrive p = (true, d1) ∧ d.fab.addr = some q.dst ∧ d1.fab.rootEp = q.rootEp ∧ q.sink = true ∧ d1.fab.sink = true ∧ d1.fab.sinkEp = q.sinkEp ∧ d1.outsideSink (d1.servedDa da) bs.length = true) ∧
    (∃ (d : Dev) (d1 : Dev) (p : Fin 4) (q : FabPacket) (da : Nat) (bs : List Byte), q.msg = .write da bs ∧ d.fabArrive p = (true, d1) ∧ d.fab.addr = some q.dst ∧ d1.fab.rootEp = q.rootEp ∧ q.sink = true ∧ d1.fab.sink = false) ∧
    (∃ (d : Dev) (d1 : Dev) (p : Fin 4) (q : FabPacket) (data : List Byte) (r : FabReq), q.msg = .response data ∧ d.fabArrive p = (true, d1) ∧ d.fab.addr = some q.dst ∧ d1.fab.reqs.find? (fun r => r.txid == q.txid) = some r) ∧
    (∃ (d : Dev) (d1 : Dev) (p : Fin 4) (q : FabPacket) (data : List Byte), q.msg = .response data ∧ d.fabArrive p = (true, d1) ∧ d.fab.addr = some q.dst ∧ d1.fab.reqs.find? (fun r => r.txid == q.txid) = none) ∧
    (∃ (d : Dev) (d1 : Dev) (p : Fin 4) (q : FabPacket) (data : List Byte), q.msg = .response data ∧ d.fabArrive p = (false, d1)) ∧
    (∃ (d : Dev) (v : BitVec 100) (n : Nat), d.stw.ir = .access ∧ bitOf v.toNat 99 = true ∧ d.stw.acc.busy = none ∧ v.toNat % 2 ^ 64 % 4 = 0 ∧ daDecode (v.toNat % 2 ^ 64) = .bar n) ∧
    (∃ (d : Dev) (v : BitVec 100), d.stw.ir = .access ∧ bitOf v.toNat 99 = true ∧ d.stw.acc.busy = none ∧ v.toNat % 2 ^ 64 % 4 ≠ 0) ∧
    (∃ (d : Dev) (v : BitVec 100), d.stw.ir ≠ .access) ∧
    (∃ (d : Dev) (r : Acc × Dev), d.stw.acc.busy = some true ∧ d.waitsForSkein d.stw.acc.da = false ∧ d.daWrite 2 d.stw.acc.da (leBytes 4 d.stw.acc.data.toNat) = r) ∧
    (∃ (d : Dev) (b : List Byte) (d1 : Dev), d.stw.acc.busy = some false ∧ d.waitsForSkein d.stw.acc.da = false ∧ d.daRead 2 d.stw.acc.da 4 = (.ok, b, d1)) ∧
    (∃ (d : Dev), d.stw.acc.busy = none) :=
  ⟨⟨({ Dev.init with fab := { FabSt.init with ports := [(3, { FabPort.init with state := .up })], addr := some 0 } }), _, (3), ({ dst := 0, bcast := false, src := 63, hops := 0, sink := false, txid := 255, rootEp := 0, sinkEp := 0, status := 0, msg := .read 0x1000000000 4 }), (0x1000000000), (4), _, (by decide +kernel), (rfl), (by decide +kernel), (by decide +kernel), (by decide +kernel), (rfl), (by decide +kernel)⟩,
   ⟨({ Dev.init with fab := { FabSt.init with ports := [(3, { FabPort.init with state := .up })], addr := some 0 } }), _, (3), ({ dst := 0, bcast := false, src := 63, hops := 0, sink := false, txid := 255, rootEp := 32767, sinkEp := 0, status := 0, msg := .read 0x1000000000 4 }), (0x1000000000), (4), (by decide +kernel), (rfl), (by decide +kernel), (by decide +kernel)⟩,
   ⟨({ Dev.init with fab := { FabSt.init with ports := [(3, { FabPort.init with state := .up })], addr := some 0 } }), _, (3), ({ dst := 63, bcast := false, src := 63, hops := 0, sink := false, txid := 255, rootEp := 0, sinkEp := 0, status := 0, msg := .read 0x1000000000 4 }), (0x1000000000), (4), (by decide +kernel), (rfl), (by decide +kernel)⟩,
   ⟨({ Dev.init with fab := { FabSt.init with ports := [(3, { FabPort.init with state := .up })], addr := some 0 } }), _, (3), ({ dst := 0, bcast := false, src := 63, hops := 0, sink := false, txid := 255, rootEp := 0, sinkEp := 0, status := 0, msg := .write 0x1000000000 [1, 2, 3, 4] }), (0x1000000000), ([1, 2, 3, 4]), _, (by decide +kernel), (rfl), (by decide +kernel), (by decide +kernel), (by decide +kernel), (rfl)⟩,
   ⟨({ Dev.init with fab := { FabSt.init with ports := [(3, { FabPort.init with state := .up })], addr := some 0, sink := true } }), _, (3), ({ dst := 0, bcast := false, src := 63, hops := 0, sink := true, txid := 255, rootEp := 0, sinkEp := 0, status := 0, msg := .write 0 [1] }), (0), ([1]), (by decide +kernel), (rfl), (by decide +kernel), (by decide +kernel), (by decide +kernel), (by decide +kernel), (by decide +kernel), (by decide +kernel)⟩,
   ⟨({ Dev.init with fab := { FabSt.init with ports := [(3, { FabPort.init with state := .up })], addr := some 0 } }), _, (3), ({ dst := 0, bcast := false, src := 63, hops := 0, sink := true, txid := 255, rootEp := 0, sinkEp := 0, status := 0, msg := .write 0 [1] }), (0), ([1]), (by decide +kernel), (rfl), (by decide +kernel), (by decide +kernel), (by decide +kernel), (by decide +kernel)⟩,
   ⟨({ Dev.init with fab := { FabSt.init with ports := [(3, { FabPort.init with state := .up })], addr := some 0, reqs := [{ txid := 255, use := .write 15 0 true, len := 4, sent := 0 }] } }), _, (3), ({ dst := 0, bcast := false, src := 63, hops := 0, sink := false, txid := 255, rootEp := 0, sinkEp := 0, status := 0, msg := .response [] }), ([]), ({ txid := 255, use := .write 15 0 true, len := 4, sent := 0 }), (by decide +kernel), (rfl), (by decide +kernel), (by decide +kernel)⟩,
   ⟨({ Dev.init with fab := { FabSt.init with ports := [(3, { FabPort.init with state := .up })], addr := some 0 } }), _, (3), ({ dst := 0, bcast := false, src := 63, hops := 0, sink := false, txid := 255, rootEp := 0, sinkEp := 0, status := 0, msg := .response [] }), ([]), (by decide +kernel), (rfl), (by decide +kernel), (by decide +kernel)⟩,
   ⟨(Dev.init), _, (3), ({ dst := 0, bcast := false, src := 63, hops := 0, sink := false, txid := 255, rootEp := 0, sinkEp := 0, status := 0, msg := .response [] }), ([]), (by decide +kernel), (rfl)⟩,
   ⟨({ Dev.init with stw := { StwSt.init with ir := .access } }), (0x8000000000000001000000000#100), (0), (by decide +kernel), (by decide +kernel), (by decide +kernel), (by decide +kernel), (by decide +kernel)⟩,
   ⟨({ Dev.init with stw := { StwSt.init with ir := .access } }), (0x8000000000000001000000002#100), (by decide +kernel), (by decide +kernel), (by decide +kernel), (by decide +kernel)⟩,
   ⟨(Dev.init), (1267650600228229401496703205375#100), (by decide +kernel)⟩,
   ⟨({ Dev.init with stw := { StwSt.init with acc := { da := 0x1000000000, data := 5, status := 0, busy := some true } } }), _, (by decide +kernel), (by decide +kernel), (rfl)⟩,
   ⟨({ Dev.init with stw := { StwSt.init with acc := { da := 0x1000000000, data := 5, status := 0, busy := some false } } }), _, _, (by decide +kernel), (by decide +kernel), (rfl)⟩,
   ⟨(Dev.init), (by decide +kernel)⟩⟩

/-- The hypotheses of StewardStoresAndTests are met: clause by clause. -/
theorem test_hyps_StewardStoresAndTests :
    (∃ (d : Dev) (d0 : Dev) (q : NvmOp), d0 = d.plainWrite R.STW_NVM_CMD 0x80000001#32 ∧ d0.stw.op = none ∧ q = { op := 1, addr := (d0.rd R.STW_NVM_ADDR).toNat, len := (d0.rd R.STW_NVM_LEN).toNat, da := (d0.rd64 R.STW_NVM_DA).toNat, arg := (d0.rd R.STW_NVM_ARG).toNat, abort := false }) ∧
    (∃ (d : Dev) (d0 : Dev) (q : NvmOp), d0 = d.plainWrite R.STW_NVM_CMD 0x80000003#32 ∧ d0.stw.op = none ∧ q = { op := 3, addr := (d0.rd R.STW_NVM_ADDR).toNat, len := (d0.rd R.STW_NVM_LEN).toNat, da := (d0.rd64 R.STW_NVM_DA).toNat, arg := (d0.rd R.STW_NVM_ARG).toNat, abort := false }) ∧
    (∃ (d : Dev) (d0 : Dev) (q : NvmOp), d0 = d.plainWrite R.STW_NVM_CMD 0x80000004#32 ∧ d0.stw.op = none ∧ q = { op := 4, addr := (d0.rd R.STW_NVM_ADDR).toNat, len := (d0.rd R.STW_NVM_LEN).toNat, da := (d0.rd64 R.STW_NVM_DA).toNat, arg := (d0.rd R.STW_NVM_ARG).toNat, abort := false }) ∧
    (∃ (d : Dev) (d0 : Dev) (q : NvmOp), d0 = d.plainWrite R.STW_NVM_CMD 0x80000005#32 ∧ d0.stw.op = none ∧ q = { op := 5, addr := (d0.rd R.STW_NVM_ADDR).toNat, len := (d0.rd R.STW_NVM_LEN).toNat, da := (d0.rd64 R.STW_NVM_DA).toNat, arg := (d0.rd R.STW_NVM_ARG).toNat, abort := false }) ∧
    (∃ (d : Dev) (d0 : Dev) (q : NvmOp), d0 = d.plainWrite R.STW_NVM_CMD 0x80000006#32 ∧ d0.stw.op = none ∧ q = { op := 6, addr := (d0.rd R.STW_NVM_ADDR).toNat, len := (d0.rd R.STW_NVM_LEN).toNat, da := (d0.rd64 R.STW_NVM_DA).toNat, arg := (d0.rd R.STW_NVM_ARG).toNat, abort := false }) ∧
    (∃ (d : Dev) (d0 : Dev), d0 = d.plainWrite R.STW_NVM_CMD 0x80000002#32 ∧ d0.stw.op = none) ∧
    (∃ (d : Dev) (d0 : Dev) (q : NvmOp), d0 = d.plainWrite R.STW_NVM_CMD 0x80000007#32 ∧ d0.stw.op = some q) ∧
    (∃ (d : Dev) (d0 : Dev) (q : NvmOp), d0 = d.plainWrite R.STW_NVM_CMD 0x80000001#32 ∧ d0.stw.op = some q) ∧
    (∃ (d : Dev) (n : Nat) (f : Bool), d.stw.op = none) ∧
    (∃ (d : Dev) (d1 : Dev) (n : Nat) (q : NvmOp), d.stw.op = some q ∧ ((q.usesSkein = false ∨ d.skeinServes = true)) ∧ d.nvmCheck q = 0 ∧ q.op ≠ 4 ∧ q.abort = false ∧ d.nvmAct q q.total = (0, q.total, d1)) ∧
    (∃ (d : Dev) (f : Bool) (n : Nat), d.logMay = true ∧ n = min 8 (960 - d.stw.logTimes.countP (fun t => decide (d.now < t + 60000000000)))) ∧
    (∃ (d : Dev) (f : Bool), d.logMay = false) ∧
    (∃ (d : Dev), d.logMay = true) ∧
    (∃ (d : Dev), d.glb.mode = .test ∧ d.b R.STW_TEST_CFG ⟨0, 1⟩ = true) ∧
    (∃ (d : Dev), d.glb.mode ≠ .test) ∧
    (∃ (d : Dev), d.glb.mode = .test ∧ d.b R.STW_TEST_CFG ⟨0, 1⟩ = true) ∧
    (∃ (d : Dev), d.glb.mode ≠ .test) ∧
    (∃ (d : Dev), d.glb.mode = .test ∧ d.b R.STW_TEST_CFG ⟨0, 1⟩ = true) ∧
    (∃ (d : Dev), d.glb.mode ≠ .test) :=
  ⟨⟨(Dev.init), _, _, (rfl), (by decide +kernel), (rfl)⟩,
   ⟨(Dev.init), _, _, (rfl), (by decide +kernel), (rfl)⟩,
   ⟨(Dev.init), _, _, (rfl), (by decide +kernel), (rfl)⟩,
   ⟨(Dev.init), _, _, (rfl), (by decide +kernel), (rfl)⟩,
   ⟨(Dev.init), _, _, (rfl), (by decide +kernel), (rfl)⟩,
   ⟨(Dev.init), _, (rfl), (by decide +kernel)⟩,
   ⟨({ Dev.init with stw := { StwSt.init with op := some { op := 6, addr := 0, len := 64, da := 0, arg := 0, abort := false } } }), _, ({ op := 6, addr := 0, len := 64, da := 0, arg := 0, abort := false }), (rfl), (by decide +kernel)⟩,
   ⟨({ Dev.init with stw := { StwSt.init with op := some { op := 6, addr := 0, len := 64, da := 0, arg := 0, abort := false } } }), _, ({ op := 6, addr := 0, len := 64, da := 0, arg := 0, abort := false }), (rfl), (by decide +kernel)⟩,
   ⟨(Dev.init), (0), (true), (by decide +kernel)⟩,
   ⟨({ Dev.init with stw := { StwSt.init with op := some { op := 1, addr := 0, len := 64, da := 0, arg := 0, abort := false } }, skein := { SkeinSt.init with cap := 64 } }), _, (64), ({ op := 1, addr := 0, len := 64, da := 0, arg := 0, abort := false }), (by decide +kernel), (by decide +kernel), (by decide +kernel), (by decide +kernel), (by decide +kernel), (rfl)⟩,
   ⟨({ Dev.init with stw := { StwSt.init with boot := .done, nvmOk := true } }), (true), (8), (by decide +kernel), (by decide +kernel)⟩,
   ⟨(Dev.init), (true), (by decide +kernel)⟩,
   ⟨({ Dev.init with stw := { StwSt.init with boot := .done, nvmOk := true } }), (by decide +kernel)⟩,
   ⟨({ Dev.init with regs := [(R.STW_TEST_CFG, 0xFFFFFFFF)], glb := { GlbSt.init with mode := .test } }), (by decide +kernel), (by decide +kernel)⟩,
   ⟨(Dev.init), (by decide +kernel)⟩,
   ⟨({ Dev.init with regs := [(R.STW_TEST_CFG, 0xFFFFFFFF)], glb := { GlbSt.init with mode := .test } }), (by decide +kernel), (by decide +kernel)⟩,
   ⟨(Dev.init), (by decide +kernel)⟩,
   ⟨({ Dev.init with regs := [(R.STW_TEST_CFG, 0xFFFFFFFF)], glb := { GlbSt.init with mode := .test } }), (by decide +kernel), (by decide +kernel)⟩,
   ⟨(Dev.init), (by decide +kernel)⟩⟩

/-- The hypotheses of PowerWatchAndGovernor are met: clause by clause. -/
theorem test_hyps_PowerWatchAndGovernor :
    (∃ (d : Dev), d.pwr.state = .active ∧ d.pinsHeld = false) ∧
    (∃ (d : Dev), d.pwr.state ≠ .active) ∧
    (∃ (d : Dev), d.pwr.state = .watch ∧ d.pwr.heldBy = none) ∧
    (∃ (d : Dev), d.pwr.state = .active) ∧
    (∃ (d : Dev) (d1 : Dev) (a : Act), d.activate Task.pwrWake = (some a, d1) ∧ d1.pwr.state = .active ∧ d1.b R.PWR_WATCH_CFG F.PWR_WATCH_CFG_WAKE_HOST = false) ∧
    (∃ (d : Dev) (d1 : Dev) (a : Act), d.activate Task.pwrWake = (some a, d1) ∧ ((d1.pwr.state = .entry ∨ d1.pwr.state = .watch))) ∧
    (∃ (d : Dev) (y : Dev), y = d.jobWatch.asmWatch ∧ d.pwr.request = true ∧ d.stw.op = none ∧ d.pwr.state = .active ∧ ((∀ ch, ch < 16 → (y.hookCh ch).state = .idle))) ∧
    (∃ (d : Dev), d.pwr.request = false) ∧
    (∃ (d : Dev), d.pwr.state = .entry ∧ (List.range 16).any (fun ch => (d.hookCh ch).state != .idle) = false) ∧
    (∃ (d : Dev) (k : Nat), d.pwr.heldBy = some k ∧ d.pwr.state = .watch ∧ k ≠ 0) ∧
    (∃ (d : Dev), d.pwr.heldBy = none) ∧
    (∃ (d : Dev), d.pwr.state = .exit) ∧
    (∃ (d : Dev) (raw : BitVec 12) (ch : Nat) (rest : List Nat), d.pwr.urgent = ch :: rest ∧ d.pwr.urgents < 10) ∧
    (∃ (d : Dev) (raw : BitVec 12), d.pwr.urgent = [] ∧ d.pwr.slot < 81) ∧
    (∃ (d : Dev) (v : Word), fld v F.PWR_HK_URGENT_GO = 1 ∧ d.pwr.urgent.length < 18 - d.pwr.urgents) ∧
    (∃ (d : Dev) (v : Word), fld v F.PWR_HK_URGENT_GO = 1 ∧ 18 - d.pwr.urgents ≤ d.pwr.urgent.length) ∧
    (∃ (d : Dev), d.pwr.trip = false ∧ 1920 ≤ d.tj ∧ d.pwr.step = 0) ∧
    (∃ (d : Dev), d.pwr.trip = false ∧ d.tStart ≤ d.tj ∧ d.tj < 1760 ∧ d.pwr.step = 0) ∧
    (∃ (d : Dev), d.pwr.trip = false ∧ d.pwr.step = 3 ∧ 1872 ≤ d.tj) ∧
    (∃ (d : Dev), d.pwr.step = 1 ∧ d.tStart ≤ d.tj ∧ d.pwr.capAt + max 1 (d.f R.PWR_THERM_CFG F.PWR_THERM_CFG_DOWN_MS) * 1000000 ≤ d.now ∧ 1500 < d.pwr.cap) ∧
    (∃ (d : Dev), d.pwr.step ≠ 1) ∧
    (∃ (d : Dev) (d1 : Dev), d.pwr.trip = false ∧ d.pwr.state = .active ∧ d1 = ((((d.steTrip.carTrip.modPwr fun x => { x with trip := true, coolAt := none }).setHalved false).bump R.PWR_CNT0 F.PWR_CNT0_TRIP_CNT 1).pwrErr 0)) ∧
    (∃ (d : Dev), d.pwr.trip = true) ∧
    (∃ (d : Dev) (t : Nat), d.pwr.coolAt = some t ∧ d.pwr.trip = true ∧ t + 10000000 ≤ d.now) ∧
    (∃ (d : Dev), d.pwr.coolAt = none) ∧
    (∃ (d : Dev), d.b R.PWR_ILIM_CFG F.PWR_ILIM_CFG_EN = true ∧ d.pwr.halved = false ∧ d.pwr.trip = false) ∧
    (∃ (d : Dev), d.pwr.halved = true) ∧
    (∃ (d : Dev), d.pwr.halved = true) ∧
    (∃ (d : Dev), d.pwr.halved = false) :=
  ⟨⟨(Dev.init), (by decide +kernel), (by decide +kernel)⟩,
   ⟨({ Dev.init with pwr := { PwrSt.init with state := .entry } }), (by decide +kernel)⟩,
   ⟨({ Dev.init with pwr := { PwrSt.init with state := .watch } }), (by decide +kernel), (by decide +kernel)⟩,
   ⟨(Dev.init), (by decide +kernel)⟩,
   ⟨({ Dev.init with regs := [(R.PWR_WATCH_CFG, 0)], chain := { ChainSt.init with flight := [⟨Task.pwrWake, 63, 511, 15, 0⟩] } }), _, _, (rfl), (by decide +kernel), (by decide +kernel)⟩,
   ⟨({ Dev.init with pwr := { PwrSt.init with state := .watch }, chain := { ChainSt.init with flight := [⟨Task.pwrWake, 63, 511, 15, 0⟩] } }), _, _, (rfl), (by decide +kernel)⟩,
   ⟨({ Dev.init with pwr := { PwrSt.init with request := true } }), _, (rfl), (by decide +kernel), (by decide +kernel), (by decide +kernel), (by decide +kernel)⟩,
   ⟨(Dev.init), (by decide +kernel)⟩,
   ⟨({ Dev.init with pwr := { PwrSt.init with state := .entry } }), (by decide +kernel), (by decide +kernel)⟩,
   ⟨({ Dev.init with pwr := { PwrSt.init with state := .watch, heldBy := some 2 } }), (2), (by decide +kernel), (by decide +kernel), (by decide +kernel)⟩,
   ⟨(Dev.init), (by decide +kernel)⟩,
   ⟨({ Dev.init with pwr := { PwrSt.init with state := .exit } }), (by decide +kernel)⟩,
   ⟨({ Dev.init with pwr := { PwrSt.init with urgent := [80], urgents := 9 } }), (4095#12), (80), ([]), (by decide +kernel), (by decide +kernel)⟩,
   ⟨({ Dev.init with pwr := { PwrSt.init with slot := 80 } }), (4095#12), (by decide +kernel), (by decide +kernel)⟩,
   ⟨({ Dev.init with pwr := { PwrSt.init with urgent := [1], urgents := 16 } }), (0xFFFFFFFF), (by decide +kernel), (by decide +kernel)⟩,
   ⟨({ Dev.init with pwr := { PwrSt.init with urgent := [1], urgents := 17 } }), (0xFFFFFFFF), (by decide +kernel), (by decide +kernel)⟩,
   ⟨({ Dev.init with regs := [(R.PWR_HK_VAL 71, 1920)], pwr := { PwrSt.init with  } }), (by decide +kernel), (by decide +kernel), (by decide +kernel)⟩,
   ⟨({ Dev.init with regs := [(R.PWR_THERM_CFG, 0x3C000000), (R.PWR_HK_VAL 71, 1759)], pwr := { PwrSt.init with  } }), (by decide +kernel), (by decide +kernel), (by decide +kernel), (by decide +kernel)⟩,
   ⟨({ Dev.init with regs := [(R.PWR_HK_VAL 71, 1872)], pwr := { PwrSt.init with step := 3 } }), (by decide +kernel), (by decide +kernel), (by decide +kernel)⟩,
   ⟨({ Dev.init with regs := [(R.PWR_THERM_CFG, 0x3C000000), (R.PWR_HK_VAL 71, 1759)], pwr := { PwrSt.init with step := 1, cap := 1625 }, now := 256000000 }), (by decide +kernel), (by decide +kernel), (by decide +kernel), (by decide +kernel)⟩,
   ⟨(Dev.init), (by decide +kernel)⟩,
   ⟨(Dev.init), _, (by decide +kernel), (by decide +kernel), (rfl)⟩,
   ⟨({ Dev.init with pwr := { PwrSt.init with trip := true } }), (by decide +kernel)⟩,
   ⟨({ Dev.init with pwr := { PwrSt.init with trip := true, coolAt := some 0 }, now := 10000000 }), (0), (by decide +kernel), (by decide +kernel), (by decide +kernel)⟩,
   ⟨(Dev.init), (by decide +kernel)⟩,
   ⟨({ Dev.init with regs := [(R.PWR_ILIM_CFG, 0xFFFFFFFF)], pwr := { PwrSt.init with  } }), (by decide +kernel), (by decide +kernel), (by decide +kernel)⟩,
   ⟨({ Dev.init with pwr := { PwrSt.init with halved := true } }), (by decide +kernel)⟩,
   ⟨({ Dev.init with pwr := { PwrSt.init with halved := true } }), (by decide +kernel)⟩,
   ⟨(Dev.init), (by decide +kernel)⟩⟩

/-- The hypotheses of SheddingAndServiceModes are met: clause by clause. -/
theorem test_hyps_SheddingAndServiceModes :
    (∃ (d : Dev) (p : Pressure), d.glb.pressure = [] ∧ d.engages p = true) ∧
    (∃ (d : Dev) (p : Pressure), d.glb.pressure.contains p = false ∧ d.glb.pressure.isEmpty = false ∧ d.engages p = true) ∧
    (∃ (d : Dev) (p : Pressure), d.engages p = false) ∧
    (∃ (d : Dev), d.glb.pressure = [] ∧ d.engages .engine = true) ∧
    (∃ (d : Dev), d.engages .engine = false) ∧
    (∃ (d : Dev) (d1 : Dev), d1 = d.pressureDown ∧ d1.due .shedRaise = true ∧ d1.glb.pressure.isEmpty = false) ∧
    (∃ (d : Dev), d.due .shedLower = true ∧ d.glb.pressure = [] ∧ 1 < d.glb.shed) ∧
    (∃ (d : Dev), d.due .shedLower = true ∧ d.glb.pressure = [] ∧ d.glb.shed = 1) ∧
    (∃ (d : Dev), d.due .shedLower = false) ∧
    (∃ (d : Dev) (v : Word) (m : Mode), fld v F.GLB_SERVICE_REFUSED = 0 ∧ fld v F.GLB_SERVICE_KEY = 0x5E ∧ modeOf (fld v F.GLB_SERVICE_REQ) = some m ∧ d.mayEnter m = true ∧ fld v F.GLB_SERVICE_BINDOFF = 0) ∧
    (∃ (d : Dev) (v : Word) (m : Mode), fld v F.GLB_SERVICE_REFUSED = 0 ∧ fld v F.GLB_SERVICE_KEY = 0x5E ∧ modeOf (fld v F.GLB_SERVICE_REQ) = some m ∧ d.mayEnter m = false ∧ fld v F.GLB_SERVICE_BINDOFF = 0) ∧
    (∃ (d : Dev) (v : Word), fld v F.GLB_SERVICE_REFUSED = 0 ∧ fld v F.GLB_SERVICE_KEY ≠ 0x5E) ∧
    (∃ (d : Dev), d.glb.bindoff = .none) ∧
    (∃ (d : Dev), d.glb.bindoff ≠ .none) ∧
    (∃ (d : Dev), d.glb.bindoff = .inProgress ∧ d.bindoffReady = true) ∧
    (∃ (d : Dev), d.bindoffReady = false) ∧
    (∃ (d : Dev) (d1 : Dev) (en : Bool) (v : Word), d1 = d.plainWrite (if en then R.GLB_INT_EN else R.GLB_INT_STATUS) v ∧ d1.intPending ≠ 0) ∧
    (∃ (d : Dev) (d1 : Dev) (en : Bool) (v : Word), d1 = d.plainWrite (if en then R.GLB_INT_EN else R.GLB_INT_STATUS) v ∧ d1.intPending = 0) :=
  ⟨⟨({ Dev.init with glb := { GlbSt.init with  }, now := 7000000000, ste := { SteSt.init with clusters := [(15, { Cluster.init with queue := [wItem] })] } }), (.engine), (by decide +kernel), (by decide +kernel)⟩,
   ⟨({ Dev.init with glb := { GlbSt.init with pressure := [.carriage] }, now := 7000000000, ste := { SteSt.init with clusters := [(15, { Cluster.init with queue := [wItem] })] } }), (.engine), (by decide +kernel), (by decide +kernel), (by decide +kernel)⟩,
   ⟨(Dev.init), (.engine), (by decide +kernel)⟩,
   ⟨({ Dev.init with glb := { GlbSt.init with  }, now := 7000000000, ste := { SteSt.init with clusters := [(15, { Cluster.init with queue := [wItem] })] } }), (by decide +kernel), (by decide +kernel)⟩,
   ⟨(Dev.init), (by decide +kernel)⟩,
   ⟨({ Dev.init with glb := { GlbSt.init with pressure := [.engine] }, now := 7000000000, ste := { SteSt.init with clusters := [(15, { Cluster.init with queue := [wItem] })] }, timers := [(.shedRaise, 0)] }), _, (rfl), (by decide +kernel), (by decide +kernel)⟩,
   ⟨({ Dev.init with glb := { GlbSt.init with shed := 4 }, timers := [(.shedLower, 0)] }), (by decide +kernel), (by decide +kernel), (by decide +kernel)⟩,
   ⟨({ Dev.init with glb := { GlbSt.init with shed := 1 }, timers := [(.shedLower, 0)] }), (by decide +kernel), (by decide +kernel), (by decide +kernel)⟩,
   ⟨(Dev.init), (by decide +kernel)⟩,
   ⟨(Dev.init), (0x5E000001), (.service), (by decide +kernel), (by decide +kernel), (by decide +kernel), (by decide +kernel), (by decide +kernel)⟩,
   ⟨(Dev.init), (0x5E000003), (.recovery), (by decide +kernel), (by decide +kernel), (by decide +kernel), (by decide +kernel), (by decide +kernel)⟩,
   ⟨(Dev.init), (0x5D000001), (by decide +kernel), (by decide +kernel)⟩,
   ⟨(Dev.init), (by decide +kernel)⟩,
   ⟨({ Dev.init with glb := { GlbSt.init with bindoff := .done } }), (by decide +kernel)⟩,
   ⟨({ Dev.init with glb := { GlbSt.init with bindoff := .inProgress } }), (by decide +kernel), (by decide +kernel)⟩,
   ⟨(wDev (wEng 0 []) 0 0), (by decide +kernel)⟩,
   ⟨({ Dev.init with regs := [(R.GLB_INT_STATUS, 8)] }), _, (true), (8), (rfl), (by decide +kernel)⟩,
   ⟨(Dev.init), _, (true), (0), (rfl), (by decide +kernel)⟩⟩

/-- The hypotheses of ResetsCastOnAndStaging are met: clause by clause. -/
theorem test_hyps_ResetsCastOnAndStaging :
    (∃ (d : Dev) (k : ResetCause) (n : Nat), causeCold k = true) ∧
    (∃ (d : Dev) (k : ResetCause) (n : Nat), causeCold k = false) ∧
    (∃ (d : Dev) (n : Nat), d.stw.boot = .held) ∧
    (∃ (d : Dev) (n : Nat), d.stw.boot ≠ .held) ∧
    (∃ (d : Dev) (n : Nat), d.stw.boot = .held) ∧
    (∃ (d : Dev) (n : Nat), d.stw.boot ≠ .held) ∧
    (∃ (d : Dev) (v : Word) (n : Nat), fld v F.STW_RESET_KEY = 0xA7 ∧ fld v F.STW_RESET_DEVICE = 1 ∧ d.stw.boot = .held) ∧
    (∃ (d : Dev) (v : Word) (n : Nat), fld v F.STW_RESET_KEY = 0xA7 ∧ fld v F.STW_RESET_DEVICE = 1 ∧ d.stw.boot ≠ .held) ∧
    (∃ (d : Dev) (v : Word) (n : Nat), fld v F.STW_RESET_KEY ≠ 0xA7) ∧
    (∃ (d : Dev), d.stw.boot = .held ∧ d.stw.since + 10000 ≤ d.now ∧ d.stw.cold = true) ∧
    (∃ (d : Dev), d.stw.boot = .held ∧ d.stw.since + 10000 ≤ d.now ∧ d.stw.cold = false) ∧
    (∃ (d : Dev), d.now < d.stw.since + 10000) ∧
    (∃ (d : Dev) (rep : CastonReport), d.stw.boot ≠ .caston) ∧
    (∃ (d : Dev) (rep : CastonReport), d.stw.boot = .caston) ∧
    (∃ (d : Dev) (y : Dev) (da : Nat) (pkg : List Byte), d.job.staging = some da ∧ d.skeinServes = true ∧ d.pwr.state = .active ∧ d.pkgRead da = some (pkg, false, y) ∧ pkgFormat da pkg false = none ∧ y.pkgCheck pkg (pkgAll pkg) = none ∧ (y.entriesStage (pkgAll pkg) d.job.target).1 = none) ∧
    (∃ (d : Dev) (y : Dev) (da : Nat) (pkg : List Byte) (ue : Bool) (e : Nat × Nat), d.job.staging = some da ∧ d.skeinServes = true ∧ d.pwr.state = .active ∧ d.pkgRead da = some (pkg, ue, y) ∧ pkgFormat da pkg ue = some e) ∧
    (∃ (d : Dev), d.job.staging = none) :=
  ⟨⟨(Dev.init), (.brownout), (0), (by decide +kernel)⟩,
   ⟨(Dev.init), (.wdog), (0), (by decide +kernel)⟩,
   ⟨({ Dev.init with stw := { StwSt.init with boot := .held } }), (0), (by decide +kernel)⟩,
   ⟨(Dev.init), (0), (by decide +kernel)⟩,
   ⟨({ Dev.init with stw := { StwSt.init with boot := .held } }), (0), (by decide +kernel)⟩,
   ⟨(Dev.init), (0), (by decide +kernel)⟩,
   ⟨({ Dev.init with stw := { StwSt.init with boot := .held } }), (0xA7000001), (0), (by decide +kernel), (by decide +kernel), (by decide +kernel)⟩,
   ⟨(Dev.init), (0xA7000001), (0), (by decide +kernel), (by decide +kernel), (by decide +kernel)⟩,
   ⟨(Dev.init), (0xA6000001), (0), (by decide +kernel)⟩,
   ⟨({ Dev.init with stw := { StwSt.init with boot := .held }, now := 10000 }), (by decide +kernel), (by decide +kernel), (by decide +kernel)⟩,
   ⟨({ Dev.init with stw := { StwSt.init with boot := .held, cold := false }, now := 10000 }), (by decide +kernel), (by decide +kernel), (by decide +kernel)⟩,
   ⟨(Dev.init), (by decide +kernel)⟩,
   ⟨({ Dev.init with stw := { StwSt.init with boot := .held } }), ({ nvm := false, trained := 0, density := 0, badBanks := [], fixBanks := [], scrOff := [], scrFix := [], pmbus := false }), (by decide +kernel)⟩,
   ⟨(Dev.init), ({ nvm := false, trained := 0, density := 0, badBanks := [], fixBanks := [], scrOff := [], scrFix := [], pmbus := false }), (by decide +kernel)⟩,
   ⟨(wPk), (wPk), (0), (wPkg), (by decide +kernel), (by decide +kernel), (by decide +kernel), (by decide +kernel), (by decide +kernel), (by decide +kernel), (by decide +kernel)⟩,
   ⟨(wShort), (wShort), (0), (zeros 64), (false), ((1, 0)), (by decide +kernel), (by decide +kernel), (by decide +kernel), (by decide +kernel), (by decide +kernel)⟩,
   ⟨(Dev.init), (by decide +kernel)⟩⟩

/-- The hypotheses of RegisterAndHostAccesses are met: clause by clause. -/
theorem test_hyps_RegisterAndHostAccesses :
    (∃ (d : Dev) (m : Nat) (off : Nat) (v : Word), d.writeOwned m off v = none ∧ bankOf off = none ∧ d.writeTop off v = none ∧ d.writeMid off v = none ∧ d.writeLow off v = none) ∧
    (∃ (d : Dev) (y : Dev) (m : Nat) (off : Nat) (v : Word), d.writeOwned m off v = none ∧ bankOf off = none ∧ d.writeTop off v = some y) ∧
    (∃ (d : Dev) (off : Nat) (row : RegRow), RegMap.lookup off = some (row, 0) ∧ row.wide = true) ∧
    (∃ (d : Dev) (off : Nat) (v : Word) (row : RegRow), RegMap.lookup off = some (row, 0) ∧ row.wide = true) ∧
    (∃ (d : Dev) (off : Nat) (k : Nat) (row : RegRow), RegMap.lookup off = some (row, k) ∧ row.rc ≠ 0) ∧
    (∃ (d : Dev) (d1 : Dev) (rid : Nat) (off : Nat) (n : Nat) (hdr : List Byte), d.host.l0 = true ∧ d.tlpMalformed off n false = false ∧ d1 = d.count R.HOST_RX_SEQ whole 1 ∧ d1.takesRequests = true) ∧
    (∃ (d : Dev) (d1 : Dev) (rid : Nat) (off : Nat) (n : Nat) (hdr : List Byte), d.host.l0 = true ∧ d.tlpMalformed off n false = false ∧ d1 = d.count R.HOST_RX_SEQ whole 1 ∧ d1.takesRequests = true) ∧
    (∃ (d : Dev) (rid : Nat) (off : Nat) (n : Nat) (bar : Option (Fin 3)) (hdr : List Byte), d.host.l0 = false) ∧
    (∃ (d : Dev) (d1 : Dev) (rid : Nat) (off : Nat) (bs : List Byte) (hdr : List Byte), d.host.l0 = true ∧ d.tlpMalformed off bs.length true = false ∧ d.takesRequests = true ∧ d1 = d.count R.HOST_RX_SEQ whole 1) ∧
    (∃ (d : Dev) (d1 : Dev) (rid : Nat) (off : Nat) (bs : List Byte) (hdr : List Byte), d.host.l0 = true ∧ d.tlpMalformed off bs.length true = false ∧ d.takesRequests = true ∧ d1 = d.count R.HOST_RX_SEQ whole 1) ∧
    (∃ (d : Dev) (rid : Nat) (off : Nat) (bs : List Byte) (hdr : List Byte), d.host.l0 = true ∧ d.tlpMalformed off bs.length true = true) :=
  ⟨⟨(Dev.init), (0), (R.STW_NVM_ADDR), (1), (by decide +kernel), (by decide +kernel), (by decide +kernel), (by decide +kernel), (by decide +kernel)⟩,
   ⟨(Dev.init), _, (0), (R.GLB_INT_EN), (1), (by decide +kernel), (by decide +kernel), (rfl)⟩,
   ⟨(Dev.init), (R.STW_NVM_DA), _, (rfl), (by decide +kernel)⟩,
   ⟨(Dev.init), (R.STW_NVM_DA), (1), _, (rfl), (by decide +kernel)⟩,
   ⟨(Dev.init), (0x24), (0), _, (rfl), (by decide)⟩,
   ⟨({ Dev.init with host := { HostSt.init with l0 := true } }), _, (0), (4095), (1), ([]), (by decide +kernel), (by decide +kernel), (rfl), (by decide +kernel)⟩,
   ⟨({ Dev.init with host := { HostSt.init with l0 := true } }), _, (0), (0), (4096), ([]), (by decide +kernel), (by decide +kernel), (rfl), (by decide +kernel)⟩,
   ⟨(Dev.init), (0), (0), (4), (none), ([]), (by decide +kernel)⟩,
   ⟨({ Dev.init with host := { HostSt.init with l0 := true } }), _, (0), (0), (zeros 128), ([]), (by decide +kernel), (by decide +kernel), (by decide +kernel), (rfl)⟩,
   ⟨({ Dev.init with host := { HostSt.init with l0 := true } }), _, (0), (4095), ([1]), ([]), (by decide +kernel), (by decide +kernel), (by decide +kernel), (rfl)⟩,
   ⟨({ Dev.init with host := { HostSt.init with l0 := true } }), (0), (0), ([]), ([]), (by decide +kernel), (by decide +kernel)⟩⟩

/-- The hypotheses of SlotSWordsAreRead are met: clause by clause. -/
theorem test_hyps_SlotSWordsAreRead :
    (∃ (rd : BitVec 4) (ra : BitVec 4) (rb : BitVec 4) (word : Word), word &&& 0xFFFFFF00 = encR 0x01 rd ra rb 0 ∧ word &&& 0xFF = 0) ∧
    (∃ (rd : BitVec 4) (ra : BitVec 4) (rb : BitVec 4) (word : Word), word &&& 0xFFFFFF00 = encR 0x01 rd ra rb 1 ∧ word &&& 0xFF = 0) ∧
    (∃ (rd : BitVec 4) (ra : BitVec 4) (rb : BitVec 4) (word : Word), word &&& 0xFFFFFF00 = encR 0x01 rd ra rb 2 ∧ word &&& 0xFF = 0) ∧
    (∃ (rd : BitVec 4) (ra : BitVec 4) (rb : BitVec 4) (word : Word), word &&& 0xFFFFFF00 = encR 0x01 rd ra rb 3 ∧ word &&& 0xFF = 0) ∧
    (∃ (rd : BitVec 4) (ra : BitVec 4) (rb : BitVec 4) (word : Word), word &&& 0xFFFFFF00 = encR 0x01 rd ra rb 4 ∧ word &&& 0xFF = 0) ∧
    (∃ (rd : BitVec 4) (ra : BitVec 4) (rb : BitVec 4) (word : Word), word &&& 0xFFFFFF00 = encR 0x01 rd ra rb 5 ∧ word &&& 0xFF = 0) ∧
    (∃ (rd : BitVec 4) (ra : BitVec 4) (rb : BitVec 4) (word : Word), word &&& 0xFFFFFF00 = encR 0x01 rd ra rb 6 ∧ word &&& 0xFF = 0) ∧
    (∃ (rd : BitVec 4) (ra : BitVec 4) (rb : BitVec 4) (word : Word), word &&& 0xFFFFFF00 = encR 0x01 rd ra rb 7 ∧ word &&& 0xFF = 0) ∧
    (∃ (rd : BitVec 4) (ra : BitVec 4) (rb : BitVec 4) (word : Word), word &&& 0xFFFFFF00 = encR 0x01 rd ra rb 8 ∧ word &&& 0xFF = 0) ∧
    (∃ (rd : BitVec 4) (ra : BitVec 4) (rb : BitVec 4) (word : Word), word &&& 0xFFFFFF00 = encR 0x01 rd ra rb 9 ∧ word &&& 0xFF = 0) ∧
    (∃ (rd : BitVec 4) (ra : BitVec 4) (rb : BitVec 4) (word : Word), word &&& 0xFFFFFF00 = encR 0x01 rd ra rb 10 ∧ word &&& 0xFF = 0) ∧
    (∃ (rd : BitVec 4) (ra : BitVec 4) (rb : BitVec 4) (word : Word), word &&& 0xFFFFFF00 = encR 0x01 rd ra rb 11 ∧ word &&& 0xFF = 0) ∧
    (∃ (rd : BitVec 4) (ra : BitVec 4) (rb : BitVec 4) (word : Word), word &&& 0xFFFFFF00 = encR 0x01 rd ra rb 12 ∧ word &&& 0xFF = 0) ∧
    (∃ (rd : BitVec 4) (ra : BitVec 4) (rb : BitVec 4) (word : Word), word &&& 0xFFFFFF00 = encR 0x01 rd ra rb 13 ∧ word &&& 0xFF = 0) ∧
    (∃ (rd : BitVec 4) (ra : BitVec 4) (rb : BitVec 4) (word : Word), word &&& 0xFFFFFF00 = encR 0x01 rd ra rb 14 ∧ word &&& 0xFF = 0) ∧
    (∃ (rd : BitVec 4) (ra : BitVec 4) (rb : BitVec 4) (word : Word), word &&& 0xFFFFFF00 = encR 0x01 rd ra rb 15 ∧ word &&& 0xFF = 0) ∧
    (∃ (rd : BitVec 4) (ra : BitVec 4) (imm : BitVec 18) (word : Word), word &&& 0xFFFFFFFF = encI 0x02 rd ra imm) ∧
    (∃ (rd : BitVec 4) (ra : BitVec 4) (imm : BitVec 18) (word : Word), word &&& 0xFFFFFFFF = encI 0x03 rd ra imm) ∧
    (∃ (rd : BitVec 4) (ra : BitVec 4) (imm : BitVec 18) (word : Word), word &&& 0xFFFFFFFF = encI 0x04 rd ra imm) ∧
    (∃ (rd : BitVec 4) (ra : BitVec 4) (imm : BitVec 18) (word : Word), word &&& 0xFFFFFFFF = encI 0x05 rd ra imm) ∧
    (∃ (rd : BitVec 4) (ra : BitVec 4) (imm : BitVec 5) (word : Word), word &&& 0xFFFC001F = encI 0x06 rd ra (imm.setWidth 18) ∧ word &&& 0x3FFE0 = 0) ∧
    (∃ (rd : BitVec 4) (ra : BitVec 4) (imm : BitVec 5) (word : Word), word &&& 0xFFFC001F = encI 0x07 rd ra (imm.setWidth 18) ∧ word &&& 0x3FFE0 = 0) ∧
    (∃ (rd : BitVec 4) (ra : BitVec 4) (imm : BitVec 5) (word : Word), word &&& 0xFFFC001F = encI 0x08 rd ra (imm.setWidth 18) ∧ word &&& 0x3FFE0 = 0) ∧
    (∃ (rd : BitVec 4) (ra : BitVec 4) (imm : BitVec 18) (word : Word), word &&& 0xFFFFFFFF = encI 0x09 rd ra imm) ∧
    (∃ (rd : BitVec 4) (imm : BitVec 22) (word : Word), word &&& 0xFFFFFFFF = encL 0x0A rd imm) ∧
    (∃ (rd : BitVec 4) (ra : BitVec 4) (imm : BitVec 18) (word : Word), word &&& 0xFFFFFFFF = encI 0x10 rd ra imm) ∧
    (∃ (rd : BitVec 4) (ra : BitVec 4) (imm : BitVec 18) (word : Word), word &&& 0xFFFFFFFF = encI 0x11 rd ra imm) ∧
    (∃ (rd : BitVec 4) (ra : BitVec 4) (imm : BitVec 18) (word : Word), word &&& 0xFFFFFFFF = encI 0x12 rd ra imm) ∧
    (∃ (rd : BitVec 4) (ra : BitVec 4) (imm : BitVec 18) (word : Word), word &&& 0xFFFFFFFF = encI 0x13 rd ra imm) ∧
    (∃ (rd : BitVec 4) (ra : BitVec 4) (imm : BitVec 18) (word : Word), word &&& 0xFFFFFFFF = encI 0x14 rd ra imm) ∧
    (∃ (rd : BitVec 4) (ra : BitVec 4) (imm : BitVec 18) (word : Word), word &&& 0xFFFFFFFF = encI 0x15 rd ra imm) ∧
    (∃ (ra : BitVec 4) (rb : BitVec 4) (off : BitVec 18) (word : Word), word &&& 0xFFFFFFFF = encI 0x20 ra rb off) ∧
    (∃ (ra : BitVec 4) (rb : BitVec 4) (off : BitVec 18) (word : Word), word &&& 0xFFFFFFFF = encI 0x21 ra rb off) ∧
    (∃ (ra : BitVec 4) (rb : BitVec 4) (off : BitVec 18) (word : Word), word &&& 0xFFFFFFFF = encI 0x22 ra rb off) ∧
    (∃ (ra : BitVec 4) (rb : BitVec 4) (off : BitVec 18) (word : Word), word &&& 0xFFFFFFFF = encI 0x23 ra rb off) ∧
    (∃ (ra : BitVec 4) (rb : BitVec 4) (off : BitVec 18) (word : Word), word &&& 0xFFFFFFFF = encI 0x24 ra rb off) ∧
    (∃ (ra : BitVec 4) (rb : BitVec 4) (off : BitVec 18) (word : Word), word &&& 0xFFFFFFFF = encI 0x25 ra rb off) ∧
    (∃ (rd : BitVec 4) (imm : BitVec 18) (word : Word), word &&& 0xFFC3FFFF = encI 0x26 rd 0 imm) ∧
    (∃ (ra : BitVec 4) (word : Word), word &&& 0xFC3C3F00 = encR 0x27 0 ra 0 0 ∧ word &&& 0xFF = 0) ∧
    (∃ (pa : BitVec 3) (off : BitVec 18) (word : Word), word &&& 0xFDC3FFFF = encI 0x28 (pa.setWidth 4) 0 off ∧ word &&& 0x23C0000 = 0) ∧
    (∃ (pa : BitVec 3) (off : BitVec 18) (word : Word), word &&& 0xFDC3FFFF = encI 0x29 (pa.setWidth 4) 0 off ∧ word &&& 0x23C0000 = 0) ∧
    (∃ (rd : BitVec 4) (ra : BitVec 4) (rb : BitVec 4) (tag : BitVec 6) (word : Word), word &&& 0xFFFFFF00 = encR 0x30 rd ra rb tag ∧ word &&& 0xFF = 0) ∧
    (∃ (rd : BitVec 4) (ra : BitVec 4) (rb : BitVec 4) (tag : BitVec 6) (word : Word), word &&& 0xFFFFFF00 = encR 0x31 rd ra rb tag ∧ word &&& 0xFF = 0) ∧
    (∃ (code : BitVec 6) (word : Word), word &&& 0xFC003F00 = encR 0x32 0 0 0 code ∧ word &&& 0xFF = 0) ∧
    (∃ (rd : BitVec 4) (ra : BitVec 4) (word : Word), word &&& 0xFFFC3F00 = encR 0x33 rd ra 0 0 ∧ word &&& 0xFF = 0) ∧
    (∃ (word : Word), word &&& 0xFC003F00 = encR 0x34 0 0 0 0 ∧ word &&& 0xFF = 0) ∧
    (∃ (rd : BitVec 4) (ra : BitVec 4) (rb : BitVec 4) (word : Word), word &&& 0xFFFFFF00 = encR 0x35 rd ra rb 0 ∧ word &&& 0xFF = 0) ∧
    (∃ (rd : BitVec 4) (ra : BitVec 4) (word : Word), word &&& 0xFFFC3F00 = encR 0x36 rd ra 0 0 ∧ word &&& 0xFF = 0) ∧
    (∃ (rd : BitVec 4) (ra : BitVec 4) (rb : BitVec 4) (word : Word), word &&& 0xFFFFFF00 = encR 0x37 rd ra rb 0 ∧ word &&& 0xFF = 0) ∧
    (∃ (rd : BitVec 4) (ra : BitVec 4) (word : Word), word &&& 0xFFFC3F00 = encR 0x38 rd ra 0 0 ∧ word &&& 0xFF = 0) ∧
    (∃ (word : Word), word &&& 0xFC003F00 = encR 0x39 0 0 0 0 ∧ word &&& 0xFF = 0) ∧
    (∃ (ra : BitVec 4) (word : Word), word &&& 0xFC3C3F00 = encR 0x3A 0 ra 0 0 ∧ word &&& 0xFF = 0) ∧
    (∃ (rd : BitVec 4) (code : BitVec 6) (word : Word), word &&& 0xFFC03F00 = encR 0x3B rd 0 0 code ∧ word &&& 0xFF = 0) ∧
    (∃ (word : Word), word &&& 0xFC003F00 = encR 0x3C 0 0 0 0 ∧ word &&& 0xFF = 0) :=
  ⟨⟨(15#4), (15#4), (15#4), (encR 0x01 (15#4) (15#4) (15#4) 0), (by decide +kernel), (by decide +kernel)⟩,
   ⟨(15#4), (15#4), (15#4), (encR 0x01 (15#4) (15#4) (15#4) 1), (by decide +kernel), (by decide +kernel)⟩,
   ⟨(15#4), (15#4), (15#4), (encR 0x01 (15#4) (15#4) (15#4) 2), (by decide +kernel), (by decide +kernel)⟩,
   ⟨(15#4), (15#4), (15#4), (encR 0x01 (15#4) (15#4) (15#4) 3), (by decide +kernel), (by decide +kernel)⟩,
   ⟨(15#4), (15#4), (15#4), (encR 0x01 (15#4) (15#4) (15#4) 4), (by decide +kernel), (by decide +kernel)⟩,
   ⟨(15#4), (15#4), (15#4), (encR 0x01 (15#4) (15#4) (15#4) 5), (by decide +kernel), (by decide +kernel)⟩,
   ⟨(15#4), (15#4), (15#4), (encR 0x01 (15#4) (15#4) (15#4) 6), (by decide +kernel), (by decide +kernel)⟩,
   ⟨(15#4), (15#4), (15#4), (encR 0x01 (15#4) (15#4) (15#4) 7), (by decide +kernel), (by decide +kernel)⟩,
   ⟨(15#4), (15#4), (15#4), (encR 0x01 (15#4) (15#4) (15#4) 8), (by decide +kernel), (by decide +kernel)⟩,
   ⟨(15#4), (15#4), (15#4), (encR 0x01 (15#4) (15#4) (15#4) 9), (by decide +kernel), (by decide +kernel)⟩,
   ⟨(15#4), (15#4), (15#4), (encR 0x01 (15#4) (15#4) (15#4) 10), (by decide +kernel), (by decide +kernel)⟩,
   ⟨(15#4), (15#4), (15#4), (encR 0x01 (15#4) (15#4) (15#4) 11), (by decide +kernel), (by decide +kernel)⟩,
   ⟨(15#4), (15#4), (15#4), (encR 0x01 (15#4) (15#4) (15#4) 12), (by decide +kernel), (by decide +kernel)⟩,
   ⟨(15#4), (15#4), (15#4), (encR 0x01 (15#4) (15#4) (15#4) 13), (by decide +kernel), (by decide +kernel)⟩,
   ⟨(15#4), (15#4), (15#4), (encR 0x01 (15#4) (15#4) (15#4) 14), (by decide +kernel), (by decide +kernel)⟩,
   ⟨(15#4), (15#4), (15#4), (encR 0x01 (15#4) (15#4) (15#4) 15), (by decide +kernel), (by decide +kernel)⟩,
   ⟨(15#4), (15#4), (262143#18), (encI 0x02 (15#4) (15#4) (262143#18)), (by decide +kernel)⟩,
   ⟨(15#4), (15#4), (262143#18), (encI 0x03 (15#4) (15#4) (262143#18)), (by decide +kernel)⟩,
   ⟨(15#4), (15#4), (262143#18), (encI 0x04 (15#4) (15#4) (262143#18)), (by decide +kernel)⟩,
   ⟨(15#4), (15#4), (262143#18), (encI 0x05 (15#4) (15#4) (262143#18)), (by decide +kernel)⟩,
   ⟨(15#4), (15#4), (31#5), (encI 0x06 (15#4) (15#4) ((31#5).setWidth 18)), (by decide +kernel), (by decide +kernel)⟩,
   ⟨(15#4), (15#4), (31#5), (encI 0x07 (15#4) (15#4) ((31#5).setWidth 18)), (by decide +kernel), (by decide +kernel)⟩,
   ⟨(15#4), (15#4), (31#5), (encI 0x08 (15#4) (15#4) ((31#5).setWidth 18)), (by decide +kernel), (by decide +kernel)⟩,
   ⟨(15#4), (15#4), (262143#18), (encI 0x09 (15#4) (15#4) (262143#18)), (by decide +kernel)⟩,
   ⟨(15#4), (4194303#22), (encL 0x0A (15#4) (4194303#22)), (by decide +kernel)⟩,
   ⟨(15#4), (15#4), (262143#18), (encI 0x10 (15#4) (15#4) (262143#18)), (by decide +kernel)⟩,
   ⟨(15#4), (15#4), (262143#18), (encI 0x11 (15#4) (15#4) (262143#18)), (by decide +kernel)⟩,
   ⟨(15#4), (15#4), (262143#18), (encI 0x12 (15#4) (15#4) (262143#18)), (by decide +kernel)⟩,
   ⟨(15#4), (15#4), (262143#18), (encI 0x13 (15#4) (15#4) (262143#18)), (by decide +kernel)⟩,
   ⟨(15#4), (15#4), (262143#18), (encI 0x14 (15#4) (15#4) (262143#18)), (by decide +kernel)⟩,
   ⟨(15#4), (15#4), (262143#18), (encI 0x15 (15#4) (15#4) (262143#18)), (by decide +kernel)⟩,
   ⟨(15#4), (15#4), (262143#18), (encI 0x20 (15#4) (15#4) (262143#18)), (by decide +kernel)⟩,
   ⟨(15#4), (15#4), (262143#18), (encI 0x21 (15#4) (15#4) (262143#18)), (by decide +kernel)⟩,
   ⟨(15#4), (15#4), (262143#18), (encI 0x22 (15#4) (15#4) (262143#18)), (by decide +kernel)⟩,
   ⟨(15#4), (15#4), (262143#18), (encI 0x23 (15#4) (15#4) (262143#18)), (by decide +kernel)⟩,
   ⟨(15#4), (15#4), (262143#18), (encI 0x24 (15#4) (15#4) (262143#18)), (by decide +kernel)⟩,
   ⟨(15#4), (15#4), (262143#18), (encI 0x25 (15#4) (15#4) (262143#18)), (by decide +kernel)⟩,
   ⟨(15#4), (262143#18), (encI 0x26 (15#4) 0 (262143#18)), (by decide +kernel)⟩,
   ⟨(15#4), (encR 0x27 0 (15#4) 0 0), (by decide +kernel), (by decide +kernel)⟩,
   ⟨(7#3), (262143#18), (encI 0x28 ((7#3).setWidth 4) 0 (262143#18)), (by decide +kernel), (by decide +kernel)⟩,
   ⟨(7#3), (262143#18), (encI 0x29 ((7#3).setWidth 4) 0 (262143#18)), (by decide +kernel), (by decide +kernel)⟩,
   ⟨(15#4), (15#4), (15#4), (63#6), (encR 0x30 (15#4) (15#4) (15#4) (63#6)), (by decide +kernel), (by decide +kernel)⟩,
   ⟨(15#4), (15#4), (15#4), (63#6), (encR 0x31 (15#4) (15#4) (15#4) (63#6)), (by decide +kernel), (by decide +kernel)⟩,
   ⟨(63#6), (encR 0x32 0 0 0 (63#6)), (by decide +kernel), (by decide +kernel)⟩,
   ⟨(15#4), (15#4), (encR 0x33 (15#4) (15#4) 0 0), (by decide +kernel), (by decide +kernel)⟩,
   ⟨(encR 0x34 0 0 0 0), (by decide +kernel), (by decide +kernel)⟩,
   ⟨(15#4), (15#4), (15#4), (encR 0x35 (15#4) (15#4) (15#4) 0), (by decide +kernel), (by decide +kernel)⟩,
   ⟨(15#4), (15#4), (encR 0x36 (15#4) (15#4) 0 0), (by decide +kernel), (by decide +kernel)⟩,
   ⟨(15#4), (15#4), (15#4), (encR 0x37 (15#4) (15#4) (15#4) 0), (by decide +kernel), (by decide +kernel)⟩,
   ⟨(15#4), (15#4), (encR 0x38 (15#4) (15#4) 0 0), (by decide +kernel), (by decide +kernel)⟩,
   ⟨(encR 0x39 0 0 0 0), (by decide +kernel), (by decide +kernel)⟩,
   ⟨(15#4), (encR 0x3A 0 (15#4) 0 0), (by decide +kernel), (by decide +kernel)⟩,
   ⟨(15#4), (63#6), (encR 0x3B (15#4) 0 0 (63#6)), (by decide +kernel), (by decide +kernel)⟩,
   ⟨(encR 0x3C 0 0 0 0), (by decide +kernel), (by decide +kernel)⟩⟩

/-- The hypotheses of SlotVWordsAreRead are met: clause by clause. -/
theorem test_hyps_SlotVWordsAreRead :
    (∃ (vd : BitVec 5) (va : BitVec 5) (vb : BitVec 5) (pm : BitVec 3) (w : Bool) (word : Word), word &&& 0xFFFFFFFF = encVR 0x01 vd va vb pm w 0) ∧
    (∃ (vd : BitVec 5) (va : BitVec 5) (vb : BitVec 5) (pm : BitVec 3) (w : Bool) (word : Word), word &&& 0xFFFFFFFF = encVR 0x01 vd va vb pm w 1) ∧
    (∃ (vd : BitVec 5) (va : BitVec 5) (vb : BitVec 5) (pm : BitVec 3) (w : Bool) (word : Word), word &&& 0xFFFFFFFF = encVR 0x01 vd va vb pm w 2) ∧
    (∃ (vd : BitVec 5) (va : BitVec 5) (vb : BitVec 5) (pm : BitVec 3) (w : Bool) (word : Word), word &&& 0xFFFFFFFF = encVR 0x01 vd va vb pm w 3) ∧
    (∃ (vd : BitVec 5) (va : BitVec 5) (vb : BitVec 5) (pm : BitVec 3) (w : Bool) (word : Word), word &&& 0xFFFFFFFF = encVR 0x01 vd va vb pm w 4) ∧
    (∃ (vd : BitVec 5) (va : BitVec 5) (vb : BitVec 5) (pm : BitVec 3) (w : Bool) (word : Word), word &&& 0xFFFFFFFF = encVR 0x01 vd va vb pm w 5) ∧
    (∃ (vd : BitVec 5) (va : BitVec 5) (vb : BitVec 5) (pm : BitVec 3) (w : Bool) (word : Word), word &&& 0xFFFFFFFF = encVR 0x01 vd va vb pm w 6) ∧
    (∃ (vd : BitVec 5) (va : BitVec 5) (vb : BitVec 5) (pm : BitVec 3) (w : Bool) (word : Word), word &&& 0xFFFFFFFF = encVR 0x01 vd va vb pm w 7) ∧
    (∃ (vd : BitVec 5) (va : BitVec 5) (vb : BitVec 5) (pm : BitVec 3) (w : Bool) (word : Word), word &&& 0xFFFFFFFF = encVR 0x01 vd va vb pm w 8) ∧
    (∃ (vd : BitVec 5) (va : BitVec 5) (vb : BitVec 5) (pm : BitVec 3) (w : Bool) (word : Word), word &&& 0xFFFFFFFF = encVR 0x01 vd va vb pm w 9) ∧
    (∃ (vd : BitVec 5) (va : BitVec 5) (vb : BitVec 5) (pm : BitVec 3) (w : Bool) (word : Word), word &&& 0xFFFFFFFF = encVR 0x01 vd va vb pm w 10) ∧
    (∃ (vd : BitVec 5) (va : BitVec 5) (vb : BitVec 5) (pm : BitVec 3) (w : Bool) (word : Word), word &&& 0xFFFFFFFF = encVR 0x01 vd va vb pm w 11) ∧
    (∃ (vd : BitVec 5) (va : BitVec 5) (vb : BitVec 5) (pm : BitVec 3) (w : Bool) (word : Word), word &&& 0xFFFFFFFF = encVR 0x01 vd va vb pm w 12) ∧
    (∃ (vd : BitVec 5) (va : BitVec 5) (vb : BitVec 5) (pm : BitVec 3) (w : Bool) (word : Word), word &&& 0xFFFFFFFF = encVR 0x01 vd va vb pm w 13) ∧
    (∃ (vd : BitVec 5) (va : BitVec 5) (vb : BitVec 5) (pm : BitVec 3) (w : Bool) (word : Word), word &&& 0xFFFFFFFF = encVR 0x01 vd va vb pm w 14) ∧
    (∃ (vd : BitVec 5) (va : BitVec 5) (vb : BitVec 5) (pm : BitVec 3) (w : Bool) (word : Word), word &&& 0xFFFFFFFF = encVR 0x01 vd va vb pm w 15) ∧
    (∃ (pd : BitVec 3) (va : BitVec 5) (vb : BitVec 5) (pm : BitVec 3) (w : Bool) (word : Word), word &&& 0xFCFFFFFF = encVR 0x02 (predField pd) va vb pm w 0 ∧ word &&& vdPred = 0) ∧
    (∃ (pd : BitVec 3) (va : BitVec 5) (vb : BitVec 5) (pm : BitVec 3) (w : Bool) (word : Word), word &&& 0xFCFFFFFF = encVR 0x02 (predField pd) va vb pm w 1 ∧ word &&& vdPred = 0) ∧
    (∃ (pd : BitVec 3) (va : BitVec 5) (vb : BitVec 5) (pm : BitVec 3) (w : Bool) (word : Word), word &&& 0xFCFFFFFF = encVR 0x02 (predField pd) va vb pm w 2 ∧ word &&& vdPred = 0) ∧
    (∃ (pd : BitVec 3) (va : BitVec 5) (vb : BitVec 5) (pm : BitVec 3) (w : Bool) (word : Word), word &&& 0xFCFFFFFF = encVR 0x02 (predField pd) va vb pm w 3 ∧ word &&& vdPred = 0) ∧
    (∃ (pd : BitVec 3) (va : BitVec 5) (vb : BitVec 5) (pm : BitVec 3) (w : Bool) (word : Word), word &&& 0xFCFFFFFF = encVR 0x02 (predField pd) va vb pm w 4 ∧ word &&& vdPred = 0) ∧
    (∃ (pd : BitVec 3) (pa : BitVec 3) (pb : BitVec 3) (pm : BitVec 3) (w : Bool) (word : Word), word &&& 0xFCE73FFF = encVR 0x03 (predField pd) (predField pa) (predField pb) pm w 0 ∧ word &&& (vdPred ||| vaPred ||| vbPred) = 0) ∧
    (∃ (pd : BitVec 3) (pa : BitVec 3) (pb : BitVec 3) (pm : BitVec 3) (w : Bool) (word : Word), word &&& 0xFCE73FFF = encVR 0x03 (predField pd) (predField pa) (predField pb) pm w 1 ∧ word &&& (vdPred ||| vaPred ||| vbPred) = 0) ∧
    (∃ (pd : BitVec 3) (pa : BitVec 3) (pb : BitVec 3) (pm : BitVec 3) (w : Bool) (word : Word), word &&& 0xFCE73FFF = encVR 0x03 (predField pd) (predField pa) (predField pb) pm w 2 ∧ word &&& (vdPred ||| vaPred ||| vbPred) = 0) ∧
    (∃ (pd : BitVec 3) (pa : BitVec 3) (pb : BitVec 3) (pm : BitVec 3) (w : Bool) (word : Word), word &&& 0xFCE73FFF = encVR 0x03 (predField pd) (predField pa) (predField pb) pm w 3 ∧ word &&& (vdPred ||| vaPred ||| vbPred) = 0) ∧
    (∃ (pd : BitVec 3) (pm : BitVec 3) (w : Bool) (word : Word), word &&& 0xFCE007FF = encVR 0x03 (predField pd) 0 0 pm w 4 ∧ word &&& vdPred = 0) ∧
    (∃ (pd : BitVec 3) (pm : BitVec 3) (w : Bool) (word : Word), word &&& 0xFCE007FF = encVR 0x03 (predField pd) 0 0 pm w 5 ∧ word &&& vdPred = 0) ∧
    (∃ (vd : BitVec 5) (va : BitVec 5) (pm : BitVec 3) (w : Bool) (imm : BitVec 12) (word : Word), word &&& 0xFFFFFFFF = encVI 0x04 vd va pm w imm) ∧
    (∃ (vd : BitVec 5) (va : BitVec 5) (pm : BitVec 3) (w : Bool) (imm : BitVec 4) (word : Word), word &&& 0xFFFFF00F = encVI 0x05 vd va pm w (imm.setWidth 12) ∧ word &&& 0xFF0 = 0) ∧
    (∃ (vd : BitVec 5) (va : BitVec 5) (pm : BitVec 3) (w : Bool) (imm : BitVec 4) (word : Word), word &&& 0xFFFFF00F = encVI 0x06 vd va pm w (imm.setWidth 12) ∧ word &&& 0xFF0 = 0) ∧
    (∃ (vd : BitVec 5) (va : BitVec 5) (pm : BitVec 3) (w : Bool) (imm : BitVec 4) (word : Word), word &&& 0xFFFFF00F = encVI 0x07 vd va pm w (imm.setWidth 12) ∧ word &&& 0xFF0 = 0) ∧
    (∃ (vd : BitVec 5) (pm : BitVec 3) (w : Bool) (imm : BitVec 12) (word : Word), word &&& 0xFFE0FFFF = encVI 0x08 vd 0 pm w imm ∧ word &&& 0x1F0000 = 0) ∧
    (∃ (vd : BitVec 5) (va : BitVec 5) (vb : BitVec 5) (pm : BitVec 3) (w : Bool) (word : Word), word &&& 0xFFFFFFFF = encVR 0x09 vd va vb pm w 0) ∧
    (∃ (vd : BitVec 5) (sb : BitVec 4) (pm : BitVec 3) (w : Bool) (word : Word), word &&& 0xFFE0FFFF = encVS 0x0A vd 0 sb pm w 0) ∧
    (∃ (vd : BitVec 5) (va : BitVec 5) (sb : BitVec 4) (pm : BitVec 3) (w : Bool) (fn : BitVec 8) (word : Word), word &&& 0xFFFFFFFF = encVS 0x0B vd va sb pm w fn) ∧
    (∃ (sd : BitVec 4) (va : BitVec 5) (w : Bool) (fn : BitVec 8) (word : Word), word &&& 0xFDFF01FF = encVS 0x0C (scalarField sd) va 0 0 w fn ∧ word &&& vdScalar = 0) ∧
    (∃ (vd : BitVec 5) (sb : BitVec 4) (pm : BitVec 3) (w : Bool) (fn : BitVec 8) (word : Word), word &&& 0xFFE0FFFF = encVS 0x0D vd 0 sb pm w fn) ∧
    (∃ (sd : BitVec 4) (va : BitVec 5) (pm : BitVec 3) (w : Bool) (word : Word), word &&& 0xFDFF0FFF = encVS 0x0E (scalarField sd) va 0 pm w 0 ∧ word &&& vdScalar = 0) ∧
    (∃ (sd : BitVec 4) (va : BitVec 5) (pm : BitVec 3) (w : Bool) (word : Word), word &&& 0xFDFF0FFF = encVS 0x0F (scalarField sd) va 0 pm w 0 ∧ word &&& vdScalar = 0) ∧
    (∃ (sd : BitVec 4) (pm : BitVec 3) (w : Bool) (word : Word), word &&& 0xFDE00FFF = encVS 0x10 (scalarField sd) 0 0 pm w 0 ∧ word &&& vdScalar = 0) ∧
    (∃ (sd : BitVec 4) (pm : BitVec 3) (w : Bool) (word : Word), word &&& 0xFDE00FFF = encVS 0x11 (scalarField sd) 0 0 pm w 0 ∧ word &&& vdScalar = 0) ∧
    (∃ (sd : BitVec 4) (va : BitVec 5) (vb : BitVec 5) (pm : BitVec 3) (w : Bool) (word : Word), word &&& 0xFDFFFFFF = encVR 0x12 (scalarField sd) va vb pm w 0 ∧ word &&& vdScalar = 0) ∧
    (∃ (sd : BitVec 4) (va : BitVec 5) (vb : BitVec 5) (pm : BitVec 3) (w : Bool) (word : Word), word &&& 0xFDFFFFFF = encVR 0x13 (scalarField sd) va vb pm w 0 ∧ word &&& vdScalar = 0) ∧
    (∃ (vd : BitVec 5) (va : BitVec 5) (sb : BitVec 4) (pm : BitVec 3) (w : Bool) (word : Word), word &&& 0xFFFFFFFF = encVS 0x14 vd va sb pm w 0) ∧
    (∃ (vd : BitVec 5) (va : BitVec 5) (vb : BitVec 5) (pm : BitVec 3) (w : Bool) (fn : BitVec 7) (word : Word), word &&& 0xFFFFFFFF = encVR 0x15 vd va vb pm w fn) ∧
    (∃ (vd : BitVec 5) (va : BitVec 5) (pm : BitVec 3) (w : Bool) (word : Word), word &&& 0xFFFF07FF = encVR 0x16 vd va 0 pm w 0) ∧
    (∃ (vd : BitVec 5) (va : BitVec 5) (pm : BitVec 3) (w : Bool) (word : Word), word &&& 0xFFFF07FF = encVR 0x17 vd va 0 pm w 0) ∧
    (∃ (vd : BitVec 5) (va : BitVec 5) (vb : BitVec 5) (pm : BitVec 3) (w : Bool) (word : Word), word &&& 0xFFFFFFFF = encVR 0x18 vd va vb pm w 0) ∧
    (∃ (vd : BitVec 5) (sa : BitVec 4) (pm : BitVec 3) (inc : Bool) (imm : BitVec 13) (word : Word), word &&& 0xFFFFFFFF = encVM 0x20 vd sa pm inc imm) ∧
    (∃ (vd : BitVec 5) (sa : BitVec 4) (pm : BitVec 3) (inc : Bool) (imm : BitVec 13) (word : Word), word &&& 0xFFFFFFFF = encVM 0x21 vd sa pm inc imm) :=
  ⟨⟨(31#5), (31#5), (31#5), (7#3), (true), (encVR 0x01 (31#5) (31#5) (31#5) (7#3) true 0), (by decide +kernel)⟩,
   ⟨(31#5), (31#5), (31#5), (7#3), (true), (encVR 0x01 (31#5) (31#5) (31#5) (7#3) true 1), (by decide +kernel)⟩,
   ⟨(31#5), (31#5), (31#5), (7#3), (true), (encVR 0x01 (31#5) (31#5) (31#5) (7#3) true 2), (by decide +kernel)⟩,
   ⟨(31#5), (31#5), (31#5), (7#3), (true), (encVR 0x01 (31#5) (31#5) (31#5) (7#3) true 3), (by decide +kernel)⟩,
   ⟨(31#5), (31#5), (31#5), (7#3), (true), (encVR 0x01 (31#5) (31#5) (31#5) (7#3) true 4), (by decide +kernel)⟩,
   ⟨(31#5), (31#5), (31#5), (7#3), (true), (encVR 0x01 (31#5) (31#5) (31#5) (7#3) true 5), (by decide +kernel)⟩,
   ⟨(31#5), (31#5), (31#5), (7#3), (true), (encVR 0x01 (31#5) (31#5) (31#5) (7#3) true 6), (by decide +kernel)⟩,
   ⟨(31#5), (31#5), (31#5), (7#3), (true), (encVR 0x01 (31#5) (31#5) (31#5) (7#3) true 7), (by decide +kernel)⟩,
   ⟨(31#5), (31#5), (31#5), (7#3), (true), (encVR 0x01 (31#5) (31#5) (31#5) (7#3) true 8), (by decide +kernel)⟩,
   ⟨(31#5), (31#5), (31#5), (7#3), (true), (encVR 0x01 (31#5) (31#5) (31#5) (7#3) true 9), (by decide +kernel)⟩,
   ⟨(31#5), (31#5), (31#5), (7#3), (true), (encVR 0x01 (31#5) (31#5) (31#5) (7#3) true 10), (by decide +kernel)⟩,
   ⟨(31#5), (31#5), (31#5), (7#3), (true), (encVR 0x01 (31#5) (31#5) (31#5) (7#3) true 11), (by decide +kernel)⟩,
   ⟨(31#5), (31#5), (31#5), (7#3), (true), (encVR 0x01 (31#5) (31#5) (31#5) (7#3) true 12), (by decide +kernel)⟩,
   ⟨(31#5), (31#5), (31#5), (7#3), (true), (encVR 0x01 (31#5) (31#5) (31#5) (7#3) true 13), (by decide +kernel)⟩,
   ⟨(31#5), (31#5), (31#5), (7#3), (true), (encVR 0x01 (31#5) (31#5) (31#5) (7#3) true 14), (by decide +kernel)⟩,
   ⟨(31#5), (31#5), (31#5), (7#3), (true), (encVR 0x01 (31#5) (31#5) (31#5) (7#3) true 15), (by decide +kernel)⟩,
   ⟨(7#3), (31#5), (31#5), (7#3), (true), (encVR 0x02 (predField (7#3)) (31#5) (31#5) (7#3) true 0), (by decide +kernel), (by decide +kernel)⟩,
   ⟨(7#3), (31#5), (31#5), (7#3), (true), (encVR 0x02 (predField (7#3)) (31#5) (31#5) (7#3) true 1), (by decide +kernel), (by decide +kernel)⟩,
   ⟨(7#3), (31#5), (31#5), (7#3), (true), (encVR 0x02 (predField (7#3)) (31#5) (31#5) (7#3) true 2), (by decide +kernel), (by decide +kernel)⟩,
   ⟨(7#3), (31#5), (31#5), (7#3), (true), (encVR 0x02 (predField (7#3)) (31#5) (31#5) (7#3) true 3), (by decide +kernel), (by decide +kernel)⟩,
   ⟨(7#3), (31#5), (31#5), (7#3), (true), (encVR 0x02 (predField (7#3)) (31#5) (31#5) (7#3) true 4), (by decide +kernel), (by decide +kernel)⟩,
   ⟨(7#3), (7#3), (7#3), (7#3), (true), (encVR 0x03 (predField (7#3)) (predField (7#3)) (predField (7#3)) (7#3) true 0), (by decide +kernel), (by decide +kernel)⟩,
   ⟨(7#3), (7#3), (7#3), (7#3), (true), (encVR 0x03 (predField (7#3)) (predField (7#3)) (predField (7#3)) (7#3) true 1), (by decide +kernel), (by decide +kernel)⟩,
   ⟨(7#3), (7#3), (7#3), (7#3), (true), (encVR 0x03 (predField (7#3)) (predField (7#3)) (predField (7#3)) (7#3) true 2), (by decide +kernel), (by decide +kernel)⟩,
   ⟨(7#3), (7#3), (7#3), (7#3), (true), (encVR 0x03 (predField (7#3)) (predField (7#3)) (predField (7#3)) (7#3) true 3), (by decide +kernel), (by decide +kernel)⟩,
   ⟨(7#3), (7#3), (true), (encVR 0x03 (predField (7#3)) 0 0 (7#3) true 4), (by decide +kernel), (by decide +kernel)⟩,
   ⟨(7#3), (7#3), (true), (encVR 0x03 (predField (7#3)) 0 0 (7#3) true 5), (by decide +kernel), (by decide +kernel)⟩,
   ⟨(31#5), (31#5), (7#3), (true), (4095#12), (encVI 0x04 (31#5) (31#5) (7#3) true (4095#12)), (by decide +kernel)⟩,
   ⟨(31#5), (31#5), (7#3), (true), (15#4), (encVI 0x05 (31#5) (31#5) (7#3) true ((15#4).setWidth 12)), (by decide +kernel), (by decide +kernel)⟩,
   ⟨(31#5), (31#5), (7#3), (true), (15#4), (encVI 0x06 (31#5) (31#5) (7#3) true ((15#4).setWidth 12)), (by decide +kernel), (by decide +kernel)⟩,
   ⟨(31#5), (31#5), (7#3), (true), (15#4), (encVI 0x07 (31#5) (31#5) (7#3) true ((15#4).setWidth 12)), (by decide +kernel), (by decide +kernel)⟩,
   ⟨(31#5), (7#3), (true), (4095#12), (encVI 0x08 (31#5) 0 (7#3) true (4095#12)), (by decide +kernel), (by decide +kernel)⟩,
   ⟨(31#5), (31#5), (31#5), (7#3), (true), (encVR 0x09 (31#5) (31#5) (31#5) (7#3) true 0), (by decide +kernel)⟩,
   ⟨(31#5), (15#4), (7#3), (true), (encVS 0x0A (31#5) 0 (15#4) (7#3) true 0), (by decide +kernel)⟩,
   ⟨(31#5), (31#5), (15#4), (7#3), (true), (255#8), (encVS 0x0B (31#5) (31#5) (15#4) (7#3) true (255#8)), (by decide +kernel)⟩,
   ⟨(15#4), (31#5), (true), (255#8), (encVS 0x0C (scalarField (15#4)) (31#5) 0 0 true (255#8)), (by decide +kernel), (by decide +kernel)⟩,
   ⟨(31#5), (15#4), (7#3), (true), (255#8), (encVS 0x0D (31#5) 0 (15#4) (7#3) true (255#8)), (by decide +kernel)⟩,
   ⟨(15#4), (31#5), (7#3), (true), (encVS 0x0E (scalarField (15#4)) (31#5) 0 (7#3) true 0), (by decide +kernel), (by decide +kernel)⟩,
   ⟨(15#4), (31#5), (7#3), (true), (encVS 0x0F (scalarField (15#4)) (31#5) 0 (7#3) true 0), (by decide +kernel), (by decide +kernel)⟩,
   ⟨(15#4), (7#3), (true), (encVS 0x10 (scalarField (15#4)) 0 0 (7#3) true 0), (by decide +kernel), (by decide +kernel)⟩,
   ⟨(15#4), (7#3), (true), (encVS 0x11 (scalarField (15#4)) 0 0 (7#3) true 0), (by decide +kernel), (by decide +kernel)⟩,
   ⟨(15#4), (31#5), (31#5), (7#3), (true), (encVR 0x12 (scalarField (15#4)) (31#5) (31#5) (7#3) true 0), (by decide +kernel), (by decide +kernel)⟩,
   ⟨(15#4), (31#5), (31#5), (7#3), (true), (encVR 0x13 (scalarField (15#4)) (31#5) (31#5) (7#3) true 0), (by decide +kernel), (by decide +kernel)⟩,
   ⟨(31#5), (31#5), (15#4), (7#3), (true), (encVS 0x14 (31#5) (31#5) (15#4) (7#3) true 0), (by decide +kernel)⟩,
   ⟨(31#5), (31#5), (31#5), (7#3), (true), (127#7), (encVR 0x15 (31#5) (31#5) (31#5) (7#3) true (127#7)), (by decide +kernel)⟩,
   ⟨(31#5), (31#5), (7#3), (true), (encVR 0x16 (31#5) (31#5) 0 (7#3) true 0), (by decide +kernel)⟩,
   ⟨(31#5), (31#5), (7#3), (true), (encVR 0x17 (31#5) (31#5) 0 (7#3) true 0), (by decide +kernel)⟩,
   ⟨(31#5), (31#5), (31#5), (7#3), (true), (encVR 0x18 (31#5) (31#5) (31#5) (7#3) true 0), (by decide +kernel)⟩,
   ⟨(31#5), (15#4), (7#3), (true), (8191#13), (encVM 0x20 (31#5) (15#4) (7#3) true (8191#13)), (by decide +kernel)⟩,
   ⟨(31#5), (15#4), (7#3), (true), (8191#13), (encVM 0x21 (31#5) (15#4) (7#3) true (8191#13)), (by decide +kernel)⟩⟩

/-- The hypotheses of ConstantRegisters are met: clause by clause. -/
theorem test_hyps_ConstantRegisters :
    (∃ (d : Dev) (e : Nat) (i : Nat) (v : Word), i ≠ 0) ∧
    (∃ (d : Dev) (e : Nat) (i : Nat) (v : Word), i ≠ 0) :=
  ⟨⟨(Dev.init), (255), (31), (1), (by decide +kernel)⟩,
   ⟨(Dev.init), (255), (7), (1), (by decide +kernel)⟩⟩

/-- The hypotheses of BundleSlotsCombine are met: clause by clause. -/
theorem test_hyps_BundleSlotsCombine :
    (∃ (d : Dev) (k : Ctx) (a : SlotOp) (b : SlotOp) (f : Dev → Dev) (g : Dev → Dev), a.legal = true ∧ b.legal = true ∧ a.dst.any (fun r => b.dst.contains r) = false ∧ a.run k d = .go f none ∧ b.run k d = .go g none ∧ k.x.pc < 1023) ∧
    (∃ (d : Dev) (k : Ctx) (a : SlotOp) (b : SlotOp) (f : Dev → Dev) (g : Dev → Dev) (t : Int), a.legal = true ∧ b.legal = true ∧ a.dst.any (fun r => b.dst.contains r) = false ∧ a.run k d = .go f (some t) ∧ b.run k d = .go g none) ∧
    (∃ (d : Dev) (k : Ctx) (a : SlotOp) (b : SlotOp) (f : Dev → Dev) (g : Dev → Dev), a.legal = true ∧ b.legal = true ∧ a.dst.any (fun r => b.dst.contains r) = false ∧ a.run k d = .go f none ∧ b.run k d = .go g none ∧ k.x.pc = 1023) ∧
    (∃ (d : Dev) (k : Ctx) (a : SlotOp) (b : SlotOp), a.legal = false) ∧
    (∃ (d : Dev) (k : Ctx) (a : SlotOp) (b : SlotOp), a.legal = true ∧ ((b.legal = false ∨ a.dst.any (fun r => b.dst.contains r) = true))) ∧
    (∃ (d : Dev) (y : Dev) (k : Ctx) (a : SlotOp) (b : SlotOp) (r : Nat), a.legal = true ∧ b.legal = true ∧ a.dst.any (fun r => b.dst.contains r) = false ∧ a.run k d = .fault r y) ∧
    (∃ (d : Dev) (y : Dev) (k : Ctx) (a : SlotOp) (b : SlotOp) (f : Dev → Dev) (j : Option Int) (r : Nat), a.legal = true ∧ b.legal = true ∧ a.dst.any (fun r => b.dst.contains r) = false ∧ a.run k d = .go f j ∧ b.run k d = .fault r y) ∧
    (∃ (d : Dev) (y : Dev) (k : Ctx) (a : SlotOp) (b : SlotOp), a.legal = true ∧ b.legal = true ∧ a.dst.any (fun r => b.dst.contains r) = false ∧ a.run k d = .stall y) :=
  ⟨⟨(Dev.init), (wCtx (wEng 1022 [])), ({ legal := true, dst := [1], run := fun _ _ => .go (fun y => y) none }), ({ legal := true, dst := [2], run := fun _ _ => .go (fun y => y) none }), (fun y => y), (fun y => y), (by decide +kernel), (by decide +kernel), (by decide +kernel), (rfl), (rfl), (by decide +kernel)⟩,
   ⟨(Dev.init), (wCtx (wEng 1022 [])), ({ legal := true, dst := [1], run := fun _ _ => .go (fun y => y) (some 1024) }), ({ legal := true, dst := [2], run := fun _ _ => .go (fun y => y) none }), (fun y => y), (fun y => y), (1024), (by decide +kernel), (by decide +kernel), (by decide +kernel), (rfl), (rfl)⟩,
   ⟨(Dev.init), (wCtx (wEng 1023 [])), ({ legal := true, dst := [], run := fun _ _ => .go (fun y => y) none }), ({ legal := true, dst := [], run := fun _ _ => .go (fun y => y) none }), (fun y => y), (fun y => y), (by decide +kernel), (by decide +kernel), (by decide +kernel), (rfl), (rfl), (by decide +kernel)⟩,
   ⟨(Dev.init), (wCtx (wEng 1022 [])), ({ legal := false, dst := [], run := fun _ _ => .go (fun y => y) none }), ({ legal := true, dst := [], run := fun _ _ => .go (fun y => y) none }), (by decide +kernel)⟩,
   ⟨(Dev.init), (wCtx (wEng 1022 [])), ({ legal := true, dst := [1], run := fun _ _ => .go (fun y => y) none }), ({ legal := true, dst := [1], run := fun _ _ => .go (fun y => y) none }), (by decide +kernel), (by decide +kernel)⟩,
   ⟨(Dev.init), (Dev.init), (wCtx (wEng 1022 [])), ({ legal := true, dst := [1], run := fun _ y => .fault 1 y }), ({ legal := true, dst := [2], run := fun _ _ => .go (fun y => y) none }), (1), (by decide +kernel), (by decide +kernel), (by decide +kernel), (rfl)⟩,
   ⟨(Dev.init), (Dev.init), (wCtx (wEng 1022 [])), ({ legal := true, dst := [], run := fun _ _ => .go (fun y => y) none }), ({ legal := true, dst := [2], run := fun _ y => .fault 1 y }), (fun y => y), (none), (1), (by decide +kernel), (by decide +kernel), (by decide +kernel), (rfl), (rfl)⟩,
   ⟨(Dev.init), (Dev.init), (wCtx (wEng 1022 [])), ({ legal := true, dst := [1], run := fun _ y => .stall y }), ({ legal := true, dst := [2], run := fun _ _ => .go (fun y => y) none }), (by decide +kernel), (by decide +kernel), (by decide +kernel), (rfl)⟩⟩

/-- The hypotheses of PredicatesGovernLanes are met: clause by clause. -/
theorem test_hyps_PredicatesGovernLanes :
    (∃ (d : Dev) (k : Ctx) (e : Fin 256) (vd : BitVec 5) (va : BitVec 5) (vb : BitVec 5) (pm : BitVec 3), IssuesV e k (encVR 0x01 vd va vb pm true 0) d) ∧
    (∃ (d : Dev) (k : Ctx) (e : Fin 256) (vd : BitVec 5) (va : BitVec 5) (vb : BitVec 5) (pm : BitVec 3), IssuesV e k (encVR 0x01 vd va vb pm false 0) d) ∧
    (∃ (d : Dev) (k : Ctx) (e : Fin 256) (pd : BitVec 3) (va : BitVec 5) (vb : BitVec 5) (pm : BitVec 3), pd ≠ 0 ∧ IssuesV e k (encVR 0x02 (predField pd) va vb pm true 0) d) ∧
    (∃ (d : Dev) (k : Ctx) (e : Fin 256) (pd : BitVec 3) (va : BitVec 5) (vb : BitVec 5) (pm : BitVec 3), pd ≠ 0 ∧ IssuesV e k (encVR 0x02 (predField pd) va vb pm false 0) d) :=
  ⟨⟨(wDev (wEng 1022 []) 0 ((encVR 0x01 (31#5) (31#5) (31#5) (7#3) true 0))), (wCtx (wEng 1022 [])), (0), (31#5), (31#5), (31#5), (7#3), (⟨rfl, by decide⟩)⟩,
   ⟨(wDev (wEng 1022 []) 0 ((encVR 0x01 (31#5) (31#5) (31#5) (7#3) false 0))), (wCtx (wEng 1022 [])), (0), (31#5), (31#5), (31#5), (7#3), (⟨rfl, by decide⟩)⟩,
   ⟨(wDev (wEng 1022 []) 0 ((encVR 0x02 (predField (7#3)) (31#5) (31#5) (7#3) true 0))), (wCtx (wEng 1022 [])), (0), (7#3), (31#5), (31#5), (7#3), (by decide +kernel), (⟨rfl, by decide⟩)⟩,
   ⟨(wDev (wEng 1022 []) 0 ((encVR 0x02 (predField (7#3)) (31#5) (31#5) (7#3) false 0))), (wCtx (wEng 1022 [])), (0), (7#3), (31#5), (31#5), (7#3), (by decide +kernel), (⟨rfl, by decide⟩)⟩⟩

/-- The hypotheses of PoisonedWriteIsDropped are met: clause by clause. -/
theorem test_hyps_PoisonedWriteIsDropped :
    ∃ (d : Dev) (rid : Nat) (off : Nat) (b : Fin 3) (bs : List Byte) (hdr : List Byte), d.host.l0 = true ∧ d.tlpMalformed off bs.length true = false ∧ d.takesRequests = true :=
  ⟨({ Dev.init with host := { HostSt.init with l0 := true } }), (0), (4095), (2), ([1]), ([]), (by decide +kernel), (by decide +kernel), (by decide +kernel)⟩

/-- The hypotheses of FailedCompletionFailsRequest are met: clause by clause. -/
theorem test_hyps_FailedCompletionFailsRequest :
    ∃ (d : Dev) (tag : Nat) (q : OutReq) (hdr : List Byte), d.host.reqs.find? (fun q => q.tag == tag) = some q :=
  ⟨({ Dev.init with host := { HostSt.init with reqs := [{ tag := 255, kind := .desc 63 8, addr := 0, len := 256, sent := 0 }] } }), (255), ({ tag := 255, kind := .desc 63 8, addr := 0, len := 256, sent := 0 }), ([]), (by decide +kernel)⟩

/-- The hypotheses of LockedFieldsKeepTheirValue are met: clause by clause. -/
theorem test_hyps_LockedFieldsKeepTheirValue :
    (∃ (row : RegRow) (k : Nat) (old : Word) (v : Word) (locked : Word) (i : Nat), i < 32) ∧
    (∃ (d : Dev) (off : Nat) (row : RegRow) (v : Word), RegMap.lookup off = some (row, 0) ∧ row.wide = false ∧ off ≠ R.GLB_ERR ∧ off ≠ R.GLB_ERR_CNT1 ∧ off ≠ R.GLB_INT_STATUS ∧ off ≠ R.HOST_INTX_PEND 0) ∧
    (∃ (d : Dev) (y : Dev) (off : Nat) (row : RegRow) (lo : Word) (hi : Word), RegMap.lookup (off + 4) = some (row, 1) ∧ row.wide = true ∧ d.heldLow off = some lo ∧ y = (d.wr off (writtenWord row 0 (d.rd off) lo (d.lockedBits off))).wr (off + 4) (writtenWord row 1 (d.rd (off + 4)) hi (d.lockedBits (off + 4)))) :=
  ⟨⟨({ base := 0 }), (0), (1), (0), (0x80000000), (31), (by decide +kernel)⟩,
   ⟨(Dev.init), (R.STW_NVM_ADDR), _, (1), (rfl), (by decide +kernel), (by decide +kernel), (by decide +kernel), (by decide +kernel), (by decide +kernel)⟩,
   ⟨({ Dev.init with held := [(R.STW_NVM_DA, 1)] }), _, (R.STW_NVM_DA), _, (1), (2), (rfl), (by decide +kernel), (by decide +kernel), (rfl)⟩⟩

/-- The hypotheses of MemoriesKeepCanonicalForm are met: clause by clause. -/
theorem test_hyps_MemoriesKeepCanonicalForm :
    (∃ (d : Dev) (off : Nat) (v : Word), MemWf d) ∧
    (∃ (d : Dev) (op : BankOp) (k : Nat) (off : Nat) (bs : List Byte), MemWf d) ∧
    (∃ (d : Dev) (x : Nat) (bs : List Byte), MemWf d) ∧
    (∃ (d : Dev) (op : BankOp) (k : Nat) (off : Nat) (j : Nat) (bs : List Byte), (j < k * stashSize + off ∨ k * stashSize + off + bs.length ≤ j)) ∧
    (∃ (d : Dev) (op : BankOp) (e : Nat) (off : Nat) (j : Nat) (bs : List Byte), (j < e * scratchSize + off ∨ e * scratchSize + off + bs.length ≤ j)) ∧
    (∃ (d : Dev) (m : Nat) (a : Nat) (bs : List Byte), MemWf d) :=
  ⟨⟨(Dev.init), (0), (0), (⟨rfl, rfl, rfl, rfl, rfl⟩)⟩,
   ⟨(Dev.init), (.plain), (255), (0), ([1]), (⟨rfl, rfl, rfl, rfl, rfl⟩)⟩,
   ⟨(Dev.init), (0), ([1]), (⟨rfl, rfl, rfl, rfl, rfl⟩)⟩,
   ⟨(Dev.init), (.plain), (255), (0), (0), ([1]), (by decide +kernel)⟩,
   ⟨(Dev.init), (.plain), (255), (0), (0), ([1]), (by decide +kernel)⟩,
   ⟨(Dev.init), (0), (0), ([1]), (⟨rfl, rfl, rfl, rfl, rfl⟩)⟩⟩


/-! Words of the spec's own example (R366): slot S 0x099BFFFF is ADDI s6, s6, -1; slot V 0x04611084 is VABSD.b v3, v1, v2;
0x8583FFFE is BNE s6, s0, -2. -/

theorem test_word_addi : encI 0x02 6 6 (-1) = 0x099BFFFF := by decide

theorem test_word_vabsd : encVR 0x01 3 1 2 0 true 4 = 0x04611084 := by decide

/-- Engine 0 with s6 = 5 runs the bundle's slot S. -/
theorem test_addi_decrements :
    ((effect (.addi 0 6 6 (-1)) (wDev (wEng 16 [(6, 5)]) 0x099BFFFF 0)).eng 0).sreg 6 = 4 ∧
      ((effect (.addi 0 6 6 (-1)) (wDev (wEng 16 [(6, 5)]) 0x099BFFFF 0)).eng 0).pc = 17 := by decide +kernel

/-- BNE s6, s0, -2 at bundle 20 with s6 = 1 is taken (R369). -/
theorem test_bne_branches : ((effect (.bne 0 6 0 (-2)) (wDev (wEng 20 [(6, 1)]) 0x8583FFFE 0)).eng 0).pc = 18 := by decide +kernel

theorem test_bne_falls_through : ((effect (.bne 0 6 0 (-2)) (wDev (wEng 20 []) 0x8583FFFE 0)).eng 0).pc = 21 := by decide +kernel

/-- A write of s0 is discarded. -/
theorem test_s0_stays_zero : ((effect (.addi 0 0 6 1) (wDev (wEng 20 [(6, 1)]) 0x08180001 0)).eng 0).sreg 0 = 0 := by decide +kernel

/-! Worked examples of the rules. -/

/-- R101: 10,000 revolutions of the measuring wheel are 3 km of web, and one count later the wp has moved 35 nm. -/
theorem test_gauge_scale :
    ({ Axis.init with num := 1171875, den := 32768 } : Axis).wpAt 83886080000 = 3000000000000 ∧
      ({ Axis.init with num := 1171875, den := 32768 } : Axis).wpAt 83886080001 = 3000000000035 := by decide +kernel

/-- The unit of R123's example: pitch 25,000 nm on axis 0, target 1,000 pending, at the device time given. -/
def wPitch (t : Nat) (hwm : Int) : Dev :=
  { Dev.init with
    now := t, ts := t, regs := [(R.TRIG_CMP_PITCH 0 0, 0x61A80000)],
    gauge := { GaugeSt.init with axes := [(0, { Axis.init with state := .run, smps := [⟨999996, 999996, 24999664 * 65536, 9 * 65536 * 1000, false, false⟩] })] },
    trig := { TrigSt.init with units := [(0, { CmpUnit.init with state := .armed, pitch := true, n := 1000, hwm := hwm, hasHwm := true })] } }

theorem test_pitch_waits : (effect (.cmpCycle 0) (wPitch 1000026 (24999988 * 65536))).rd (R.TRIG_CMP_FIRE_CNT 0) = 0 := by decide +kernel

theorem test_pitch_fires :
    (effect (.cmpCycle 0) (wPitch 1000027 (24999997 * 65536))).rd64 (R.TRIG_CMP_LAST_WP 0) = 25000006 ∧
      (effect (.cmpCycle 0) (wPitch 1000027 (24999997 * 65536))).rd64 (R.TRIG_CMP_LAST_TS 0) = 1000034 := by decide +kernel

/-- R444's example: engines 97 and 99 store to the word at 0x1E0040 of cluster 6; engine 97 wins. -/
def wStores (op : BankOp) : List BankReq :=
  [⟨.eng 1, op, 2, [(0, 0x11), (1, 0), (2, 0), (3, 0)]⟩, ⟨.eng 3, op, 2, [(0, 0), (1, 1), (2, 0), (3, 0)]⟩]

theorem test_stash_collides :
    (effect (.stashBankGrant 6 15 (wStores .plain)) Dev.init).rd R.STASH_COLL_INFO = 0xDBC06336 ∧
      (effect (.stashBankGrant 6 15 (wStores .plain)) Dev.init).rd R.STASH_COLL_ADDR = 0x001E0040 := by decide +kernel

theorem test_stash_alias_combines :
    (effect (.stashBankGrant 6 15 (wStores .set)) Dev.init).stash.mem.bytes zeroByte (6 * stashSize + 0x1E0040) 4 = [0x11, 1, 0, 0] := by decide +kernel

/-! The check of commands refuses a term for each of its conditions. -/

def wPacket (m : FabMsg) : FabPacket :=
  { dst := 0, bcast := false, src := 0, hops := 0, sink := false, txid := 0, rootEp := 0, sinkEp := 0, status := 0, msg := m }

def wHello : FabHello :=
  { serial := 0, rootPrio := 0, sinkPrio := 0, pref := none, addr := none, rootEp := 0, sinkEp := 0, root := false, sink := false, port := 0 }

def wRoot : FabRoot := { serial := 0, prio := 0, rootEp := 0, sinkEp := 0, sinkAddr := none, members := 0 }

def wAssign : FabAssign := { serial := 0, addr := none, conflict := false, routes := [], tree := [] }

def wKeep : FabKeepalive := { serial := 0, addr := none, pref := none, sinkPrio := 0, spare := false, links := [] }

def wMark : FabMark := { abort := false, origin := 0, seq := 0, job := 0, epoch := 0, axis := 0, speed := 0, mark := 0, ts := 0 }

def wAck : ControlAck := { crcOk := true, wait := false, fits := true, code := 0, value := 0, conns := 0, rate := 0, data := [] }

theorem test_wf_refuses_accesses :
    ([.regWrite 256 0 0, .regWrite 0 2 0, .regWrite 0 0x1000000 0, .reg64LowWordRead 1, .reg64LowWordWrite 3 0, .rcFieldRead 2,
      .chainFire 256 0, .chainFireMulti 256 0, .chainConfigWrite 256 0 0, .chainConfigWrite 0 1 0, .hookGo 256 0 false,
      .hookAbort 256 0, .hookReadResponse 0 (2 ^ 64), .skeinReadComplete 256 0 .clean false, .skeinReadComplete 0 (2 ^ 30) .clean false,
      .stashBankGrant 0 0 [⟨.tile, .read, 4096, []⟩], .stashBankGrant 0 0 [⟨.tile, .read, 0, [(0, 0)]⟩],
      .stashBankGrant 0 0 [⟨.tile, .plain, 0, [(32, 0)]⟩], .stashBankGrant 0 0 [⟨.sys 256, .read, 0, []⟩]] : List Instr).all
        (fun c => !c.wf) = true := by decide +kernel

theorem test_wf_refuses_cameras :
    ([.ctrlAckReceive 0 { wAck with code := 256 }, .ctrlAckReceive 0 { wAck with value := 2 ^ 32 }, .ctrlAckReceive 0 { wAck with conns := 256 },
      .ctrlAckReceive 0 { wAck with rate := 256 }, .plyPacketCommit 0 ⟨256, false, 0, []⟩ true false 0,
      .plyPacketCommit 0 ⟨0, false, 2 ^ 32, []⟩ true false 0, .plyPacketCommit 0 ⟨0, false, 0, [.pixels [2 ^ 48] true]⟩ true false 0,
      .plyPacketCommit 0 ⟨0, false, 0, [.chunk (2 ^ 32) 0]⟩ true false 0, .plyPacketCommit 0 ⟨0, false, 0, []⟩ true false (2 ^ 32),
      .carLineIn 0 (2 ^ 32)] : List Instr).all (fun c => !c.wf) = true := by decide +kernel

theorem test_wf_refuses_host :
    ([.hostMemRead (2 ^ 16) none 0 4 (zeros 16), .hostMemRead 0 (some 0) (2 ^ 28) 4 (zeros 16), .hostMemRead 0 (some 1) (2 ^ 34) 4 (zeros 16),
      .hostMemRead 0 (some 2) (2 ^ 16) 4 (zeros 16), .hostMemRead 0 none 2 4 (zeros 16), .hostMemRead 0 none 0 3 (zeros 16),
      .hostMemRead 0 none 0 4 [], .hostMemWrite 0 none 0 [1] false (zeros 16), .configWrite (.maxPayload 64),
      .configWrite (.maxReadRequest 64), .configWrite (.timeoutRange 16), .configWrite (.atsEnable true 32), .completionReceive 768 .failed (zeros 16),
      .completionReceive 0 (.translation (2 ^ 64) 0 0 true true) (zeros 16), .completionReceive 0 .failed [], .completionTimeout 768,
      .tagQuarantineEnd 768, .atsTranslationMiss (.ring 0) (2 ^ 64) false, .atsInvalidateRequest 32 0 0, .atsInvalidateDone 32,
      .ringDisable 0 0 (2 ^ 32), .revoke 0 (2 ^ 32), .descFetchDone 0 [0]] : List Instr).all (fun c => !c.wf) = true := by decide +kernel

theorem test_wf_refuses_fabric :
    ([.fabMarker 0 (2 ^ 32) true 0 0, .fabControlUnitRx 0 true 0 false [], .fabControlUnitRx 0 true (2 ^ 32) false [0, 0, 0, 0],
      .fabReadRx 0 (wPacket (.read 0 513)), .fabReadRx 0 (wPacket (.read (2 ^ 64) 4)), .fabReadRx 0 { wPacket .fence with dst := 64 },
      .fabReadRx 0 { wPacket .fence with hops := 16 }, .fabWriteRx 0 { wPacket .fence with txid := 2 ^ 16 },
      .fabResponseRx 0 { wPacket .fence with status := 256 }, .fabHelloRx 0 { wHello with serial := 2 ^ 64 },
      .fabHelloRx 0 { wHello with rootPrio := 256 }, .fabHelloRx 0 { wHello with pref := some 64 }, .fabHelloRx 0 { wHello with rootEp := 2 ^ 16 },
      .fabHelloRx 0 { wHello with port := 4 }, .fabRootRx 0 64 0 wRoot, .fabRootRx 0 0 16 wRoot, .fabRootRx 0 0 0 { wRoot with prio := 256 },
      .fabClaimRx 0 0 0 ⟨2 ^ 64, 0, 0⟩, .fabAssignRx 0 0 0 { wAssign with tree := [4] }, .fabAssignRx 0 0 0 { wAssign with routes := [(64, ⟨0, 0, none⟩)] },
      .fabKeepaliveRx 0 0 0 0 { wKeep with links := [(4, 0, 0)] }, .fabKeepaliveRx 0 0 0 64 wKeep, .fabMarkRx 0 0 0 { wMark with axis := 4 },
      .fabFenceRx 0 0 0 64, .fabReqTimeout (2 ^ 16), .fabTxidQuarantineEnd (2 ^ 16), .nvmOpComplete (2 ^ 24 + 1) false,
      .castonComplete ⟨true, 0, 0, [256], [], [], [], true⟩] : List Instr).all (fun c => !c.wf) = true := by decide +kernel

/-- The three byte strings that are too long: a control acknowledgement's data, an event packet, and read data. -/
theorem test_wf_refuses_lengths :
    (Instr.ctrlAckReceive 0 { wAck with data := List.replicate 65537 0 }).wf = false ∧
      (Instr.eventPacketReceive 0 true (List.replicate 65537 0)).wf = false ∧
      (Instr.completionReceive 0 (.data (List.replicate 4097 0)) (zeros 16)).wf = false := by
  decide +kernel

/-- No row of the table gives bits, so no word is a command (R359 gives words to bundles only). -/
theorem test_no_word : decodeTableWord 32 0x099BFFFF = none := rfl

/-- An idle step is a nanosecond of the device clock. -/
theorem test_idle_step : (match step State.reset with
    | .next t => t.dev.now
    | _ => 0) = 1 := by decide +kernel

/-! The ledger's match (R137): an entry too old is dropped and the next is taken. -/

theorem test_hyps_LedgerMatchLosesNothing :
    ∃ es : List LedgerEntry, (matchLoop 0 10 100 es).1 ≠ [] ∧ (matchLoop 0 10 100 es).2.1 ≠ none := by
  refine ⟨[⟨1, 0, 0, 10, 0, 0, 0, 0, 0, false, false, false, false, 0⟩, ⟨2, 0, 0, 95, 0, 0, 0, 0, 0, false, false, false, false, 0⟩], ?_⟩
  decide +kernel

end Sys2Proof.Tests

end
end

section
/-! Scope: a step takes the front command; what the memories list at reset; what a write makes of the fields of a register, bit by
bit (R15, R19), and what the plain write of a 32-bit or 64-bit register makes of the device. -/

namespace Sys2Proof.Machine

/-! One step. -/

theorem step_cons (d : Dev) (c : Instr) (rest : List Instr) :
    step { dev := d, pending := c :: rest } = exec c { dev := d, pending := rest } := rfl

theorem step_nil (d : Dev) : step { dev := d, pending := [] } = .next { dev := d.tick, pending := [] } := rfl

/-- Settles O1: the two branches of `step`. -/
theorem stepTakesFrontCommand : Obligations.StepTakesFrontCommand :=
  ⟨step_cons, step_nil⟩

/-! The memories at reset. -/

theorem regs_reset : State.reset.dev.regs = [(R.STW_RESET_CAUSE, 0x20)] := rfl

/-- STW_RESET_CAUSE is 0 by its reset column (R21): the entry for POWER_ON is no default. -/
theorem regDefault_resetCause : regDefault R.STW_RESET_CAUSE = 0 := by decide +kernel

theorem memWf_reset : MemWf State.reset.dev := by
  refine ⟨?_, rfl, rfl, rfl, rfl⟩
  rw [regs_reset]
  simp [Tbl.wf, Tbl.wfFrom, regDefault_resetCause]

/-- Settles O57: the one entry, STW_RESET_CAUSE, differs from its default; the other memories are empty. -/
theorem resetMemoriesCanonical : Obligations.ResetMemoriesCanonical :=
  ⟨memWf_reset, rfl, rfl, rfl, rfl, regs_reset⟩

/-! The bits of a written word (R15). -/

section
variable (row : RegRow) (k : Nat) (old v locked : Word) {i : Nat}

/-- A bit of the written word: the old bit outside the writable masks, and the written, cleared or locked bit inside each. -/
theorem getLsbD_writtenWord (hi : i < 32) :
    (writtenWord row k old v locked).getLsbD i =
      ((old.getLsbD i && !((RegRow.part row.rw k).getLsbD i || (RegRow.part row.w1c k).getLsbD i || (RegRow.part row.rwl k).getLsbD i)) ||
        (v.getLsbD i && (RegRow.part row.rw k).getLsbD i) ||
        (old.getLsbD i && !v.getLsbD i && (RegRow.part row.w1c k).getLsbD i) ||
        (v.getLsbD i && (RegRow.part row.rwl k).getLsbD i && !locked.getLsbD i) ||
        (old.getLsbD i && (RegRow.part row.rwl k).getLsbD i && locked.getLsbD i)) := by
  simp [writtenWord, hi]

theorem getLsbD_writtenWord_rwl (hi : i < 32) (hl : (RegRow.part row.rwl k).getLsbD i = true)
    (hw : (RegRow.part row.rw k).getLsbD i = false) (hc : (RegRow.part row.w1c k).getLsbD i = false) :
    (writtenWord row k old v locked).getLsbD i = if locked.getLsbD i then old.getLsbD i else v.getLsbD i := by
  rw [getLsbD_writtenWord row k old v locked hi, hl, hw, hc]
  cases locked.getLsbD i <;> simp

theorem getLsbD_writtenWord_rw (hi : i < 32) (hw : (RegRow.part row.rw k).getLsbD i = true)
    (hl : (RegRow.part row.rwl k).getLsbD i = false) (hc : (RegRow.part row.w1c k).getLsbD i = false) :
    (writtenWord row k old v locked).getLsbD i = v.getLsbD i := by
  simp [getLsbD_writtenWord row k old v locked hi, hw, hl, hc]

theorem getLsbD_writtenWord_w1c (hi : i < 32) (hc : (RegRow.part row.w1c k).getLsbD i = true)
    (hw : (RegRow.part row.rw k).getLsbD i = false) (hl : (RegRow.part row.rwl k).getLsbD i = false) :
    (writtenWord row k old v locked).getLsbD i = (old.getLsbD i && !v.getLsbD i) := by
  simp [getLsbD_writtenWord row k old v locked hi, hc, hw, hl]

theorem getLsbD_writtenWord_kept (hi : i < 32) (hc : (RegRow.part row.w1c k).getLsbD i = false)
    (hw : (RegRow.part row.rw k).getLsbD i = false) (hl : (RegRow.part row.rwl k).getLsbD i = false) :
    (writtenWord row k old v locked).getLsbD i = old.getLsbD i := by
  simp [getLsbD_writtenWord row k old v locked hi, hc, hw, hl]

/-- A write is counted exactly when it differs from a locked RWL bit (R19). -/
theorem lockedHit_iff : lockedHit row k old v locked = true ↔
    ∃ j, j < 32 ∧ (RegRow.part row.rwl k).getLsbD j = true ∧ locked.getLsbD j = true ∧ v.getLsbD j ≠ old.getLsbD j := by
  unfold lockedHit
  rw [bne_iff_ne]
  constructor
  · intro hne
    by_contra hnone
    refine hne (BitVec.eq_of_getLsbD_eq fun j hj => ?_)
    have hsame : (RegRow.part row.rwl k).getLsbD j = true → locked.getLsbD j = true → v.getLsbD j = old.getLsbD j :=
      fun hr hk => by_contra fun hd => hnone ⟨j, hj, hr, hk, hd⟩
    cases hr : (RegRow.part row.rwl k).getLsbD j
    · simp [hr]
    · cases hk : locked.getLsbD j
      · simp [hk]
      · simp [hsame hr hk]
  · rintro ⟨j, -, hr, hk, hd⟩ hzero
    have hbit := congrArg (BitVec.getLsbD · j) hzero
    simp [hr, hk, hd] at hbit

end

/-! The plain write of a register. -/

/-- Counting a locked write changes no register but GLB_ERR, GLB_ERR_CNT1, GLB_INT_STATUS and HOST_INTX_PEND(0). -/
theorem lockedWrite_rd (x : Nat) (d : Dev) (he : x ≠ R.GLB_ERR) (hc : x ≠ R.GLB_ERR_CNT1) (hs : x ≠ R.GLB_INT_STATUS)
    (hp : x ≠ R.HOST_INTX_PEND 0) : d.lockedWrite.rd x = d.rd x := by
  unfold Dev.lockedWrite
  exact (rd_wr_ne _ _ hc).trans (glbErrSet_rd 0 x d hp hs he)

/-- A write of a word leaves it as its access types say, whether or not it is counted as a locked write. -/
theorem writeWord_rd_self (row : RegRow) (k off : Nat) (v : Word) (d : Dev) (he : off ≠ R.GLB_ERR) (hc : off ≠ R.GLB_ERR_CNT1)
    (hs : off ≠ R.GLB_INT_STATUS) (hp : off ≠ R.HOST_INTX_PEND 0) :
    (d.writeWord row k off v).rd off = writtenWord row k (d.rd off) v (d.lockedBits off) := by
  unfold Dev.writeWord
  dsimp only
  split
  · rw [lockedWrite_rd _ _ he hc hs hp, rd_wr_self]
  · exact rd_wr_self _ _ _

theorem plainWrite_of_narrow {off k : Nat} {row : RegRow} (v : Word) (d : Dev) (hrow : RegMap.lookup off = some (row, k))
    (hn : row.wide = false) : d.plainWrite off v = d.writeWord row 0 off v := by
  simp [Dev.plainWrite, hrow, hn]

/-- The high-word write of a 64-bit register takes both words with the low word it holds, and lets go of that word (R13). -/
theorem plainWrite_high_of_held {off : Nat} {row : RegRow} {lo : Word} (hi : Word) (d : Dev)
    (hrow : RegMap.lookup (off + 4) = some (row, 1)) (hw : row.wide = true) (hlo : d.heldLow off = some lo) :
    d.plainWrite (off + 4) hi = (d.writePair row off lo hi).unhold off := by
  simp [Dev.plainWrite, hrow, hw, Dev.joined, hlo]

/-- Settles O55: the bits of the written word by access type, and the writes of a 32-bit and of a 64-bit register through it. -/
theorem lockedFieldsKeepTheirValue : Obligations.LockedFieldsKeepTheirValue := by
  unfold Obligations.LockedFieldsKeepTheirValue
  refine ⟨fun row k old v locked i hi => ⟨?_, ?_, ?_, ?_, ?_⟩, ?_, ?_⟩
  · exact getLsbD_writtenWord_rwl row k old v locked hi
  · exact getLsbD_writtenWord_rw row k old v locked hi
  · exact getLsbD_writtenWord_w1c row k old v locked hi
  · exact getLsbD_writtenWord_kept row k old v locked hi
  · exact lockedHit_iff row k old v locked
  · intro d off row v hrow hn he hc hs hp
    rw [plainWrite_of_narrow v d hrow hn]
    exact ⟨writeWord_rd_self row 0 off v d he hc hs hp, rfl⟩
  · rintro d y off row lo hi hrow hw hlo rfl
    rw [plainWrite_high_of_held hi d hrow hw hlo]
    rfl

end Sys2Proof.Machine
end

section
/-! Scope: the shedding levels (R42 to R44), the service modes and the Bind-off (R61 to R63), and a write of the global interrupt
registers (R72): each command by its function on the device, and that function by its branches. -/

namespace Sys2Proof.Machine

theorem Runs.to_eq {c : Instr} {d t u : Dev} (h : Runs c d t) (e : t = u) : Runs c d u := e ▸ h

/-! The commands. -/

section
variable (d : Dev)

theorem runs_shedRaise (p : Pressure) : Runs (.shedRaise p) d (d.pressureUp p) := fun _ => rfl

theorem runs_engineBacklogDeadline : Runs .engineBacklogDeadline d (d.pressureUp .engine) := fun _ => rfl

theorem runs_shedRaiseIntervalExpiry : Runs .shedRaiseIntervalExpiry d d.shedInterval := fun _ => rfl

theorem runs_shedLowerExpiry : Runs .shedLowerExpiry d d.shedLower := fun _ => rfl

theorem runs_skeinPressureWindow : Runs .skeinPressureWindow d d.skeinWindow := fun _ => rfl

theorem runs_serviceModeRequest (v : Word) : Runs (.serviceModeRequest v) d (d.serviceWrite v) := fun _ => rfl

theorem runs_bindoffComplete : Runs .bindoffComplete d d.bindoffDone := fun _ => rfl

theorem runs_glbIntWrite (en : Bool) (v : Word) : Runs (.glbIntWrite en v) d (d.intWrite en v) := fun _ => rfl

end

/-! Pressure signals and the level (R43, R44). -/

section
variable {d : Dev} {p : Pressure}

theorem pressureUp_of_first (hnone : d.glb.pressure = []) (hp : d.engages p = true) :
    d.pressureUp p = ((({ d with glb := { d.glb with pressure := [p] } } : Dev).disarm .shedLower).arm .shedRaise
      (d.now + 50000)).setShed (min 4 (d.glb.shed + 1)) := by
  simp [Dev.pressureUp, hnone, hp]

theorem pressureUp_of_further (hnew : d.glb.pressure.contains p = false) (hsome : d.glb.pressure.isEmpty = false)
    (hp : d.engages p = true) :
    d.pressureUp p = { d with glb := { d.glb with pressure := d.glb.pressure ++ [p] } } := by
  simp only [Dev.pressureUp, hnew, hsome, hp]; rfl

theorem pressureUp_of_not_engages (hp : d.engages p = false) : d.pressureUp p = d := by
  simp [Dev.pressureUp, hp]

theorem shedInterval_of_due (hdue : d.pressureDown.due .shedRaise = true)
    (hsome : d.pressureDown.glb.pressure.isEmpty = false) :
    d.shedInterval = (d.pressureDown.arm .shedRaise (d.now + 50000)).setShed (min 4 (d.pressureDown.glb.shed + 1)) := by
  simp only [Dev.shedInterval, hdue, hsome]; rfl

/-- Above level 1 the 10 ms start again for the next level. -/
theorem shedLower_of_above (hdue : d.due .shedLower = true) (hnone : d.glb.pressure = []) (hshed : 1 < d.glb.shed) :
    d.shedLower = (d.arm .shedLower (d.now + 10000000)).setShed (d.glb.shed - 1) := by
  have hleft : d.glb.shed - 1 ≠ 0 := by omega
  simp [Dev.shedLower, hdue, hnone, hleft]

theorem shedLower_of_last (hdue : d.due .shedLower = true) (hnone : d.glb.pressure = []) (hshed : d.glb.shed = 1) :
    d.shedLower = (d.disarm .shedLower).setShed 0 := by
  simp [Dev.shedLower, hdue, hnone, hshed]

theorem shedLower_of_not_due (hdue : d.due .shedLower = false) : d.shedLower = d := by
  simp [Dev.shedLower, hdue]

end

/-! Service modes and the Bind-off (R61 to R63). -/

/-- The code 7 is no mode: a request of it asks for none. -/
theorem ne_seven_of_modeOf {n : Nat} {m : Mode} (h : modeOf n = some m) : n ≠ 7 := by
  rintro rfl
  cases h

section
variable {d : Dev} {v : Word} {m : Mode}

theorem serviceWrite_of_no_key (href : fld v F.GLB_SERVICE_REFUSED = 0) (hkey : fld v F.GLB_SERVICE_KEY ≠ 0x5E) :
    d.serviceWrite v = d := by
  simp [Dev.serviceWrite, href, hkey]

/-- A keyed request of a mode without BINDOFF enters the mode or is refused, by the table of R61. -/
theorem serviceWrite_of_mode (href : fld v F.GLB_SERVICE_REFUSED = 0) (hkey : fld v F.GLB_SERVICE_KEY = 0x5E)
    (hreq : modeOf (fld v F.GLB_SERVICE_REQ) = some m) (hbind : fld v F.GLB_SERVICE_BINDOFF = 0) :
    d.serviceWrite v = if d.mayEnter m then d.enterMode m else d.sb R.GLB_SERVICE F.GLB_SERVICE_REFUSED true := by
  simp [Dev.serviceWrite, href, hkey, hreq, hbind, ne_seven_of_modeOf hreq]

/-- A keyed write with BINDOFF that requests no mode (REQ 7) does nothing but start the Bind-off (R63). -/
theorem serviceWrite_of_bindoff (href : fld v F.GLB_SERVICE_REFUSED = 0) (hkey : fld v F.GLB_SERVICE_KEY = 0x5E)
    (hreq : fld v F.GLB_SERVICE_REQ = 7) (hbind : fld v F.GLB_SERVICE_BINDOFF = 1) : d.serviceWrite v = d.bindoffStart := by
  simp [Dev.serviceWrite, href, hkey, hreq, hbind]

theorem runs_bindoffStart (d : Dev) : Runs .bindoffStart d d.bindoffStart := by
  have hrun : Runs .bindoffStart d (d.serviceWrite 0x5E00000F) := fun _ => rfl
  exact hrun.to_eq (serviceWrite_of_bindoff (by decide) (by decide) (by decide) (by decide))

theorem bindoffStart_of_none (h : d.glb.bindoff = .none) :
    d.bindoffStart = { d with glb := { d.glb with bindoff := .inProgress } } := if_pos h

theorem bindoffStart_of_in_force (h : d.glb.bindoff ≠ .none) : d.bindoffStart = d := if_neg h

theorem bindoffDone_of_ready (hprog : d.glb.bindoff = .inProgress) (hready : d.bindoffReady = true) :
    d.bindoffDone = ({ d with glb := { d.glb with bindoff := .done } } : Dev).intCause 3 := if_pos ⟨hprog, hready⟩

theorem bindoffDone_of_not_ready (hready : d.bindoffReady = false) : d.bindoffDone = d := by
  simp [Dev.bindoffDone, hready]

end

/-! The global interrupt (R72). -/

section
variable {d : Dev} {en : Bool} {v : Word}

theorem intWrite_of_pending (h : (d.plainWrite (if en then R.GLB_INT_EN else R.GLB_INT_STATUS) v).intPending ≠ 0) :
    d.intWrite en v = (d.plainWrite (if en then R.GLB_INT_EN else R.GLB_INT_STATUS) v).message 0 := if_neg h

theorem intWrite_of_not_pending (h : (d.plainWrite (if en then R.GLB_INT_EN else R.GLB_INT_STATUS) v).intPending = 0) :
    d.intWrite en v = d.plainWrite (if en then R.GLB_INT_EN else R.GLB_INT_STATUS) v := if_pos h

end

/-- Settles O44: each clause is a branch of the function that its command applies to the device. -/
theorem sheddingAndServiceModes : Obligations.SheddingAndServiceModes := by
  unfold Obligations.SheddingAndServiceModes
  refine ⟨?firstSignal, ?furtherSignal, ?noSignal, ?backlog, ?noBacklog, ?interval, ?lowerAbove, ?lowerLast, ?lowerNotDue, ?window,
    ?enter, ?refused, ?noKey, ?bindoff, ?bindoffAgain, ?ended, ?notEnded, ?pending, ?notPending⟩
  case firstSignal => exact fun d p hnone hp => (runs_shedRaise d p).to_eq (pressureUp_of_first hnone hp)
  case furtherSignal => exact fun d p hnew hsome hp => (runs_shedRaise d p).to_eq (pressureUp_of_further hnew hsome hp)
  case noSignal => exact fun d p hp => (runs_shedRaise d p).to_eq (pressureUp_of_not_engages hp)
  case backlog => exact fun d hnone hp => (runs_engineBacklogDeadline d).to_eq (pressureUp_of_first hnone hp)
  case noBacklog => exact fun d hp => (runs_engineBacklogDeadline d).to_eq (pressureUp_of_not_engages hp)
  case interval =>
    rintro d _ rfl hdue hsome
    exact (runs_shedRaiseIntervalExpiry d).to_eq (shedInterval_of_due hdue hsome)
  case lowerAbove => exact fun d hdue hnone hshed => (runs_shedLowerExpiry d).to_eq (shedLower_of_above hdue hnone hshed)
  case lowerLast => exact fun d hdue hnone hshed => (runs_shedLowerExpiry d).to_eq (shedLower_of_last hdue hnone hshed)
  case lowerNotDue => exact fun d hdue => (runs_shedLowerExpiry d).to_eq (shedLower_of_not_due hdue)
  case window => exact runs_skeinPressureWindow
  case enter =>
    intro d v m href hkey hreq hmay hbind
    exact (runs_serviceModeRequest d v).to_eq ((serviceWrite_of_mode href hkey hreq hbind).trans (if_pos hmay))
  case refused =>
    intro d v m href hkey hreq hmay hbind
    have hnot : ¬ d.mayEnter m = true := by simp [hmay]
    exact (runs_serviceModeRequest d v).to_eq ((serviceWrite_of_mode href hkey hreq hbind).trans (if_neg hnot))
  case noKey => exact fun d v href hkey => (runs_serviceModeRequest d v).to_eq (serviceWrite_of_no_key href hkey)
  case bindoff => exact fun d h => (runs_bindoffStart d).to_eq (bindoffStart_of_none h)
  case bindoffAgain => exact fun d h => (runs_bindoffStart d).to_eq (bindoffStart_of_in_force h)
  case ended => exact fun d hprog hready => (runs_bindoffComplete d).to_eq (bindoffDone_of_ready hprog hready)
  case notEnded => exact fun d hready => (runs_bindoffComplete d).to_eq (bindoffDone_of_not_ready hready)
  case pending =>
    rintro d _ en v rfl h
    exact (runs_glbIntWrite d en v).to_eq (intWrite_of_pending h)
  case notPending =>
    rintro d _ en v rfl h
    exact (runs_glbIntWrite d en v).to_eq (intWrite_of_not_pending h)

end Sys2Proof.Machine
end

section
/-! Scope: no step stops. The spec answers an access it does not allow with a decode error (R53) or a denial (R59), which are effects on
the device. -/

namespace Sys2Proof.Machine

theorem exec_next (c : Instr) (s : State) : ∃ t : State, exec c s = .next t := by
  obtain ⟨g, hrun⟩ := exec_run c
  exact ⟨{ s with dev := g s.dev }, hrun s⟩

/-- Settles O2: an empty queue lets a nanosecond pass, and a command at the front of the queue answers a next state. -/
theorem stepNeverStops : Obligations.StepNeverStops := by
  rintro ⟨d, queue⟩
  cases queue with
  | nil => exact ⟨{ dev := d.tick, pending := [] }, step_nil d⟩
  | cons c rest =>
    obtain ⟨t, hnext⟩ := exec_next c { dev := d, pending := rest }
    exact ⟨t, (step_cons d c rest).trans hnext⟩

end Sys2Proof.Machine
end

section
/-! Scope: the step by which the Gauge unwraps the phase (R76), and what a re-zero records and leaves (R91). -/

namespace Sys2Proof.Machine

/-! The step between two phases (R76), by the forward distance `(new + 4096 - old) % 4096`. -/

section
variable (rev : Bool) {old new : Nat}

theorem phaseStep_of_short (h : (new + 4096 - old) % 4096 < 2048) :
    phaseStep rev old new = ((new + 4096 - old) % 4096 : Nat) := if_pos h

theorem phaseStep_of_half (h : (new + 4096 - old) % 4096 = 2048) :
    phaseStep rev old new = if rev then -2048 else 2048 := by
  simp [phaseStep, h]

theorem phaseStep_of_long (h : 2048 < (new + 4096 - old) % 4096) :
    phaseStep rev old new = ((new + 4096 - old) % 4096 : Nat) - 4096 := by
  have hshort : ¬ (new + 4096 - old) % 4096 < 2048 := by omega
  have hhalf : ¬ (new + 4096 - old) % 4096 = 2048 := by omega
  simp [phaseStep, hshort, hhalf]

/-- The step is the forward distance itself, or that distance less a period; the first at most half a period away, the second at
least half. -/
theorem phaseStep_cases (old new : Nat) :
    ((new + 4096 - old) % 4096 ≤ 2048 ∧ phaseStep rev old new = ((new + 4096 - old) % 4096 : Nat)) ∨
      (2048 ≤ (new + 4096 - old) % 4096 ∧ phaseStep rev old new = ((new + 4096 - old) % 4096 : Nat) - 4096) := by
  rcases Nat.lt_trichotomy ((new + 4096 - old) % 4096) 2048 with hshort | hhalf | hlong
  · exact .inl ⟨hshort.le, phaseStep_of_short rev hshort⟩
  · have hstep := phaseStep_of_half rev hhalf
    cases rev with
    | false => exact .inl ⟨hhalf.le, by rw [hstep, hhalf]; rfl⟩
    | true => exact .inr ⟨hhalf.ge, by rw [hstep, hhalf]; rfl⟩
  · exact .inr ⟨hlong.le, phaseStep_of_long rev hlong⟩

theorem phaseStep_bounds (old new : Nat) : -2048 ≤ phaseStep rev old new ∧ phaseStep rev old new ≤ 2048 := by
  have hperiod : (new + 4096 - old) % 4096 < 4096 := Nat.mod_lt _ (by decide)
  rcases phaseStep_cases rev old new with ⟨hle, hstep⟩ | ⟨hge, hstep⟩ <;> omega

theorem add_phaseStep (ho : old < 4096) (hn : new < 4096) : ((old : Int) + phaseStep rev old new) % 4096 = new := by
  rcases phaseStep_cases rev old new with ⟨-, hstep⟩ | ⟨-, hstep⟩ <;> omega

end

/-- Settles O9: the step is the forward distance or that distance less a period, whichever is shorter. -/
theorem gaugeStepIsShorterWay : Obligations.GaugeStepIsShorterWay := by
  intro rev old new ho hn
  obtain ⟨hlo, hhi⟩ := phaseStep_bounds rev old new
  exact ⟨hlo, hhi, add_phaseStep rev ho hn, phaseStep_of_half rev⟩

/-! 64-bit registers. -/

theorem dword_hi_lo (v : DWord) : dword v.hi v.lo = v := by
  refine BitVec.eq_of_getLsbD_eq fun i hi => ?_
  unfold dword DWord.hi DWord.lo
  rw [BitVec.getLsbD_append, BitVec.getLsbD_extractLsb', BitVec.getLsbD_extractLsb']
  by_cases hlow : i < 32
  · simp [hlow]
  · have hhigh : i - 32 < 32 := by omega
    simp [hlow, hhigh, Nat.add_sub_of_le (Nat.le_of_not_lt hlow)]

@[simp] theorem rd64_wr64_self (off : Nat) (v : DWord) (d : Dev) : (d.wr64 off v).rd64 off = v := by
  unfold Dev.rd64 Dev.wr64
  rw [rd_wr_self, rd_wr_ne _ _ (by omega), rd_wr_self, dword_hi_lo]

theorem rd_wr64_ne {off x : Nat} (v : DWord) (d : Dev) (hlo : x ≠ off) (hhi : x ≠ off + 4) : (d.wr64 off v).rd x = d.rd x :=
  (rd_wr_ne _ _ hhi).trans (rd_wr_ne _ _ hlo)

theorem axis_wr64 (off : Nat) (v : DWord) (b : Nat) (d : Dev) : (d.wr64 off v).axis b = d.axis b := rfl

/-! The step of a re-zero reaches the compare units (R127) and the mark of a splice (R404). The axes, and the registers below
TRIG_CMP_OFS(0), among which the Gauge's are, stay. -/

section
variable (a : Nat) (st : Int) (d : Dev)

/-- A compare unit applies a step to the high-water mark and perhaps to its offset. -/
theorem unitStep_cases (u : Nat) : d.unitStep a st u = d ∨ ∃ g : TrigSt, d.unitStep a st u = { d with trig := g } ∨
    ∃ v : DWord, d.unitStep a st u = ({ d with trig := g } : Dev).wr64 (R.TRIG_CMP_OFS u) v := by
  unfold Dev.unitStep
  dsimp only
  by_cases hax : (if (d.trig.units.get (fun _ => CmpUnit.init) u).state = .idle then d.f (R.TRIG_CMP_CFG u) F.TRIG_CMP_CFG_AXIS
      else (d.trig.units.get (fun _ => CmpUnit.init) u).axis) ≠ a
  · exact .inl (if_pos hax)
  · rw [if_neg hax]
    split
    · exact .inr ⟨_, .inl rfl⟩
    · exact .inr ⟨_, .inr ⟨_, rfl⟩⟩

theorem unitStep_gauge (u : Nat) : (d.unitStep a st u).gauge = d.gauge := by
  rcases unitStep_cases a st d u with h | ⟨g, h | ⟨v, h⟩⟩
  · rw [h]
  · rw [h]
  · rw [h, wr64_gauge]

theorem unitStep_rd (u : Nat) {x : Nat} (hx : x < R.TRIG_CMP_OFS 0) : (d.unitStep a st u).rd x = d.rd x := by
  rcases unitStep_cases a st d u with h | ⟨g, h | ⟨v, h⟩⟩
  · rw [h]
  · rw [h]; rfl
  · unfold R.TRIG_CMP_OFS at h hx
    rw [h, rd_wr64_ne _ _ (by omega) (by omega)]; rfl

theorem unitSteps_frame (l : List Nat) : (l.foldl (fun y u => y.unitStep a st u) d).gauge = d.gauge ∧
    ∀ x < R.TRIG_CMP_OFS 0, (l.foldl (fun y u => y.unitStep a st u) d).rd x = d.rd x := by
  induction l generalizing d with
  | nil => exact ⟨rfl, fun _ _ => rfl⟩
  | cons u l ih =>
    obtain ⟨hgauge, hrd⟩ := ih (d.unitStep a st u)
    exact ⟨hgauge.trans (unitStep_gauge a st d u), fun x hx => (hrd x hx).trans (unitStep_rd a st d u hx)⟩

theorem applyStep_frame : (d.applyStep a st).gauge = d.gauge ∧ ∀ x < R.TRIG_CMP_OFS 0, (d.applyStep a st).rd x = d.rd x := by
  unfold Dev.applyStep
  have hunits := unitSteps_frame a st d (List.range 16)
  generalize (List.range 16).foldl (fun y u => y.unitStep a st u) d = y at hunits
  dsimp only
  split
  · exact hunits
  · exact hunits

theorem applyStep_axis (b : Nat) : (d.applyStep a st).axis b = d.axis b := by
  unfold Dev.axis
  rw [(applyStep_frame a st d).1]

theorem applyStep_gaugeStep (ha : a < 4) : (d.applyStep a st).rd64 (R.GAUGE_STEP a) = d.rd64 (R.GAUGE_STEP a) := by
  have hr := (applyStep_frame a st d).2
  unfold R.GAUGE_STEP
  unfold R.TRIG_CMP_OFS at hr
  unfold Dev.rd64
  rw [hr _ (by omega), hr _ (by omega)]

end

/-! The re-zero (R91, R94). -/

/-- The axis after a re-zero at count `m` (R91, R94): the wp anchored at `m`, the history of the tachometer moved with it. -/
def Axis.reZeroed (m w : Int) (x : Axis) : Axis :=
  { x with zeroWp := w, cZero := m, unc := false, hist := histMoved (w * 65536 - x.wpFineAt m) x.hist }

/-- At the count of its anchor an axis reads the wp of its anchor, whatever its scale (R85). -/
theorem wpAt_cZero (x : Axis) : x.wpAt x.cZero = x.zeroWp := by
  simp [Axis.wpAt, Axis.wpFineAt]

section
variable (a : Nat) (m w : Int) (d : Dev)

theorem reZero_eq : d.reZero a m w = ((d.setAxis a ((d.axis a).reZeroed m w)).wr64 (R.GAUGE_STEP a)
    (wpWord (w - (d.axis a).wpAt m))).applyStep a (w - (d.axis a).wpAt m) := rfl

theorem axis_reZero_self : (d.reZero a m w).axis a = (d.axis a).reZeroed m w := by
  rw [reZero_eq, applyStep_axis, axis_wr64, axis_setAxis_self]

theorem axis_reZero_ne {b : Nat} (h : b ≠ a) : (d.reZero a m w).axis b = d.axis b := by
  rw [reZero_eq, applyStep_axis, axis_wr64, axis_setAxis_ne _ _ h]

theorem gaugeStep_reZero (ha : a < 4) : (d.reZero a m w).rd64 (R.GAUGE_STEP a) = wpWord (w - (d.axis a).wpAt m) := by
  rw [reZero_eq, applyStep_gaugeStep _ _ _ ha, rd64_wr64_self]

end

/-- Settles O52: the step stands in GAUGE_STEP, and the axis is its re-zeroed self, anchored at the count. -/
theorem reZeroRecordsStep : Obligations.ReZeroRecordsStep := by
  intro d a m w
  refine ⟨gaugeStep_reZero a m w d a.isLt, ?_, axis_reZero_self a m w d, fun b => axis_reZero_ne a m w d⟩
  rw [axis_reZero_self]
  exact wpAt_cZero ((d.axis a).reZeroed m w)

end Sys2Proof.Machine
end

section
/-! Scope: the trigger ledgers (R137, R140). -/

namespace Sys2Proof.Machine

/-- The entry as the ledger records it (R139, R140): with the ledger's next sequence number, and marked where an entry was lost. -/
def Ledger.stamped (e : LedgerEntry) (l : Ledger) : LedgerEntry :=
  { e with seq := l.seq, lost := l.lost || decide (1024 ≤ l.entries.length) }

/-- The ledger after an entry is written into it (R140). -/
def Ledger.push (e : LedgerEntry) (l : Ledger) : Ledger :=
  { entries := (if 1024 ≤ l.entries.length then l.entries.drop 1 else l.entries) ++ [l.stamped e], seq := (l.seq + 1) % 2 ^ 32,
    lost := false, recent := (l.stamped e :: l.recent).take 64 }

theorem push_entries_length_le (e : LedgerEntry) {l : Ledger} (h : l.entries.length ≤ 1024) :
    (l.push e).entries.length ≤ 1024 := by
  unfold Ledger.push
  split <;> simp only [List.length_append, List.length_drop, List.length_singleton] <;> omega

/-- Under the bound a ledger is full at 1,024 entries and no more. -/
theorem push_entries (e : LedgerEntry) {l : Ledger} (h : l.entries.length ≤ 1024) :
    (l.push e).entries = (if l.entries.length = 1024 then l.entries.drop 1 else l.entries) ++
      [{ e with seq := l.seq, lost := l.lost || decide (l.entries.length = 1024) }] := by
  have hfull : 1024 ≤ l.entries.length ↔ l.entries.length = 1024 := by omega
  simp only [Ledger.push, Ledger.stamped, hfull]

section
variable (c : Nat) (d : Dev)

@[simp] theorem ledger_setLedger_self (l : Ledger) : (d.setLedger c l).ledger c = l := Tbl.get_set_self _ _ _ _

theorem ledger_setLedger_ne (l : Ledger) {k : Nat} (h : k ≠ c) : (d.setLedger c l).ledger k = d.ledger k := Tbl.get_set_ne _ _ _ h

/-- An error bit of the TRIG block leaves what the block holds beyond its registers. -/
@[simp] theorem trigErr_trig (bit : Nat) : (d.trigErr bit).trig = d.trig := by
  unfold Dev.trigErr
  dsimp only
  split
  · rw [publish_frame, err_frame]
  · rw [err_frame]

/-- A write into a ledger: the loss of an entry is counted and reported, and the ledger takes the entry. -/
theorem ledgerWrite_eq (e : LedgerEntry) : d.ledgerWrite c e =
    (if 1024 ≤ (d.ledger c).entries.length then (d.bump (R.TRIG_LEDGER_STATUS c) F.TRIG_LEDGER_STATUS_OVF_CNT 1).trigErr 3
      else d).setLedger c ((d.ledger c).push e) := rfl

theorem ledger_ledgerWrite_self (e : LedgerEntry) : (d.ledgerWrite c e).ledger c = (d.ledger c).push e := by
  rw [ledgerWrite_eq, ledger_setLedger_self]

theorem ledger_ledgerWrite_ne (e : LedgerEntry) {k : Nat} (h : k ≠ c) : (d.ledgerWrite c e).ledger k = d.ledger k := by
  rw [ledgerWrite_eq, ledger_setLedger_ne _ _ _ h]
  unfold Dev.ledger
  split
  · rw [trigErr_trig, bump_trig]
  · rfl

end

/-- Settles O16: the camera's ledger takes the entry by `Ledger.push`; the loss that it reports touches no ledger. -/
theorem ledgerKeepsNewestEntries : Obligations.LedgerKeepsNewestEntries := by
  intro d cam e hbound
  rw [ledger_ledgerWrite_self]
  exact ⟨push_entries_length_le e hbound, push_entries e hbound, rfl, fun _ => ledger_ledgerWrite_ne cam d e⟩

end Sys2Proof.Machine
end

section
/-! Scope: the compare units (R116, R119 to R121, R128, R145): each command by its function on the device, and that function by its
branches. -/

namespace Sys2Proof.Machine

/-! The commands. -/

section
variable (d : Dev) (u : Fin 16)

theorem runs_cmpCycle : Runs (.cmpCycle u) d (d.cmpCycle u) := fun _ => rfl

theorem runs_trigCmpCtlArm (set : Fin 2) : Runs (.trigCmpCtlArm u set) d (d.armUnit u (some set) none) := fun _ => rfl

theorem runs_trigCmpCtlStop : Runs (.trigCmpCtlStop u) d (d.stopUnit u) := fun _ => rfl

end

section
variable {d d1 : Dev} {u : Fin 16} {a : Act}

theorem runs_trigCmpArm (h : d.activate (Task.cmpArm u) = (some a, d1)) :
    Runs (.trigCmpArm u) d (d1.armUnit u none (some a.hop)) := by
  intro q
  change execTrigCmpArm u _ = _
  simp only [execTrigCmpArm, run_next, h]

theorem runs_trigCmpStop (h : d.activate (Task.cmpStop u) = (some a, d1)) : Runs (.trigCmpStop u) d (d1.stopUnit u) := by
  intro q
  change execTrigCmpStop u _ = _
  simp only [execTrigCmpStop, run_next, h]

end

section
variable {d : Dev} {u : Nat}

/-! Hold causes and arming (R119, R145). -/

theorem holdCause_of_run {x : CmpUnit} (hrun : (d.axis x.axis).state = .run) (hunc : (d.axis x.axis).unc = false)
    (hpwr : d.pwr.state = .active) : d.holdCause u x = false := by
  simp [Dev.holdCause, hrun, hunc, hpwr]

theorem holdCause_of_not_run {x : CmpUnit} (h : (d.axis x.axis).state ≠ .run) : d.holdCause u x = true := by
  simp [Dev.holdCause, h]

theorem armUnit_of_run (set hop : Option Nat) (hstop : (d.unit u).stopAt ≠ some d.now)
    (hrun : (d.axis (fld (d.rd (R.TRIG_CMP_CFG u)) F.TRIG_CMP_CFG_AXIS)).state = .run)
    (hunc : (d.axis (fld (d.rd (R.TRIG_CMP_CFG u)) F.TRIG_CMP_CFG_AXIS)).unc = false) (hpwr : d.pwr.state = .active) :
    d.armUnit u set hop = d.setUnit u { d.unit u with
      state := .armed, idx := 0, n := 0, wrap := 0, set := set.getD (d.unit u).set,
      axis := fld (d.rd (R.TRIG_CMP_CFG u)) F.TRIG_CMP_CFG_AXIS, pitch := fld (d.rd (R.TRIG_CMP_CFG u)) F.TRIG_CMP_CFG_MODE = 1,
      hasHwm := false, first := true, armAt := hop.map (fun h => (d.now, h)) } := by
  unfold Dev.armUnit
  dsimp only
  rw [if_neg hstop, holdCause_of_run hrun hunc hpwr]
  rfl

/-! The compare cycle (R120, R121, R128). -/

theorem cmpCycle_of_idle_or_done (h : (d.unit u).state = .idle ∨ (d.unit u).state = .done) : d.cmpCycle u = d := by
  rcases h with h | h <;> simp [Dev.cmpCycle, h]

theorem cmpCycle_of_armed_hold (harmed : (d.unit u).state = .armed) (hhold : d.holdCause u (d.unit u) = true) :
    d.cmpCycle u = d.setUnit u { d.unit u with state := .hold } := by
  simp [Dev.cmpCycle, harmed, hhold]

theorem cmpCycle_of_armed_sample {smp : Smp} (harmed : (d.unit u).state = .armed) (hfree : d.holdCause u (d.unit u) = false)
    (hsmp : d.sampleNow (d.unit u).axis = some smp) : d.cmpCycle u = d.compare u smp := by
  simp [Dev.cmpCycle, harmed, hfree, hsmp]

theorem unitSwap_of_none (p : Int) (h : d.job.swaps = []) : d.unitSwap u p = d := by
  simp [Dev.unitSwap, h]

/-- A pending target above the previous high-water mark and reached by the predicted position fires, once in a cycle. -/
theorem cycleTargets_of_reached (smp : Smp) {prev p t : Int} (fuel k : Nat) (ht : d.target u (d.unit u) = some t) (hlo : prev < t)
    (hhi : t ≤ p) : d.cycleTargets u smp prev p (fuel + 1) k false = (d.fire u smp p false).cycleTargets u smp prev p fuel k true := by
  have hnew : ¬ t ≤ prev := Int.not_le.mpr hlo
  simp [Dev.cycleTargets, ht, hnew, hhi]

theorem compare_of_reached {smp : Smp} {t : Int} (hswap : d.job.swaps = []) (hfirst : (d.unit u).first = false)
    (ht : d.target u (d.unit u) = some t) (hlo : (d.unit u).hwm < t) (hhi : t ≤ smp.predict ((d.ts : Int) + 7 + d.lead u)) :
    d.compare u smp = (let p := smp.predict ((d.ts : Int) + 7 + d.lead u)
      let d1 := Dev.cycleTargets u smp (d.unit u).hwm p 17 16 true (d.fire u smp p false)
      (d1.setUnit u { d1.unit u with hwm := max (d.unit u).hwm p, hasHwm := true, first := false }).doneCheck u) := by
  have hfire := cycleTargets_of_reached smp 17 16 ht hlo hhi
  simp only [Dev.compare, unitSwap_of_none _ hswap, hfirst, Bool.false_eq_true, if_false, hfire]

end

/-- Settles O13: an arm or a stop is the unit's new record, and a cycle is its branch for the unit's state. -/
theorem compareUnitsArmAndFire : Obligations.CompareUnitsArmAndFire := by
  unfold Obligations.CompareUnitsArmAndFire
  refine ⟨?arm, ?chainArm, ?stop, ?chainStop, ?rest, ?hold, ?reached⟩
  case arm =>
    exact fun d u set hstop hrun hunc hpwr => (runs_trigCmpCtlArm d u set).to_eq (armUnit_of_run _ _ hstop hrun hunc hpwr)
  case chainArm =>
    exact fun d d1 u a hact hstop hrun hunc hpwr => (runs_trigCmpArm hact).to_eq (armUnit_of_run _ _ hstop hrun hunc hpwr)
  case stop => exact runs_trigCmpCtlStop
  case chainStop => exact fun d d1 u a hact => runs_trigCmpStop hact
  case rest => exact fun d u h => (runs_cmpCycle d u).to_eq (cmpCycle_of_idle_or_done h)
  case hold =>
    exact fun d u harmed haxis => (runs_cmpCycle d u).to_eq (cmpCycle_of_armed_hold harmed (holdCause_of_not_run haxis))
  case reached =>
    intro d u smp t harmed hfree hsmp hswap hfirst ht hlo hhi
    exact (runs_cmpCycle d u).to_eq
      ((cmpCycle_of_armed_sample harmed hfree hsmp).trans (compare_of_reached hswap hfirst ht hlo hhi))

end Sys2Proof.Machine
end

section
/-! Scope: the trigger packets (R134 to R137): an activation that schedules or drops one, and the packets that start. -/

namespace Sys2Proof.Machine

section
variable {d d1 : Dev} {n : Fin 48} {a : Act}

theorem runs_trigPkt (h : d.activate (Task.trigPkt n) = (some a, d1)) : Runs (.trigPkt n) d (d1.trigPktAct n a) := by
  intro q
  change execTrigPkt n _ = _
  simp only [execTrigPkt, run_next, h]

theorem runs_trigPktStart (d : Dev) (n : Fin 48) (ref : Int) : Runs (.trigPktStart n ref) d (d.pktStart n ref) := fun _ => rfl

theorem runs_trigPktFall (d : Dev) (n : Fin 48) (ref : Int) : Runs (.trigPktFall n ref) d (d.pktFall n ref) := fun _ => rfl

end

section
variable {d : Dev} {n : Nat} {ref : Int}

theorem trigPktAct_of_fire {a : Act} {u : Nat} {f : Fire} (hen : d.b (R.TRIG_PKT_CFG n) F.TRIG_PKT_CFG_EN = true)
    (hmay : d.packetAllowed n = true) (hf : d.fireOf a = some (u, f)) :
    d.trigPktAct n a = d.setPkt n { d.pkt n with rising := (d.pkt n).rising ++ [{ place := f.ts, fire := some (u, f) }] } := by
  simp [Dev.trigPktAct, hen, hmay, hf]

theorem trigPktAct_of_not_allowed {a : Act} (hen : d.b (R.TRIG_PKT_CFG n) F.TRIG_PKT_CFG_EN = true)
    (hmay : d.packetAllowed n = false) : d.trigPktAct n a = d.packetDrop n := by
  simp [Dev.trigPktAct, hen, hmay]

/-- A rising packet whose delay is not negative and fits its field starts with that delay; without EDGES none falls after it. -/
theorem pktStart_of_fits {p : PktDue} {rest : List PktDue} (hq : (d.pkt n).rising = p :: rest) (hmay : d.packetAllowed n = true)
    (href : ref ≤ p.place) (hfit : delayField (p.place - ref) ≤ Config.trigDelayMax)
    (hedges : fld (d.rd (R.TRIG_PKT_CFG n)) F.TRIG_PKT_CFG_POL_EDGES = 0) :
    d.pktStart n ref = ((d.setPkt n { rising := rest, falling := (d.pkt n).falling }).emit
      (.trigPacket n true (delayField (p.place - ref)))).ledgerAll 2 n p.fire p.place := by
  have hwait : ¬ Config.trigDelayMax < delayField (p.place - ref) := Nat.not_lt.mpr hfit
  have hlate : ¬ p.place - ref < 0 := by omega
  simp [Dev.pktStart, hq, hmay, hwait, hlate, hedges]

/-- A falling packet is judged by its delay as a rising one is, and writes no ledger. -/
theorem pktFall_of_fits {place : Int} {rest : List Int} (hq : (d.pkt n).falling = place :: rest) (hmay : d.packetAllowed n = true)
    (href : ref ≤ place) (hfit : delayField (place - ref) ≤ Config.trigDelayMax) :
    d.pktFall n ref = (d.setPkt n { d.pkt n with falling := rest }).emit (.trigPacket n false (delayField (place - ref))) := by
  have hwait : ¬ Config.trigDelayMax < delayField (place - ref) := Nat.not_lt.mpr hfit
  have hlate : ¬ place - ref < 0 := by omega
  simp [Dev.pktFall, hq, hmay, hwait, hlate]

end

/-- Settles O15: each clause is the branch of the packet generator for a connection that may or may not send and a delay that fits. -/
theorem triggerPackets : Obligations.TriggerPackets := by
  unfold Obligations.TriggerPackets
  refine ⟨?scheduled, ?dropped, ?rising, ?falling⟩
  case scheduled => exact fun d d1 n a u f hact hen hmay hf => (runs_trigPkt hact).to_eq (trigPktAct_of_fire hen hmay hf)
  case dropped => exact fun d d1 n a hact hen hmay => (runs_trigPkt hact).to_eq (trigPktAct_of_not_allowed hen hmay)
  case rising =>
    exact fun d n ref p rest hq hmay href hfit hedges =>
      (runs_trigPktStart d n ref).to_eq (pktStart_of_fits hq hmay href hfit hedges)
  case falling =>
    exact fun d n ref place rest hq hmay href hfit => (runs_trigPktFall d n ref).to_eq (pktFall_of_fits hq hmay href hfit)

end Sys2Proof.Machine
end

section
/-! Scope: the Chain (R155 to R158, R164 to R169): each command by its function on the device, and that function by its branches. -/

namespace Sys2Proof.Machine

/-! Publication on a channel (R154 to R158). -/

section
variable {d : Dev} {ch src hop : Nat}

/-- Below hop 7 a publication is delivered and not cut (R163). -/
theorem publishNow_of_hop_lt (hhop : hop < 7) :
    d.publishNow ch src hop = ((d.bump (R.CHAIN_CH_CNT ch) whole 1).setChan ch
      { used := true, lastAt := d.now, freeAt := d.now + d.spacing ch, held := none }).deliver ch src hop :=
  if_neg (Nat.not_le.mpr hhop)

section
variable (hen : d.f (R.CHAIN_CH_CFG ch) F.CHAIN_CH_CFG_EN ≠ 0)
include hen

theorem publishCh_of_idle (hheld : (d.chan ch).held = none)
    (hidle : (d.chan ch).used = false ∨ (d.chan ch).lastAt ≠ d.now ∧ (d.chan ch).freeAt ≤ d.now) :
    d.publishCh ch src hop = d.publishNow ch src hop := by
  rcases hidle with hunused | ⟨hlast, hfree⟩
  · simp [Dev.publishCh, hen, hheld, hunused]
  · have hended : ¬ d.now < (d.chan ch).freeAt := Nat.not_lt.mpr hfree
    simp [Dev.publishCh, hen, hheld, hlast, hended]

theorem publishCh_of_busy (hheld : (d.chan ch).held = none) (hused : (d.chan ch).used = true) (hlast : (d.chan ch).lastAt ≠ d.now)
    (hbusy : d.now < (d.chan ch).freeAt) :
    d.publishCh ch src hop = d.setChan ch { d.chan ch with held := some (src, hop) } := by
  simp [Dev.publishCh, hen, hheld, hused, hlast, hbusy]

theorem publishCh_of_held {s0 h0 : Nat} (hheld : (d.chan ch).held = some (s0, h0)) :
    d.publishCh ch src hop = (d.setChan ch { d.chan ch with held := some (min s0 src, max h0 hop) }).mergeCount ch := by
  simp [Dev.publishCh, hen, hheld]

end

end

/-! Software fires (R164, R166). -/

section
variable {d : Dev} {m ch : Nat}

theorem softFire_of_permitted (h : d.mayFire m ch = true) : d.softFire m ch = (true, d.publishCh ch 511 0) := if_pos h

theorem softFire_of_denied (h : d.mayFire m ch = false) : d.softFire m ch = (false, d) := by
  simp [Dev.softFire, h]

end

section
variable {d : Dev} {m : Nat} {ch : Fin 64}

theorem runs_chainFire_of_permitted (h : d.mayFire m ch = true) : Runs (.chainFire m ch) d (d.publishCh ch 511 0) := by
  intro q
  change execChainFire m ch _ = _
  simp only [execChainFire, run_next, softFire_of_permitted h, if_true]

theorem runs_chainFire_of_denied (h : d.mayFire m ch = false) :
    Runs (.chainFire m ch) d (d.deny m true (denyAddr m R.CHAIN_FIRE)) := by
  intro q
  change execChainFire m ch _ = _
  simp [execChainFire, softFire_of_denied h]

end

theorem bitAt_toNat (v : DWord) (i : Nat) : Nat.bitAt v.toNat i = v.getLsbD i := by
  rw [← BitVec.testBit_toNat, Nat.testBit_eq_decide_div_mod_eq]
  rfl

/-- A high word with one bit and a low word of 0 have that bit, 32 places up, and no other. -/
theorem bitAt_dword_two_pow (k : Fin 32) (i : Nat) :
    Nat.bitAt (dword (BitVec.ofNat 32 (2 ^ k.val)) 0).toNat i = (i == 32 + k.val) := by
  have hk := k.isLt
  rw [bitAt_toNat, dword, BitVec.getLsbD_append, BitVec.getLsbD_ofNat, Nat.testBit_two_pow, Bool.eq_iff_iff]
  by_cases hlow : i < 32
  · have hne : i ≠ 32 + k.val := by omega
    simp [hlow, hne]
  · have hshift : k.val = i - 32 ↔ i = 32 + k.val := by omega
    have hword : i = 32 + k.val → i - 32 < 32 := by omega
    simpa [hlow, hshift] using hword

theorem filter_range_beq {c n : Nat} (h : c < n) : (List.range n).filter (· == c) = [c] := by
  rw [List.filter_beq, List.count_eq_one_of_mem List.nodup_range (List.mem_range.mpr h), List.replicate_one]

theorem filter_bitAt_dword_two_pow (k : Fin 32) :
    (List.range 64).filter (fun ch => Nat.bitAt (dword (BitVec.ofNat 32 (2 ^ k.val)) 0).toNat ch) = [32 + k.val] := by
  simp only [bitAt_dword_two_pow]
  exact filter_range_beq (by omega)

section
variable {d : Dev} {m ch : Nat} {lo hi : Word}
  (hbits : (List.range 64).filter (fun ch => Nat.bitAt (dword hi lo).toNat ch) = [ch])
include hbits

theorem fireMulti_of_permitted (h : d.mayFire m ch = true) : d.fireMulti m lo hi = d.publishCh ch 511 0 := by
  simp [Dev.fireMulti, hbits, softFire_of_permitted, h]

theorem fireMulti_of_denied (h : d.mayFire m ch = false) :
    d.fireMulti m lo hi = d.deny m true (denyAddr m R.CHAIN_FIRE_MULTI) := by
  simp [Dev.fireMulti, hbits, softFire_of_denied, h]

end

/-- With no low word held, the write of the high word fires the channels 32 to 63 that it names. -/
theorem runs_chainFireMulti {d : Dev} (m : Nat) (hi : Word) (hheld : d.heldLow R.CHAIN_FIRE_MULTI = none) :
    Runs (.chainFireMulti m hi) d ((d.fireMulti m 0 hi).unhold R.CHAIN_FIRE_MULTI) := by
  intro q
  change execChainFireMulti m hi _ = _
  simp only [execChainFireMulti, run_next, hheld, Option.getD_none]

/-- Settles O7: a permitted fire is a publication from source 511, in its branch for an idle, a busy or a holding channel. -/
theorem chainFiresChannel : Obligations.ChainFiresChannel := by
  unfold Obligations.ChainFiresChannel
  refine ⟨?idle, ?busy, ?merged, ?denied, ?multi, ?multiDenied⟩
  case idle =>
    exact fun d m ch hmay hen hheld hidle =>
      (runs_chainFire_of_permitted hmay).to_eq ((publishCh_of_idle hen hheld hidle).trans (publishNow_of_hop_lt (by decide)))
  case busy =>
    exact fun d m ch hmay hen hheld hused hlast hbusy =>
      (runs_chainFire_of_permitted hmay).to_eq (publishCh_of_busy hen hheld hused hlast hbusy)
  case merged =>
    exact fun d m ch src hop hmay hen hheld => (runs_chainFire_of_permitted hmay).to_eq (publishCh_of_held hen hheld)
  case denied => exact fun d m ch => runs_chainFire_of_denied
  case multi =>
    exact fun d m k hheld hmay => (runs_chainFireMulti m _ hheld).to_eq
      (congrArg (Dev.unhold _) (fireMulti_of_permitted (filter_bitAt_dword_two_pow k) hmay))
  case multiDenied =>
    exact fun d m k hheld hmay => (runs_chainFireMulti m _ hheld).to_eq
      (congrArg (Dev.unhold _) (fireMulti_of_denied (filter_bitAt_dword_two_pow k) hmay))

/-! The end of a spacing (R157). -/

theorem runs_chainHeldPublish {d : Dev} {ch : Fin 64} {src hop : Nat} (hheld : (d.chan ch).held = some (src, hop))
    (hfree : (d.chan ch).freeAt ≤ d.now) : Runs (.chainHeldPublish ch) d (d.publishNow ch src hop) := by
  intro q
  change execChainHeldPublish ch _ = _
  simp only [execChainHeldPublish, run_next, hheld, if_neg (Nat.not_lt.mpr hfree)]

/-! Interrupt registers (R165): each is a 64-bit register. -/

theorem plainWrite_low {off : Nat} {row : RegRow} (v : Word) (d : Dev) (hrow : RegMap.lookup off = some (row, 0))
    (hw : row.wide = true) : d.plainWrite off v = d.hold off v := by
  simp [Dev.plainWrite, hrow, hw]

theorem lookup_chainIrqStatus :
    RegMap.lookup R.CHAIN_IRQ_STATUS = some ({ base := 0x40020, wide := true, w1c := 0xFFFFFFFFFFFFFFFF }, 0) := rfl

theorem lookup_chainIrqEn :
    RegMap.lookup R.CHAIN_IRQ_EN = some ({ base := 0x40028, wide := true, rw := 0xFFFFFFFFFFFFFFFF }, 0) := rfl

section
variable (d : Dev) (en : Bool) (v : Word)

theorem runs_chainIrqWrite_low :
    Runs (.chainIrqWrite en false v) d (d.plainWrite (if en then R.CHAIN_IRQ_EN else R.CHAIN_IRQ_STATUS) v) := fun _ => rfl

theorem runs_chainIrqWrite_high :
    Runs (.chainIrqWrite en true v) d (d.plainWrite ((if en then R.CHAIN_IRQ_EN else R.CHAIN_IRQ_STATUS) + 4) v).irqResend :=
  fun _ => rfl

end

/-! Configuration (R166 to R168). -/

section
variable {d : Dev} {m off : Nat} {v : Word}

theorem runs_chainConfigWrite (hcfg : isChainConfig off = true) :
    Runs (.chainConfigWrite m off v) d (d.chainConfigWrite m off v) := by
  intro q
  change execChainConfigWrite m off v _ = _
  simp only [execChainConfigWrite, run_next, hcfg, if_true]

theorem chainConfigWrite_of_owned (hmode : d.glb.mode ≠ .service) (hown : ∀ ch ∈ d.configNeeds off v, d.ownsCh m ch = true) :
    d.chainConfigWrite m off v = d.plainWrite off v :=
  (if_neg hmode).trans (if_pos (List.all_eq_true.mpr hown))

theorem chainConfigWrite_of_not_owned {ch : Nat} (hmode : d.glb.mode ≠ .service) (hch : ch ∈ d.configNeeds off v)
    (hown : d.ownsCh m ch = false) : d.chainConfigWrite m off v = d.deny m true (denyAddr m off) := by
  have hnot : ¬ (d.configNeeds off v).all (fun ch => d.ownsCh m ch) = true :=
    fun hall => Bool.eq_false_iff.mp hown (List.all_eq_true.mp hall ch hch)
  exact (if_neg hmode).trans (if_neg hnot)

end

/-! Counters (R169). -/

section
variable {d d1 : Dev} {k : Fin 16} {a : Act}

theorem runs_chainCtrInc (h : d.activate (Task.ctrInc k) = (some a, d1)) : Runs (.chainCtrInc k) d (d1.ctrCount k a) := by
  intro q
  change execChainCtrInc k _ = _
  simp only [execChainCtrInc, run_next, h]

theorem runs_chainCtrClr (h : d.activate (Task.ctrClr k) = (some a, d1)) : Runs (.chainCtrClr k) d (d1.ctrClear k) := by
  intro q
  change execChainCtrClr k _ = _
  simp only [execChainCtrClr, run_next, h]

theorem runs_chainCtrValWrite (d : Dev) (k : Fin 16) (v : Word) : Runs (.chainCtrValWrite k v) d (d.ctrValWrite k v) := fun _ => rfl

theorem runs_chainCtrWindowEnd (hdue : (d.ctr k).winAt + 1 ≤ d.now) : Runs (.chainCtrWindowEnd k) d (d.ctrJudge k) := by
  intro q
  change execChainCtrWindowEnd k _ = _
  simp only [execChainCtrWindowEnd, run_next, if_pos hdue]

end

section
variable {d : Dev} {k : Nat}

theorem ctrJudge_of_no_window (hwin : (d.ctr k).window = false) : d.ctrJudge k = d := by
  simp [Dev.ctrJudge, hwin]

/-- A counter without RELOAD publishes once at THRESH, of which 0 stands for 1. -/
theorem ctrJudge_of_reached (hwin : (d.ctr k).window = true)
    (hval : max 1 (d.f (R.CHAIN_CTR_CFG k) F.CHAIN_CTR_CFG_THRESH) ≤ d.f (R.CHAIN_CTR_VAL k) ⟨0, 24⟩)
    (hreload : d.b (R.CHAIN_CTR_CFG k) F.CHAIN_CTR_CFG_RELOAD = false) (hfired : (d.ctr k).fired = false) :
    d.ctrJudge k = ((d.setCtr k { d.ctr k with window := false }).setCtr k
      { d.ctr k with window := false, fired := true }).publish (Src.chainCtr k) ((d.ctr k).winHop + 1) := by
  have hbelow : ¬ d.f (R.CHAIN_CTR_VAL k) ⟨0, 24⟩ < max 1 (d.f (R.CHAIN_CTR_CFG k) F.CHAIN_CTR_CFG_THRESH) := Nat.not_lt.mpr hval
  simp only [Dev.ctrJudge, hwin, hbelow, hreload, hfired]
  rfl

theorem ctrCount_of_no_window {a : Act} (hen : d.f (R.CHAIN_CTR_CFG k) F.CHAIN_CTR_CFG_EN ≠ 0) (hwin : (d.ctr k).window = false) :
    d.ctrCount k a = (d.sf (R.CHAIN_CTR_VAL k) ⟨0, 24⟩ (min (d.f (R.CHAIN_CTR_VAL k) ⟨0, 24⟩ + a.n) 0xFFFFFF)).setCtr k
      { d.ctr k with window := true, winAt := d.now, winHop := a.hop, winCnt := a.n } := by
  rw [Dev.ctrCount, if_neg hen, ctrJudge_of_no_window hwin]

theorem ctrClear_of_no_window (hwin : (d.ctr k).window = false) :
    d.ctrClear k = (d.sf (R.CHAIN_CTR_VAL k) ⟨0, 24⟩ 0).setCtr k { d.ctr k with fired := false } := by
  simp [Dev.ctrClear, hwin]

/-- The written count has 24 bits, so the clamp at 0xFFFFFF leaves it. -/
theorem ctrValWrite_of_no_window (v : Word) (hwin : (d.ctr k).window = false) :
    d.ctrValWrite k v = (d.sf (R.CHAIN_CTR_VAL k) ⟨0, 24⟩ (v.toNat % 2 ^ 24)).setCtr k { d.ctr k with fired := false } := by
  have hclamp : min (v.toNat % 2 ^ 24) 0xFFFFFF = v.toNat % 2 ^ 24 := by omega
  simp only [Dev.ctrValWrite, hwin, Bool.false_and, Bool.false_eq_true, if_false, Nat.add_zero, hclamp]

end

/-- Settles O8: each clause is a branch of the function that its command applies to the device. -/
theorem chainRunsCommands : Obligations.ChainRunsCommands := by
  unfold Obligations.ChainRunsCommands
  refine ⟨?spacing, ?irqLow, ?irqHigh, ?owned, ?notOwned, ?counted, ?cleared, ?set, ?judged⟩
  case spacing => exact fun d ch src hop => runs_chainHeldPublish
  case irqLow =>
    exact fun d v => ⟨(runs_chainIrqWrite_low d false v).to_eq (plainWrite_low v d lookup_chainIrqStatus rfl),
      (runs_chainIrqWrite_low d true v).to_eq (plainWrite_low v d lookup_chainIrqEn rfl)⟩
  case irqHigh => exact fun d v => ⟨runs_chainIrqWrite_high d false v, runs_chainIrqWrite_high d true v⟩
  case owned =>
    exact fun d m off v hcfg hmode hown => (runs_chainConfigWrite hcfg).to_eq (chainConfigWrite_of_owned hmode hown)
  case notOwned =>
    exact fun d m off v ch hcfg hmode hch hown => (runs_chainConfigWrite hcfg).to_eq (chainConfigWrite_of_not_owned hmode hch hown)
  case counted =>
    exact fun d d1 k a hact hen hwin => (runs_chainCtrInc hact).to_eq (ctrCount_of_no_window hen hwin)
  case cleared => exact fun d d1 k a hact hwin => (runs_chainCtrClr hact).to_eq (ctrClear_of_no_window hwin)
  case set => exact fun d k v hwin => (runs_chainCtrValWrite d k v).to_eq (ctrValWrite_of_no_window v hwin)
  case judged =>
    exact fun d k hwin hdue hval hreload hfired =>
      (runs_chainCtrWindowEnd hdue).to_eq (ctrJudge_of_reached hwin hval hreload hfired)

end Sys2Proof.Machine
end

section
/-! Scope: the states of a camera connection (R182 to R187, R195 to R201): each command by its function on the device, and that function
by its branches. -/

namespace Sys2Proof.Machine

/-! The commands. -/

section
variable (d : Dev) (n : Fin 48)

theorem runs_cllEnable (v : Word) : Runs (.cllEnable n v) d (d.cllCfgWrite n v) := fun _ => rfl

theorem runs_cllDisable (v : Word) : Runs (.cllDisable n v) d (d.cllCfgWrite n v) := fun _ => rfl

theorem runs_discoveryTick : Runs .discoveryTick d d.discoveryTick := fun _ => rfl

theorem runs_rateDetectDone (rate : Option (Fin 7)) : Runs (.rateDetectDone n rate) d (d.rateDetect n (rate.map (·.val))) := fun _ => rfl

theorem runs_cdrLock : Runs (.cdrLock n) d (d.cdrLock n) := fun _ => rfl

theorem runs_alignAcquire : Runs (.alignAcquire n) d (d.alignAcquire n) := fun _ => rfl

theorem runs_commaRealign : Runs (.commaRealign n) d (d.commaRealign n) := fun _ => rfl

theorem runs_losAssert : Runs (.losAssert n) d (d.losAssert n) := fun _ => rfl

theorem runs_losDeassert : Runs (.losDeassert n) d (d.losDeassert n) := fun _ => rfl

theorem runs_lossOfLock : Runs (.lossOfLock n) d (d.lossOfLock n) := fun _ => rfl

theorem runs_lossTimeout : Runs (.lossTimeout n) d (d.lossTimeout n) := fun _ => rfl

theorem runs_rxCodeError (disparity : Bool) : Runs (.rxCodeError n disparity) d (d.rxCodeError n disparity) := fun _ => rfl

theorem runs_discoverTimeout : Runs (.discoverTimeout n) d (d.discoverTimeout n) := fun _ => rfl

theorem runs_trainTimeout : Runs (.trainTimeout n) d (d.trainTimeout n) := fun _ => rfl

theorem runs_standbyPacketWake : Runs (.standbyPacketWake n) d (d.standbyWake n) := fun _ => rfl

end

section
variable {d : Dev} {n : Nat}

@[simp] theorem live_up : ConnState.up.live = true := rfl

@[simp] theorem live_discover : ConnState.discover.live = false := rfl

theorem withPresent_congr {g g' : Dev → Dev} (h : g d = g' d) : d.withPresent n g = d.withPresent n g' := by
  simp only [Dev.withPresent, h]

/-! EN and the discovery tick (R195, R197). -/

/-- Off the instants of the discovery ticks a rise of EN goes no further than ABSENT. -/
theorem cllCfgWrite_of_rise {v : Word} (hwas : d.b (R.CLL_CFG n) F.CLL_CFG_EN = false)
    (hen : (d.plainWrite (R.CLL_CFG n) v).b (R.CLL_CFG n) F.CLL_CFG_EN = true)
    (htick : ((d.plainWrite (R.CLL_CFG n) v).toState .absent n).ts % 250000000 ≠ 0) :
    d.cllCfgWrite n v = (d.plainWrite (R.CLL_CFG n) v).toState .absent n := by
  simp [Dev.cllCfgWrite, hwas, hen, htick]

theorem cllCfgWrite_of_fall {v : Word} (hwas : d.b (R.CLL_CFG n) F.CLL_CFG_EN = true)
    (hen : (d.plainWrite (R.CLL_CFG n) v).b (R.CLL_CFG n) F.CLL_CFG_EN = false) :
    d.cllCfgWrite n v = (d.plainWrite (R.CLL_CFG n) v).withPresent n fun y => y.toState .off n := by
  simp [Dev.cllCfgWrite, hwas, hen]

theorem discoveryTick_of_active (htick : d.ts % 250000000 = 0) (hpwr : d.pwr.state = .active) :
    d.discoveryTick = (List.range 48).foldl (fun x n =>
      if (x.conn n).state = .absent ∧ !(x.conn n).los then x.toState .discover n else x) d := by
  simp [Dev.discoveryTick, htick, hpwr]

/-! Rate, lock and alignment (R182, R183, R185). -/

theorem lossOfLock_of_discover (hst : (d.conn n).state = .discover) :
    d.lossOfLock n = d.setConn n { d.conn n with locked := false, aligned := false, lolAt := some d.now } := by
  simp [Dev.lossOfLock, hst]

theorem lossOfLock_of_up (hst : (d.conn n).state = .up) :
    d.lossOfLock n = (((d.setConn n { d.conn n with locked := false, aligned := false, lolAt := some d.now }).bump
      (R.CLL_CNT1 n) F.CLL_CNT1_LOL_CNT 1).cllErr n 1).lossStart n := by
  simp [Dev.lossOfLock, hst]

theorem rateDetect_some_of_discover (r : Nat) (hst : (d.conn n).state = .discover) (hlos : (d.conn n).los = false) :
    d.rateDetect n (some r) = d.setConn n { d.conn n with rate := r } := by
  simp [Dev.rateDetect, hst, hlos]

theorem rateDetect_none_of_discover (hst : (d.conn n).state = .discover) (hlos : (d.conn n).los = false) :
    d.rateDetect n none = d.lossOfLock n := by
  simp [Dev.rateDetect, hst, hlos]

theorem cdrLock_of_discover (hst : (d.conn n).state = .discover) (hlos : (d.conn n).los = false) :
    d.cdrLock n = d.setConn n { d.conn n with locked := true } := by
  simp [Dev.cdrLock, hst, hlos]

theorem alignAcquire_of_discover (hst : (d.conn n).state = .discover) (hlock : (d.conn n).locked = true)
    (hlos : (d.conn n).los = false) (hdisc : (d.conn n).disc = none) (hcmd : (d.conn n).cmd = none)
    (hjoin : (d.conn n).joined = false) :
    d.alignAcquire n = (d.setConn n { d.conn n with aligned := true }).modConn n fun y => { y with disc := some .standard } := by
  simp [Dev.alignAcquire, hst, hlock, hlos, hdisc, hcmd, hjoin]

theorem alignAcquire_of_up (hst : (d.conn n).state = .up) (hlock : (d.conn n).locked = true) (hlos : (d.conn n).los = false) :
    d.alignAcquire n = (d.setConn n { d.conn n with aligned := true }).lossEnd n := by
  simp [Dev.alignAcquire, hst, hlock, hlos]

theorem commaRealign_of_up (halign : (d.conn n).aligned = true) (hst : (d.conn n).state = .up) :
    d.commaRealign n = (((d.setConn n { d.conn n with aligned := false }).bump (R.CLL_CNT2 n)
      F.CLL_CNT2_ALIGN_LOSS_CNT 1).cllErr n 2).lossStart n := by
  simp [Dev.commaRealign, halign, hst]

/-! Loss of signal (R184, R186). -/

theorem losAssert_of_up (hst : (d.conn n).state = .up) (hlos : (d.conn n).los = false) :
    d.losAssert n = d.withPresent n fun d => (((d.setConn n { d.conn n with los := true, locked := false, aligned := false }).bump
      (R.CLL_CNT1 n) F.CLL_CNT1_LOS_CNT 1).cllErr n 0).lossStart n := by
  have hclear : ¬ ((d.conn n).state = .off ∨ (d.conn n).los = true) := by simp [hst, hlos]
  exact (if_neg hclear).trans (withPresent_congr (by simp only [hst]))

theorem losAssert_of_discover (hst : (d.conn n).state = .discover) (hlos : (d.conn n).los = false) :
    d.losAssert n = d.withPresent n fun d =>
      (d.setConn n { d.conn n with los := true, locked := false, aligned := false }).toState .absent n := by
  have hclear : ¬ ((d.conn n).state = .off ∨ (d.conn n).los = true) := by simp [hst, hlos]
  exact (if_neg hclear).trans (withPresent_congr (by simp only [hst]))

theorem losDeassert_of_absent (hst : (d.conn n).state = .absent) :
    d.losDeassert n = d.withPresent n fun d => d.setConn n { d.conn n with los := false } := by
  have hon : (d.conn n).state ≠ .off := by simp [hst]
  exact (if_neg hon).trans (withPresent_congr (by simp [hst]))

/-- With no other connection in the group, none is sent to DISCOVER. -/
theorem lossTimeout_of_up_alone (hdue : d.due (.loss n) = true) (hst : (d.conn n).state = .up) (hlos : (d.conn n).los = true)
    (halone : (d.disarm (.loss n)).members (d.conn n).master = [n]) :
    d.lossTimeout n = (d.disarm (.loss n)).toState .absent n := by
  simp [Dev.lossTimeout, hdue, hst, hlos, halone]

theorem rxCodeError_of_up (disparity : Bool) (hst : (d.conn n).state = .up) :
    d.rxCodeError n disparity = (d.bump (R.CLL_CNT0 n)
      (if disparity then F.CLL_CNT0_DISP_ERR_CNT else F.CLL_CNT0_CODE_ERR_CNT) 1).cllErr n 3 := by
  simp [Dev.rxCodeError, hst]

/-! The ends of discovery, training and standby (R200, R201, R204). -/

theorem discoverTimeout_of_due (hst : (d.conn n).state = .discover) (hjoin : (d.conn n).joined = false)
    (hdue : d.due (.discover n) = true) : d.discoverTimeout n = (d.discFail n).toState .absent n := by
  simp [Dev.discoverTimeout, hst, hjoin, hdue]

theorem groupFail_of_alone {m : Nat} (halone : d.members m = [n]) : d.groupFail m = (d.discFail n).toState .absent n := by
  simp [Dev.groupFail, halone]

theorem trainTimeout_of_due (hst : (d.conn n).state = .train) (hdue : d.due (.train n) = true) :
    d.trainTimeout n = d.groupFail (d.conn n).master := if_pos ⟨hst, hdue⟩

theorem standbyWake_of_standby (hst : (d.conn n).state = .standby) : d.standbyWake n = d.toState .up n := if_pos hst

end

/-- Settles O17: each clause is a branch of the function that its command applies to the device. -/
theorem connectionStatesChange : Obligations.ConnectionStatesChange := by
  unfold Obligations.ConnectionStatesChange
  refine ⟨?rise, ?fall, ?tick, ?rate, ?noRate, ?lock, ?alignDiscover, ?alignUp, ?realign, ?losUp, ?losDiscover, ?losClear, ?lockLost,
    ?lossEnded, ?disparity, ?code, ?discoverEnd, ?trainEnd, ?wake⟩
  case rise => exact fun d n v hwas hen htick => (runs_cllEnable d n v).to_eq (cllCfgWrite_of_rise hwas hen htick)
  case fall => exact fun d n v hwas hen => (runs_cllDisable d n v).to_eq (cllCfgWrite_of_fall hwas hen)
  case tick => exact fun d htick hpwr => (runs_discoveryTick d).to_eq (discoveryTick_of_active htick hpwr)
  case rate =>
    exact fun d n r hst hlos => (runs_rateDetectDone d n (some r)).to_eq (rateDetect_some_of_discover r hst hlos)
  case noRate =>
    exact fun d n hst hlos =>
      (runs_rateDetectDone d n none).to_eq ((rateDetect_none_of_discover hst hlos).trans (lossOfLock_of_discover hst))
  case lock => exact fun d n hst hlos => (runs_cdrLock d n).to_eq (cdrLock_of_discover hst hlos)
  case alignDiscover =>
    exact fun d n hst hlock hlos hdisc hcmd hjoin =>
      (runs_alignAcquire d n).to_eq (alignAcquire_of_discover hst hlock hlos hdisc hcmd hjoin)
  case alignUp => exact fun d n hst hlock hlos => (runs_alignAcquire d n).to_eq (alignAcquire_of_up hst hlock hlos)
  case realign => exact fun d n halign hst => (runs_commaRealign d n).to_eq (commaRealign_of_up halign hst)
  case losUp => exact fun d n hst hlos => (runs_losAssert d n).to_eq (losAssert_of_up hst hlos)
  case losDiscover => exact fun d n hst hlos => (runs_losAssert d n).to_eq (losAssert_of_discover hst hlos)
  case losClear => exact fun d n hst => (runs_losDeassert d n).to_eq (losDeassert_of_absent hst)
  case lockLost => exact fun d n hst => (runs_lossOfLock d n).to_eq (lossOfLock_of_up hst)
  case lossEnded =>
    exact fun d n hdue hst hlos halone => (runs_lossTimeout d n).to_eq (lossTimeout_of_up_alone hdue hst hlos halone)
  case disparity => exact fun d n hst => (runs_rxCodeError d n true).to_eq (rxCodeError_of_up true hst)
  case code => exact fun d n hst => (runs_rxCodeError d n false).to_eq (rxCodeError_of_up false hst)
  case discoverEnd =>
    exact fun d n hst hjoin hdue => (runs_discoverTimeout d n).to_eq (discoverTimeout_of_due hst hjoin hdue)
  case trainEnd =>
    exact fun d n hst hdue halone =>
      (runs_trainTimeout d n).to_eq ((trainTimeout_of_due hst hdue).trans (groupFail_of_alone halone))
  case wake => exact fun d n hst => (runs_standbyPacketWake d n).to_eq (standbyWake_of_standby hst)

end Sys2Proof.Machine
end

section
/-! Scope: the control commands of the host mailbox (R192, R194, R207, R227): each command by its function on the device, and that
function by its branches. -/

namespace Sys2Proof.Machine

section
variable (d : Dev) (n : Fin 48)

theorem runs_ctrlCommandStart : Runs (.ctrlCommandStart n) d (d.ctrlNext n) := fun _ => rfl

theorem runs_ctrlAckReceive (a : ControlAck) : Runs (.ctrlAckReceive n a) d (d.ctrlAck n a) := fun _ => rfl

theorem runs_ctrlTimeout : Runs (.ctrlTimeout n) d (d.ctrlTimeout n) := fun _ => rfl

theorem runs_mailboxGo (v : Word) : Runs (.mailboxGo n v) d (d.ctrlCmdWrite n (v ||| 0x80000000)) := fun _ => rfl

end

section
variable {d : Dev} {n : Nat}

/-- The mailbox comes last: its command starts where no parameter set and no step of discovery waits. -/
theorem ctrlNext_of_mailbox {m : MailCmd} (hcmd : (d.conn n).cmd = none) (hpwr : d.pwr.state = .active)
    (hset : (d.conn n).setQ = []) (hdisc : (d.conn n).disc = none) (hmail : (d.conn n).mailbox = some m)
    (hlive : (d.conn n).state.live = true) (hmaster : d.isMaster n = true) :
    d.ctrlNext n = (d.ctrlStart n .mailbox).emit (.control n m.write m.addr m.size m.data) := by
  simp [Dev.ctrlNext, hcmd, hpwr, hset, hdisc, hmail, hlive, hmaster]

/-- A successful final acknowledgement of a write brings no data to store. -/
theorem ctrlAck_of_mailbox_write {m : MailCmd} {a : ControlAck} (hcmd : (d.conn n).cmd = some .mailbox)
    (hmail : (d.conn n).mailbox = some m) (hwrite : m.write = true) (hcrc : a.crcOk = true) (hfinal : a.wait = false)
    (hfits : a.fits = true) (hcode : a.code = 0) :
    d.ctrlAck n a = ((d.ctrlDone n).sf (R.CLL_CTRL_STATUS n) F.CLL_CTRL_STATUS_ACK_CODE 0).mailboxEnd n 0 := by
  simp [Dev.ctrlAck, hcmd, hmail, hwrite, hcrc, hfinal, hfits, hcode]

theorem ctrlTimeout_of_mailbox (hcmd : (d.conn n).cmd = some .mailbox) (hdue : d.due (.ctrl n) = true) :
    d.ctrlTimeout n = ((d.ctrlDone n).bump (R.CLL_CNT3 n) F.CLL_CNT3_CTRL_TMO_CNT 1).mailboxEnd n 1 := by
  simp [Dev.ctrlTimeout, hcmd, hdue]

section
variable {w : Word} (hgo : fld w F.CLL_CTRL_CMD_GO = 1) (hidle : d.b (R.CLL_CTRL_STATUS n) F.CLL_CTRL_STATUS_BUSY = false)
include hgo hidle

theorem ctrlCmdWrite_of_not_master (hmaster : d.isMaster n = false) :
    d.ctrlCmdWrite n w = (d.plainWrite (R.CLL_CTRL_CMD n) w).mailboxEnd n 3 := by
  simp [Dev.ctrlCmdWrite, hgo, hidle, hmaster]

/-- GO of a write of 4 bytes takes the address and the first word of the buffer. -/
theorem ctrlCmdWrite_of_write_four (hmaster : d.isMaster n = true) (hlive : (d.conn n).state.live = true)
    (hsize : fld w F.CLL_CTRL_CMD_SIZE = 4) (hwrite : fld w F.CLL_CTRL_CMD_WRITE = 1) :
    d.ctrlCmdWrite n w = (let d1 := d.plainWrite (R.CLL_CTRL_CMD n) w
      (((d1.modConn n fun x => { x with mailbox := some (MailCmd.mk true (d1.rd (R.CLL_CTRL_ADDR n)).toNat 4
        (leBytes 4 (d1.rd (R.CLL_CTRL_BUF n 0)).toNat)) }).sb (R.CLL_CTRL_STATUS n) F.CLL_CTRL_STATUS_BUSY true).sf
        (R.CLL_CTRL_STATUS n) F.CLL_CTRL_STATUS_ACK_CODE 0).sf (R.CLL_CTRL_STATUS n) F.CLL_CTRL_STATUS_WAITS 0) := by
  simp [Dev.ctrlCmdWrite, hgo, hidle, hmaster, hlive, hsize, hwrite]

end

end

/-- Settles O19: each clause is the branch for the mailbox of the function that its command applies to the device. -/
theorem controlCommandsRun : Obligations.ControlCommandsRun := by
  unfold Obligations.ControlCommandsRun
  refine ⟨?start, ?acknowledged, ?timedOut, ?refused, ?captured⟩
  case start =>
    intro d n m hcmd hpwr hset hdisc hmail hst hmaster
    have hlive : (d.conn n).state.live = true := by rw [hst, live_up]
    exact (runs_ctrlCommandStart d n).to_eq (ctrlNext_of_mailbox hcmd hpwr hset hdisc hmail hlive hmaster)
  case acknowledged =>
    exact fun d n m a hcmd hmail hwrite hcrc hfinal hfits hcode =>
      (runs_ctrlAckReceive d n a).to_eq (ctrlAck_of_mailbox_write hcmd hmail hwrite hcrc hfinal hfits hcode)
  case timedOut => exact fun d n hcmd hdue => (runs_ctrlTimeout d n).to_eq (ctrlTimeout_of_mailbox hcmd hdue)
  case refused =>
    rintro d n v _ rfl hgo hidle hmaster
    exact (runs_mailboxGo d n v).to_eq (ctrlCmdWrite_of_not_master hgo hidle hmaster)
  case captured =>
    rintro d _ n v _ rfl rfl hgo hidle hmaster hst hsize hwrite
    have hlive : (d.conn n).state.live = true := by rw [hst, live_up]
    exact (runs_mailboxGo d n v).to_eq (ctrlCmdWrite_of_write_four hgo hidle hmaster hlive hsize hwrite)

end Sys2Proof.Machine
end

section
/-! Scope: the event packets of a camera connection and the buffer they are staged in (R209). -/

namespace Sys2Proof.Machine

/-- The bytes that the staged event packets take. -/
def Conn.staged (x : Conn) : Nat := (x.events.map (fun e => e.2.length)).sum

theorem runs_eventPacketReceive (d : Dev) (n : Fin 48) (crcOk : Bool) (data : List Byte) :
    Runs (.eventPacketReceive n crcOk data) d (d.eventPacket n crcOk data) := fun _ => rfl

section
variable (d : Dev) (n : Nat)

@[simp] theorem publish_cll (src hop : Nat) : (d.publish src hop).cll = d.cll := by
  rw [publish_frame]

@[simp] theorem cllErr_cll (bit : Nat) : (d.cllErr n bit).cll = d.cll := by
  rw [Dev.cllErr, err_frame]

@[simp] theorem conn_setConn_self (x : Conn) : (d.setConn n x).conn n = x := Tbl.get_set_self _ _ _ _

theorem conn_setConn_ne (x : Conn) {k : Nat} (h : k ≠ n) : (d.setConn n x).conn k = d.conn k := Tbl.get_set_ne _ _ _ h

/-- An event packet leaves the camera connections, or is staged on its own where it fits; the counters and error bits that report it
are registers. -/
theorem eventPacket_cll_cases (crcOk : Bool) (data : List Byte) :
    (d.eventPacket n crcOk data).cll = d.cll ∨
    (d.conn n).staged + data.length ≤ 2048 ∧
      (d.eventPacket n crcOk data).cll = (d.setConn n { d.conn n with events := (d.conn n).events ++ [(d.ts, data)] }).cll := by
  unfold Dev.eventPacket
  dsimp only
  split
  · exact .inl rfl
  · split
    · exact .inl (bump_cll ..)
    · split
      case isTrue => exact .inl ((cllErr_cll ..).trans (bump_cll ..))
      case isFalse hfits => exact .inr ⟨Nat.not_lt.mp hfits, (publish_cll ..).trans (count_cll ..)⟩

end

theorem conn_congr {d e : Dev} (h : d.cll = e.cll) (k : Nat) : d.conn k = e.conn k := by
  unfold Dev.conn
  rw [h]

theorem staged_append (x : Conn) (ts : Nat) (data : List Byte) :
    ({ x with events := x.events ++ [(ts, data)] } : Conn).staged = x.staged + data.length := by
  simp [Conn.staged]

theorem staged_eventPacket_le (d : Dev) (n : Nat) (crcOk : Bool) (data : List Byte) {k : Nat} (h : (d.conn k).staged ≤ 2048) :
    ((d.eventPacket n crcOk data).conn k).staged ≤ 2048 := by
  obtain hkept | ⟨hfits, hstaged⟩ := eventPacket_cll_cases d n crcOk data
  · rwa [conn_congr hkept]
  · rw [conn_congr hstaged]
    by_cases hk : k = n
    · subst hk
      rw [conn_setConn_self, staged_append]
      exact hfits
    · rwa [conn_setConn_ne _ _ _ hk]

/-- Settles O20: only a packet that fits is staged, and on no connection but its own. -/
theorem eventBufferNeverOverflows : Obligations.EventBufferNeverOverflows :=
  fun d n crcOk data hbound =>
    ⟨d.eventPacket n crcOk data, runs_eventPacketReceive d n crcOk data, fun k => staged_eventPacket_le d n crcOk data (hbound k)⟩

end Sys2Proof.Machine
end

section
/-! Scope: the match of a frame to its camera's ledger (R255). -/

namespace Sys2Proof.Machine

section
variable {lo hi : Nat} {t : Int} {e : LedgerEntry}

/-- An entry more than LAT_MAX before the arrival is skipped. -/
theorem matchLoop_of_stale (es : List LedgerEntry) (h : hi ≠ 0 ∧ e.ts + hi < t) :
    matchLoop lo hi t (e :: es) = (e :: (matchLoop lo hi t es).1, (matchLoop lo hi t es).2.1, (matchLoop lo hi t es).2.2) :=
  if_pos h

/-- An entry less than LAT_MIN before the arrival ends the loop, and stays. -/
theorem matchLoop_of_recent (es : List LedgerEntry) (h : ¬ (hi ≠ 0 ∧ e.ts + hi < t)) (hlo : t - lo < e.ts) :
    matchLoop lo hi t (e :: es) = ([], none, e :: es) :=
  (if_neg h).trans (if_pos hlo)

/-- Any other entry is the match. -/
theorem matchLoop_of_match (es : List LedgerEntry) (h : ¬ (hi ≠ 0 ∧ e.ts + hi < t)) (hlo : ¬ t - lo < e.ts) :
    matchLoop lo hi t (e :: es) = ([], some e, es) :=
  (if_neg h).trans (if_neg hlo)

end

/-- Settles O22: by induction on the ledger, each entry being skipped, the end of the loop, or its match. -/
theorem ledgerMatchLosesNothing : Obligations.LedgerMatchLosesNothing := by
  intro lo hi t es
  induction es with
  | nil => simp [matchLoop]
  | cons e es ih =>
    by_cases hstale : hi ≠ 0 ∧ e.ts + hi < t
    case pos =>
      obtain ⟨hall, hskips, htaken⟩ := ih
      rw [matchLoop_of_stale es hstale]
      exact ⟨congrArg (e :: ·) hall, List.forall_mem_cons.mpr ⟨hstale, hskips⟩, htaken⟩
    case neg =>
      by_cases hrecent : t - lo < e.ts
      case pos => simp [matchLoop_of_recent es hstale hrecent]
      case neg =>
        have hlate : hi ≠ 0 → t ≤ e.ts + hi := fun hne => Int.not_lt.mp fun hlt => hstale ⟨hne, hlt⟩
        rw [matchLoop_of_match es hstale hrecent]
        refine ⟨rfl, List.forall_mem_nil _, ?_⟩
        rintro _ ⟨⟩
        exact ⟨Int.not_lt.mp hrecent, hlate⟩

end Sys2Proof.Machine
end

section
/-! Scope: the Ply queues (R232 to R238) and the frame assembler (R244 to R257): each command by its function on the device, and that
function by its branches. -/

namespace Sys2Proof.Machine

/-! The commands. -/

section
variable (d : Dev) (q cam : Fin 48) (room : Bool) (v : Word)

theorem runs_plyPacketCommit (k : StreamPacket) (crcOk cut : Bool) (span : Nat) :
    Runs (.plyPacketCommit q k crcOk cut span) d (d.plyCommit q k crcOk cut span) := fun _ => rfl

theorem runs_asmPacketVisible : Runs (.asmPacketVisible q room) d (d.packetVisible q room) := fun _ => rfl

theorem runs_mergeSkewExpire : Runs (.mergeSkewExpire cam room) d (d.mergeExpire cam room) := fun _ => rfl

theorem runs_ptrFault : Runs (.ptrFault q room) d (d.ptrFault q room) := fun _ => rfl

theorem runs_queueResetEnd : Runs (.queueResetEnd q) d (d.modPly q fun p => { p with resetting := false }) := fun _ => rfl

theorem runs_qreset : Runs (.qreset q room) d (d.asmCtlWrite q 2 room) := fun _ => rfl

theorem runs_close : Runs (.close cam) d (d.asmCtlWrite cam 1 true) := fun _ => rfl

theorem runs_flush : Runs (.flush cam) d (d.asmCtlWrite cam 4 true) := fun _ => rfl

theorem runs_asmCamEnable : Runs (.asmCamEnable cam v) d (d.camCfgWrite cam (v ||| 0x80000000) true) := fun _ => rfl

theorem runs_asmCamDisable : Runs (.asmCamDisable cam v room) d (d.camCfgWrite cam (v &&& 0x7FFFFFFF) room) := fun _ => rfl

theorem runs_asmClose {d1 : Dev} {a : Act} (h : d.activate (Task.asmClose cam) = (some a, d1)) :
    Runs (.asmClose cam) d (d1.closeRequest cam) := by
  intro pending
  change execAsmClose cam _ = _
  simp only [execAsmClose, run_next, h]

end

/-! The end of a packet at its queue (R232, R233, R235, R241). -/

section
variable {d : Dev} {q : Nat} {k : StreamPacket} {crcOk cut : Bool} {span : Nat}

theorem standbyWake_of_up (hst : (d.conn q).state = .up) : d.standbyWake q = d :=
  if_neg (by simp [hst])

/-- Where the free space leaves FORFEIT beyond the need, no mark is forfeited. -/
theorem forfeitFor_of_room {need : Nat} (fuel : Nat) (h : d.forfeitEntries q + need ≤ (d.ply q).free) :
    d.forfeitFor q need fuel = d := by
  cases fuel with
  | zero => rfl
  | succ fuel => exact if_pos h

/-- Where the queue has room for a packet, no mark is forfeited, and the packet is committed or frogged by what it is. -/
theorem plyCommit_of_room (hst : (d.conn q).state = .up) (hrun : (d.ply q).resetting = false)
    (hroom : d.forfeitEntries q + packetEntries k ≤ (d.ply q).free) :
    d.plyCommit q k crcOk cut span = (let d0 := d.modConn q fun y => { y with streamAt := some d.now }
      if !crcOk ∨ cut ∨ 16384 < k.bytes then (d0.bump (R.ASM_CNT0 q) F.ASM_CNT0_FROG_CNT 1).asmErr q 10
      else (d0.setPly q { d.ply q with
        commit := (d.ply q).commit + packetEntries k,
        packets := (d.ply q).packets ++
          [PlyPacket.mk (d.ply q).commit (packetEntries k) ((d.ts : Int) - span) 0 false k] }).plyHwm q) := by
  have hlive : (d.conn q).state.live = true := by rw [hst, live_up]
  have hply : ∀ g, (d.modConn q g).ply q = d.ply q := fun _ => rfl
  have hkept : ∀ g, (d.modConn q g).forfeitFor q (packetEntries k) 4 = d.modConn q g := fun _ => forfeitFor_of_room 4 hroom
  have hfits : ¬ (d.ply q).free < packetEntries k := by omega
  simp [Dev.plyCommit, hlive, standbyWake_of_up hst, hply, hrun, hkept, hfits]

end

/-! Packets in tag order (R244, R245). -/

section
variable {d : Dev} {c q : Nat} {room : Bool}

@[simp] theorem asmCam_setAsmCam_self (x : AsmCam) : (d.setAsmCam c x).asmCam c = x := Tbl.get_set_self _ _ _ _

/-- The one waiting packet is taken where it bears the expected tag. -/
theorem mergeReady_of_alone {e : Nat} {w : Nat × Nat × PlyPacket} (hexp : (d.asmCam c).expected = some e)
    (hwait : (d.asmCam c).waiting = [w]) (htag : w.2.2.pkt.tag % 256 = e % 256) :
    d.mergeReady c room 1 = ((d.setAsmCam c { d.asmCam c with waiting := [], expected := some ((e + 1) % 256) }).takePacket
      c w.1 w.2.2 room).taken w.1 w.2.2.start (some c) := by
  simp [Dev.mergeReady, hexp, hwait, htag]

section
variable {p : PlyPacket} (hcam : d.camOfQueue q = some c) (himg : p.pkt.imageId = true) (hwait : (d.asmCam c).waiting = [])
  (hexp : (d.asmCam c).expected = none) (hp : (d.ply q).packets.find? (fun k => !k.taken) = some p)
include hcam himg hwait hexp hp

/-- With no packet waiting and no tag expected, the packet that becomes visible waits alone, its tag the expected one. -/
theorem packetVisible_eq_mergeReady : d.packetVisible q room =
    ((d.setAsmCam c { d.asmCam c with
      waiting := [(q, d.now, p)], expected := some (p.pkt.tag % 256) }).mergeReady c room 1).mergeTimer c := by
  simp [Dev.packetVisible, hcam, himg, hwait, hexp, hp]

theorem packetVisible_of_first : d.packetVisible q room =
    ((((d.setAsmCam c { d.asmCam c with waiting := [(q, d.now, p)], expected := some (p.pkt.tag % 256) }).setAsmCam c
      { d.asmCam c with waiting := [], expected := some ((p.pkt.tag % 256 + 1) % 256) }).takePacket c q p room).taken q p.start
      (some c)).mergeTimer c := by
  have hself := asmCam_setAsmCam_self (d := d) (c := c)
    { d.asmCam c with waiting := [(q, d.now, p)], expected := some (p.pkt.tag % 256) }
  rw [packetVisible_eq_mergeReady hcam himg hwait hexp hp, mergeReady_of_alone (congrArg AsmCam.expected hself)
    (congrArg AsmCam.waiting hself) (Nat.mod_mod _ _).symm, hself]

end

/-- One missing tag before the one packet that waits is given up. -/
theorem mergeExpire_of_one_missing {e : Nat} {w : Nat × Nat × PlyPacket} (hexp : (d.asmCam c).expected = some e)
    (hwait : (d.asmCam c).waiting = [w]) (hdue : d.due (.mergeSkew c) = true) (htag : tagAfter w.2.2.pkt.tag e = 1) :
    d.mergeExpire c room = (((d.missPacket c w.2.2.ts room).modAsmCam c fun y =>
      { y with expected := some ((e + 1) % 256) }).mergeReady c room 1).mergeTimer c := by
  simp [Dev.mergeExpire, hexp, hwait, hdue, htag]

end

/-! Software (R238, R244, R254, R257). -/

section
variable {d : Dev} {c : Nat} {v : Word} (room : Bool)

theorem asmCtlWrite_qreset : d.asmCtlWrite c 2 room = d.plyReset c room := rfl

theorem asmCtlWrite_close : d.asmCtlWrite c 1 room = d.closeRequest c := rfl

theorem asmCtlWrite_flush : d.asmCtlWrite c 4 room = d.ledgerFlush c := rfl

theorem camCfgWrite_of_rise (hwas : d.b (R.ASM_CAM_CFG c) F.ASM_CAM_CFG_EN = false)
    (hen : (d.plainWrite (R.ASM_CAM_CFG c) v).b (R.ASM_CAM_CFG c) F.ASM_CAM_CFG_EN = true) :
    d.camCfgWrite c v room = (d.plainWrite (R.ASM_CAM_CFG c) v).camEnable c := by
  simp [Dev.camCfgWrite, hwas, hen]

theorem camCfgWrite_of_fall (hwas : d.b (R.ASM_CAM_CFG c) F.ASM_CAM_CFG_EN = true)
    (hen : (d.plainWrite (R.ASM_CAM_CFG c) v).b (R.ASM_CAM_CFG c) F.ASM_CAM_CFG_EN = false) :
    d.camCfgWrite c v room = (d.plainWrite (R.ASM_CAM_CFG c) v).camDisable c room := by
  simp [Dev.camCfgWrite, hwas, hen]

end

/-- Settles O21: each clause is a branch of the function that its command applies to the device. -/
theorem plyAndAssemblerRun : Obligations.PlyAndAssemblerRun := by
  unfold Obligations.PlyAndAssemblerRun
  refine ⟨?committed, ?frogged, ?visible, ?missed, ?fault, ?resetEnd, ?reset, ?close, ?flush, ?chainClose, ?enable, ?disable⟩
  case committed =>
    rintro d _ q k span hst hrun rfl hroom hsize
    have hgood : ¬ ((!true) = true ∨ false = true ∨ 16384 < k.bytes) := by simp [hsize]
    exact (runs_plyPacketCommit d q k true false span).to_eq ((plyCommit_of_room hst hrun hroom).trans (if_neg hgood))
  case frogged =>
    rintro d _ q k cut span hst hrun rfl hroom
    exact (runs_plyPacketCommit d q k false cut span).to_eq ((plyCommit_of_room hst hrun hroom).trans (if_pos (.inl rfl)))
  case visible =>
    exact fun d q room cam p hcam himg hwait hexp hp =>
      (runs_asmPacketVisible d q room).to_eq (packetVisible_of_first hcam himg hwait hexp hp)
  case missed =>
    exact fun d cam room e w hexp hwait hdue htag =>
      (runs_mergeSkewExpire d cam room).to_eq (mergeExpire_of_one_missing hexp hwait hdue htag)
  case fault => exact runs_ptrFault
  case resetEnd => exact runs_queueResetEnd
  case reset => exact fun d q room => (runs_qreset d q room).to_eq (asmCtlWrite_qreset room)
  case close => exact fun d cam => (runs_close d cam).to_eq (asmCtlWrite_close true)
  case flush => exact fun d cam => (runs_flush d cam).to_eq (asmCtlWrite_flush true)
  case chainClose => exact fun d d1 cam a hact => runs_asmClose d cam hact
  case enable => rintro d _ cam v rfl hwas hen; exact (runs_asmCamEnable d cam v).to_eq (camCfgWrite_of_rise true hwas hen)
  case disable =>
    rintro d _ cam v room rfl hwas hen
    exact (runs_asmCamDisable d cam room v).to_eq (camCfgWrite_of_fall room hwas hen)

end Sys2Proof.Machine
end

section
/-! Scope: the engines (R330 to R342, R352): dispatch, take, steal, fence, reset, the write of STE_CFG and results. Each command by its
function on the device, and that function by its branches. -/

namespace Sys2Proof.Machine

/-! The commands. -/

section
variable (d : Dev) (k i : Fin 16) (e : Fin 256) (v : Word)

theorem runs_dispatchQueuePush : Runs (.dispatchQueuePush k) d (d.queuePush k) := fun _ => rfl

theorem runs_engineTake : Runs (.engineTake e) d (d.engineTake e) := fun _ => rfl

theorem runs_stealSearch : Runs (.stealSearch k) d (d.stealSearch k) := fun _ => rfl

theorem runs_stealProbeAnswer : Runs (.stealProbeAnswer k) d (d.probeAnswer k) := fun _ => rfl

theorem runs_stealRetry : Runs (.stealRetry e) d (d.stealRetry e) := fun _ => rfl

theorem runs_watchdogExpire : Runs (.watchdogExpire e) d (d.watchdog e) := fun _ => rfl

theorem runs_engineResetDone : Runs (.engineResetDone e) d (d.engineResetDone e) := fun _ => rfl

theorem runs_engineResetTimeout : Runs (.engineResetTimeout e) d (d.engineResetTimeout e) := fun _ => rfl

theorem runs_engineDisable : Runs (.engineDisable k v) d (d.steCfgWrite k v) := fun _ => rfl

theorem runs_resultArrive : Runs (.resultArrive e) d (d.resultArrive e) := fun _ => rfl

/-- The word of STE_FENCE: FENCE and the engine's index, without RESET. -/
theorem fld_steFence : ∀ i : Fin 16, fld (BitVec.ofNat 32 (0x100 + i)) F.STE_CTL_RESET = 0 ∧
    fld (BitVec.ofNat 32 (0x100 + i)) F.STE_CTL_FENCE = 1 ∧ fld (BitVec.ofNat 32 (0x100 + i)) F.STE_CTL_ENGINE = i := by
  decide

theorem runs_steFence : Runs (.steFence k i) d (d.softFence (16 * k + i)) := by
  obtain ⟨hreset, hfence, hengine⟩ := fld_steFence i
  have hrun : Runs (.steFence k i) d (d.steCtlWrite k (BitVec.ofNat 32 (0x100 + i))) := fun _ => rfl
  exact hrun.to_eq (by simp [Dev.steCtlWrite, hreset, hfence, hengine])

/-- The word of STE_RESET has RESET, whatever the other bits. -/
theorem fld_steReset : fld (v ||| 0x80000000) F.STE_CTL_RESET = 1 := by
  have hbit : (v ||| 0x80000000).toNat.testBit 31 = true := by
    rw [BitVec.testBit_toNat, BitVec.getLsbD_or]
    exact Bool.or_true _
  rwa [Nat.testBit_eq_decide_div_mod_eq, decide_eq_true_eq] at hbit

theorem runs_steReset : Runs (.steReset k v) d (d.clusterReset k) := by
  have hrun : Runs (.steReset k v) d (d.steCtlWrite k (v ||| 0x80000000)) := fun _ => rfl
  exact hrun.to_eq (if_pos (fld_steReset v))

end

/-! Dispatch (R330). -/

section
variable {d : Dev} {c e : Nat} {i : Item} {rest : List Item}

theorem queuePush_of_empty (hq : (d.cluster c).queue = []) : d.queuePush c = d := by
  simp [Dev.queuePush, hq]

/-- The head is the item to push when no item of its series in the queue is older, in the order of 32-bit sequence numbers. -/
theorem queuePush_of_head (hq : (d.cluster c).queue = i :: rest) (hmay : d.mayPush i = true) (hto : d.pushTarget c none = some e)
    (hon : d.clusterOn c = true)
    (hold : ∀ j ∈ i :: rest, j.cam = i.cam → j.deferred = i.deferred → 0 < (i.seq + 2 ^ 32 - j.seq) % 2 ^ 32 →
      2 ^ 31 ≤ (i.seq + 2 ^ 32 - j.seq) % 2 ^ 32) :
    d.queuePush c = (d.modCluster c fun x => { x with queue := x.queue.erase i }).pushTo e false i := by
  have hfirst : (i :: rest).any (fun j => j.cam == i.cam && j.deferred == i.deferred &&
      decide (0 < (i.seq + 2 ^ 32 - j.seq) % 2 ^ 32) && decide ((i.seq + 2 ^ 32 - j.seq) % 2 ^ 32 < 2 ^ 31)) = false := by
    rw [List.any_eq_false]
    intro j hj hbefore
    simp only [Bool.and_eq_true, beq_iff_eq, decide_eq_true_eq] at hbefore
    obtain ⟨⟨⟨hcam, hser⟩, hpos⟩, hlt⟩ := hbefore
    exact Nat.not_lt.mpr (hold j hj hcam hser hpos) hlt
  simp only [Dev.queuePush, hq, List.find?_cons, hfirst, hmay, hto, hon]
  rfl

/-- The head of an engine's own deque (R332). -/
theorem engineTake_of_head (hq : (d.eng e).deque = i :: rest) (hst : (d.eng e).state = .idle ∨ (d.eng e).state = .steal)
    (hon : d.clusterOn (e / 16) = true) (hrows : d.rowsFinal i = true) :
    d.engineTake e = ((d.modCluster (e / 16) fun x => { x with
      probe := (match x.probe with | some p => if p.1 = e then none else some p | none => none),
      retry := x.retry.filter (fun p => p.1 ≠ e) }).setEng e { d.eng e with deque := rest }).startItem e i := by
  simp only [Dev.engineTake, hq]
  exact if_pos ⟨hst, hon, hrows⟩

end

/-! Stealing (R333 to R337). -/

section
variable {d : Dev} {c e p v : Nat} {rest : List Nat}

theorem stealSearch_of_victim (hprobe : (d.cluster c).probe = none) (hon : d.clusterOn c = true)
    (hthief : ((List.range 16).map (fun i => 16 * c + i)).find? (fun e => (d.eng e).state == .steal && (d.eng e).deque.isEmpty) = some e)
    (hv : d.victim c e d.stealable = some v) :
    d.stealSearch c = (d.bump (R.STE_CNT2 c) F.STE_CNT2_STEAL_LOCAL_CNT 1).stealFrom v e := by
  simp [Dev.stealSearch, hprobe, hon, hthief, hv]

theorem probeAnswer_of_refusal (hprobe : (d.cluster c).probe = some (e, p :: rest)) (hrest : rest ≠ [])
    (hin : (d.clusterOn p && d.b (R.STE_CFG p) F.STE_CFG_STEAL_IN) = false) :
    d.probeAnswer c = d.modCluster c fun x => { x with probe := some (e, rest) } := by
  simp only [Dev.probeAnswer, hprobe, hin]
  exact if_neg hrest

/-- Whether an engine of a probed cluster offers its tail item to a thief of cluster `c` (R335). -/
def Dev.offers (c : Nat) (d : Dev) (x : Engine) : Bool :=
  match x.deque.getLast? with
  | some i => i.kind == 0 && bitOf (d.kmask c) i.kernel && d.rowsFinal i
  | none => false

/-- A predicate on engines is `offers` if it agrees with it on those with a tail item and refuses those without. -/
theorem eq_offers {ok : Engine → Bool}
    (htail : ∀ (x : Engine) (i : Item), x.deque.getLast? = some i → ok x = (i.kind == 0 && bitOf (d.kmask c) i.kernel && d.rowsFinal i))
    (hempty : ∀ x : Engine, x.deque.getLast? = none → ok x = false) : ok = d.offers c := by
  funext x
  cases hlast : x.deque.getLast? with
  | some i => simp [Dev.offers, hlast, htail x i hlast]
  | none => simp [Dev.offers, hlast, hempty x hlast]

theorem probeAnswer_of_offer (hprobe : (d.cluster c).probe = some (e, p :: rest))
    (hin : (d.clusterOn p && d.b (R.STE_CFG p) F.STE_CFG_STEAL_IN) = true) (hv : d.victim p e (d.offers c) = some v) :
    d.probeAnswer c = ((d.modCluster c fun x => { x with probe := none }).bump (R.STE_CNT2 c)
      F.STE_CNT2_STEAL_REMOTE_CNT 1).stealFrom v e := by
  simp only [Dev.probeAnswer, hprobe, hin, if_true]
  split
  · next u hu =>
    obtain rfl : u = v := Option.some.inj (hu.symm.trans hv)
    rfl
  · next hu => exact (Option.some_ne_none v (hv.symm.trans hu)).elim

theorem stealRetry_of_due (hdue : (d.cluster (e / 16)).retry.any (fun p => p.1 == e && decide (p.2 ≤ d.now)) = true)
    (hidle : (d.eng e).state = .idle) :
    d.stealRetry e = (d.modEng e fun x => { x with state := x.rest }).modCluster (e / 16) fun k =>
      { k with retry := k.retry.filter (fun p => p.1 ≠ e) } :=
  if_pos ⟨hdue, hidle⟩

end

/-! The watchdog, fences and resets (R339 to R342). -/

section
variable {d : Dev} {e : Nat}

theorem watchdog_of_passed (hrun : (d.eng e).state = .run) (hitem : (d.eng e).item.isSome = true)
    (hset : d.f (R.STE_WDOG (e / 16)) F.STE_WDOG_LIMIT ≠ 0)
    (hpast : d.f (R.STE_WDOG (e / 16)) F.STE_WDOG_LIMIT * 1000 ≤ d.runTime e) (htrip : d.pwr.trip = false) :
    d.watchdog e = ((d.bump (R.STE_CNT0 (e / 16)) F.STE_CNT0_WDOG_CNT 1).steBit (e / 16) 0).fence e :=
  if_pos ⟨hrun, hitem, hset, hpast, by simp [htrip]⟩

theorem watchdog_of_not_passed (h : d.f (R.STE_WDOG (e / 16)) F.STE_WDOG_LIMIT = 0 ∨
    d.runTime e < d.f (R.STE_WDOG (e / 16)) F.STE_WDOG_LIMIT * 1000) : d.watchdog e = d := by
  refine if_neg ?_
  rintro ⟨-, -, hset, hpast, -⟩
  exact h.elim hset fun hlt => Nat.not_lt.mpr hpast hlt

theorem softFence_of_active (h : (d.eng e).state.active = true) : d.softFence e = (d.steBit (e / 16) 1).fence e := if_pos h

theorem softFence_of_not_active (h : (d.eng e).state.active = false) : d.softFence e = d := by
  simp [Dev.softFence, h]

theorem engineResetDone_of_fenced (h : (d.eng e).state = .fenced) :
    d.engineResetDone e = ((d.landAll e).releaseMarks e).modEng e fun y =>
      { y with state := if d.engEnabled e then .idle else .off, old := none, s := [], v := [], p := [], pc := 0, landed := [] } :=
  if_neg (not_not.mpr h)

theorem engineResetTimeout_of_due (hst : (d.eng e).state = .fenced) (hdue : (d.eng e).fenceAt + 1000 ≤ d.now) :
    d.engineResetTimeout e = (d.modEng e fun x => { x with state := .fault }).steErr (e / 16) 5 :=
  if_pos ⟨hst, hdue⟩

end

/-! The write of STE_CFG (R321), engine by engine. -/

/-- What a write of STE_CFG makes of an engine of its cluster, where `cfg` is the device with the register written. -/
def Dev.configEngine (cfg : Dev) (e : Nat) (d : Dev) : Dev :=
  if cfg.engEnabled e then (if (d.eng e).state = .off then d.modEng e fun z => { z with state := .idle } else d)
  else if (d.eng e).item.isSome then d.fence e
  else if (d.eng e).state.active then (d.moveDeque e).modEng e fun z => { z with state := .off }
  else d

/-- The state in which that write leaves an engine that has no item and an empty deque. -/
def Dev.configState (cfg : Dev) (e : Nat) (s : EngState) : EngState :=
  if cfg.engEnabled e then (if s = .off then .idle else s) else if s.active then .off else s

theorem steCfgWrite_eq (c : Nat) (v : Word) (d : Dev) : d.steCfgWrite c v =
    (List.range 16).foldl (fun y i => (d.plainWrite (R.STE_CFG c) v).configEngine (16 * c + i) y) (d.plainWrite (R.STE_CFG c) v) := rfl

@[simp] theorem eng_modCluster (c e : Nat) (g : Cluster → Cluster) (d : Dev) : (d.modCluster c g).eng e = d.eng e := rfl

section
variable {cfg d : Dev} {e : Nat}

theorem eng_moveDeque_of_empty (k : Nat) (hq : (d.eng e).deque = []) : (d.moveDeque e).eng k = d.eng k := by
  have hmove : (d.moveDeque e).eng k = (d.modEng e fun x => { x with deque := [] }).eng k := by
    simp [Dev.moveDeque, hq]
  rw [hmove]
  by_cases hk : k = e
  · rw [hk, eng_modEng_self, ← hq]
  · exact eng_modEng_ne _ _ hk

theorem eng_configEngine_self (hitem : (d.eng e).item = none) (hq : (d.eng e).deque = []) :
    (cfg.configEngine e d).eng e = { d.eng e with state := cfg.configState e (d.eng e).state } := by
  unfold Dev.configEngine Dev.configState
  rw [hitem]
  split
  · split
    · exact eng_modEng_self _ _ _
    · rfl
  · simp only [Option.isSome_none, Bool.false_eq_true, if_false]
    split
    · rw [eng_modEng_self, eng_moveDeque_of_empty e hq]
    · rfl

theorem eng_configEngine_ne {k : Nat} (hk : k ≠ e) (hitem : (d.eng e).item = none) (hq : (d.eng e).deque = []) :
    (cfg.configEngine e d).eng k = d.eng k := by
  unfold Dev.configEngine
  rw [hitem]
  split
  · split
    · exact eng_modEng_ne _ _ hk
    · rfl
  · simp only [Option.isSome_none, Bool.false_eq_true, if_false]
    split
    · rw [eng_modEng_ne _ _ hk, eng_moveDeque_of_empty k hq]
    · rfl

/-- The first `n` engines of a cluster without work have their new states, and the others their old ones. -/
theorem eng_configEngines {c : Nat} (n : Nat)
    (hwork : ∀ i < n, (d.eng (16 * c + i)).item = none ∧ (d.eng (16 * c + i)).deque = []) (i : Nat) :
    ((List.range n).foldl (fun y i => cfg.configEngine (16 * c + i) y) d).eng (16 * c + i) =
      if i < n then { d.eng (16 * c + i) with state := cfg.configState (16 * c + i) (d.eng (16 * c + i)).state }
      else d.eng (16 * c + i) := by
  induction n generalizing i with
  | zero => rfl
  | succ n ih =>
    have hprev := ih fun i hi => hwork i (Nat.lt_succ_of_lt hi)
    have hnext := (hprev n).trans (if_neg (lt_irrefl n))
    obtain ⟨hitem, hq⟩ := hwork n (Nat.lt_succ_self n)
    rw [← hnext] at hitem hq
    rw [List.range_succ, List.foldl_append, List.foldl_cons, List.foldl_nil]
    by_cases hi : i = n
    · rw [hi, eng_configEngine_self hitem hq, hnext, if_pos (Nat.lt_succ_self n)]
    · have hne : 16 * c + i ≠ 16 * c + n := by omega
      have hlt : i < n + 1 ↔ i < n := by omega
      rw [eng_configEngine_ne hne hitem hq, hprev i]
      simp only [hlt]

end

/-! Results (R341, R345). -/

section
variable {d : Dev} {e : Nat} {f : ResultFlight} (hf : d.ste.flights.find? (fun f => f.engine == e) = some f)

/-- Whether an item in the order stage awaits a result: the engine holds the item, in the result's epoch. -/
def ResultFlight.awaits (f : ResultFlight) (o : OrderItem) : Bool :=
  o.item.cam == f.cam && o.item.deferred == f.defer && o.item.seq == f.seq && o.holder == some (f.engine, f.epoch) && !o.ended

include hf

theorem resultArrive_of_awaited (h : d.ste.order.any f.awaits = true) :
    d.resultArrive e = (d.modSte fun y => { y with flights := y.flights.erase f }).modSte fun y =>
      { y with order := y.order.map fun o => if f.awaits o then { o with results := o.results ++ [f.result] } else o } := by
  simp only [Dev.resultArrive, hf]
  exact if_pos h

theorem resultArrive_of_late (h : d.ste.order.any f.awaits = false) :
    d.resultArrive e = (((d.modSte fun y => { y with flights := y.flights.erase f }).dropResult f.result).bump (R.STE_CNT0 (e / 16))
      F.STE_CNT0_LATE_RESULT_CNT 1).steErr (e / 16) 2 := by
  have hnot : ¬ d.ste.order.any f.awaits = true := by simp [h]
  simp only [Dev.resultArrive, hf]
  exact if_neg hnot

end

/-- Settles O31: each clause is a branch of the function that its command applies to the device; the write of STE_CFG goes by
induction over the engines of its cluster. -/
theorem enginesTakeStealAndFence : Obligations.EnginesTakeStealAndFence := by
  unfold Obligations.EnginesTakeStealAndFence
  refine ⟨?push, ?pushNone, ?take, ?search, ?refusal, ?offer, ?retry, ?passed, ?notPassed, ?fence, ?noFence, ?reset, ?resetDone,
    ?resetTimeout, ?disable, ?awaited, ?late⟩
  case push =>
    exact fun d k i rest e hq hmay hto hon hold => (runs_dispatchQueuePush d k).to_eq (queuePush_of_head hq hmay hto hon hold)
  case pushNone => exact fun d k hq => (runs_dispatchQueuePush d k).to_eq (queuePush_of_empty hq)
  case take =>
    exact fun d e i rest hq hst hon hrows _ _ => (runs_engineTake d e).to_eq (engineTake_of_head hq hst hon hrows)
  case search =>
    exact fun d k e v hprobe hon hthief hv => (runs_stealSearch d k).to_eq (stealSearch_of_victim hprobe hon hthief hv)
  case refusal =>
    exact fun d k e p rest hprobe hrest hin => (runs_stealProbeAnswer d k).to_eq (probeAnswer_of_refusal hprobe hrest hin)
  case offer =>
    intro d k e p v rest ok hprobe hin htail hempty hv
    rw [eq_offers htail hempty] at hv
    exact (runs_stealProbeAnswer d k).to_eq (probeAnswer_of_offer hprobe hin hv)
  case retry => exact fun d e hdue hidle => (runs_stealRetry d e).to_eq (stealRetry_of_due hdue hidle)
  case passed =>
    exact fun d e hrun hitem hset hpast htrip =>
      (runs_watchdogExpire d e).to_eq (watchdog_of_passed hrun hitem hset hpast htrip)
  case notPassed => exact fun d e h => (runs_watchdogExpire d e).to_eq (watchdog_of_not_passed h)
  case fence =>
    intro d k i h
    have hcluster : (16 * k.val + i.val) / 16 = k := by omega
    exact (runs_steFence d k i).to_eq ((softFence_of_active h).trans (by rw [hcluster]))
  case noFence => exact fun d k i h => (runs_steFence d k i).to_eq (softFence_of_not_active h)
  case reset => exact runs_steReset
  case resetDone => exact fun d e h => (runs_engineResetDone d e).to_eq (engineResetDone_of_fenced h)
  case resetTimeout => exact fun d e hst hdue => (runs_engineResetTimeout d e).to_eq (engineResetTimeout_of_due hst hdue)
  case disable =>
    intro d k v hwork
    refine ⟨_, runs_engineDisable d k v, fun i => ?_⟩
    rw [steCfgWrite_eq, eng_configEngines 16 (fun j hj => hwork ⟨j, hj⟩), if_pos i.isLt]
    rfl
  case awaited =>
    rintro d e f _ hf rfl hany
    exact (runs_resultArrive d e).to_eq (resultArrive_of_awaited hf hany)
  case late =>
    rintro d e f _ hf rfl hany
    exact (runs_resultArrive d e).to_eq (resultArrive_of_late hf hany)

end Sys2Proof.Machine
end

section
/-! Scope: the tile writer (R324, R325, R327) and the deferred loader (R333, R349): each command by its function on the device, and that
function by its branches. -/

namespace Sys2Proof.Machine

/-! The commands. -/

theorem runs_tileWriteLine (d : Dev) (cam : Fin 48) : Runs (.tileWriteLine cam) d (d.tileWrite cam) := fun _ => rfl

theorem runs_selvedgeRewind (d : Dev) (cam : Fin 48) : Runs (.selvedgeRewind cam) d (d.tileRewind cam) := fun _ => rfl

theorem runs_deferredBandLoad (d : Dev) : Runs .deferredBandLoad d d.deferLoad := fun _ => rfl

/-! The entries of a camera (R324, R325). -/

section
variable {d : Dev} {cam : Nat} {rest : List TileIn} {f : TileFrame}

theorem tileWrite_of_gap (hq : (d.tiles cam).queue = .gap :: rest) :
    d.tileWrite cam = (((d.setTiles cam { d.tiles cam with queue := rest }).bandsEdge cam).tileRelease cam).modTiles cam fun y =>
      { y with last := [] } := by
  simp only [Dev.tileWrite, hq]

/-- A frame whose top is no edge opens as it is where no band of another geometry waits. -/
theorem tileWrite_of_frame (hq : (d.tiles cam).queue = .frame f :: rest) (htop : f.edgeTop = false) (hnone : (d.tiles cam).bands = []) :
    d.tileWrite cam = (d.setTiles cam { d.tiles cam with queue := rest }).modTiles cam fun y => { y with frame := some f, count := 0 } := by
  simp [Dev.tileWrite, hq, htop, hnone]

theorem tileWrite_of_row {r : TileRow} (hq : (d.tiles cam).queue = .row r :: rest) (hframe : (d.tiles cam).frame = some f) :
    d.tileWrite cam = (d.setTiles cam { d.tiles cam with queue := rest }).tileRow cam f r := by
  simp only [Dev.tileWrite, hq, hframe]

/-- Late shared rows and a buffer that has become free (R327). -/
theorem tileRewind_of_free {b : Nat} (hframe : (d.tiles cam).frame = some f) (hlate : (d.tiles cam).late = true)
    (hnext : (d.tiles cam).next = none) (hbuf : d.freeBuf cam f.cfg.bands = some b) :
    d.tileRewind cam = (d.tileUnmark cam).modTiles cam fun y => { y with
      next := some b,
      rewound := (d.tiles cam).marks != [] && (d.tiles cam).marks.all fun m => (d.ply m.1).live.any (fun k => k.id == m.2) } := by
  simp [Dev.tileRewind, hframe, hlate, hnext, hbuf]

end

/-! The deferred loader (R333, R349). -/

/-- A deferred band as it stands in a buffer: its region is complete, and its items are made with it. -/
def Deferred.loaded (q : Deferred) (id buf : Nat) (rows : List TileRow) (top bot : Bool) : Band :=
  { id := id, buf := buf, frame := q.frame, kind := 1, y0 := q.y0, coreH := q.coreH, rows := rows, full := true, edgeT := top,
    edgeB := bot, selFill := false, made := true, left := q.cols.length, last := decide (q.y0 + q.coreH = q.frame.expect) }

section
variable {d d2 w : Dev} {q : Deferred} {rows : List TileRow} {top bot : Bool} {buf : Nat} {b : Band}

theorem deferLoad_of_level (hlevel : 2 < d.retroList.level) : d.deferLoad = d.retroList := if_pos (.inl hlevel)

/-- The one band that waits is loaded, and its items join the deferred lists. -/
theorem deferLoad_of_single (hlevel : d.retroList.level ≤ 2) (hbind : d.retroList.glb.bindoff = .none)
    (htrip : d.retroList.pwr.trip = false) (hserves : d.retroList.skeinServes = true) (hq : d.retroList.ste.deferred = [q])
    (hmay : d.retroList.mayDefer q = true) (hread : d.retroList.deferRead q = d2) (hregion : d2.deferRegion q = some (rows, top, bot))
    (hbuf : d2.freeBuf q.cam q.frame.cfg.bands = some buf) (hcols : q.cols ≠ [])
    (hb : b = q.loaded ((d2.modSte fun y => { y with deferred := y.deferred.erase q }).tiles q.cam).nextId buf rows top bot)
    (hrows : ((d2.modSte fun y => { y with deferred := y.deferred.erase q }).modTiles q.cam fun y =>
      { y with bands := y.bands ++ [b], nextId := y.nextId + 1 }).bandRows q.frame buf 0 rows = (true, w)) :
    d.deferLoad = w.deferItems b q.cols := by
  have hopen : ¬ (2 < d.retroList.level ∨ d.retroList.glb.bindoff ≠ .none ∨ d.retroList.pwr.trip = true ∨
      (!d.retroList.skeinServes) = true) := by
    simp [hlevel, hbind, htrip, hserves]
  have holdest : ([q].find? fun p => ([q].find? fun r => r.cam == p.cam) == some p && d.retroList.mayDefer p) = some q := by
    simp [hmay]
  subst hb
  simp only [Dev.deferLoad, if_neg hopen, hq, holdest, hread, hregion, hbuf, if_neg hcols]
  exact (if_pos (congrArg Prod.fst hrows)).trans (congrArg (fun p => Dev.deferItems _ q.cols p.2) hrows)

end

/-- Settles O32: each clause is a branch of the function that its command applies to the device. -/
theorem tileWriterAndDeferredLoader : Obligations.TileWriterAndDeferredLoader := by
  unfold Obligations.TileWriterAndDeferredLoader
  refine ⟨?gap, ?frame, ?row, ?rewind, ?load, ?level⟩
  case gap => exact fun d cam rest hq => (runs_tileWriteLine d cam).to_eq (tileWrite_of_gap hq)
  case frame => exact fun d cam rest f hq htop hnone => (runs_tileWriteLine d cam).to_eq (tileWrite_of_frame hq htop hnone)
  case row => exact fun d cam rest f r hq hframe => (runs_tileWriteLine d cam).to_eq (tileWrite_of_row hq hframe)
  case rewind =>
    rintro d cam f b _ hframe hlate hnext hbuf rfl
    exact (runs_selvedgeRewind d cam).to_eq (tileRewind_of_free hframe hlate hnext hbuf)
  case load =>
    rintro d _ d2 w q rows top bot buf b rfl hlevel hbind htrip hserves hq hmay hread hregion hbuf hcols hb hrows
    exact (runs_deferredBandLoad d).to_eq
      (deferLoad_of_single hlevel hbind htrip hserves hq hmay hread hregion hbuf hcols hb hrows)
  case level => exact fun d hlevel => (runs_deferredBandLoad d).to_eq (deferLoad_of_level hlevel)

end Sys2Proof.Machine
end

section
/-! Scope: the words of the two slots (R364, R369, R370): a word that holds an operation's fields is read as that operation. -/

namespace Sys2Proof.Machine

/-- An operation whose bits that must be 0 are 0. -/
theorem SlotOp.zero_of_clear {o : SlotOp} {w m : Word} (h : w &&& m = 0) : o.zero w m = o := by
  simp [SlotOp.zero, h]

/-- A word is the encoded one where the bits in use and the bits that must be 0 are all its bits. -/
theorem eq_of_care_of_clear {w care zero word : Word} (hall : care ||| zero = BitVec.allOnes 32) (hc : w &&& care = word)
    (hz : w &&& zero = 0) : w = word := by
  calc w = w &&& (care ||| zero) := by rw [hall, BitVec.and_allOnes]
    _ = (w &&& care) ||| (w &&& zero) := BitVec.and_or_distrib_left
    _ = word := by rw [hc, hz]; exact BitVec.or_zero

/-! A predicate or a scalar in a wider field (R364). -/

/-- The lower bits of a field, where the word holds a wider one. -/
theorem extractLsb'_of_field {w : Word} {lo n m : Nat} {x : BitVec m} (h : w.extractLsb' lo m = x) (hn : n ≤ m) :
    w.extractLsb' lo n = x.setWidth n := by
  subst h
  ext i hi
  have him : i < m := by omega
  simp [him]

theorem field_predField {w : Word} {lo : Nat} {p : BitVec 3} (h : w.extractLsb' lo 5 = predField p) : w.extractLsb' lo 3 = p :=
  (extractLsb'_of_field h (by decide)).trans (by simp [predField])

theorem field_scalarField {w : Word} {lo : Nat} {s : BitVec 4} (h : w.extractLsb' lo 5 = scalarField s) : w.extractLsb' lo 4 = s :=
  (extractLsb'_of_field h (by decide)).trans (by simp [scalarField])

/-- The predicate of a branch in the rd field. -/
theorem extractLsb'_setWidth_pred (p : BitVec 3) : (p.setWidth 4).extractLsb' 0 3 = p := by
  ext i hi
  simp [hi]
  omega

/-- Settles O47: where the bits in use and those that must be 0 are the whole word, it is the encoded one; else the mask covers the fields
that the operation uses, so they are read as encoded, and no other is read. -/
theorem slotSWordsAreRead : Obligations.SlotSWordsAreRead := by
  unfold Obligations.SlotSWordsAreRead
  refine ⟨?add, ?sub, ?and, ?or, ?xor, ?shl, ?shr, ?sar, ?mul, ?mulh, ?slt, ?sltu, ?min, ?max, ?add64, ?sub64, ?addi, ?andi, ?ori, ?xori,
    ?shli, ?shri, ?sari, ?slti, ?lui, ?ldw, ?ldh, ?ldb, ?stw, ?sth, ?stb, ?beq, ?bne, ?blt, ?bge, ?bltu, ?bgeu, ?jal, ?jr, ?bpany,
    ?bpnone, ?xld, ?xst, ?xwait, ?emit, ?endItem, ?qmark, ?qrew, ?qcpy, ?qrel, ?pub, ?evwait, ?rdsr, ?msync⟩
  case add | sub | and | or | xor | shl | shr | sar | mul | mulh | slt | sltu | min | max | add64 | sub64 | qmark | qcpy =>
    intro rd ra rb w hc hz
    obtain rfl := eq_of_care_of_clear (by decide) hc hz
    rw [slotS, encR_op, encR_rd, encR_ra, encR_rb, encR_fn]
    exact congrArg some (SlotOp.zero_of_clear hz)
  case xld | xst =>
    intro rd ra rb tag w hc hz
    obtain rfl := eq_of_care_of_clear (by decide) hc hz
    rw [slotS, encR_op, encR_rd, encR_ra, encR_rb, encR_fn]
    exact congrArg some (SlotOp.zero_of_clear hz)
  case addi | andi | ori | xori | slti | ldw | ldh | ldb | stw | sth | stb | beq | bne | blt | bge | bltu | bgeu =>
    intro rd ra imm w hc
    obtain rfl := (care_all w).symm.trans hc
    rw [slotS, encI_op, encI_rd, encI_ra, encI_imm]
    rfl
  case shli | shri | sari =>
    intro rd ra imm w hc hz
    obtain rfl := eq_of_care_of_clear (by decide) hc hz
    rw [slotS, encI_op, encI_rd, encI_ra, encI_imm]
    exact congrArg some (SlotOp.zero_of_clear hz)
  case lui =>
    intro rd imm w hc
    obtain rfl := (care_all w).symm.trans hc
    rw [slotS, encL_op, encL_rd, encL_imm]
    rfl
  case jal =>
    intro rd imm w hc
    rw [slotS, field_of_care 26 6 (by decide) hc, field_of_care 22 4 (by decide) hc, field_of_care 0 18 (by decide) hc, encI_op, encI_rd,
      encI_imm]
    rfl
  case bpany | bpnone =>
    intro pa off w hc hz
    obtain rfl := eq_of_care_of_clear (by decide) hc hz
    rw [slotS, encI_op, encI_rd, encI_imm, extractLsb'_setWidth_pred]
    exact congrArg some (SlotOp.zero_of_clear hz)
  case emit | qrew | qrel =>
    intro rd ra w hc hz
    rw [slotS, field_of_care 26 6 (by decide) hc, field_of_care 22 4 (by decide) hc, field_of_care 18 4 (by decide) hc,
      field_of_care 8 6 (by decide) hc, encR_op, encR_rd, encR_ra, encR_fn]
    exact congrArg some (SlotOp.zero_of_clear hz)
  case jr | evwait =>
    intro ra w hc hz
    rw [slotS, field_of_care 26 6 (by decide) hc, field_of_care 18 4 (by decide) hc, field_of_care 8 6 (by decide) hc, encR_op, encR_ra,
      encR_fn]
    exact congrArg some (SlotOp.zero_of_clear hz)
  case rdsr =>
    intro rd code w hc hz
    rw [slotS, field_of_care 26 6 (by decide) hc, field_of_care 22 4 (by decide) hc, field_of_care 8 6 (by decide) hc, encR_op, encR_rd,
      encR_fn]
    exact congrArg some (SlotOp.zero_of_clear hz)
  case xwait =>
    intro code w hc hz
    rw [slotS, field_of_care 26 6 (by decide) hc, field_of_care 8 6 (by decide) hc, encR_op, encR_fn]
    exact congrArg some (SlotOp.zero_of_clear hz)
  case endItem | pub | msync =>
    intro w hc hz
    rw [slotS, field_of_care 26 6 (by decide) hc, field_of_care 8 6 (by decide) hc, encR_op, encR_fn]
    exact congrArg some (SlotOp.zero_of_clear hz)

/-- Settles O48: as O47, with the narrower fields of predicates and scalars read from a register field. -/
theorem slotVWordsAreRead : Obligations.SlotVWordsAreRead := by
  unfold Obligations.SlotVWordsAreRead
  refine ⟨?vadd, ?vsub, ?vadds, ?vsubs, ?vabsd, ?vmin, ?vmax, ?vand, ?vor, ?vxor, ?vmul, ?vmulh, ?vavg, ?vshl, ?vshr, ?vsar, ?vcmpeq,
    ?vcmplt, ?vcmpltu, ?vcmpge, ?vcmpgeu, ?pand, ?por, ?pxor, ?pandn, ?pset, ?pclr, ?vaddi, ?vshli, ?vshri, ?vsari, ?vsplati, ?vsel,
    ?vsplat, ?vmuls, ?vextr, ?vins, ?vrsum, ?vrmax, ?vpcnt, ?vpfirst, ?vsad, ?vdot, ?vslide, ?vslidei, ?vwidel, ?vwideh, ?vnarrow, ?vld,
    ?vst⟩
  case vadd | vsub | vadds | vsubs | vabsd | vmin | vmax | vand | vor | vxor | vmul | vmulh | vavg | vshl | vshr | vsar | vsel | vnarrow =>
    intro vd va vb pm wide w hc
    obtain rfl := (care_all w).symm.trans hc
    rw [slotV, encVR_op, encVR_vd, encVR_va, encVR_vb, encVR_pm, encVR_w, encVR_fn]
    rfl
  case vslidei =>
    intro vd va vb pm wide fn w hc
    obtain rfl := (care_all w).symm.trans hc
    rw [slotV, encVR_op, encVR_vd, encVR_va, encVR_vb, encVR_pm, encVR_w, encVR_fn]
    rfl
  case vcmpeq | vcmplt | vcmpltu | vcmpge | vcmpgeu =>
    intro pd va vb pm wide w hc hz
    obtain rfl := eq_of_care_of_clear (by decide) hc hz
    rw [slotV, encVR_op, field_predField (encVR_vd ..), encVR_va, encVR_vb, encVR_pm, encVR_w, encVR_fn]
    exact congrArg some (SlotOp.zero_of_clear hz)
  case pand | por | pxor | pandn =>
    intro pd pa pb pm wide w hc hz
    obtain rfl := eq_of_care_of_clear (by decide) hc hz
    rw [slotV, encVR_op, field_predField (encVR_vd ..), field_predField (encVR_va ..), field_predField (encVR_vb ..), encVR_pm, encVR_w,
      encVR_fn]
    exact congrArg some (SlotOp.zero_of_clear hz)
  case pset | pclr =>
    intro pd pm wide w hc hz
    rw [slotV, field_of_care 26 6 (by decide) hc, field_of_care 21 3 (by decide) hc, field_of_care 8 3 (by decide) hc,
      bit_of_care 7 (by decide) hc, field_of_care 0 7 (by decide) hc, encVR_op, field_predField (encVR_vd ..), encVR_pm, encVR_w,
      encVR_fn]
    exact congrArg some (SlotOp.zero_of_clear hz)
  case vaddi =>
    intro vd va pm wide imm w hc
    obtain rfl := (care_all w).symm.trans hc
    rw [slotV, encVI_op, encVI_vd, encVI_va, encVI_pm, encVI_w, encVI_imm]
    rfl
  case vshli | vshri | vsari =>
    intro vd va pm wide imm w hc hz
    obtain rfl := eq_of_care_of_clear (by decide) hc hz
    rw [slotV, encVI_op, encVI_vd, encVI_va, encVI_pm, encVI_w, encVI_imm]
    exact congrArg some (SlotOp.zero_of_clear hz)
  case vsplati =>
    intro vd pm wide imm w hc hz
    obtain rfl := eq_of_care_of_clear (by decide) hc hz
    rw [slotV, encVI_op, encVI_vd, encVI_pm, encVI_w, encVI_imm]
    exact congrArg some (SlotOp.zero_of_clear hz)
  case vsplat =>
    intro vd sb pm wide w hc
    rw [slotV, field_of_care 26 6 (by decide) hc, field_of_care 21 5 (by decide) hc, field_of_care 12 4 (by decide) hc,
      field_of_care 9 3 (by decide) hc, bit_of_care 8 (by decide) hc, field_of_care 0 8 (by decide) hc, encVS_op, encVS_vd, encVS_sb,
      encVS_pm, encVS_w, encVS_fn]
    rfl
  case vins =>
    intro vd sb pm wide fn w hc
    rw [slotV, field_of_care 26 6 (by decide) hc, field_of_care 21 5 (by decide) hc, field_of_care 12 4 (by decide) hc,
      field_of_care 9 3 (by decide) hc, bit_of_care 8 (by decide) hc, field_of_care 0 8 (by decide) hc, encVS_op, encVS_vd, encVS_sb,
      encVS_pm, encVS_w, encVS_fn]
    rfl
  case vmuls =>
    intro vd va sb pm wide fn w hc
    obtain rfl := (care_all w).symm.trans hc
    rw [slotV, encVS_op, encVS_vd, encVS_va, encVS_sb, encVS_pm, encVS_w, encVS_fn]
    rfl
  case vslide =>
    intro vd va sb pm wide w hc
    obtain rfl := (care_all w).symm.trans hc
    rw [slotV, encVS_op, encVS_vd, encVS_va, encVS_sb, encVS_pm, encVS_w, encVS_fn]
    rfl
  case vextr =>
    intro sd va wide fn w hc hz
    rw [slotV, field_of_care 26 6 (by decide) hc, field_of_care 21 4 (by decide) hc, field_of_care 16 5 (by decide) hc,
      bit_of_care 8 (by decide) hc, field_of_care 0 8 (by decide) hc, encVS_op, field_scalarField (encVS_vd ..), encVS_va, encVS_w,
      encVS_fn]
    exact congrArg some (SlotOp.zero_of_clear hz)
  case vrsum | vrmax =>
    intro sd va pm wide w hc hz
    rw [slotV, field_of_care 26 6 (by decide) hc, field_of_care 21 4 (by decide) hc, field_of_care 16 5 (by decide) hc,
      field_of_care 9 3 (by decide) hc, bit_of_care 8 (by decide) hc, field_of_care 0 8 (by decide) hc, encVS_op,
      field_scalarField (encVS_vd ..), encVS_va, encVS_pm, encVS_w, encVS_fn]
    exact congrArg some (SlotOp.zero_of_clear hz)
  case vpcnt | vpfirst =>
    intro sd pm wide w hc hz
    rw [slotV, field_of_care 26 6 (by decide) hc, field_of_care 21 4 (by decide) hc, field_of_care 9 3 (by decide) hc,
      bit_of_care 8 (by decide) hc, field_of_care 0 8 (by decide) hc, encVS_op, field_scalarField (encVS_vd ..), encVS_pm, encVS_w,
      encVS_fn]
    exact congrArg some (SlotOp.zero_of_clear hz)
  case vsad | vdot =>
    intro sd va vb pm wide w hc hz
    obtain rfl := eq_of_care_of_clear (by decide) hc hz
    rw [slotV, encVR_op, field_scalarField (encVR_vd ..), encVR_va, encVR_vb, encVR_pm, encVR_w, encVR_fn]
    exact congrArg some (SlotOp.zero_of_clear hz)
  case vwidel | vwideh =>
    intro vd va pm wide w hc
    rw [slotV, field_of_care 26 6 (by decide) hc, field_of_care 21 5 (by decide) hc, field_of_care 16 5 (by decide) hc,
      field_of_care 8 3 (by decide) hc, bit_of_care 7 (by decide) hc, field_of_care 0 7 (by decide) hc, encVR_op, encVR_vd, encVR_va,
      encVR_pm, encVR_w, encVR_fn]
    rfl
  case vld | vst =>
    intro vd sa pm inc imm w hc
    obtain rfl := (care_all w).symm.trans hc
    rw [slotV, encVM_op, encVM_vd, encVM_sa, encVM_pm, encVM_w, encVM_imm]
    rfl

end Sys2Proof.Machine
end

section
/-! Scope: the arithmetic of slot S (R359, R364, R369). A command that issues a bundle goes through what the issue comes to, and that
through the family of the operation in the slot. -/

namespace Sys2Proof.Machine

/-- A command that issues a bundle by slot S, with what the bundle makes of the device. -/
theorem Runs.of_issueS {c : Instr} {d t : Dev} {e : Nat} {word care zero : Word} {o : SlotOp} (hc : Runs c d (d.issueS e word care zero o))
    (h : d.issueS e word care zero o = t) : Runs c d t :=
  hc.to_eq h

section
variable {d : Dev} {k : Ctx} {e : Nat} {op fn : BitVec 6} {rd ra rb : BitVec 4}

theorem issueS_opAlu {g : Word → Word → Word} (h : IssuesS e k (encR op rd ra rb fn) d) :
    d.issueS e (encR op rd ra rb fn) 0xFFFFFF00 0xFF (opAlu g rd ra rb) =
      (d.advance k).setS k.e rd.toNat (g (k.x.sreg ra.toNat) (k.x.sreg rb.toNat)) :=
  issueS_go h (encR_care ..) (encR_zero ..) rfl rfl

theorem issueS_opAluI {g : Word → Word → Word} {imm : BitVec 18} (h : IssuesS e k (encI op rd ra imm) d) :
    d.issueS e (encI op rd ra imm) 0xFFFFFFFF 0 (opAluI g rd ra imm) =
      (d.advance k).setS k.e rd.toNat (g (k.x.sreg ra.toNat) (imm.signExtend 32)) :=
  issueS_go h (care_all _) (zero_none _) rfl rfl

/-- A shift by an immediate of 5 bits. -/
theorem issueS_opAluI_shift {g : Word → Word → Word} {imm : BitVec 5} (h : IssuesS e k (encI op rd ra (imm.setWidth 18)) d) :
    d.issueS e (encI op rd ra (imm.setWidth 18)) 0xFFFC001F 0x3FFE0 (opAluI g rd ra (imm.setWidth 18)) =
      (d.advance k).setS k.e rd.toNat (g (k.x.sreg ra.toNat) ((imm.setWidth 18).signExtend 32)) :=
  issueS_go h (encI_shift_care ..) (encI_shift_zero ..) rfl rfl

theorem issueS_opPair_even {g : DWord → DWord → DWord} (h : IssuesS e k (encR op rd ra rb fn) d)
    (hrd : rd.getLsbD 0 = false) (hra : ra.getLsbD 0 = false) (hrb : rb.getLsbD 0 = false) :
    d.issueS e (encR op rd ra rb fn) 0xFFFFFF00 0xFF (opPair g rd ra rb) =
      (d.advance k).setPair k.e rd.toNat (g (k.x.pair ra.toNat) (k.x.pair rb.toNat)) :=
  issueS_go h (encR_care ..) (encR_zero ..) (by rw [opPair, hrd, hra, hrb]; rfl) rfl

theorem issueS_opPair_odd {g : DWord → DWord → DWord} (h : IssuesS e k (encR op rd ra rb fn) d)
    (hodd : (rd.getLsbD 0 || ra.getLsbD 0 || rb.getLsbD 0) = true) :
    d.issueS e (encR op rd ra rb fn) 0xFFFFFF00 0xFF (opPair g rd ra rb) = d.kernelFault k.e 1 0 0 :=
  issueS_illegal h (encR_care ..) (.inl (by rw [opPair, ← Bool.not_or, ← Bool.not_or, hodd]; rfl))

end

/-! The results. -/

theorem wordOf_signedLt (a b : Word) : wordOf (signedLt a b) = if a.toInt < b.toInt then 1 else 0 := by
  simp [wordOf, signedLt]

theorem wordOf_unsignedLt (a b : Word) : wordOf (unsignedLt a b) = if a.toNat < b.toNat then 1 else 0 := by
  simp [wordOf, unsignedLt]

theorem ite_signedLt (a b x y : Word) : (if signedLt a b then x else y) = if a.toInt < b.toInt then x else y := by
  simp [signedLt]

/-- An immediate shift amount is its 5 bits. -/
theorem shamt_signExtend (imm : BitVec 5) : shamt ((imm.setWidth 18).signExtend 32) = imm.toNat := by
  revert imm
  decide

/-- The word of LUI: the immediate above ten zeros. -/
theorem append_zeros_eq_shift (imm : BitVec 22) : (imm ++ 0#10 : Word) = imm.setWidth 32 <<< 10 := by
  apply BitVec.eq_of_toNat_eq
  have := imm.isLt
  rw [BitVec.toNat_append]
  simp [Nat.shiftLeft_eq]
  omega

/-- Settles O24: the family of the operation gives the clause. -/
theorem scalarArithmetic : Obligations.ScalarArithmetic := by
  unfold Obligations.ScalarArithmetic
  refine ⟨?add, ?sub, ?and, ?or, ?xor, ?shl, ?shr, ?sar, ?mul, ?mulh, ?slt, ?sltu, ?min, ?max, ?add64, ?add64odd, ?sub64, ?sub64odd, ?addi,
    ?andi, ?ori, ?xori, ?slti, ?shli, ?shri, ?sari, ?lui⟩
  case add | sub | and | or | xor | shl | shr | sar | mul | mulh =>
    intro d k e rd ra rb h
    exact Runs.of_issueS (fun _ => rfl) (issueS_opAlu h)
  case slt =>
    intro d k e rd ra rb h
    rw [← wordOf_signedLt]
    exact Runs.of_issueS (fun _ => rfl) (issueS_opAlu h)
  case sltu =>
    intro d k e rd ra rb h
    rw [← wordOf_unsignedLt]
    exact Runs.of_issueS (fun _ => rfl) (issueS_opAlu h)
  case min | max =>
    intro d k e rd ra rb h
    rw [← ite_signedLt]
    exact Runs.of_issueS (fun _ => rfl) (issueS_opAlu h)
  case add64 | sub64 =>
    intro d k e rd ra rb h hrd hra hrb
    exact Runs.of_issueS (fun _ => rfl) (issueS_opPair_even h hrd hra hrb)
  case add64odd | sub64odd =>
    intro d k e rd ra rb h hodd
    exact Runs.of_issueS (fun _ => rfl) (issueS_opPair_odd h hodd)
  case addi | andi | ori | xori =>
    intro d k e rd ra imm h
    exact Runs.of_issueS (fun _ => rfl) (issueS_opAluI h)
  case slti =>
    intro d k e rd ra imm h
    rw [← wordOf_signedLt]
    exact Runs.of_issueS (fun _ => rfl) (issueS_opAluI h)
  case shli | shri | sari =>
    intro d k e rd ra imm h
    rw [← shamt_signExtend]
    exact Runs.of_issueS (fun _ => rfl) (issueS_opAluI_shift h)
  case lui =>
    intro d k e rd imm h
    rw [← append_zeros_eq_shift]
    exact Runs.of_issueS (fun _ => rfl) (issueS_go h (care_all _) (zero_none _) rfl rfl)

end Sys2Proof.Machine
end

section
/-! Scope: the loads and stores of slot S (R367 to R369, R374). -/

namespace Sys2Proof.Machine

/-! Access to engine memory. -/

section
variable {d : Dev} {k : Ctx} {wr : Bool} {ea n x : Nat} {f : Nat → Issue}

theorem withAccess_of_ok (hx : k.access wr ea n d = .ok x) : k.withAccess wr ea n d f = f x := by
  simp only [Ctx.withAccess, hx]

theorem withAccess_of_outside (hout : engOffset k.e k.item.home ea n = none) : k.withAccess wr ea n d f = .fault 2 d := by
  simp only [Ctx.withAccess, Ctx.access, hout]

end

section
variable {d : Dev} {k : Ctx} {n x : Nat} {rd ra : BitVec 4} {imm : BitVec 18}

theorem opLoad_run_of_ok (ha : k.addr ra imm % n = 0) (hx : k.access false (k.addr ra imm) n d = .ok x) :
    (opLoad n rd ra imm).run k d = .go (fun y => y.setS k.e rd.toNat (BitVec.ofNat 32 (leNat (d.engBytes x n)))) none :=
  (if_neg (not_not.mpr ha)).trans (withAccess_of_ok hx)

theorem opLoad_run_of_misaligned (ha : k.addr ra imm % n ≠ 0) : (opLoad n rd ra imm).run k d = .fault 3 d := if_pos ha

theorem opLoad_run_of_outside (ha : k.addr ra imm % n = 0) (hout : engOffset k.e k.item.home (k.addr ra imm) n = none) :
    (opLoad n rd ra imm).run k d = .fault 2 d :=
  (if_neg (not_not.mpr ha)).trans (withAccess_of_outside hout)

theorem opStore_run_of_ok (ha : k.addr ra imm % n = 0) (hx : k.access true (k.addr ra imm) n d = .ok x) :
    (opStore n rd ra imm).run k d = .go (fun y => y.engPut x (leBytes n (k.x.sreg rd.toNat).toNat)) none :=
  (if_neg (not_not.mpr ha)).trans (withAccess_of_ok hx)

theorem opStore_run_of_misaligned (ha : k.addr ra imm % n ≠ 0) : (opStore n rd ra imm).run k d = .fault 3 d := if_pos ha

theorem opStore_run_of_outside (ha : k.addr ra imm % n = 0) (hout : engOffset k.e k.item.home (k.addr ra imm) n = none) :
    (opStore n rd ra imm).run k d = .fault 2 d :=
  (if_neg (not_not.mpr ha)).trans (withAccess_of_outside hout)

end

/-! An operation of the I form, which uses every bit of its word. -/

section
variable {d : Dev} {k : Ctx} {e : Nat} {op : BitVec 6} {rd ra : BitVec 4} {imm : BitVec 18} {o : SlotOp}

theorem issueS_I_go {f : Dev → Dev} (h : IssuesS e k (encI op rd ra imm) d) (hl : o.legal = true) (hr : o.run k d = .go f none) :
    d.issueS e (encI op rd ra imm) 0xFFFFFFFF 0 o = f (d.advance k) :=
  issueS_go h (care_all _) (zero_none _) hl hr

theorem issueS_I_fault {c : Nat} (h : IssuesS e k (encI op rd ra imm) d) (hl : o.legal = true) (hr : o.run k d = .fault c d) :
    d.issueS e (encI op rd ra imm) 0xFFFFFFFF 0 o = d.kernelFault k.e c 0 0 :=
  issueS_fault h (care_all _) (zero_none _) hl hr

end

/-- Settles O25: an access is misaligned, or outside every range, or lands. -/
theorem scalarLoadsAndStores : Obligations.ScalarLoadsAndStores := by
  unfold Obligations.ScalarLoadsAndStores
  refine ⟨?ldw, ?ldwAlign, ?ldwAddr, ?ldh, ?ldhAlign, ?ldhAddr, ?ldb, ?ldbAddr, ?stw, ?stwAlign, ?stwAddr, ?sth, ?sthAlign, ?sthAddr, ?stb,
    ?stbAddr⟩
  case ldw | ldh =>
    intro d k e rd ra imm x h ha hx
    exact Runs.of_issueS (fun _ => rfl) (issueS_I_go h rfl (opLoad_run_of_ok ha hx))
  case ldwAlign | ldhAlign =>
    intro d k e rd ra imm h ha
    exact Runs.of_issueS (fun _ => rfl) (issueS_I_fault h rfl (opLoad_run_of_misaligned ha))
  case ldwAddr | ldhAddr =>
    intro d k e rd ra imm h ha hout
    exact Runs.of_issueS (fun _ => rfl) (issueS_I_fault h rfl (opLoad_run_of_outside ha hout))
  case ldb =>
    intro d k e rd ra imm x h hx
    exact Runs.of_issueS (fun _ => rfl) (issueS_I_go h rfl (opLoad_run_of_ok (Nat.mod_one _) hx))
  case ldbAddr =>
    intro d k e rd ra imm h hout
    exact Runs.of_issueS (fun _ => rfl) (issueS_I_fault h rfl (opLoad_run_of_outside (Nat.mod_one _) hout))
  case stw | sth =>
    intro d k e rd ra imm x h ha hx
    exact Runs.of_issueS (fun _ => rfl) (issueS_I_go h rfl (opStore_run_of_ok ha hx))
  case stwAlign | sthAlign =>
    intro d k e rd ra imm h ha
    exact Runs.of_issueS (fun _ => rfl) (issueS_I_fault h rfl (opStore_run_of_misaligned ha))
  case stwAddr | sthAddr =>
    intro d k e rd ra imm h ha hout
    exact Runs.of_issueS (fun _ => rfl) (issueS_I_fault h rfl (opStore_run_of_outside ha hout))
  case stb =>
    intro d k e rd ra imm x h hx
    exact Runs.of_issueS (fun _ => rfl) (issueS_I_go h rfl (opStore_run_of_ok (Nat.mod_one _) hx))
  case stbAddr =>
    intro d k e rd ra imm h hout
    exact Runs.of_issueS (fun _ => rfl) (issueS_I_fault h rfl (opStore_run_of_outside (Nat.mod_one _) hout))

end Sys2Proof.Machine
end

section
/-! Scope: the branches and jumps of slot S (R361, R369, R373). -/

namespace Sys2Proof.Machine

/-! Where the next bundle is. -/

section
variable {d : Dev} {k : Ctx} {ra rb : BitVec 4} {pa : BitVec 3} {off : BitVec 18} {c : Word → Word → Bool} {any_ : Bool}

theorem opBranch_run_of_taken (hc : c (k.x.sreg ra.toNat) (k.x.sreg rb.toNat) = true) :
    (opBranch c ra rb off).run k d = .go id (some (k.x.pc + off.toInt)) := by
  simp [opBranch, hc]

theorem opBranch_run_of_not_taken (hc : c (k.x.sreg ra.toNat) (k.x.sreg rb.toNat) = false) :
    (opBranch c ra rb off).run k d = .go id none := by
  simp [opBranch, hc]

theorem opBranchP_run_of_taken (hp : (k.x.preg pa.toNat != 0) = any_) :
    (opBranchP any_ pa off).run k d = .go id (some (k.x.pc + off.toInt)) :=
  congrArg (Issue.go id) (if_pos (beq_iff_eq.mpr hp))

theorem opBranchP_run_of_not_taken (hp : (k.x.preg pa.toNat != 0) = !any_) : (opBranchP any_ pa off).run k d = .go id none :=
  congrArg (Issue.go id) (if_neg fun h => Bool.not_ne_self any_ (hp.symm.trans (beq_iff_eq.mp h)))

theorem opJr_run_of_target (ht : 16 ≤ (k.x.sreg ra.toNat).toNat % 1024) :
    (opJr ra).run k d = .go id (some ((k.x.sreg ra.toNat).toNat % 1024 : Nat)) :=
  if_neg (Nat.not_lt.mpr ht)

theorem opJr_run_of_table (ht : (k.x.sreg ra.toNat).toNat % 1024 < 16) : (opJr ra).run k d = .fault 5 d := if_pos ht

end

section
variable {d : Dev} {k : Ctx} {e : Nat} {op : BitVec 6} {rd ra : BitVec 4} {pa : BitVec 3} {imm : BitVec 18} {o : SlotOp} {f : Dev → Dev}
  {t : Int}

theorem issueS_I_jump (h : IssuesS e k (encI op rd ra imm) d) (hl : o.legal = true) (hr : o.run k d = .go f (some t)) (h0 : 0 ≤ t)
    (h1 : t ≤ 1023) : d.issueS e (encI op rd ra imm) 0xFFFFFFFF 0 o = f (d.modEng k.e fun x => { x with pc := t.toNat }) :=
  issueS_jump h (care_all _) (zero_none _) hl hr h0 h1

theorem issueS_I_out (h : IssuesS e k (encI op rd ra imm) d) (hl : o.legal = true) (hr : o.run k d = .go f (some t))
    (hout : t < 0 ∨ 1023 < t) : d.issueS e (encI op rd ra imm) 0xFFFFFFFF 0 o = d.kernelFault k.e 5 0 0 :=
  issueS_out h (care_all _) (zero_none _) hl hr hout

end

/-- Settles O26: the condition decides between the next bundle and the target, and the target between a jump and PC. -/
theorem branchesAndJumps : Obligations.BranchesAndJumps := by
  unfold Obligations.BranchesAndJumps
  refine ⟨?beq, ?beqNot, ?beqOut, ?bne, ?bneNot, ?bneOut, ?blt, ?bltNot, ?bltOut, ?bge, ?bgeNot, ?bgeOut, ?bltu, ?bltuNot, ?bltuOut, ?bgeu,
    ?bgeuNot, ?bgeuOut, ?bpany, ?bpanyNot, ?bpnone, ?bpnoneNot, ?jal, ?jalOut, ?jr, ?jrTable⟩
  case beq | bne | blt | bge | bltu | bgeu =>
    intro d k e ra rb off h hc h0 h1
    exact Runs.of_issueS (fun _ => rfl)
      (issueS_I_jump h rfl (opBranch_run_of_taken (by simpa [signedLt, unsignedLt] using hc)) h0 h1)
  case beqNot | bneNot | bltNot | bgeNot | bltuNot | bgeuNot =>
    intro d k e ra rb off h hc
    exact Runs.of_issueS (fun _ => rfl) (issueS_I_go h rfl (opBranch_run_of_not_taken (by simpa [signedLt, unsignedLt] using hc)))
  case beqOut | bneOut | bltOut | bgeOut | bltuOut | bgeuOut =>
    intro d k e ra rb off h hc hout
    exact Runs.of_issueS (fun _ => rfl)
      (issueS_I_out h rfl (opBranch_run_of_taken (by simpa [signedLt, unsignedLt] using hc)) hout)
  case bpany | bpnone =>
    intro d k e pa off h hp h0 h1
    exact Runs.of_issueS (fun _ => rfl)
      (issueS_jump h (encI_pred_care ..) (encI_pred_zero ..) rfl (opBranchP_run_of_taken (by simpa using hp)) h0 h1)
  case bpanyNot | bpnoneNot =>
    intro d k e pa off h hp
    exact Runs.of_issueS (fun _ => rfl)
      (issueS_go h (encI_pred_care ..) (encI_pred_zero ..) rfl (opBranchP_run_of_not_taken (by simpa using hp)))
  case jal =>
    intro d k e rd imm w hw h h0 h1
    exact Runs.of_issueS (fun _ => rfl) (issueS_jump h hw (zero_none w) rfl rfl h0 h1)
  case jalOut =>
    intro d k e rd imm w hw h hout
    exact Runs.of_issueS (fun _ => rfl) (issueS_out h hw (zero_none w) rfl rfl hout)
  case jr =>
    intro d k e ra w hw hz h ht
    have hin : (((k.x.sreg ra.toNat).toNat % 1024 : Nat) : Int) ≤ 1023 := by omega
    exact Runs.of_issueS (fun _ => rfl) (issueS_jump h hw hz rfl (opJr_run_of_target ht) (by omega) hin)
  case jrTable =>
    intro d k e ra w hw hz h ht
    exact Runs.of_issueS (fun _ => rfl) (issueS_fault h hw hz rfl (opJr_run_of_table ht))

end Sys2Proof.Machine
end

section
/-! Scope: the operations of slot S that wait, that reach other blocks and that read special values (R371 to R384), and NOP. -/

namespace Sys2Proof.Machine

/-! NOP (R363). -/

section
variable {d : Dev} {k : Ctx} {e : Nat} {s v : Word}

theorem issueNopS_zero (h : IssuesS e k 0 d) : d.issueNopS e = d.advance k := by
  obtain ⟨hfetch, hpc⟩ := h
  calc d.issueNopS e = d.bundle k (opNop 0) (opVnop 0) := by
        simp only [Dev.issueNopS, hfetch, slotS_zero, slotV_zero]
        exact if_pos (.inl (by decide))
    _ = d.bundleActs k id id none := bundle_go k _ _ d id id none none rfl rfl rfl rfl rfl
    _ = d.advance k := bundleActs_none k id id d hpc

theorem issueNopS_undefined (hfetch : d.fetch e = some (k, s, v)) (hs : slotS s = none) : d.issueNopS e = d.kernelFault k.e 1 0 0 := by
  simp only [Dev.issueNopS, hfetch, hs, Option.isNone_none, or_true, if_true]
  rfl

end

/-! Transfers (R371, R372). -/

section
variable {d : Dev} {k : Ctx} {rd ra rb : BitVec 4} {tag code : BitVec 6} {store : Bool} {t x : Nat}

theorem opXwait_run_of_done (hdone : k.x.xfers.any (fun q => code.getLsbD 2 || q.tag == code.toNat % 4) = false) :
    (opXwait code).run k d = .go (fun y => y.land k.e fun t => code.getLsbD 2 || t == code.toNat % 4) none :=
  if_neg (by rw [hdone]; exact Bool.false_ne_true)

theorem opXwait_run_of_busy (hbusy : k.x.xfers.any (fun q => code.getLsbD 2 || q.tag == code.toNat % 4) = true) :
    (opXwait code).run k d = .stall d :=
  if_pos hbusy

theorem opXfer_legal (hra : ra.getLsbD 0 = false) (ht : tag.toNat < 4) : (opXfer store rd ra rb tag).legal = true := by
  simp only [opXfer, hra, ht, decide_true]
  rfl

theorem opXfer_run_of_ok (ht : tag.toNat = t) (hfree : k.x.xfers.any (fun q => q.tag == t) = false)
    (hda : (k.x.pair ra.toNat).toNat % 32 = 0) (hea : (k.x.sreg rb.toNat).toNat % 32 = 0) (hn : (k.x.sreg rd.toNat).toNat % 32 = 0)
    (hmin : 32 ≤ (k.x.sreg rd.toNat).toNat) (hmax : (k.x.sreg rd.toNat).toNat ≤ 32768) (hrow : xferDa (k.x.pair ra.toNat).toNat = true)
    (hx : k.access (!store) (k.x.sreg rb.toNat).toNat (k.x.sreg rd.toNat).toNat d = .ok x)
    (hstop : d.runStop (0x30 + k.e / 16) store (k.x.pair ra.toNat).toNat (k.x.sreg rd.toNat).toNat = none) :
    (opXfer store rd ra rb tag).run k d =
      .go (Dev.xferStart k store t (k.x.pair ra.toNat).toNat x (k.x.sreg rd.toNat).toNat) none := by
  subst ht
  have haligned : ¬ ((k.x.pair ra.toNat).toNat % 32 ≠ 0 ∨ (k.x.sreg rb.toNat).toNat % 32 ≠ 0 ∨ (k.x.sreg rd.toNat).toNat % 32 ≠ 0 ∨
      (k.x.sreg rd.toNat).toNat < 32 ∨ 32768 < (k.x.sreg rd.toNat).toNat ∨ (!xferDa (k.x.pair ra.toNat).toNat) = true) := by
    simp [hda, hea, hn, hmin, hmax, hrow]
  simp only [opXfer, hfree, if_neg haligned, withAccess_of_ok hx, hstop]
  rfl

/-- A size that is no multiple of 32 (R374). -/
theorem opXfer_run_of_size (ht : tag.toNat = t) (hfree : k.x.xfers.any (fun q => q.tag == t) = false)
    (hn : (k.x.sreg rd.toNat).toNat % 32 ≠ 0) : (opXfer store rd ra rb tag).run k d = .fault 3 d :=
  (if_neg (by rw [ht, hfree]; exact Bool.false_ne_true)).trans (if_pos (.inr (.inr (.inl hn))))

theorem toNat_xferTag (t : Fin 4) : (BitVec.ofNat 6 t).toNat = t := by
  revert t
  decide

theorem toNat_xferTag_lt (t : Fin 4) : (BitVec.ofNat 6 t).toNat < 4 := (toNat_xferTag t).trans_lt t.isLt

end

/-! Snag records (R375 to R379). -/

section
variable {d : Dev} {k : Ctx} {rd ra : BitVec 4} {x : Nat}

theorem opEmit_run_of_misaligned (ha : (k.x.sreg ra.toNat).toNat % 8 ≠ 0) : (opEmit rd ra).run k d = .fault 3 d := if_pos ha

theorem opEmit_run_of_overflow (ha : (k.x.sreg ra.toNat).toNat % 8 = 0) (hx : k.access false (k.x.sreg ra.toNat).toNat 64 d = .ok x)
    (hmax : k.x.maxSnag ≤ k.x.emitted) : (opEmit rd ra).run k d = .go (fun y => y.setS k.e rd.toNat 1) none :=
  ((if_neg (not_not.mpr ha)).trans (withAccess_of_ok hx)).trans (if_pos hmax)

/-- A record without a crop. -/
theorem opEmit_run_of_plain (ha : (k.x.sreg ra.toNat).toNat % 8 = 0) (hx : k.access false (k.x.sreg ra.toNat).toNat 64 d = .ok x)
    (hmax : k.x.emitted < k.x.maxSnag) (hroom : d.heldResults + d.ste.flights.length < 8192) (hcrop : leAt (d.engBytes x 64) 0x24 2 = 0) :
    (opEmit rd ra).run k d =
      .go (fun y => (y.sendResult k (snagRecord k.item (d.engBytes x 64) false 0) none).setS k.e rd.toNat 0) none :=
  calc (opEmit rd ra).run k d = _ := (if_neg (not_not.mpr ha)).trans (withAccess_of_ok hx)
    _ = _ := if_neg (Nat.not_le.mpr hmax)
    _ = _ := if_neg (Nat.not_le.mpr hroom)
    _ = _ := if_pos (.inl hcrop)

end

/-! Queue marks (R381, R382). -/

section
variable {d : Dev} {k : Ctx} {rd ra rb : BitVec 4} {m : MarkHandle} {p : Mark} {cur n x : Nat}

theorem opQcpy_run_of_invalid (hm : k.handle (k.x.sreg ra.toNat).toNat = none) :
    (opQcpy rd ra rb).run k d = .go (fun y => y.setS k.e rd.toNat (markFail 2)) none := by
  simp only [opQcpy, hm]

theorem opQcpy_run_of_held (hm : k.handle (k.x.sreg ra.toNat).toNat = some m) (hf : k.fenced = false) (hp : d.heldMark m = some p)
    (hcur : m.cursor = some cur) (hn : n = min (k.x.sreg rd.toNat).toNat ((d.ply m.queue).read - cur)) (hpos : n ≠ 0)
    (hx : k.access true (k.x.sreg rb.toNat).toNat (32 * n) d = .ok x) :
    (opQcpy rd ra rb).run k d = .go (fun y =>
      ((y.engPut x ((d.ply m.queue).entryBytes cur n)).setCursor k.e m (cur + n)).setS k.e rd.toNat (BitVec.ofNat 32 n)) none := by
  simp only [opQcpy, hm, hf, hp, hcur, ← hn, if_neg hpos, withAccess_of_ok hx]
  rfl

end

/-! Events and ordering (R383, R384). -/

section
variable {d : Dev} {k : Ctx} {ra : BitVec 4}

theorem opEvwait_run_of_event (hev : BitVec.ofNat 32 (d.cluster (k.e / 16)).events ≠ k.x.sreg ra.toNat) :
    (opEvwait ra).run k d = .go (fun y => y.modEng k.e fun x => { x with hop := (d.cluster (k.e / 16)).evHop + 1 }) none :=
  if_neg hev

theorem opEvwait_run_of_no_event (hev : BitVec.ofNat 32 (d.cluster (k.e / 16)).events = k.x.sreg ra.toNat) :
    (opEvwait ra).run k d = .stall d :=
  if_pos hev

theorem opMsync_run_of_done (hdone : k.x.xfers.any (·.store) = false) : opMsync.run k d = .go id none := if_neg (by simp [hdone])

theorem opMsync_run_of_busy (hbusy : k.x.xfers.any (·.store) = true) : opMsync.run k d = .stall d := if_pos hbusy

end

/-- Settles O27: each clause is an outcome of its operation, and the issue of the bundle says what that makes of the device. -/
theorem engineSystemOperations : Obligations.EngineSystemOperations := by
  unfold Obligations.EngineSystemOperations
  refine ⟨?nop, ?undefined, ?xwait, ?xwaitBusy, ?xld, ?xldSize, ?xst, ?xstSize, ?emit, ?emitOver, ?emitAlign, ?endItem, ?qmark, ?qmarkOther,
    ?qrew, ?qrewInvalid, ?qrel, ?qrelInvalid, ?qcpy, ?qcpyInvalid, ?pub, ?evwait, ?evwaitSame, ?rdsr0, ?rdsr1, ?rdsr2, ?rdsr5, ?rdsr6,
    ?rdsr7, ?rdsr3, ?rdsr4, ?msync, ?msyncBusy⟩
  case nop =>
    intro d k e h
    have hrun : Runs (.nop e) d (d.issueNopS e) := fun _ => rfl
    exact hrun.to_eq (issueNopS_zero h)
  case undefined =>
    intro d k e s v hfetch hs
    have hrun : Runs (.nop e) d (d.issueNopS e) := fun _ => rfl
    exact hrun.to_eq (issueNopS_undefined hfetch hs)
  case xwait =>
    intro d k e code w hw hz h hcode hdone
    exact Runs.of_issueS (fun _ => rfl) (issueS_go h hw hz (decide_eq_true hcode) (opXwait_run_of_done hdone))
  case xwaitBusy =>
    intro d k e code w hw hz h hcode hbusy
    exact Runs.of_issueS (fun _ => rfl) (issueS_stall h hw hz (decide_eq_true hcode) (opXwait_run_of_busy hbusy))
  case xld | xst =>
    rintro d k e rd ra rb t x _ _ _ h hra rfl rfl rfl hfree hda hea hn hmin hmax hrow hx hstop
    exact Runs.of_issueS (fun _ => rfl) (issueS_go h (encR_care ..) (encR_zero ..) (opXfer_legal hra (toNat_xferTag_lt t))
      (opXfer_run_of_ok (toNat_xferTag t) hfree hda hea hn hmin hmax hrow hx hstop))
  case xldSize | xstSize =>
    intro d k e rd ra rb t h hra hfree hn
    exact Runs.of_issueS (fun _ => rfl) (issueS_fault h (encR_care ..) (encR_zero ..) (opXfer_legal hra (toNat_xferTag_lt t))
      (opXfer_run_of_size (toNat_xferTag t) hfree hn))
  case emit =>
    intro d k e rd ra x w hw hz h ha hx hmax hroom hcrop
    exact Runs.of_issueS (fun _ => rfl) ((issueS_go h hw hz rfl (opEmit_run_of_plain ha hx hmax hroom hcrop)).trans rfl)
  case emitOver =>
    intro d k e rd ra x w hw hz h ha hx hmax
    exact Runs.of_issueS (fun _ => rfl) (issueS_go h hw hz rfl (opEmit_run_of_overflow ha hx hmax))
  case emitAlign =>
    intro d k e rd ra w hw hz h ha
    exact Runs.of_issueS (fun _ => rfl) (issueS_fault h hw hz rfl (opEmit_run_of_misaligned ha))
  case endItem =>
    intro d k e w hw hz h hst
    exact Runs.of_issueS (fun _ => rfl) ((issueS_go h hw hz rfl rfl).trans (if_neg hst))
  case qmark =>
    intro d k e rd ra rb i s y h hf hown hreq
    refine Runs.of_issueS (fun _ => rfl) ((issueS_go h (encR_care ..) (encR_zero ..) rfl rfl).trans ?_)
    simp only [hf, hown, hreq]
    rfl
  case qmarkOther =>
    intro d k e rd ra rb h hf hown
    refine Runs.of_issueS (fun _ => rfl) ((issueS_go h (encR_care ..) (encR_zero ..) rfl rfl).trans ?_)
    simp only [hf, hown]
    rfl
  case qrew | qrel =>
    intro d k e rd ra m p w hw hz h hm hf hp
    refine Runs.of_issueS (fun _ => rfl) ((issueS_go h hw hz rfl rfl).trans ?_)
    simp only [hm, hf, hp]
    rfl
  case qrewInvalid | qrelInvalid =>
    intro d k e rd ra w hw hz h hm
    refine Runs.of_issueS (fun _ => rfl) ((issueS_go h hw hz rfl rfl).trans ?_)
    simp only [hm]
  case qcpy =>
    intro d k e rd ra rb m p cur n x h hm hf hp hcur hn hpos hx
    exact Runs.of_issueS (fun _ => rfl)
      ((issueS_go h (encR_care ..) (encR_zero ..) rfl (opQcpy_run_of_held hm hf hp hcur hn hpos hx)).trans rfl)
  case qcpyInvalid =>
    intro d k e rd ra rb h hm
    exact Runs.of_issueS (fun _ => rfl) (issueS_go h (encR_care ..) (encR_zero ..) rfl (opQcpy_run_of_invalid hm))
  case pub =>
    intro d k e w hw hz h
    exact Runs.of_issueS (fun _ => rfl) (issueS_go h hw hz rfl rfl)
  case evwait =>
    intro d k e ra w hw hz h hev
    exact Runs.of_issueS (fun _ => rfl) (issueS_go h hw hz rfl (opEvwait_run_of_event hev))
  case evwaitSame =>
    intro d k e ra w hw hz h hev
    exact Runs.of_issueS (fun _ => rfl) (issueS_stall h hw hz rfl (opEvwait_run_of_no_event hev))
  case rdsr0 | rdsr1 | rdsr2 | rdsr5 | rdsr6 | rdsr7 =>
    intro d k e rd w hw hz h
    refine Runs.of_issueS (fun _ => rfl) ((issueS_go h hw hz rfl rfl).trans ?_)
    rfl
  case rdsr3 | rdsr4 =>
    intro d k e rd w hw hz h
    exact ⟨_, Runs.of_issueS (fun _ => rfl) (issueS_go h hw hz rfl rfl), _, rfl⟩
  case msync =>
    intro d k e w hw hz h hdone
    exact Runs.of_issueS (fun _ => rfl) (issueS_go h hw hz rfl (opMsync_run_of_done hdone))
  case msyncBusy =>
    intro d k e w hw hz h hbusy
    exact Runs.of_issueS (fun _ => rfl) (issueS_stall h hw hz rfl (opMsync_run_of_busy hbusy))

end Sys2Proof.Machine
end

section
/-! Scope: the lane arithmetic of slot V (R359, R365, R370), and VNOP. -/

namespace Sys2Proof.Machine

/-- A command that issues a bundle by slot V, with what the bundle makes of the device. -/
theorem Runs.of_issueV {c : Instr} {d t : Dev} {e : Nat} {word care zero : Word} {o : SlotOp} (hc : Runs c d (d.issueV e word care zero o))
    (h : d.issueV e word care zero o = t) : Runs c d t :=
  hc.to_eq h

/-! VNOP (R363). -/

section
variable {d : Dev} {k : Ctx} {e : Nat} {v : Word}

theorem issueNopV_zero (h : IssuesV e k 0 d) : d.issueNopV e = d.advance k := by
  obtain ⟨hfetch, hpc⟩ := h
  calc d.issueNopV e = d.bundle k (opNop 0) (opVnop 0) := by
        simp only [Dev.issueNopV, hfetch, slotS_zero, slotV_zero]
        exact if_pos (.inl (by decide))
    _ = d.bundleActs k id id none := bundle_go k _ _ d id id none none rfl rfl rfl rfl rfl
    _ = d.advance k := bundleActs_none k id id d hpc

theorem issueNopV_undefined (hfetch : d.fetch e = some (k, 0, v)) (hv : slotV v = none) : d.issueNopV e = d.kernelFault k.e 1 1 0 := by
  simp only [Dev.issueNopV, hfetch, hv, Option.isNone_none, or_true, if_true, slotS_zero]
  rfl

end

/-! A vector result under a predicate. -/

section
variable {d : Dev} {k : Ctx} {e : Nat} {v word care zero : Word} {vd : BitVec 5} {pm : BitVec 3} {w : Bool} {f : Ctx → VWord} {new : VWord}

/-- The enabled lanes of vd take those of the result, and the PC goes on (R365). -/
theorem issueV_opVec (h : IssuesV e k v d) (hw : v &&& care = word) (hz : v &&& zero = 0) (hf : f k = new) :
    d.issueV e word care zero (opVec vd pm w f) =
      (d.advance k).setV k.e vd.toNat (mergeLanes w (k.x.preg pm.toNat) (k.x.vreg vd.toNat) new) := by
  subst hf
  exact issueV_go h hw hz rfl rfl

end

/-! The results. -/

section
variable {w : Bool} {f g : Nat → Nat → Nat} {u v : VWord}

/-- Two operations that agree on lanes give one register. -/
theorem laneMap_congr (h : ∀ a b, a < 2 ^ laneBits w → f a b = g a b) : laneMap w f u v = laneMap w g u v :=
  congrArg (ofLanes w) (funext fun i => h (lane w u i) (lane w v i) (lane_lt w u i))

theorem wrapLane_natCast (n : Nat) : wrapLane w (n : Int) = n % 2 ^ laneBits w := by
  have hcast : (n : Int) % 2 ^ laneBits w = ((n % 2 ^ laneBits w : Nat) : Int) := by push_cast; rfl
  rw [wrapLane, hcast, Int.toNat_natCast]

theorem saturate_natCast (n : Nat) : saturate w (n : Int) = min n (2 ^ laneBits w - 1) := by
  have hpos : 1 ≤ 2 ^ laneBits w := Nat.one_le_two_pow
  have hcast : (2 : Int) ^ laneBits w - 1 = ((2 ^ laneBits w - 1 : Nat) : Int) := by push_cast [hpos]; rfl
  rw [saturate, hcast]
  omega

/-- A difference of lanes saturates at 0 only. -/
theorem saturate_sub {a : Nat} (b : Nat) (ha : a < 2 ^ laneBits w) : saturate w ((a : Int) - b) = a - b := by
  have hcast : (2 : Int) ^ laneBits w - 1 = ((2 ^ laneBits w - 1 : Nat) : Int) := by push_cast [Nat.one_le_two_pow]; rfl
  rw [saturate, hcast]
  omega

theorem absDiff_eq_max_sub_min (a b : Nat) : absDiff a b = max a b - min a b := by
  unfold absDiff
  omega

/-- An immediate shift amount is its 4 bits. -/
theorem toNat_shiftAmount (imm : BitVec 4) : (imm.setWidth 12).toNat % 16 = imm.toNat := by
  revert imm
  decide

end

/-- Settles O28: every operation writes its result under the predicate, and its result is the one of R370, lane by lane. -/
theorem vectorArithmetic : Obligations.VectorArithmetic := by
  unfold Obligations.VectorArithmetic
  refine ⟨?vnop, ?undefined, ?vadd, ?vsub, ?vadds, ?vsubs, ?vabsd, ?vmin, ?vmax, ?vand, ?vor, ?vxor, ?vmul, ?vmulh, ?vavg, ?vshl, ?vshr,
    ?vsar, ?vaddi, ?vshli, ?vshri, ?vsari, ?vsplati⟩
  case vnop =>
    intro d k e h
    have hrun : Runs (.vnop e) d (d.issueNopV e) := fun _ => rfl
    exact hrun.to_eq (issueNopV_zero h)
  case undefined =>
    intro d k e v hfetch hv
    have hrun : Runs (.vnop e) d (d.issueNopV e) := fun _ => rfl
    exact hrun.to_eq (issueNopV_undefined hfetch hv)
  case vsub | vmin | vmax | vand | vor | vxor | vmulh | vavg | vshr | vsar =>
    intro d k e vd va vb pm w h
    exact Runs.of_issueV (fun _ => rfl) (issueV_opVec h (care_all _) (zero_none _) rfl)
  case vadd | vmul | vshl =>
    intro d k e vd va vb pm w h
    exact Runs.of_issueV (fun _ => rfl) (issueV_opVec h (care_all _) (zero_none _)
      (laneMap_congr fun a b _ => (congrArg (wrapLane w) (by push_cast; rfl)).trans (wrapLane_natCast _)))
  case vadds =>
    intro d k e vd va vb pm w h
    exact Runs.of_issueV (fun _ => rfl) (issueV_opVec h (care_all _) (zero_none _) (laneMap_congr fun a b _ => saturate_natCast (a + b)))
  case vsubs =>
    intro d k e vd va vb pm w h
    exact Runs.of_issueV (fun _ => rfl) (issueV_opVec h (care_all _) (zero_none _) (laneMap_congr fun a b ha => saturate_sub b ha))
  case vabsd =>
    intro d k e vd va vb pm w h
    exact Runs.of_issueV (fun _ => rfl)
      (issueV_opVec h (care_all _) (zero_none _) (laneMap_congr fun a b _ => absDiff_eq_max_sub_min a b))
  case vaddi =>
    intro d k e vd va pm w imm h
    exact Runs.of_issueV (fun _ => rfl) (issueV_opVec h (care_all _) (zero_none _) rfl)
  case vshri | vsari =>
    intro d k e vd va pm w imm h
    rw [← toNat_shiftAmount]
    exact Runs.of_issueV (fun _ => rfl) (issueV_opVec h (encVI_shift_care ..) (encVI_shift_zero ..) rfl)
  case vshli =>
    intro d k e vd va pm w imm h
    rw [← toNat_shiftAmount]
    exact Runs.of_issueV (fun _ => rfl) (issueV_opVec h (encVI_shift_care ..) (encVI_shift_zero ..)
      (congrArg (ofLanes w) (funext fun i => (congrArg (wrapLane w) (by push_cast; rfl)).trans (wrapLane_natCast _))))
  case vsplati =>
    intro d k e vd pm w imm u hu hz h
    exact Runs.of_issueV (fun _ => rfl) (issueV_opVec h hu hz rfl)

end Sys2Proof.Machine
end

section
/-! Scope: comparisons, predicates, selection, reductions, slides, widening and narrowing of slot V (R360, R365, R370). -/

namespace Sys2Proof.Machine

/-! Comparisons into a predicate. -/

section
variable {d : Dev} {k : Ctx} {e : Nat} {op : BitVec 6} {pd pm : BitVec 3} {va vb : BitVec 5} {w : Bool} {fn : BitVec 7}
  {f : Int → Int → Bool} {g : Nat → Bool}

/-- A comparison of lanes as signed numbers. -/
theorem issueV_opCmp_signed (h : IssuesV e k (encVR op (predField pd) va vb pm w fn) d)
    (hg : ∀ i, f (laneInt w (k.x.vreg va.toNat) i) (laneInt w (k.x.vreg vb.toNat) i) = g i) :
    d.issueV e (encVR op (predField pd) va vb pm w fn) 0xFCFFFFFF vdPred (opCmp f true pd va vb pm w) =
      (d.advance k).setP k.e pd.toNat (compareLanes w (k.x.preg pm.toNat) g) := by
  obtain rfl := funext hg
  exact issueV_go h (encVR_pred_care ..) (encVR_pred_zero ..) rfl rfl

/-- A comparison of lanes as unsigned numbers. -/
theorem issueV_opCmp_unsigned (h : IssuesV e k (encVR op (predField pd) va vb pm w fn) d)
    (hg : ∀ i, f (lane w (k.x.vreg va.toNat) i) (lane w (k.x.vreg vb.toNat) i) = g i) :
    d.issueV e (encVR op (predField pd) va vb pm w fn) 0xFCFFFFFF vdPred (opCmp f false pd va vb pm w) =
      (d.advance k).setP k.e pd.toNat (compareLanes w (k.x.preg pm.toNat) g) := by
  obtain rfl := funext hg
  exact issueV_go h (encVR_pred_care ..) (encVR_pred_zero ..) rfl rfl

end

/-! Reductions (R365). -/

section
variable {d : Dev} {k : Ctx} {e : Nat} {v word care zero : Word} {sd : BitVec 4} {va : BitVec 5} {pm : BitVec 3} {w : Bool}

theorem issueV_opVrmax_of_some (h : IssuesV e k v d) (hw : v &&& care = word) (hz : v &&& zero = 0)
    (hl : enabledLanes w (k.x.preg pm.toNat) ≠ []) :
    d.issueV e word care zero (opVrmax sd va pm w) = (d.advance k).setS k.e sd.toNat (BitVec.ofNat 32
      ((enabledLanes w (k.x.preg pm.toNat)).foldl (fun m i => max m (lane w (k.x.vreg va.toNat) i)) 0)) := by
  refine (issueV_go h hw hz rfl rfl).trans ?_
  dsimp only
  split
  case h_1 hnil => exact absurd hnil hl
  case h_2 => rfl

/-- The maximum of no lane is free. -/
theorem issueV_opVrmax_of_none (h : IssuesV e k v d) (hw : v &&& care = word) (hz : v &&& zero = 0)
    (hl : enabledLanes w (k.x.preg pm.toNat) = []) :
    d.issueV e word care zero (opVrmax sd va pm w) =
      ((d.advance k).fresh 32).2.setS k.e sd.toNat ((d.advance k).fresh 32).1 := by
  refine (issueV_go h hw hz rfl rfl).trans ?_
  simp only [hl]

end

/-! Slides. -/

section
variable {d : Dev} {k : Ctx} {e : Nat} {v word care zero : Word} {vd : BitVec 5} {pm : BitVec 3} {w : Bool}
  {from_ : Ctx → Nat → Option Nat} {o : SlotOp}

/-- The register that a slide merges in: where a lane has a source it is that lane, and only a lane without one draws a free value. -/
theorem issueV_slide (h : IssuesV e k v d) (hw : v &&& care = word) (hz : v &&& zero = 0) (hl : o.legal = true)
    (hr : o.run = (opSlide vd pm w from_).run) : ∃ new : VWord,
      (d.issueV e word care zero o = (d.advance k).setV k.e vd.toNat (mergeLanes w (k.x.preg pm.toNat) (k.x.vreg vd.toNat) new) ∨
        d.issueV e word care zero o =
          ((d.advance k).fresh 256).2.setV k.e vd.toNat (mergeLanes w (k.x.preg pm.toNat) (k.x.vreg vd.toNat) new)) ∧
      ∀ i n, i < laneCount w → from_ k i = some n → lane w new i = n % 2 ^ laneBits w := by
  refine ⟨ofLanes w fun i => (from_ k i).getD (lane w ((d.advance k).fresh 256).1 i), ?_, ?_⟩
  · rw [issueV_go h hw hz hl (congrFun (congrFun hr k) d)]
    dsimp only
    split
    · exact .inl rfl
    · exact .inr rfl
  · intro i n hi hn
    rw [lane_ofLanes w _ hi, hn]
    rfl

end

/-- A lane is its own remainder. -/
theorem lane_mod (w : Bool) (v : VWord) (i : Nat) : lane w v i % 2 ^ laneBits w = lane w v i := Nat.mod_eq_of_lt (lane_lt w v i)

theorem concatLane_of_lt {w : Bool} {u v : VWord} {j : Nat} (hj : j < 2 * laneCount w) :
    concatLane w u v j = some (if j < laneCount w then lane w u j else lane w v (j - laneCount w)) := by
  unfold concatLane
  split
  · rfl
  · rfl

/-- A 16-bit lane narrowed to a byte saturates at 255. -/
theorem narrow_eq_ofLanes (u v : VWord) :
    narrow u v = ofLanes true fun i => min (if i < 16 then lane false u i else lane false v (i - 16)) 255 := by
  refine congrArg (ofLanes true) (funext fun i => ?_)
  split
  · exact saturate_natCast _
  · exact saturate_natCast _

/-- Settles O29: each operation goes with its own effect, which the issue of the bundle applies to the next bundle's device. -/
theorem vectorSelectionAndReduction : Obligations.VectorSelectionAndReduction := by
  unfold Obligations.VectorSelectionAndReduction
  refine ⟨?vcmpeq, ?vcmplt, ?vcmpltu, ?vcmpge, ?vcmpgeu, ?pand, ?por, ?pxor, ?pandn, ?pset, ?pclr, ?vsel, ?vsplat, ?vmuls, ?vextr, ?vins,
    ?vrsum, ?vrmax, ?vrmaxNone, ?vpcnt, ?vpfirst, ?vsad, ?vdot, ?vdotBytes, ?vslide, ?vslidei, ?vwidel, ?vwideh, ?vnarrow⟩
  case vcmpeq =>
    intro d k e pd va vb pm w h
    exact Runs.of_issueV (fun _ => rfl) (issueV_opCmp_unsigned h fun i => decide_eq_decide.mpr Nat.cast_inj)
  case vcmpltu =>
    intro d k e pd va vb pm w h
    exact Runs.of_issueV (fun _ => rfl) (issueV_opCmp_unsigned h fun i => decide_eq_decide.mpr Nat.cast_lt)
  case vcmpgeu =>
    intro d k e pd va vb pm w h
    exact Runs.of_issueV (fun _ => rfl) (issueV_opCmp_unsigned h fun i => decide_eq_decide.mpr Nat.cast_le)
  case vcmplt | vcmpge =>
    intro d k e pd va vb pm w h
    exact Runs.of_issueV (fun _ => rfl) (issueV_opCmp_signed h fun i => rfl)
  case pand | por | pxor | pandn =>
    intro d k e pd pa pb pm w h
    exact Runs.of_issueV (fun _ => rfl) (issueV_go h (encVR_preds_care ..) (encVR_preds_zero ..) rfl rfl)
  case pset | pclr =>
    intro d k e pd pm w u hu hz h
    exact Runs.of_issueV (fun _ => rfl) (issueV_go h hu hz rfl rfl)
  case vsel =>
    intro d k e vd va vb pm w h
    exact Runs.of_issueV (fun _ => rfl) (issueV_go h (care_all _) (zero_none _) rfl rfl)
  case vsplat =>
    intro d k e vd sb pm w u hu h
    exact Runs.of_issueV (fun _ => rfl) (issueV_opVec h hu (zero_none u) rfl)
  case vmuls =>
    intro d k e vd va sb pm w fn h hfn
    exact Runs.of_issueV (fun _ => rfl) (issueV_go h (care_all _) (zero_none _) (decide_eq_true hfn) rfl)
  case vextr =>
    intro d k e sd va w fn u hu hz h hfn
    exact Runs.of_issueV (fun _ => rfl) (issueV_go h hu hz (decide_eq_true hfn) rfl)
  case vins =>
    intro d k e vd sb pm w fn u hu h hfn
    exact Runs.of_issueV (fun _ => rfl) (issueV_go h hu (zero_none u) (decide_eq_true hfn) rfl)
  case vrsum =>
    intro d k e sd va pm w u hu hz h
    exact Runs.of_issueV (fun _ => rfl) (issueV_go h hu hz rfl rfl)
  case vpcnt | vpfirst =>
    intro d k e sd pm w u hu hz h
    exact Runs.of_issueV (fun _ => rfl) (issueV_go h hu hz rfl rfl)
  case vrmax =>
    intro d k e sd va pm w u hu hz h hl
    exact Runs.of_issueV (fun _ => rfl) (issueV_opVrmax_of_some h hu hz hl)
  case vrmaxNone =>
    intro d k e sd va pm w u hu hz h hl
    exact ⟨_, Runs.of_issueV (fun _ => rfl) (issueV_opVrmax_of_none h hu hz hl), _, rfl⟩
  case vsad =>
    intro d k e sd va vb pm w h
    exact Runs.of_issueV (fun _ => rfl) (issueV_go h (encVR_scalar_care ..) (encVR_scalar_zero ..) rfl rfl)
  case vdot =>
    intro d k e sd va vb pm h
    exact Runs.of_issueV (fun _ => rfl) (issueV_go h (encVR_scalar_care ..) (encVR_scalar_zero ..) rfl rfl)
  case vdotBytes =>
    intro d k e sd va vb pm h
    exact Runs.of_issueV (fun _ => rfl) (issueV_illegal h (encVR_scalar_care ..) (.inl rfl))
  case vslide =>
    intro d k e vd va sb pm w h
    obtain ⟨new, hgo, hnew⟩ := issueV_slide (o := opVslide vd va sb pm w) h (care_all _) (zero_none _) rfl rfl
    refine ⟨_, Runs.of_issueV (fun _ => rfl) rfl, new, hgo, fun i hi hj => ?_⟩
    rw [hnew i _ hi (if_pos hj), lane_mod]
  case vslidei =>
    intro d k e vd va vb pm w fn h hfn
    obtain ⟨new, hgo, hnew⟩ := issueV_slide (o := opVslidei vd va vb pm w fn) h (care_all _) (zero_none _) (decide_eq_true hfn) rfl
    refine ⟨_, Runs.of_issueV (fun _ => rfl) rfl, new, hgo, fun i hi hj => ?_⟩
    rw [← Nat.mod_eq_of_lt hfn] at hj ⊢
    rw [hnew i _ hi (concatLane_of_lt hj)]
    split
    · exact lane_mod ..
    · exact lane_mod ..
  case vwidel | vwideh =>
    intro d k e vd va pm u hu h
    exact Runs.of_issueV (fun _ => rfl) (issueV_go h hu (zero_none u) rfl rfl)
  case vnarrow =>
    intro d k e vd va vb pm h
    rw [← narrow_eq_ofLanes]
    exact Runs.of_issueV (fun _ => rfl) (issueV_go h (care_all _) (zero_none _) rfl rfl)

end Sys2Proof.Machine
end

section
/-! Scope: vector loads and stores (R365, R370), the end of transfers (R372) and the cluster event count (R384). -/

namespace Sys2Proof.Machine

/-! Vector memory. -/

section
variable {d : Dev} {k : Ctx} {e : Nat} {vd : BitVec 5} {sa : BitVec 4} {pm : BitVec 3} {inc : Bool} {imm : BitVec 13} {x : Nat}

theorem issueV_opVld_of_ok (h : IssuesV e k (encVM 0x20 vd sa pm inc imm) d) (hx : k.access false (k.vaddr sa inc imm) 32 d = .ok x) :
    d.issueV e (encVM 0x20 vd sa pm inc imm) 0xFFFFFFFF 0 (opVld vd sa pm inc imm) =
      ((d.advance k).setV k.e vd.toNat (mergeLanes true (k.x.preg pm.toNat) (k.x.vreg vd.toNat) (ofBytes (d.engBytes x 32)))).vinc k sa
        inc imm := by
  refine (issueV_go h (care_all _) (zero_none _) rfl (withAccess_of_ok hx)).trans ?_
  rfl

theorem issueV_opVld_of_outside (h : IssuesV e k (encVM 0x20 vd sa pm inc imm) d)
    (hout : engOffset k.e k.item.home (k.vaddr sa inc imm) 32 = none) :
    d.issueV e (encVM 0x20 vd sa pm inc imm) 0xFFFFFFFF 0 (opVld vd sa pm inc imm) = d.kernelFault k.e 2 1 0 :=
  issueV_fault h (care_all _) (zero_none _) rfl (withAccess_of_outside hout)

theorem issueV_opVst_of_ok (h : IssuesV e k (encVM 0x21 vd sa pm inc imm) d) (hx : k.access true (k.vaddr sa inc imm) 32 d = .ok x) :
    d.issueV e (encVM 0x21 vd sa pm inc imm) 0xFFFFFFFF 0 (opVst vd sa pm inc imm) =
      ((enabledLanes true (k.x.preg pm.toNat)).foldl (fun (z : Dev) j =>
        z.engPut (x + j) [BitVec.ofNat 8 (lane true (k.x.vreg vd.toNat) j)]) (d.advance k)).vinc k sa inc imm := by
  refine (issueV_go h (care_all _) (zero_none _) rfl (withAccess_of_ok hx)).trans ?_
  rfl

theorem issueV_opVst_of_outside (h : IssuesV e k (encVM 0x21 vd sa pm inc imm) d)
    (hout : engOffset k.e k.item.home (k.vaddr sa inc imm) 32 = none) :
    d.issueV e (encVM 0x21 vd sa pm inc imm) 0xFFFFFFFF 0 (opVst vd sa pm inc imm) = d.kernelFault k.e 2 1 0 :=
  issueV_fault h (care_all _) (zero_none _) rfl (withAccess_of_outside hout)

end

/-! Transfers and events. -/

theorem runs_xferComplete (d : Dev) (e : Fin 256) (t : Fin 4) : Runs (.xferComplete e t) d (d.xferDone e t) := fun _ => rfl

theorem runs_steEvent (d : Dev) (c : Fin 16) : Runs (.steEvent c) d (d.steEvent c) := fun _ => rfl

section
variable {d y : Dev} {e t : Nat} {q : Xfer} {bs : List Byte}

/-- The bytes of an XLD whose run lasts wait for XWAIT. -/
theorem xferDone_of_load (hq : (d.eng e).xfers.find? (fun p => p.tag == t) = some q) (hstore : q.store = false)
    (hlive : (d.eng e).kernel.isSome = true) (hrun : q.run = (d.eng e).runs) (hread : d.runRead (0x30 + e / 16) q.da q.len = (.ok, bs, y)) :
    d.xferDone e t = (y.modEng e fun z => { z with xfers := z.xfers.filter (fun p => p ≠ q) }).modEng e
      fun z => { z with landed := z.landed ++ [(t, q.at_, aliasBytes q.op q.data bs)] } := by
  simp [Dev.xferDone, hq, hstore, hlive, hrun, hread]

/-- The source bytes of an XST that stand as they were taken are the data written. -/
theorem xferDone_of_store (hq : (d.eng e).xfers.find? (fun p => p.tag == t) = some q) (hstore : q.store = true)
    (hdata : d.engBytes q.at_ q.len = q.data) (hwrite : d.runWrite (0x30 + e / 16) q.da q.data = (.ok, y)) :
    d.xferDone e t = y.modEng e fun z => { z with xfers := z.xfers.filter (fun p => p ≠ q) } := by
  have hxst : d.xstData q = (q.data, d) := if_pos hdata
  simp [Dev.xferDone, hq, hstore, hxst, hwrite]

theorem steEvent_of_activation {c : Nat} {a : Act} (hon : d.clusterOn c = true) (ha : d.activate (Task.steEvent c) = (some a, y)) :
    d.steEvent c = y.modCluster c fun k => { k with events := (k.events + a.n) % 2 ^ 32, evHop := a.hop } := by
  simp only [Dev.steEvent, hon, ha]
  rfl

end

/-- Settles O30: an access lands or is outside every range, and the address and its increase are those of `vaddr` and `vinc`. -/
theorem vectorMemoryAndCompletions : Obligations.VectorMemoryAndCompletions := by
  unfold Obligations.VectorMemoryAndCompletions
  refine ⟨?vld, ?vldAddr, ?vst, ?vstAddr, ?vldInc, ?vldIncAddr, ?vstInc, ?vstIncAddr, ?load, ?store, ?event⟩
  case vld | vldInc =>
    intro d k e vd sa pm imm x h hx
    exact Runs.of_issueV (fun _ => rfl) (issueV_opVld_of_ok h hx)
  case vldAddr | vldIncAddr =>
    intro d k e vd sa pm imm h hout
    exact Runs.of_issueV (fun _ => rfl) (issueV_opVld_of_outside h hout)
  case vst | vstInc =>
    intro d k e vd sa pm imm x h hx
    exact Runs.of_issueV (fun _ => rfl) (issueV_opVst_of_ok h hx)
  case vstAddr | vstIncAddr =>
    intro d k e vd sa pm imm h hout
    exact Runs.of_issueV (fun _ => rfl) (issueV_opVst_of_outside h hout)
  case load =>
    intro d e t q hq hstore hlive hrun bs y hread
    exact (runs_xferComplete d e t).to_eq (xferDone_of_load hq hstore hlive hrun hread)
  case store =>
    intro d e t q hq hstore hdata y hwrite
    exact (runs_xferComplete d e t).to_eq (xferDone_of_store hq hstore hdata hwrite)
  case event =>
    intro d d1 c a hon ha
    exact (runs_steEvent d c).to_eq (steEvent_of_activation hon ha)

end Sys2Proof.Machine
end

section
/-! Scope: which predicate bit governs a lane, and which bits a comparison writes (R360). -/

namespace Sys2Proof.Machine

/-! Registers after a write. -/

theorem vreg_setV (e i : Nat) (v : VWord) (d : Dev) : ((d.setV e i v).eng e).vreg i = v := by
  simp [Dev.setV, Engine.vreg]

/-- A write of a predicate register reads back, but for p0. -/
theorem preg_setP (e i : Nat) (v : Word) (d : Dev) (h : i ≠ 0) : ((d.setP e i v).eng e).preg i = v := by
  simp [Dev.setP, Engine.preg, h]

/-! Lanes and places. -/

section
variable {w : Bool} {p : Word} {u v : VWord} {i j : Nat}

theorem lane_laneMap (f : Nat → Nat → Nat) (hi : i < laneCount w) :
    lane w (laneMap w f u v) i = f (lane w u i) (lane w v i) % 2 ^ laneBits w :=
  lane_ofLanes w _ hi

theorem getLsbD_compareLanes (f : Nat → Bool) (hj : j < 32) :
    (compareLanes w p f).getLsbD j = (enabledPlace w p j && f (if w then j else j / 2)) :=
  ofPlaces_getLsbD _ hj

/-- In 16-bit mode both places of a lane hold its result, under the lower one of the predicate. -/
theorem getLsbD_compareLanes_half (f : Nat → Bool) (hi : i < 16) (hj : j / 2 = i) :
    (compareLanes false p f).getLsbD j = (p.getLsbD (2 * i) && f i) := by
  subst hj
  exact getLsbD_compareLanes f (by omega)

end

/-- Settles O51: what O28 says of VADD and O29 of VCMPEQ, read back lane by lane and place by place from the register written. -/
theorem predicatesGovernLanes : Obligations.PredicatesGovernLanes := by
  unfold Obligations.PredicatesGovernLanes
  obtain ⟨-, -, hvadd, -⟩ := vectorArithmetic
  obtain ⟨hvcmpeq, -⟩ := vectorSelectionAndReduction
  have hp0 : ∀ pd : BitVec 3, pd ≠ 0 → pd.toNat ≠ 0 := fun pd hpd h0 => hpd (BitVec.eq_of_toNat_eq h0)
  refine ⟨?addBytes, ?addHalves, ?cmpBytes, ?cmpHalves⟩
  case addBytes | addHalves =>
    intro d k e vd va vb pm h
    refine ⟨_, hvadd d k e vd va vb pm _ h, fun i hi => ?_⟩
    rw [vreg_setV, lane_mergeLanes _ _ _ _ hi, lane_laneMap _ hi, Nat.mod_mod]
    rfl
  case cmpBytes =>
    intro d k e pd va vb pm hpd h
    refine ⟨_, hvcmpeq d k e pd va vb pm true h, fun i hi => ?_⟩
    rw [preg_setP _ _ _ _ (hp0 pd hpd)]
    exact getLsbD_compareLanes _ hi
  case cmpHalves =>
    intro d k e pd va vb pm hpd h
    refine ⟨_, hvcmpeq d k e pd va vb pm false h, fun i hi => ?_⟩
    rw [preg_setP _ _ _ _ (hp0 pd hpd)]
    exact ⟨getLsbD_compareLanes_half _ hi (by omega), getLsbD_compareLanes_half _ hi (by omega)⟩

end Sys2Proof.Machine
end

section
/-! Scope: jobs and splices (R394 to R425, R580, R581) but for what staging writes: each command by its function on the device, and that
function by its branches. -/

namespace Sys2Proof.Machine

/-! The commands. -/

section
variable (d : Dev)

theorem runs_jobStage : Runs .jobStage d d.jobStage := fun _ => rfl

theorem runs_jobStart : Runs .jobStart d d.jobStart := fun _ => rfl

theorem runs_jobCtlArm : Runs .jobCtlArm d (d.arm_ 0 true) := fun _ => rfl

theorem runs_spliceSwitch : Runs .spliceSwitch d d.spliceSwitch := fun _ => rfl

theorem runs_jobRelease : Runs .jobRelease d d.jobRelease := fun _ => rfl

theorem runs_slotDrained : Runs .slotDrained d d.slotDrained := fun _ => rfl

theorem runs_jobCtlAbort : Runs .jobCtlAbort d d.jobAbort := fun _ => rfl

theorem runs_swatchRestart : Runs .swatchRestart d d.swatchRestart := fun _ => rfl

theorem runs_jobReset : Runs .jobReset d d.jobReset := fun _ => rfl

theorem runs_fabMarkRx (p : Fin 4) (src hops : Nat) (m : FabMark) :
    Runs (.fabMarkRx p src hops m) d (d.markIn p (headOf src hops true 0 (.mark m)) m) := fun _ => rfl

theorem runs_markTx : Runs .markTx d d.markTx := fun _ => rfl

end

section
variable {d d1 : Dev} {a : Act}

theorem runs_jobArm (h : d.activate Task.jobArm = (some a, d1)) : Runs .jobArm d (d1.arm_ (a.hop + 1) false) := by
  intro q
  change execJobArm _ = _
  simp only [execJobArm, run_next, h]

theorem runs_jobAbort (h : d.activate Task.jobAbort = (some a, d1)) : Runs .jobAbort d d1.jobAbort := by
  intro q
  change execJobAbort _ = _
  simp only [execJobAbort, run_next, h]

theorem runs_fabMarkTx (h : d.activate Task.fabMarkTx = (some a, d1)) : Runs .fabMarkTx d d1.markTx := by
  intro q
  change execFabMarkTx _ = _
  simp only [execFabMarkTx, run_next, h]

end

/-! Staging and START (R394, R401). -/

section
variable {d : Dev} {r : Recipe}

theorem jobStage_of_open (hnone : d.job.staging = none)
    (hslot : d.job.slot d.job.target = .free ∨ d.job.slot d.job.target = .staged ∧ d.job.armed = false) :
    d.jobStage = ((d.modJob fun k => { k.setSlot d.job.target .staging none with staging := some (d.rd64 R.JOB_STAGE_DA).toNat }).sb
      R.JOB_STAGE_STATUS F.JOB_STAGE_STATUS_BUSY true).wr (jobIdReg d.job.target) 0 := by
  refine if_neg ?_
  rintro (hstaging | hother)
  · simp [hnone] at hstaging
  · exact hother (by simpa using hslot)

theorem jobStage_of_staging (h : d.job.staging.isSome = true) :
    d.jobStage = (d.sf R.JOB_STAGE_STATUS F.JOB_STAGE_STATUS_RESULT 7).jobRefused := if_pos (.inl h)

theorem jobStart_of_staged (hslot : d.job.slot d.job.target = .staged) (harm : d.job.armed = false)
    (hrec : d.job.recipe d.job.target = some r) :
    d.jobStart = (d.modJob fun k =>
      { k with axis := d.f R.JOB_SPLICE_CFG F.JOB_SPLICE_CFG_AXIS, mark := (d.axisNow (d.f R.JOB_SPLICE_CFG F.JOB_SPLICE_CFG_AXIS)).1,
               swaps := r.swaps, swapSet := k.target, psids := [], lateCams := [], refused := [], fab := false, hop := 0 }).switchNow
        (d.axisNow (d.f R.JOB_SPLICE_CFG F.JOB_SPLICE_CFG_AXIS)).1 (d.axisNow (d.f R.JOB_SPLICE_CFG F.JOB_SPLICE_CFG_AXIS)).2.1
        true false false := by
  simp [Dev.jobStart, hslot, harm, hrec]

theorem jobStart_of_not_staged (hslot : d.job.slot d.job.target ≠ .staged) : d.jobStart = (d.armRefused 1).jobRefused := by
  simp [Dev.jobStart, hslot]

end

/-! Arming (R402). -/

section
variable {d : Dev} {hop n : Nat} {soft : Bool} {r : Recipe}

theorem arm_of_passed (hcheck : d.armCheck (d.f R.JOB_SPLICE_CFG F.JOB_SPLICE_CFG_AXIS) (d.int64 R.JOB_MARK) false = 0)
    (hrec : d.job.recipe d.job.target = some r) :
    d.arm_ hop soft = d.armAccept (d.f R.JOB_SPLICE_CFG F.JOB_SPLICE_CFG_AXIS) (d.int64 R.JOB_MARK) hop false r := by
  simp only [Dev.arm_, hcheck, hrec]

/-- The results from 3 on are of the splice, not of the slot's state, so JOB_CTL is not refused as well. -/
theorem arm_of_failed (hcheck : d.armCheck (d.f R.JOB_SPLICE_CFG F.JOB_SPLICE_CFG_AXIS) (d.int64 R.JOB_MARK) false = n + 3) :
    d.arm_ hop soft = d.armRefused (n + 3) := by
  have hsplice : ¬ (soft = true ∧ n + 3 ≤ 2) := by omega
  simp only [Dev.arm_, hcheck, if_neg hsplice]

end

/-! The switch (R405). -/

section
variable {d : Dev} {p : Int} (harm : d.job.armed = true) (hpos : d.splicePos = some p)
include harm hpos

theorem spliceSwitch_of_reached (hmark : d.job.mark * 65536 ≤ p) :
    d.spliceSwitch = d.switchNow (p / 65536) ((d.ts : Int) + 7) false false false := by
  have hdue : d.switchDue = some p := by simp [Dev.switchDue, harm, hpos, hmark]
  simp only [Dev.spliceSwitch, hdue]

theorem spliceSwitch_of_not_reached (hmark : p < d.job.mark * 65536) : d.spliceSwitch = d := by
  have hdue : d.switchDue = none := by simp [Dev.switchDue, harm, hpos, hmark]
  simp only [Dev.spliceSwitch, hdue]

end

/-! Draining and release (R413 to R415). -/

section
variable {d : Dev} {h : Nat}

theorem jobRelease_of_draining (hdrain : d.job.draining = some h) :
    d.jobRelease = ((((d.epochFrames d.job.prev).epochItems d.job.prev).epochCarFrames d.job.prev).jobErr 1).slotFree h
      (d.releaseCams d.job.prev) := by
  simp only [Dev.jobRelease, hdrain]

theorem jobRelease_of_none (hdrain : d.job.draining = none) : d.jobRelease = d.jobRefused := by
  simp only [Dev.jobRelease, hdrain]

theorem slotDrained_of_draining (hdrain : d.job.draining = some h) :
    d.slotDrained = if d.epochRemains d.job.prev then d else d.slotFree h [] := by
  simp only [Dev.slotDrained, hdrain]

end

/-! Aborts (R416, R417). -/

section
variable {d : Dev}

theorem jobAbort_of_armed (harm : d.job.armed = true) (hdue : d.switchDue = none) : d.jobAbort = d.abortArmed := by
  simp only [Dev.jobAbort, harm, hdue, if_true]

theorem jobAbort_of_switched (harm : d.job.armed = false) (hhit : d.job.hit = true) : d.jobAbort = d.abortLate := by
  simp [Dev.jobAbort, harm, hhit]

theorem jobAbort_of_nothing (harm : d.job.armed = false) (hhit : d.job.hit = false) : d.jobAbort = d.jobRefused := by
  simp [Dev.jobAbort, harm, hhit]

end

/-! JOB_RESET (R425). -/

@[simp] theorem modJob_job (g : JobSt → JobSt) (d : Dev) : (d.modJob g).job = g d.job := rfl

@[simp] theorem setSlot_swatching (h : Nat) (st : SlotState) (r : Option Recipe) (j : JobSt) :
    (j.setSlot h st r).swatching = j.swatching := by
  unfold JobSt.setSlot
  split <;> rfl

section
variable {d : Dev} {a : Nat}

theorem swatchAbandon_of_none (h : d.job.swatching = []) : d.swatchAbandon = d := by
  simp [Dev.swatchAbandon, h]

theorem jobReset_of_staging (harm : d.job.armed = false) (hstaging : d.job.staging = some a) (hsw : d.job.swatching = []) :
    d.jobReset = (d.modJob fun j => { j.setSlot j.target .free none with staging := none }).sb R.JOB_STAGE_STATUS
      F.JOB_STAGE_STATUS_BUSY false := by
  simp only [Dev.jobReset, harm, Bool.false_eq_true, if_false, hstaging]
  exact swatchAbandon_of_none (by simp [hsw])

theorem jobReset_of_armed (harm : d.job.armed = true) (hstaging : d.abortArmed.job.staging = none)
    (hsw : d.abortArmed.job.swatching = []) : d.jobReset = d.abortArmed := by
  simp only [Dev.jobReset, harm, if_true, hstaging]
  exact swatchAbandon_of_none hsw

end

/-! SWATCH_RESTART (R420), camera by camera. -/

/-- A failed swatch that starts again from its next repeat. -/
def Swatch.restarted (x : Swatch) : Swatch :=
  { x with phase := .seekBase, from_ := x.rep + 1, good := 0, final := [], bad := [x.rep] }

/-- Whether a camera's swatch starts again: it failed, and the camera is not in swatch. -/
def Dev.mayRestart (c : Nat) (d : Dev) : Bool :=
  decide ((d.swatchOf c).phase = .failed ∧ (d.swatchOf c).len ≠ 0 ∧ d.swatching c = false)

/-- What SWATCH_RESTART makes of one camera. -/
def Dev.restartCam (c : Nat) (d : Dev) : Dev :=
  if d.mayRestart c then
    ((d.setSwatch c (d.swatchOf c).restarted).modJob fun j => { j with swatching := j.swatching ++ [c] }).wr64 R.JOB_SWATCH_CAMS
      (d.rd64 R.JOB_SWATCH_CAMS ||| (1#64 <<< c))
  else d

theorem swatchRestart_eq (d : Dev) : d.swatchRestart = (List.range 48).foldl (fun y c => y.restartCam c) d := by
  unfold Dev.swatchRestart Dev.restartCam Dev.mayRestart
  simp only [Bool.not_eq_true', decide_eq_true_eq]
  rfl

/-- A camera whose swatch starts again is in swatch, with that swatch; the rest of the JOB block stays. -/
theorem restartCam_job {d : Dev} {c : Nat} (h : d.mayRestart c = true) : (d.restartCam c).job =
    { d.job with swatch := d.job.swatch.set (fun _ => Swatch.init) c (d.swatchOf c).restarted, swatching := d.job.swatching ++ [c] } :=
  congrArg Dev.job (if_pos h)

theorem restartCam_of_not {d : Dev} {c : Nat} (h : d.mayRestart c = false) : d.restartCam c = d := by
  simp [Dev.restartCam, h]

/-- Whether a camera is in swatch, and its swatch. -/
def Dev.camSwatch (c : Nat) (d : Dev) : Bool × Swatch := (d.swatching c, d.swatchOf c)

theorem camSwatch_eq_iff {d : Dev} {c : Nat} {b : Bool} {x : Swatch} :
    d.camSwatch c = (b, x) ↔ d.swatching c = b ∧ d.swatchOf c = x := Prod.mk_inj

section
variable {d : Dev} {c k : Nat}

theorem camSwatch_restartCam_self :
    (d.restartCam c).camSwatch c = if d.mayRestart c then (true, (d.swatchOf c).restarted) else d.camSwatch c := by
  cases hmay : d.mayRestart c with
  | true => simp [Dev.camSwatch, Dev.swatching, Dev.swatchOf, restartCam_job hmay]
  | false => simp [restartCam_of_not hmay]

theorem camSwatch_restartCam_ne (hk : k ≠ c) : (d.restartCam c).camSwatch k = d.camSwatch k := by
  cases hmay : d.mayRestart c with
  | true => simp [Dev.camSwatch, Dev.swatching, Dev.swatchOf, restartCam_job hmay, hk, Tbl.get_set_ne _ _ _ hk]
  | false => rw [restartCam_of_not hmay]

theorem mayRestart_congr {e : Dev} (h : d.camSwatch k = e.camSwatch k) : d.mayRestart k = e.mayRestart k := by
  obtain ⟨hin, hsw⟩ := camSwatch_eq_iff.mp h
  unfold Dev.mayRestart
  rw [hin, hsw]

/-- The first `n` cameras have their new swatches, and the others their old ones. -/
theorem camSwatch_restartCams (n : Nat) (k : Nat) :
    ((List.range n).foldl (fun y c => y.restartCam c) d).camSwatch k =
      if k < n ∧ d.mayRestart k then (true, (d.swatchOf k).restarted) else d.camSwatch k := by
  induction n generalizing k with
  | zero => simp
  | succ n ih =>
    rw [List.range_succ, List.foldl_append, List.foldl_cons, List.foldl_nil]
    by_cases hk : k = n
    · subst hk
      have hprev := (ih k).trans (if_neg fun h => lt_irrefl k h.1)
      obtain ⟨-, hsw⟩ := camSwatch_eq_iff.mp hprev
      rw [camSwatch_restartCam_self, mayRestart_congr hprev, hprev, hsw]
      simp only [Nat.lt_succ_self, true_and]
    · have hlt : k < n + 1 ↔ k < n := by omega
      rw [camSwatch_restartCam_ne hk, ih]
      simp only [hlt]

theorem camSwatch_swatchRestart (hk : k < 48) :
    d.swatchRestart.camSwatch k = if d.mayRestart k then (true, (d.swatchOf k).restarted) else d.camSwatch k := by
  rw [swatchRestart_eq, camSwatch_restartCams]
  simp only [hk, true_and]

end

/-! Marks from and to the fabric (R421, R580, R581). -/

/-- A mark that is new is noted, counted and published. -/
def Dev.markTaken (m : FabMark) (d : Dev) : Dev :=
  ((d.modFab fun f => { f with marks := ((m.origin, m.seq) :: f.marks).take 64 }).bump R.FAB_CNT2 F.FAB_CNT2_MARK_RX_CNT 1).publish
    Src.fabMark 0

/-- What a new mark does beyond that, where the splice accepts marks from the fabric (R421, R422). -/
def Dev.markActs (m : FabMark) (d : Dev) : Dev :=
  if !d.b R.JOB_SPLICE_CFG F.JOB_SPLICE_CFG_FAB_ACCEPT then d
  else if !m.abort then d.fabArm m
  else if d.job.armed then
    (if nextEpoch d.job.epoch = m.epoch ∧ (d.job.recipe d.job.target).any (fun r => r.jobId == m.job) then d.jobAbort else d)
  else if d.job.epoch = m.epoch ∧ d.job.hit then d.abortLate
  else d

section
variable {d y : Dev} {p : Nat} {q : FabPacket} {m : FabMark} (harrive : d.fabArrive p = (true, y))
  (hnew : (m.origin, m.seq) ∉ (y.fabForward p q).fab.marks) (horigin : m.origin ≠ (y.fabForward p q).fabAddr)
include harrive hnew horigin

theorem markIn_of_new : d.markIn p q m = ((y.fabForward p q).markTaken m).markActs m := by
  have hfirst : ¬ ((y.fabForward p q).fab.marks.contains (m.origin, m.seq) ∨
      (m.origin = (y.fabForward p q).fabAddr ∧ (y.fabForward p q).fab.addr.isSome)) := by
    simp [hnew, horigin]
  simp only [Dev.markIn, harrive]
  exact if_neg hfirst

end

section
variable {d : Dev}

theorem markActs_of_not_accepted {m : FabMark} (hoff : d.b R.JOB_SPLICE_CFG F.JOB_SPLICE_CFG_FAB_ACCEPT = false) :
    d.markActs m = d := by
  simp [Dev.markActs, hoff]

theorem markActs_of_arm {m : FabMark} (hon : d.b R.JOB_SPLICE_CFG F.JOB_SPLICE_CFG_FAB_ACCEPT = true) (harm : m.abort = false) :
    d.markActs m = d.fabArm m := by
  simp [Dev.markActs, hon, harm]

theorem markTx_of_armed (harm : d.job.armed = true) :
    d.markTx = d.sendMark false (((d.job.recipe (nextEpoch d.job.epoch)).map (·.jobId)).getD 0) (nextEpoch d.job.epoch) d.job.mark :=
  if_pos harm

theorem markTx_of_not_armed (harm : d.job.armed = false) : d.markTx = d.fabErr 11 := by
  simp [Dev.markTx, harm]

end

/-- Settles O36: each clause is a branch of the function that its command applies to the device; the restart of swatches goes by
induction over the cameras. -/
theorem jobsStageArmAndSwitch : Obligations.JobsStageArmAndSwitch := by
  unfold Obligations.JobsStageArmAndSwitch
  refine ⟨?stage, ?stageBusy, ?start, ?startRefused, ?ctlArm, ?ctlArmRefused, ?arm, ?armRefused, ?reached, ?notReached, ?release,
    ?releaseRefused, ?drained, ?remains, ?ctlAbort, ?ctlAbortLate, ?ctlAbortRefused, ?abort, ?abortLate, ?abortRefused, ?restart,
    ?resetStaging, ?resetArmed, ?markNotAccepted, ?markArm, ?markTx, ?markTxNone, ?fabMarkTx, ?fabMarkTxNone⟩
  case stage => exact fun d hnone hslot => (runs_jobStage d).to_eq (jobStage_of_open hnone hslot)
  case stageBusy => exact fun d h => (runs_jobStage d).to_eq (jobStage_of_staging h)
  case start => exact fun d r hslot harm hrec => (runs_jobStart d).to_eq (jobStart_of_staged hslot harm hrec)
  case startRefused => exact fun d hslot => (runs_jobStart d).to_eq (jobStart_of_not_staged hslot)
  case ctlArm => exact fun d r hcheck hrec => (runs_jobCtlArm d).to_eq (arm_of_passed hcheck hrec)
  case ctlArmRefused => exact fun d n hcheck => (runs_jobCtlArm d).to_eq (arm_of_failed hcheck)
  case arm => exact fun d d1 a r hact hcheck hrec => (runs_jobArm hact).to_eq (arm_of_passed hcheck hrec)
  case armRefused => exact fun d d1 a n hact hcheck => (runs_jobArm hact).to_eq (arm_of_failed hcheck)
  case reached => exact fun d p harm hpos hmark => (runs_spliceSwitch d).to_eq (spliceSwitch_of_reached harm hpos hmark)
  case notReached => exact fun d p harm hpos hmark => (runs_spliceSwitch d).to_eq (spliceSwitch_of_not_reached harm hpos hmark)
  case release => exact fun d h hdrain => (runs_jobRelease d).to_eq (jobRelease_of_draining hdrain)
  case releaseRefused => exact fun d hdrain => (runs_jobRelease d).to_eq (jobRelease_of_none hdrain)
  case drained =>
    exact fun d h hdrain hgone =>
      (runs_slotDrained d).to_eq ((slotDrained_of_draining hdrain).trans (if_neg (Bool.eq_false_iff.mp hgone)))
  case remains =>
    exact fun d h hdrain hleft => (runs_slotDrained d).to_eq ((slotDrained_of_draining hdrain).trans (if_pos hleft))
  case ctlAbort => exact fun d harm hdue => (runs_jobCtlAbort d).to_eq (jobAbort_of_armed harm hdue)
  case ctlAbortLate => exact fun d harm hhit => (runs_jobCtlAbort d).to_eq (jobAbort_of_switched harm hhit)
  case ctlAbortRefused => exact fun d harm hhit => (runs_jobCtlAbort d).to_eq (jobAbort_of_nothing harm hhit)
  case abort => exact fun d d1 a hact harm hdue => (runs_jobAbort hact).to_eq (jobAbort_of_armed harm hdue)
  case abortLate => exact fun d d1 a hact harm hhit => (runs_jobAbort hact).to_eq (jobAbort_of_switched harm hhit)
  case abortRefused => exact fun d d1 a hact harm hhit => (runs_jobAbort hact).to_eq (jobAbort_of_nothing harm hhit)
  case restart =>
    refine fun d => ⟨_, runs_swatchRestart d, fun k => ⟨fun h => ?_, fun h => ?_⟩⟩
    · have hmay : d.mayRestart k = true := decide_eq_true h
      exact camSwatch_eq_iff.mp ((camSwatch_swatchRestart k.isLt).trans (if_pos hmay))
    · have hkept : ¬ d.mayRestart k = true := fun hmay => h (of_decide_eq_true hmay)
      exact (camSwatch_eq_iff.mp ((camSwatch_swatchRestart k.isLt).trans (if_neg hkept))).2
  case resetStaging =>
    exact fun d a harm hstaging hsw => (runs_jobReset d).to_eq (jobReset_of_staging harm hstaging hsw)
  case resetArmed => exact fun d harm hstaging hsw => (runs_jobReset d).to_eq (jobReset_of_armed harm hstaging hsw)
  case markNotAccepted =>
    rintro d y _ p src hops m harrive rfl hnew horigin _ rfl hoff
    exact (runs_fabMarkRx d p src hops m).to_eq ((markIn_of_new harrive hnew horigin).trans (markActs_of_not_accepted hoff))
  case markArm =>
    rintro d y _ p src hops m harrive rfl hnew horigin _ rfl hon harm
    exact (runs_fabMarkRx d p src hops m).to_eq ((markIn_of_new harrive hnew horigin).trans (markActs_of_arm hon harm))
  case markTx => exact fun d harm => (runs_markTx d).to_eq (markTx_of_armed harm)
  case markTxNone => exact fun d harm => (runs_markTx d).to_eq (markTx_of_not_armed harm)
  case fabMarkTx => exact fun d d1 a hact harm => (runs_fabMarkTx hact).to_eq (markTx_of_armed harm)
  case fabMarkTxNone => exact fun d d1 a hact harm => (runs_fabMarkTx hact).to_eq (markTx_of_not_armed harm)

end Sys2Proof.Machine
end

section
/-! Scope: the queue of commands (log entry 1): what a command makes of the device whatever waits behind it, and the order in which the
queue is served. -/

namespace Sys2Proof.Machine

theorem effect_of_run {c : Instr} {g : Dev → Dev} (h : ∀ s : State, exec c s = s.run g) (d : Dev) : effect c d = g d := by
  simp only [effect, h, run_next]

theorem runs_effect (c : Instr) (d : Dev) : Runs c d (effect c d) := by
  obtain ⟨g, hrun⟩ := exec_run c
  intro q
  rw [effect_of_run hrun, hrun, run_next]

/-- Settles O3: `exec` of a command is a function of the device alone, run on it. -/
theorem commandIgnoresQueue : Obligations.CommandIgnoresQueue := runs_effect

theorem step_effect (d : Dev) (c : Instr) (rest : List Instr) :
    step { dev := d, pending := c :: rest } = .next { dev := effect c d, pending := rest } :=
  (step_cons d c rest).trans (runs_effect c d rest)

theorem run_succ_of_next (M : Host.Core) {s t : M.State} (n : Nat) (h : M.step s = .next t) : M.run (n + 1) s = M.run n t := by
  simp only [Host.Core.run, h]

theorem core_run_succ {s t : State} (n : Nat) (h : step s = .next t) : core.run (n + 1) s = core.run n t :=
  run_succ_of_next core n h

/-- Settles O4, by induction on the commands that are served: each step takes the first of them. -/
theorem queueRunsInOrder : Obligations.QueueRunsInOrder := by
  intro cs rest
  induction cs with
  | nil => exact fun d => rfl
  | cons c cs ih => exact fun d => (core_run_succ cs.length (step_effect d c (cs ++ rest))).trans (ih (effect c d))

theorem step_pending {s t : State} (h : step s = .next t) : t.pending = s.pending.tail := by
  obtain ⟨d, queue⟩ := s
  cases queue with
  | nil =>
    rw [step_nil] at h
    cases h
    rfl
  | cons c rest =>
    rw [step_effect] at h
    cases h
    rfl

/-- Settles O5: a step puts nothing into the queue, it only takes its front command. -/
theorem stepKeepsQueueWellFormed : Obligations.StepKeepsQueueWellFormed := by
  intro s t hwf hstep c hc
  rw [step_pending hstep] at hc
  exact hwf c (List.mem_of_mem_tail hc)

end Sys2Proof.Machine
end

section
/-! Scope: the Stash banks (R436 to R448): each command by its function on the device, and that function by its branches. -/

namespace Sys2Proof.Machine

/-! The commands. -/

section
variable (d : Dev) (k b : Fin 16)

theorem runs_bankHandover (v : Word) : Runs (.bankHandover k b v) d (d.bankHandover (16 * k + b) v) := fun _ => rfl

theorem runs_handoverDone : Runs (.handoverDone k b) d (d.handoverDone (16 * k + b)) := fun _ => rfl

theorem runs_stashBankGrant (new : List BankReq) : Runs (.stashBankGrant k b new) d (d.bankGrant (16 * k + b) new) := fun _ => rfl

theorem runs_urgentPromote : Runs (.urgentPromote k b) d (d.urgentPromote (16 * k + b)) := fun _ => rfl

theorem runs_stashTestStep (fails : Bool) : Runs (.stashTestStep k fails) d (d.testStep k fails) := fun _ => rfl

theorem runs_stashTestEnable (v : Word) : Runs (.stashTestEnable v) d (d.testCfgWrite v) := fun _ => rfl

end

/-! A bank's number gives its cluster and its index there. -/

theorem bankNumber_div (k b : Fin 16) : (16 * k.val + b.val) / 16 = k := by omega

theorem bankNumber_mod (k b : Fin 16) : (16 * k.val + b.val) % 16 = b := by omega

/-! Handover (R436, R437). -/

section
variable {d : Dev} {n : Nat} {v : Word}

theorem bankHandover_of_accepted (hgood : d.stash.bad.contains n = false) (hown : fld v F.STASH_BANK_OWN_OWNER ≠ 0xFF)
    (hexp : fld v F.STASH_BANK_OWN_EXPECT = 0xFF ∨ fld v F.STASH_BANK_OWN_EXPECT = d.lastOwner n)
    (hwaits : d.stash.waits.get (fun _ => []) n = []) :
    d.bankHandover n v = d.modStash fun x =>
      { x with hand := x.hand ++ [(n, fld v F.STASH_BANK_OWN_OWNER)], waits := x.waits.set (fun _ => []) n [] } := by
  have htaken : ¬ (d.stash.bad.contains n ∨ fld v F.STASH_BANK_OWN_OWNER = 0xFF ∨
      ¬ (fld v F.STASH_BANK_OWN_EXPECT = 0xFF ∨ fld v F.STASH_BANK_OWN_EXPECT = d.lastOwner n)) := by
    simp only [hgood, hown, hexp, Bool.false_eq_true, not_true, or_self, not_false_iff]
  simp only [Dev.bankHandover, if_neg htaken, hwaits, List.filter_nil, List.foldl_nil]

theorem bankHandover_of_other (hany : fld v F.STASH_BANK_OWN_EXPECT ≠ 0xFF)
    (hother : fld v F.STASH_BANK_OWN_EXPECT ≠ d.lastOwner n) :
    d.bankHandover n v = (d.bump R.STASH_CNT0 F.STASH_CNT0_HANDOVER_REF_CNT 1).stashErr 1 :=
  if_pos (.inr (.inr (by simp [hany, hother])))

theorem handoverDone_of_pending {p : Nat × Nat} (h : d.stash.hand.find? (fun q => q.1 == n) = some p) :
    d.handoverDone n = (d.modStash fun x => { x with hand := x.hand.erase p }).sf (R.STASH_BANK_OWN (n / 16) (n % 16))
      F.STASH_BANK_OWN_OWNER p.2 := by
  simp only [Dev.handoverDone, h]

end

/-! Grants (R439): one request at a bank where nothing waits. -/

theorem denyReq_stash (n : Nat) (q : BankReq) (d : Dev) : (d.denyReq n q).stash = d.stash := by
  unfold Dev.denyReq
  rw [deny_frame]

section
variable {d : Dev} {n : Nat} {q : BankReq} (hwaits : d.stash.waits.get (fun _ => []) n = [])
include hwaits

/-- A granted read leaves the bank with nothing waiting, one cycle later, and delivers the line. -/
theorem bankGrant_of_read (hgrant : d.bankGrants n (portMaster (n / 16) q.port) = true) (hop : q.op = .read) :
    d.bankGrant n [q] = (d.modStash fun x =>
      { x with
        cycle := x.cycle.set (fun _ => 0) n (d.bankCycle n + 1)
        waits := x.waits.set (fun _ => []) n []
        tileRun := x.tileRun.set (fun _ => 0) n 0 }).emit (.bankData n (d.bankLine n q.line)) := by
  by_cases htile : q.port = .tile
  · rw [htile] at hgrant
    simp [Dev.bankGrant, hwaits, hgrant, hop, htile, firstWait]
    rfl
  · simp [Dev.bankGrant, hwaits, hgrant, hop, htile, firstWait]
    rfl

/-- A denied request changes of the Stash the bank's cycle alone. -/
theorem bankGrant_of_denied (hdeny : d.bankGrants n (portMaster (n / 16) q.port) = false) :
    d.bankGrant n [q] = (d.denyReq n q).modStash fun x =>
      { x with
        cycle := x.cycle.set (fun _ => 0) n ((d.denyReq n q).bankCycle n + 1)
        waits := x.waits.set (fun _ => []) n [] } := by
  simp [Dev.bankGrant, hwaits, hdeny, denyReq_stash, firstWait]

end

/-! The background test (R445 to R448). -/

/-- The progress of the test of a cluster. -/
def Dev.testSt (c : Nat) (d : Dev) : TestSt := d.stash.tests.get (fun _ => TestSt.init) c

def Dev.setTest (c : Nat) (x : TestSt) (d : Dev) : Dev :=
  d.modStash fun z => { z with tests := z.tests.set (fun _ => TestSt.init) c x }

section
variable {d : Dev} {c : Nat} (hact : d.pwr.state = .active) (hline : (d.testSt c).line < testLines)
include hact hline

theorem testStep_of_compare_failed (hstep : (d.testSt c).step = 2) :
    d.testStep c true = (d.testFail c (d.testSt c).line).setTest c { d.testSt c with step := 3 } := by
  unfold Dev.testSt at hline hstep ⊢
  simp [Dev.testStep, Dev.setTest, hact, hline, hstep]

theorem testStep_of_save (fails : Bool) (hstep : (d.testSt c).step = 0) (hen : d.b R.STASH_TEST_CFG F.STASH_TEST_CFG_EN = true) :
    d.testStep c fails = d.setTest c { d.testSt c with step := 1, save := d.testLine c (d.testSt c).line } := by
  unfold Dev.testSt at hline hstep ⊢
  simp [Dev.testStep, Dev.setTest, hact, hline, hstep, hen]

end

theorem testCfgWrite_of_rise {d : Dev} {v : Word} (hoff : d.b R.STASH_TEST_CFG F.STASH_TEST_CFG_EN = false)
    (hon : (d.plainWrite R.STASH_TEST_CFG v).b R.STASH_TEST_CFG F.STASH_TEST_CFG_EN = true) :
    d.testCfgWrite v = (d.plainWrite R.STASH_TEST_CFG v).modStash fun x => { x with tests := [] } := by
  simp [Dev.testCfgWrite, hoff, hon]

/-- Settles O33: each clause is a branch of the function that its command applies to the device. -/
theorem stashBanksServeAndChangeHands : Obligations.StashBanksServeAndChangeHands := by
  unfold Obligations.StashBanksServeAndChangeHands
  refine ⟨?accepted, ?otherOwner, ?done, ?read, ?denied, ?urgent, ?compareFails, ?save, ?enable⟩
  case accepted =>
    exact fun d k b v hgood hown hexp hwaits =>
      (runs_bankHandover d k b v).to_eq (bankHandover_of_accepted hgood hown hexp hwaits)
  case otherOwner => exact fun d k b v hany hother => (runs_bankHandover d k b v).to_eq (bankHandover_of_other hany hother)
  case done =>
    intro d k b p h
    refine (runs_handoverDone d k b).to_eq ((handoverDone_of_pending h).trans ?_)
    rw [bankNumber_div, bankNumber_mod]
  case read =>
    intro d k b q hwaits hgrant hop
    have hport : d.bankGrants (16 * k + b) (portMaster ((16 * k.val + b.val) / 16) q.port) = true := by rwa [bankNumber_div]
    refine ⟨_, runs_stashBankGrant d k b [q], _, bankGrant_of_read hwaits hport hop, rfl, rfl, rfl, ?_⟩
    exact Tbl.get_set_self (fun _ => []) d.stash.waits (16 * k + b) []
  case denied =>
    intro d k b q hwaits hdeny
    have hport : d.bankGrants (16 * k + b) (portMaster ((16 * k.val + b.val) / 16) q.port) = false := by rwa [bankNumber_div]
    refine ⟨_, runs_stashBankGrant d k b [q], _, rfl, ?_⟩
    rw [bankGrant_of_denied hwaits hport]
    exact ⟨rfl, rfl, rfl⟩
  case urgent =>
    rintro d k b _ rfl
    exact runs_urgentPromote d k b
  case compareFails =>
    rintro d k _ rfl hact hline hstep
    exact (runs_stashTestStep d k true).to_eq (testStep_of_compare_failed hact hline hstep)
  case save =>
    rintro d k _ fails rfl hact hline hstep hen
    exact (runs_stashTestStep d k fails).to_eq (testStep_of_save hact hline fails hstep hen)
  case enable =>
    rintro d _ v rfl hoff hon
    exact (runs_stashTestEnable d v).to_eq (testCfgWrite_of_rise hoff hon)

end Sys2Proof.Machine
end

section
/-! Scope: Skein (R459, R460, R475, R477), its history ring (R465, R466) and the retro-inspection (R472): each command by its function on
the device, and that function by its branches. -/

namespace Sys2Proof.Machine

/-! The commands. -/

section
variable {d : Dev} {m a : Nat}

theorem runs_skeinInitDone (hcap : d.skein.cap ≠ 0) (hserves : d.skeinServes = true) :
    Runs .skeinInitDone d (d.modSkein fun x => { x with inited := true }) := by
  intro q
  change execSkeinInitDone _ = _
  simp [execSkeinInitDone, hcap, hserves]

/-- A read of a block not known as bad meets the outcome it ends with. -/
theorem runs_skeinReadComplete (o : EccOutcome) (hserves : d.skeinServes = true) (hexists : d.skeinExists (a * 64) 64 = true)
    (hgood : a ∉ d.skein.bad) : Runs (.skeinReadComplete m a o false) d (d.eccOutcome o m a) := by
  intro q
  change execSkeinReadComplete _ _ _ _ _ = _
  simp [execSkeinReadComplete, hserves, hexists, hgood]

variable (d)

theorem runs_skeinRefresh (ch : Fin 16) :
    Runs (.skeinRefresh ch) d (d.modSkein fun x => { x with refreshed := x.refreshed.set (fun _ => 0) ch d.now }) := fun _ => rfl

theorem runs_skeinFlush : Runs .skeinFlush d (d.modSkein fun x => { x with cached := [] }) := fun _ => rfl

theorem runs_scrubRead (o : EccOutcome) : Runs (.scrubRead o) d (d.scrubRead o) := fun _ => rfl

theorem runs_histEnable (v : Word) : Runs (.histEnable v) d (d.histCfgWrite v) := fun _ => rfl

theorem runs_retroGo (v : Word) : Runs (.retroGo v) d (d.retroGo v) := fun _ => rfl

theorem runs_retroScanDone : Runs .retroScanDone d d.retroDone := fun _ => rfl

end

/-! The scrub (R475). -/

theorem scrubRead_of_clean {d : Dev} (hen : d.b R.SKEIN_SCRUB_CFG F.SKEIN_SCRUB_CFG_EN = true) (hserves : d.skeinServes = true)
    (hcap : d.skein.cap ≠ 0) (hgood : d.skein.scrub ∉ d.skein.bad) (hnext : (d.skein.scrub + 1) % (d.skein.cap / 64) ≠ 0) :
    d.scrubRead .clean = (d.modSkein fun x => { x with scrub := (d.skein.scrub + 1) % (d.skein.cap / 64) }).sf
      R.SKEIN_SCRUB_STATUS ⟨0, 10⟩ ((d.skein.scrub + 1) % (d.skein.cap / 64) * 1000 / (d.skein.cap / 64)) := by
  simp [Dev.scrubRead, Dev.eccOutcome, hen, hserves, hcap, hgood, hnext]

/-! The history ring (R465, R466). -/

/-- The bytes of the index that SKEIN_HIST_CFG asks for. -/
def Dev.histIndexBytes (d : Dev) : Nat := max 1 (d.f R.SKEIN_HIST_CFG F.SKEIN_HIST_CFG_INDEX) * 2 ^ 20

/-- The bytes of the region that SKEIN_HIST_CFG names. -/
def Dev.histRegionBytes (d : Dev) : Nat := d.f (R.SKEIN_RGN_SIZE (d.f R.SKEIN_HIST_CFG F.SKEIN_HIST_CFG_REGION)) ⟨0, 17⟩ * 2 ^ 20

/-- The base of that region. -/
def Dev.histRegionBase (d : Dev) : Nat :=
  (d.rd64 (R.SKEIN_RGN_BASE (d.f R.SKEIN_HIST_CFG F.SKEIN_HIST_CFG_REGION))).toNat / 2 ^ 20 * 2 ^ 20

/-- The ring as a rise of EN samples it. -/
def Dev.histSampled (d : Dev) : HistSt :=
  { HistSt.init with on := true, base := d.histRegionBase, next := d.histRegionBase,
                     dataEnd := d.histRegionBase + d.histRegionBytes - d.histIndexBytes, slots := d.histIndexBytes / 128 }

theorem histCfgWrite_of_rise {d : Dev} {v : Word} (hoff : d.b R.SKEIN_HIST_CFG F.SKEIN_HIST_CFG_EN = false)
    (hon : (d.plainWrite R.SKEIN_HIST_CFG v).f R.SKEIN_HIST_CFG F.SKEIN_HIST_CFG_EN = 1) :
    d.histCfgWrite v =
      if (d.plainWrite R.SKEIN_HIST_CFG v).histRegionBytes < (d.plainWrite R.SKEIN_HIST_CFG v).histIndexBytes + 64 * 2 ^ 20 then
        (d.plainWrite R.SKEIN_HIST_CFG v).skeinErr 6
      else (d.plainWrite R.SKEIN_HIST_CFG v).modHist fun _ => (d.plainWrite R.SKEIN_HIST_CFG v).histSampled := by
  have hrise : (fld ((d.plainWrite R.SKEIN_HIST_CFG v).rd R.SKEIN_HIST_CFG) F.SKEIN_HIST_CFG_EN == 1 &&
      !d.b R.SKEIN_HIST_CFG F.SKEIN_HIST_CFG_EN) = true := by
    rw [hoff, Bool.not_false, Bool.and_true]
    exact beq_iff_eq.mpr hon
  exact if_pos hrise

/-! Retro-inspection (R472). -/

/-- What SKEIN_RETRO_CTL and its operand registers ask for. -/
def Dev.retroRequest (d : Dev) : Retro :=
  { cams := (d.rd64 R.SKEIN_RETRO_CAM).toNat, lo := d.int64 R.SKEIN_RETRO_WP_LO, hi := d.int64 R.SKEIN_RETRO_WP_HI,
    axis := d.f R.SKEIN_RETRO_CTL F.SKEIN_RETRO_CTL_AXIS }

section
variable {d : Dev} {v : Word} (hgo : fld v F.SKEIN_RETRO_CTL_GO ≠ 0)
include hgo

theorem retroGo_of_idle
    (hidle : (d.plainWrite R.SKEIN_RETRO_CTL v).b R.SKEIN_RETRO_STATUS F.SKEIN_RETRO_STATUS_BUSY = false) :
    d.retroGo v = ((d.plainWrite R.SKEIN_RETRO_CTL v).sb R.SKEIN_RETRO_STATUS F.SKEIN_RETRO_STATUS_BUSY true).modSkein fun x =>
      { x with retro := some (d.plainWrite R.SKEIN_RETRO_CTL v).retroRequest } := by
  simp [Dev.retroGo, Dev.retroRequest, hgo, hidle]

theorem retroGo_of_busy
    (hbusy : (d.plainWrite R.SKEIN_RETRO_CTL v).b R.SKEIN_RETRO_STATUS F.SKEIN_RETRO_STATUS_BUSY = true) :
    d.retroGo v = (d.plainWrite R.SKEIN_RETRO_CTL v).skeinErr 8 := by
  simp [Dev.retroGo, hgo, hbusy]

end

/-- The counts of a scan reach no further than bit 29, so that BUSY reads 0. -/
theorem retroCounts_not_busy (live missing stale : Nat) :
    fld (BitVec.ofNat 32 (0x40000000 + min live 1023 * 2 ^ 20 + min missing 1023 * 2 ^ 10 + min stale 1023))
      F.SKEIN_RETRO_STATUS_BUSY = 0 := by
  have hl : min live 1023 ≤ 1023 := Nat.min_le_right _ _
  have hm : min missing 1023 ≤ 1023 := Nat.min_le_right _ _
  have hs : min stale 1023 ≤ 1023 := Nat.min_le_right _ _
  simp only [fld, F.SKEIN_RETRO_STATUS_BUSY, BitVec.toNat_ofNat]
  omega

theorem retroDone_of_running {d : Dev} {q : Retro} (h : d.skein.retro = some q) :
    d.retroDone.skein.retro = none ∧ d.retroDone.b R.SKEIN_RETRO_STATUS F.SKEIN_RETRO_STATUS_BUSY = false := by
  unfold Dev.retroDone
  rw [h]
  refine ⟨rfl, ?_⟩
  simp only [Dev.b, Dev.f, rd_congr (modSkein_regs _ _), rd_wr_self, retroCounts_not_busy]
  rfl

/-- Settles O34: each clause is a branch of the function that its command applies to the device. -/
theorem skeinReadsScrubsAndRetro : Obligations.SkeinReadsScrubsAndRetro := by
  unfold Obligations.SkeinReadsScrubsAndRetro
  refine ⟨?inited, ?corrected, ?uncorrectable, ?refresh, ?flush, ?scrub, ?regionTooSmall, ?sampled, ?go, ?goBusy, ?scanDone⟩
  case inited => exact fun d hcap hserves => runs_skeinInitDone hcap hserves
  case corrected => exact fun d m a hserves hexists hgood => runs_skeinReadComplete .corrected hserves hexists hgood
  case uncorrectable => exact fun d m a hserves hexists hgood => runs_skeinReadComplete .uncorrectable hserves hexists hgood
  case refresh => exact runs_skeinRefresh
  case flush => exact runs_skeinFlush
  case scrub =>
    exact fun d hen hserves hcap hgood hnext => (runs_scrubRead d .clean).to_eq (scrubRead_of_clean hen hserves hcap hgood hnext)
  case regionTooSmall =>
    rintro d _ v _ rfl hoff hon rfl hsmall
    exact (runs_histEnable d v).to_eq ((histCfgWrite_of_rise hoff hon).trans (if_pos hsmall))
  case sampled =>
    rintro d _ v _ _ _ _ rfl hoff hon rfl rfl rfl rfl hfits
    exact (runs_histEnable d v).to_eq ((histCfgWrite_of_rise hoff hon).trans (if_neg (Nat.not_lt.mpr hfits)))
  case go =>
    rintro d _ v _ rfl hgo hidle rfl
    exact (runs_retroGo d v).to_eq (retroGo_of_idle hgo hidle)
  case goBusy =>
    rintro d _ v rfl hgo hbusy
    exact (runs_retroGo d v).to_eq (retroGo_of_busy hgo hbusy)
  case scanDone => exact fun d q h => ⟨_, runs_retroScanDone d, retroDone_of_running h⟩

end Sys2Proof.Machine
end

section
/-! Scope: Hook's channels (R483 to R502): each command by its function on the device, and that function by its branches; a reset goes by
induction over the channels. -/

namespace Sys2Proof.Machine

theorem foldl_eq_self {α β : Type} {f : α → β → α} {x : α} {l : List β} (h : ∀ b ∈ l, f x b = x) : l.foldl f x = x := by
  induction l with
  | nil => rfl
  | cons b l ih =>
    rw [List.foldl_cons, h b List.mem_cons_self]
    exact ih fun c hc => h c (List.mem_cons_of_mem b hc)

/-! The commands. -/

section
variable (d : Dev) (ch : Fin 16)

theorem runs_hookGo (m : Nat) (abort : Bool) : Runs (.hookGo m ch abort) d (d.hookCtlWrite m ch (if abort then 3 else 1)) := fun _ => rfl

theorem runs_hookAbort (m : Nat) : Runs (.hookAbort m ch) d (d.hookCtlWrite m ch 2) := fun _ => rfl

theorem runs_hookCheckDone : Runs (.hookCheckDone ch) d (d.hookChecked ch) := fun _ => rfl

theorem runs_hookSlotsGranted : Runs (.hookSlotsGranted ch) d (d.hookSlots ch) := fun _ => rfl

theorem runs_hookIrqWrite (en : Bool) (v : Word) : Runs (.hookIrqWrite en v) d (d.hookIrqWrite en v) := fun _ => rfl

theorem runs_hookBurstRead : Runs .hookBurstRead d d.hookBurstRead := fun _ => rfl

theorem runs_hookReadResponse (first : Nat) : Runs (.hookReadResponse ch first) d (d.hookReadResponse ch first) := fun _ => rfl

theorem runs_hookBurstWrite : Runs .hookBurstWrite d d.hookBurstWrite := fun _ => rfl

theorem runs_hookWriteAck : Runs (.hookWriteAck ch) d (d.hookWriteAck ch) := fun _ => rfl

end

theorem runs_hookReset {v : Word} (d : Dev) (h : fld v F.HOOK_CTL_RESET = 1) : Runs (.hookReset v) d d.hookReset := by
  intro q
  change execHookReset _ _ = _
  simp [execHookReset, h]

/-! GO and ABORT (R483, R495, R496). -/

section
variable {d : Dev} {m ch : Nat}

theorem hookCtlWrite_of_hook (v : Word) (hlo : 0x10 ≤ m) (hhi : m ≤ 0x1F) :
    d.hookCtlWrite m ch v = d.deny m true (denyAddr m (R.HOOK_CH_CTL ch)) := if_pos ⟨hlo, hhi⟩

section
variable (hm : m < 0x10 ∨ 0x1F < m)
include hm

theorem hookCtlWrite_of_other (v : Word) : d.hookCtlWrite m ch v =
    if fld v F.HOOK_CH_CTL_GO = 1 ∧ fld v F.HOOK_CH_CTL_ABORT = 1 then d.hookRefused
    else if fld v F.HOOK_CH_CTL_GO = 1 then d.hookGo ch
    else if fld v F.HOOK_CH_CTL_ABORT = 1 then d.hookAbort ch
    else d :=
  if_neg (by omega)

theorem hookCtlWrite_go : d.hookCtlWrite m ch 1 = d.hookGo ch := by
  rw [hookCtlWrite_of_other hm, if_neg (by decide), if_pos (by decide)]

theorem hookCtlWrite_abort : d.hookCtlWrite m ch 2 = d.hookAbort ch := by
  rw [hookCtlWrite_of_other hm, if_neg (by decide), if_neg (by decide), if_pos (by decide)]

theorem hookCtlWrite_go_abort : d.hookCtlWrite m ch 3 = d.hookRefused := by
  rw [hookCtlWrite_of_other hm, if_pos (by decide)]

end

theorem hookGo_of_idle (hidle : (d.hookCh ch).state = .idle) (hbind : d.glb.bindoff ≠ .inProgress) (hact : d.pwr.state = .active) :
    d.hookGo ch = ([F.HOOK_CH_STATUS_DONE, F.HOOK_CH_STATUS_ABORT_LATE, F.HOOK_CH_STATUS_STAGED, F.HOOK_CH_STATUS_COLLIDE].foldl
      (fun (y : Dev) f => y.sb (R.HOOK_CH_STATUS ch) f false) d).setHook ch
        { HookCh.init with state := .check, desc := d.hookDesc ch } :=
  if_neg (by simp [hidle, hbind, hact])

theorem hookGo_of_busy (hbusy : (d.hookCh ch).state ≠ .idle) : d.hookGo ch = d.hookRefused := if_pos (.inl hbusy)

theorem hookAbort_of_check (h : (d.hookCh ch).state = .check) : d.hookAbort ch = d.hookEnd ch 1 0 0 := by
  simp only [Dev.hookAbort, h]

theorem hookAbort_of_flush (h : (d.hookCh ch).state = .flush) :
    d.hookAbort ch = d.sb (R.HOOK_CH_STATUS ch) F.HOOK_CH_STATUS_ABORT_LATE true := by
  simp only [Dev.hookAbort, h]

theorem hookAbort_of_idle (h : (d.hookCh ch).state = .idle) (hdone : d.b (R.HOOK_CH_STATUS ch) F.HOOK_CH_STATUS_DONE = false) :
    d.hookAbort ch = d.hookRefused := by
  simp [Dev.hookAbort, h, hdone]

end

/-! The checks and the slots (R486 to R488). -/

section
variable {d : Dev} {ch : Nat}

theorem hookChecked_of_passed (hstate : (d.hookCh ch).state = .check) (hcheck : d.hookCheck (d.hookCh ch).desc = 0)
    (hover : (d.hookCh ch).desc.overlaps = false) : d.hookChecked ch = d.setHook ch { d.hookCh ch with state := .run } := by
  simp [Dev.hookChecked, hstate, hcheck, hover]

theorem hookChecked_of_failed (hstate : (d.hookCh ch).state = .check) (hcheck : d.hookCheck (d.hookCh ch).desc ≠ 0) :
    d.hookChecked ch = d.hookEnd ch (d.hookCheck (d.hookCh ch).desc) 0 0 := by
  simp [Dev.hookChecked, hstate, hcheck]

theorem hookSlots_of_granted (hstate : (d.hookCh ch).state = .waitBuf) (hslots : 16 ≤ (d.hookCh ch).slots) :
    d.hookSlots ch = d.setHook ch { d.hookCh ch with state := .run } := if_pos ⟨hstate, hslots⟩

end

/-! The reset (R502), channel by channel. -/

@[simp] theorem hookCh_setHook_self (ch : Nat) (x : HookCh) (d : Dev) : (d.setHook ch x).hookCh ch = x := Tbl.get_set_self _ _ _ _

theorem hookCh_setHook_ne {ch k : Nat} (x : HookCh) (d : Dev) (h : k ≠ ch) : (d.setHook ch x).hookCh k = d.hookCh k :=
  Tbl.get_set_ne _ _ _ h

theorem hookCh_congr {d e : Dev} (h : d.hook = e.hook) (k : Nat) : d.hookCh k = e.hookCh k := by unfold Dev.hookCh; rw [h]

theorem spoilRange_hook (da n : Nat) (d : Dev) : (d.spoilRange da n).hook = d.hook := by
  unfold Dev.spoilRange
  dsimp only
  split
  · rfl
  · split <;> rfl
  · rfl

/-- What a reset makes of one channel. -/
def HookCh.wasReset (x : HookCh) : HookCh := if x.state = .idle then x else { HookCh.init with desc := x.desc }

theorem wasReset_state (x : HookCh) : x.wasReset.state = .idle := by
  unfold HookCh.wasReset
  split
  · assumption
  · rfl

/-- A channel's part of the reset. -/
def Dev.resetHook (w : Dev) (ch : Nat) : Dev :=
  let x := w.hookCh ch
  if x.state = .idle then w
  else
    let t := x.desc.footprint x.desc.dst x.desc.dstep
    let y := if x.state = .run ∨ x.state = .drain ∨ x.state = .flush then w.spoilRange t.1.toNat (t.2 - t.1 + 1).toNat else w
    (((y.sf (R.HOOK_CH_STATUS ch) F.HOOK_CH_STATUS_RESULT 9).sb (R.HOOK_CH_STATUS ch) F.HOOK_CH_STATUS_DONE false).orphanHook ch).setHook ch
      { HookCh.init with desc := x.desc }

theorem hookReset_eq (d : Dev) : d.hookReset = (List.range 16).foldl Dev.resetHook d := rfl

theorem hookCh_resetHook_self (w : Dev) (ch : Nat) : (w.resetHook ch).hookCh ch = (w.hookCh ch).wasReset := by
  unfold Dev.resetHook HookCh.wasReset
  dsimp only
  split
  · rfl
  · exact hookCh_setHook_self _ _ _

theorem hookCh_resetHook_ne {w : Dev} {ch k : Nat} (h : k ≠ ch) : (w.resetHook ch).hookCh k = w.hookCh k := by
  unfold Dev.resetHook
  dsimp only
  split
  · rfl
  · rw [hookCh_setHook_ne _ _ h]
    split
    · exact hookCh_congr (spoilRange_hook _ _ _) k
    · rfl

theorem hookCh_resetHooks (d : Dev) (n k : Nat) :
    ((List.range n).foldl Dev.resetHook d).hookCh k = if k < n then (d.hookCh k).wasReset else d.hookCh k := by
  induction n with
  | zero => simp
  | succ n ih =>
    rw [List.range_succ, List.foldl_append, List.foldl_cons, List.foldl_nil]
    by_cases hk : k = n
    · subst hk
      rw [hookCh_resetHook_self, ih, if_neg (lt_irrefl k), if_pos (Nat.lt_succ_self k)]
    · have hlt : k < n + 1 ↔ k < n := by omega
      simp only [hookCh_resetHook_ne hk, ih, hlt]

theorem hookCh_hookReset (d : Dev) (ch : Fin 16) : d.hookReset.hookCh ch = (d.hookCh ch).wasReset := by
  rw [hookReset_eq, hookCh_resetHooks, if_pos ch.isLt]

/-! Interrupts (R494). -/

/-- Whether a channel's interrupt bit is set and enabled. -/
def Dev.hookIrqUp (ch : Nat) (d : Dev) : Prop := d.f R.HOOK_IRQ_STATUS (bitF ch) = 1 ∧ d.f R.HOOK_IRQ_EN (bitF ch) = 1

section
variable {d : Dev} {en : Bool} {v : Word}

theorem hookIrqWrite_of_none
    (h : ∀ ch < 16, ¬ (d.plainWrite (if en then R.HOOK_IRQ_EN else R.HOOK_IRQ_STATUS) v).hookIrqUp ch) :
    d.hookIrqWrite en v = d.plainWrite (if en then R.HOOK_IRQ_EN else R.HOOK_IRQ_STATUS) v :=
  foldl_eq_self fun ch hch => if_neg (h ch (List.mem_range.mp hch))

theorem hookIrqWrite_of_last
    (h : ∀ ch < 15, ¬ (d.plainWrite (if en then R.HOOK_IRQ_EN else R.HOOK_IRQ_STATUS) v).hookIrqUp ch)
    (hup : (d.plainWrite (if en then R.HOOK_IRQ_EN else R.HOOK_IRQ_STATUS) v).hookIrqUp 15) :
    d.hookIrqWrite en v = (d.plainWrite (if en then R.HOOK_IRQ_EN else R.HOOK_IRQ_STATUS) v).message 80 := by
  unfold Dev.hookIrqWrite
  dsimp only
  rw [List.range_succ, List.foldl_append, List.foldl_cons, List.foldl_nil,
    foldl_eq_self fun ch hch => if_neg (h ch (List.mem_range.mp hch))]
  exact if_pos hup

end

/-! Bursts to and from a local target (R489, R492). -/

/-- The device with the channel that the read engine has served last. -/
def Dev.servedHook (ch : Nat) (d : Dev) : Dev := { d with hook := { d.hook with last := ch } }

section
variable {d y : Dev} {ch da : Nat} {bs : List Byte}

theorem hookBurstRead_of_here (hpick : d.readPick = some ch) (hhere : d.hookTarget ch false (d.hookCh ch).nextRead.2.1 = .here da)
    (hgoes : (d.servedHook ch).runStop (0x10 + ch) false da (d.hookCh ch).nextRead.2.2 = none) :
    d.hookBurstRead = (d.servedHook ch).takeSlot ch (d.hookCh ch).nextRead.1 (d.hookCh ch).nextRead.2.2 := by
  unfold Dev.servedHook at hgoes ⊢
  simp only [Dev.hookBurstRead, hpick, hhere, hgoes]

theorem hookReadResponse_of_here {first : Nat} {b : HookBurst}
    (hfind : (d.hookCh ch).bursts.find? (fun b => decide (b.first = first) && b.data.isNone) = some b)
    (hhere : d.hookTarget ch false ((d.hookCh ch).readDa first) = .here da) (hskein : d.waitsForSkein da = false)
    (hread : d.runRead (0x10 + ch) da b.len = (.ok, bs, y)) : d.hookReadResponse ch first = y.slotFull ch b bs := by
  simp [Dev.hookReadResponse, hfind, hhere, hskein, hread]

theorem hookBurstWrite_of_here {n : Nat} (hpick : d.writePick = some (ch, n, bs))
    (hhere : d.hookTarget ch true ((d.hookCh ch).desc.dstOf n) = .here da) (hlocal : (d.hookCh ch).desc.dstOf n < 2 ^ 62)
    (hwrite : d.writeHere ch da bs = (.ok, y)) : d.hookBurstWrite = y.wroteBurst ch n bs 1 0 := by
  have hsunk : decide (2 ^ 62 ≤ (d.hookCh ch).desc.dstOf n) = false := decide_eq_false (Nat.not_le.mpr hlocal)
  simp only [Dev.hookBurstWrite, hpick, hhere, hsunk, hwrite, Bool.false_and, Bool.false_eq_true, if_false, if_true]

theorem hookWriteAck_of_some (h : (d.hookCh ch).acks ≠ 0) :
    d.hookWriteAck ch = (d.modHook ch fun x => { x with acks := x.acks - 1 }).hookAdvance ch := if_neg h

end

/-- Settles O35: each clause is a branch of the function that its command applies to the device. -/
theorem hookChannelsRun : Obligations.HookChannelsRun := by
  unfold Obligations.HookChannelsRun
  refine ⟨?go, ?goBusy, ?goFromHook, ?goAbort, ?abortCheck, ?abortFlush, ?abortIdle, ?passed, ?failed, ?slots, ?reset, ?irqNone, ?irqLast,
    ?burstRead, ?readResponse, ?burstWrite, ?writeAck⟩
  case go =>
    exact fun d m ch hm hidle hbind hact =>
      (runs_hookGo d ch m false).to_eq ((hookCtlWrite_go hm).trans (hookGo_of_idle hidle hbind hact))
  case goBusy =>
    exact fun d m ch hm hbusy => (runs_hookGo d ch m false).to_eq ((hookCtlWrite_go hm).trans (hookGo_of_busy hbusy))
  case goFromHook => exact fun d m ch hlo hhi => (runs_hookGo d ch m false).to_eq (hookCtlWrite_of_hook _ hlo hhi)
  case goAbort => exact fun d m ch hm => (runs_hookGo d ch m true).to_eq (hookCtlWrite_go_abort hm)
  case abortCheck =>
    exact fun d m ch hm h => (runs_hookAbort d ch m).to_eq ((hookCtlWrite_abort hm).trans (hookAbort_of_check h))
  case abortFlush =>
    exact fun d m ch hm h => (runs_hookAbort d ch m).to_eq ((hookCtlWrite_abort hm).trans (hookAbort_of_flush h))
  case abortIdle =>
    exact fun d m ch hm h hdone => (runs_hookAbort d ch m).to_eq ((hookCtlWrite_abort hm).trans (hookAbort_of_idle h hdone))
  case passed =>
    exact fun d ch hstate hcheck hover => (runs_hookCheckDone d ch).to_eq (hookChecked_of_passed hstate hcheck hover)
  case failed => exact fun d ch hstate hcheck => (runs_hookCheckDone d ch).to_eq (hookChecked_of_failed hstate hcheck)
  case slots => exact fun d ch hstate hslots => (runs_hookSlotsGranted d ch).to_eq (hookSlots_of_granted hstate hslots)
  case reset =>
    refine fun d v h => ⟨_, runs_hookReset d h, fun ch => ?_⟩
    rw [hookCh_hookReset]
    exact ⟨wasReset_state _, fun hidle => if_pos hidle, fun hbusy => if_neg hbusy⟩
  case irqNone =>
    rintro d _ en v rfl h
    exact (runs_hookIrqWrite d en v).to_eq (hookIrqWrite_of_none h)
  case irqLast =>
    rintro d _ en v rfl h hst hen
    exact (runs_hookIrqWrite d en v).to_eq (hookIrqWrite_of_last h ⟨hst, hen⟩)
  case burstRead =>
    exact fun d ch da hpick hhere hgoes => (runs_hookBurstRead d).to_eq (hookBurstRead_of_here hpick hhere hgoes)
  case readResponse =>
    exact fun d y ch first da b bs hfind hhere hskein hread =>
      (runs_hookReadResponse d ch first).to_eq (hookReadResponse_of_here hfind hhere hskein hread)
  case burstWrite =>
    exact fun d y ch n da bs hpick hhere hlocal hwrite =>
      (runs_hookBurstWrite d).to_eq (hookBurstWrite_of_here hpick hhere hlocal hwrite)
  case writeAck => exact fun d ch h => (runs_hookWriteAck d ch).to_eq (hookWriteAck_of_some h)

end Sys2Proof.Machine
end

section
/-! Scope: delivery (R522 to R538): tags, translations, rings, descriptors, parcels, completions and their interrupts. Each command by its
function on the device, and that function by its branches. -/

namespace Sys2Proof.Machine

/-! The commands. -/

section
variable (d : Dev) (r : Fin 64)

theorem runs_tagQuarantineEnd (tag : Nat) : Runs (.tagQuarantineEnd tag) d
    (d.modHost fun x => { x with quar := x.quar.filter (fun q => !(q.1 == tag && decide (q.2 ≤ d.now))) }) := fun _ => rfl

theorem runs_atsTranslationMiss (u : AtsUser) (iova : Nat) (w : Bool) :
    Runs (.atsTranslationMiss u iova w) d (d.xlateRequest iova w u) := fun _ => rfl

theorem runs_atsInvalidateRequest (t base size : Nat) : Runs (.atsInvalidateRequest t base size) d (d.invalidate t base size) :=
  fun _ => rfl

theorem runs_atsInvalidateDone (t : Nat) : Runs (.atsInvalidateDone t) d (d.invalidateDone t) := fun _ => rfl

theorem runs_ringEnable (v : Word) : Runs (.ringEnable r v) d (d.ringCfgWrite r v 0) := fun _ => rfl

theorem runs_ringDisable (v : Word) (n : Nat) : Runs (.ringDisable r v n) d (d.ringCfgWrite r v n) := fun _ => rfl

theorem runs_ringDtailWrite (v : Word) : Runs (.ringDtailWrite r v) d (d.dtailWrite r v) := fun _ => rfl

theorem runs_ringCheadWrite (v : Word) : Runs (.ringCheadWrite r v) d (d.cheadWrite r v) := fun _ => rfl

theorem runs_revoke (n : Nat) : Runs (.revoke r n) d (d.revoke r n) := fun _ => rfl

theorem runs_descFetch : Runs (.descFetch r) d (d.descFetch r) := fun _ => rfl

theorem runs_parcelStart : Runs (.parcelStart r) d (d.parcelStart r) := fun _ => rfl

theorem runs_pieceComplete : Runs (.pieceComplete r) d (d.pieceComplete r) := fun _ => rfl

theorem runs_parcelStage_offered : Runs (.parcelStage .offered) d d.stageOffer := fun _ => rfl

theorem runs_parcelStage_event (n : Fin 48) : Runs (.parcelStage (.event n)) d (d.stageEvent n) := fun _ => rfl

theorem runs_ringIrqTimeExpire : Runs (.ringIrqTimeExpire r) d (d.ringTime r) := fun _ => rfl

end

/-- The data of the one outstanding request, a ring's descriptor read, goes to that ring. -/
theorem runs_descFetchDone {d : Dev} {r : Fin 64} {q : OutReq} {n : Nat} (bytes : List Byte) (hreqs : d.host.reqs = [q])
    (hkind : q.kind = .desc r n) :
    Runs (.descFetchDone r bytes) d
      ((d.modHost fun x => { x with reqs := x.reqs.filter (fun y => y.tag ≠ q.tag) }).descData r n bytes) := by
  intro s
  change execDescFetchDone _ _ _ = _
  simp [execDescFetchDone, hreqs, hkind]

/-! Translations (R525, R526). -/

section
variable {d : Dev} {t : Nat}

theorem xlateRequest_of_missing {u : AtsUser} {iova : Nat} {w : Bool} (hats : d.host.cfg.atsEn = true) (hmay : d.canRequest = true)
    (hmiss : d.xlate iova w = none) (hreqs : d.host.reqs = []) (htag : d.freeTag = some t) :
    d.xlateRequest iova w u =
      (d.modHost fun x => { x with reqs := x.reqs ++ [{ tag := t, kind := .xlate iova w u, addr := iova, len := 0, sent := d.now }] }).emit
        (.xlateRequest t (iova / 2 ^ (12 + d.host.cfg.stu) * 2 ^ (12 + d.host.cfg.stu))) := by
  simp [Dev.xlateRequest, hats, hmay, hmiss, hreqs, htag]

theorem invalidate_of_idle {base size : Nat} (hroom : d.host.invals.length < 32) (hreqs : d.host.reqs = []) :
    d.invalidate t base size = (d.bump R.HOST_CNT4 F.HOST_CNT4_INVAL_CNT 1).modHost fun x =>
      { x with ats := x.ats.filter (fun e => !(decide (e.base < base + size) && decide (base < e.base + e.size))),
               invals := x.invals ++ [(t, [])] } := by
  have hnot : ¬ 32 ≤ d.host.invals.length := Nat.not_le.mpr hroom
  simp only [Dev.invalidate, hnot, if_false, hreqs, List.filter_nil, List.map_nil]

variable {p : Nat × List Nat} (hfind : d.host.invals.find? (fun q => q.1 == t) = some p)
include hfind

theorem invalidateDone_of_unused (hdone : p.2.any (fun t => d.host.reqs.any (fun q => q.tag == t)) = false) :
    d.invalidateDone t = (d.modHost fun x => { x with invals := x.invals.filter (fun q => q.1 ≠ t) }).emit (.invalidateDone t) := by
  simp only [Dev.invalidateDone, hfind, hdone, Bool.false_eq_true, if_false]

theorem invalidateDone_of_used (hused : p.2.any (fun t => d.host.reqs.any (fun q => q.tag == t)) = true) :
    d.invalidateDone t = d := by
  simp only [Dev.invalidateDone, hfind, hused, if_true]

end

/-! Ring configuration and pointers (R529, R537). -/

section
variable {d : Dev} {r : Nat} {v : Word}

/-- The ring as a rise of EN samples it. -/
def Dev.ringSampled (r : Nat) (d : Dev) : Ring :=
  { Ring.init with
    state := .run
    dlog := max 4 (min 16 (d.f (R.HOST_RING_CFG r) F.HOST_RING_CFG_DLOG))
    clog := max 4 (min 20 (d.f (R.HOST_RING_CFG r) F.HOST_RING_CFG_CLOG))
    dbase := (d.rd64 (R.HOST_RING_DBASE r)).toNat / 4096 * 4096
    cbase := (d.rd64 (R.HOST_RING_CBASE r)).toNat / 4096 * 4096 }

theorem ringCfgWrite_of_rise (n : Nat) (hoff : d.b (R.HOST_RING_CFG r) F.HOST_RING_CFG_EN = false)
    (hon : (d.plainWrite (R.HOST_RING_CFG r) v).f (R.HOST_RING_CFG r) F.HOST_RING_CFG_EN = 1) :
    d.ringCfgWrite r v n = (((((d.plainWrite (R.HOST_RING_CFG r) v).wr (R.HOST_RING_DHEAD r) 0).wr (R.HOST_RING_DTAIL r) 0).wr
      (R.HOST_RING_CHEAD r) 0).wr (R.HOST_RING_CSEQ r) 0).setRing r ((d.plainWrite (R.HOST_RING_CFG r) v).ringSampled r) := by
  have hrise : (fld ((d.plainWrite (R.HOST_RING_CFG r) v).rd (R.HOST_RING_CFG r)) F.HOST_RING_CFG_EN == 1 &&
      !d.b (R.HOST_RING_CFG r) F.HOST_RING_CFG_EN) = true := by
    rw [hoff, Bool.not_false, Bool.and_true]
    exact beq_iff_eq.mpr hon
  exact if_pos hrise

theorem ringCfgWrite_of_fall (n : Nat) (hon : d.b (R.HOST_RING_CFG r) F.HOST_RING_CFG_EN = true)
    (hoff : fld ((d.plainWrite (R.HOST_RING_CFG r) v).rd (R.HOST_RING_CFG r)) F.HOST_RING_CFG_EN = 0)
    (hok : ((d.plainWrite (R.HOST_RING_CFG r) v).ring r).state ≠ .error) :
    d.ringCfgWrite r v n = (d.plainWrite (R.HOST_RING_CFG r) v).revoke r n := by
  simp [Dev.ringCfgWrite, hon, hoff, hok]

theorem dtailWrite_of_fits (h : (v - d.rd (R.HOST_RING_DHEAD r)).toNat ≤ 2 ^ (d.ring r).dlog) :
    d.dtailWrite r v = d.plainWrite (R.HOST_RING_DTAIL r) v := if_neg (Nat.not_lt.mpr h)

theorem dtailWrite_of_over (h : 2 ^ (d.ring r).dlog < (v - d.rd (R.HOST_RING_DHEAD r)).toNat) :
    d.dtailWrite r v = d.hostErr 7 := if_pos h

theorem cheadWrite_of_fits (h : 0 ≤ (d.rd (R.HOST_RING_CSEQ r) - v).toInt) :
    d.cheadWrite r v = ((d.plainWrite (R.HOST_RING_CHEAD r) v).flushReturns r).revokeEnd r := if_neg (Int.not_lt.mpr h)

theorem cheadWrite_of_over (h : (d.rd (R.HOST_RING_CSEQ r) - v).toInt < 0) : d.cheadWrite r v = d.hostErr 7 := if_pos h

end

/-! Revokes and descriptors (R529, R530, R536). -/

section
variable {d : Dev} {r : Nat}

theorem revoke_of_at_rest (n : Nat) (hrun : (d.ring r).state = .run) (hpiece : (d.ring r).piece = none) (hrest : (d.ring r).rest = none) :
    d.revoke r n = d.returnAll r := by
  simp only [Dev.revoke, hrun, hpiece, hrest]

theorem revoke_of_off (n : Nat) (hoff : (d.ring r).state = .off) : d.revoke r n = d := by
  simp only [Dev.revoke, hoff]

/-- The descriptors posted that no fetch has asked for. -/
def Dev.unfetched (r : Nat) (d : Dev) : Nat := (d.rd (R.HOST_RING_DTAIL r) - BitVec.ofNat 32 (d.ring r).fetched).toNat

/-- The descriptors that the next fetch asks for: up to 8, not across the ring's end. -/
def Dev.fetchCount (r : Nat) (d : Dev) : Nat :=
  min (min 8 (d.unfetched r)) (2 ^ (d.ring r).dlog - (d.ring r).fetched % 2 ^ (d.ring r).dlog)

/-- Where they stand. -/
def Dev.fetchAddr (r : Nat) (d : Dev) : Nat := (d.ring r).dbase + 32 * ((d.ring r).fetched % 2 ^ (d.ring r).dlog)

theorem descFetch_of_posted {t tg : Nat} (hrun : (d.ring r).state = .run) (hfew : (d.ring r).unbegun.length < 2)
    (hdel : d.delivers = true) (hnone : (d.ring r).fetching = 0) (hposted : d.unfetched r ≠ 0)
    (hx : d.xlate (d.fetchAddr r) false = some t) (htag : d.freeTag = some tg) :
    d.descFetch r = (d.setRing r { d.ring r with fetching := d.fetchCount r }).requestRead (.desc r (d.fetchCount r))
      (d.fetchAddr r) t (32 * d.fetchCount r) := by
  unfold Dev.fetchCount Dev.fetchAddr Dev.unfetched at *
  simp [-BitVec.toNat_sub, Dev.descFetch, hrun, hfew, hdel, hnone, hposted, hx, htag]

end

/-! Parcels and pieces (R531 to R535). -/

section
variable {d : Dev} {r : Nat} {p : Parcel}

theorem parcelStart_of_placed (hpiece : (d.ring r).piece = none) (hdel : d.delivers = true) (hrun : (d.ring r).state = .run)
    (hrest : (d.ring r).rest = none) (hraw : d.headRaw r = none) (hhead : d.headStaged r = some p) (hcrop : d.cropBefore p = false)
    (hplace : (d.place r p 0 0).1 = true) :
    d.parcelStart r = (d.place r p 0 0).2.modHost fun y => { y with staged := y.staged.filter (fun q => q.number ≠ p.number) } := by
  simp [Dev.parcelStart, hpiece, hdel, hrun, hrest, hraw, hhead, hcrop, hplace]

theorem parcelStart_of_rest_placed {pos no : Nat} (hpiece : (d.ring r).piece = none) (hdel : d.delivers = true)
    (hrun : (d.ring r).state = .run) (hrest : (d.ring r).rest = some (p, pos, no)) (hplace : (d.place r p pos no).1 = true) :
    d.parcelStart r = (d.place r p pos no).2 := by
  simp [Dev.parcelStart, hpiece, hdel, hrun, hrest, hplace]

/-- The last piece of a snag record ends its buffer where the ring does not pack. -/
theorem pieceComplete_of_last_snag {d1 d2 : Dev} {q : Piece} {b : Desc} {used : Nat} (hpiece : (d.ring r).piece = some q)
    (hbuf : (d.ring r).buf = some (b, used)) (hmay : d.canRequest = true) (hok : (d.ring r).state ≠ .error) (hfree : d.cqFree r ≠ 0)
    (hpack : d.b (R.HOST_RING_CFG r) F.HOST_RING_CFG_PACK = false) (hlast : q.pos + q.len = q.parcel.bytes.length)
    (hkind : q.parcel.kind = .snag)
    (hwrite : d.hostWrite (b.addr + q.offset) (d.b (R.HOST_RING_CFG r) F.HOST_RING_CFG_RO) ((q.parcel.bytes.drop q.pos).take q.len) = some d1)
    (hcomp : d1.complete r (pieceCqe b q q.len 0 true true) = some d2) :
    d.pieceComplete r = d2.modRing r fun y => { y with piece := none, buf := none, rest := none } := by
  simp [Dev.pieceComplete, Dev.pieceOver, hpiece, hbuf, hmay, hok, hfree, hpack, hlast, hkind, hwrite, hcomp]

theorem pieceComplete_of_held (h : d.cqFree r = 0 ∨ d.canRequest = false) : d.pieceComplete r = d := by
  unfold Dev.pieceComplete
  dsimp only
  split
  · exact if_pos (by rcases h with h | h <;> simp [h])
  · rfl

theorem stageOffer_of_discarded (hoffer : d.host.offers = [p]) (hdis : d.ringDiscards p.ring = true) :
    d.stageOffer = (d.takeOffer p).discardParcel p := by
  simp [Dev.stageOffer, hoffer, hdis]

theorem stageOffer_of_staged (hoffer : d.host.offers = [p]) (hdis : d.ringDiscards p.ring = false) (hroom : d.stageRoom p = true)
    (hkind : p.kind ≠ .output) : d.stageOffer = (d.takeOffer p).modHost fun x => { x with staged := x.staged ++ [p] } := by
  simp [Dev.stageOffer, hoffer, hdis, hroom, hkind]

theorem stageEvent_of_staged {n : Nat} (hev : d.eventParcel n = some p) (hen : d.b R.HOST_DLV_CFG F.HOST_DLV_CFG_EVT_EN = true)
    (hdis : d.ringDiscards p.ring = false) (hroom : d.stageRoom p = true) :
    d.stageEvent n = (d.modConn n fun x => { x with events := x.events.drop 1 }).modHost fun x =>
      { x with staged := x.staged ++ [{ p with number := x.nextNo }], nextNo := x.nextNo + 1 } := by
  simp [Dev.stageEvent, hev, hen, hdis, hroom]

end

/-! Interrupts of a ring (R538). -/

section
variable {d : Dev} {r : Nat}

theorem ringTime_of_due {t : Nat} (hold : (d.ring r).oldest = some t) (hen : fld (d.rd (R.HOST_RING_IRQ r)) F.HOST_RING_IRQ_EN = 1)
    (htime : fld (d.rd (R.HOST_RING_IRQ r)) F.HOST_RING_IRQ_TIME ≠ 0)
    (hdue : t + fld (d.rd (R.HOST_RING_IRQ r)) F.HOST_RING_IRQ_TIME * 1000 ≤ d.now) :
    d.ringTime r = (d.modRing r fun x => { x with unsig := 0, oldest := none }).message (1 + r) := by
  simp only [Dev.ringTime, hold]
  exact if_pos ⟨hen, htime, hdue⟩

theorem ringTime_of_none (hold : (d.ring r).oldest = none) : d.ringTime r = d := by
  simp only [Dev.ringTime, hold]

end

/-- Settles O37: each clause is a branch of the function that its command applies to the device. -/
theorem hostRingsDeliver : Obligations.HostRingsDeliver := by
  unfold Obligations.HostRingsDeliver
  refine ⟨?quarantineEnd, ?translationMiss, ?invalidate, ?invalidateDone, ?invalidateUsed, ?enable, ?disable, ?dtail, ?dtailOver, ?chead,
    ?cheadOver, ?revoke, ?revokeOff, ?fetch, ?fetchDone, ?start, ?startRest, ?piece, ?pieceHeld, ?offer, ?offerDiscarded, ?event, ?irqTime,
    ?irqNone⟩
  case quarantineEnd => exact runs_tagQuarantineEnd
  case translationMiss =>
    exact fun d u iova t w hats hmay hmiss hreqs htag =>
      (runs_atsTranslationMiss d u iova w).to_eq (xlateRequest_of_missing hats hmay hmiss hreqs htag)
  case invalidate =>
    exact fun d t base size hroom hreqs => (runs_atsInvalidateRequest d t base size).to_eq (invalidate_of_idle hroom hreqs)
  case invalidateDone =>
    exact fun d t p hfind hdone => (runs_atsInvalidateDone d t).to_eq (invalidateDone_of_unused hfind hdone)
  case invalidateUsed =>
    exact fun d t p hfind hused => (runs_atsInvalidateDone d t).to_eq (invalidateDone_of_used hfind hused)
  case enable =>
    rintro d _ r v rfl hoff hon
    exact (runs_ringEnable d r v).to_eq (ringCfgWrite_of_rise 0 hoff hon)
  case disable =>
    rintro d _ r v n rfl hon hoff hok
    exact (runs_ringDisable d r v n).to_eq (ringCfgWrite_of_fall n hon hoff hok)
  case dtail => exact fun d r v h => (runs_ringDtailWrite d r v).to_eq (dtailWrite_of_fits h)
  case dtailOver => exact fun d r v h => (runs_ringDtailWrite d r v).to_eq (dtailWrite_of_over h)
  case chead => exact fun d r v h => (runs_ringCheadWrite d r v).to_eq (cheadWrite_of_fits h)
  case cheadOver => exact fun d r v h => (runs_ringCheadWrite d r v).to_eq (cheadWrite_of_over h)
  case revoke => exact fun d r n hrun hpiece hrest => (runs_revoke d r n).to_eq (revoke_of_at_rest n hrun hpiece hrest)
  case revokeOff => exact fun d r n hoff => (runs_revoke d r n).to_eq (revoke_of_off n hoff)
  case fetch =>
    rintro d r _ t _ tg hrun hfew hdel hnone hposted rfl rfl hx htag
    exact (runs_descFetch d r).to_eq (descFetch_of_posted hrun hfew hdel hnone hposted hx htag)
  case fetchDone =>
    rintro d _ r bytes q n hreqs hkind rfl
    exact runs_descFetchDone bytes hreqs hkind
  case start =>
    exact fun d r p hpiece hdel hrun hrest hraw hhead hcrop hplace =>
      (runs_parcelStart d r).to_eq (parcelStart_of_placed hpiece hdel hrun hrest hraw hhead hcrop hplace)
  case startRest =>
    exact fun d r p pos no hpiece hdel hrun hrest hplace =>
      (runs_parcelStart d r).to_eq (parcelStart_of_rest_placed hpiece hdel hrun hrest hplace)
  case piece =>
    exact fun d d1 d2 r p b used hpiece hbuf hmay hok hfree hpack hlast hkind hwrite hcomp =>
      (runs_pieceComplete d r).to_eq (pieceComplete_of_last_snag hpiece hbuf hmay hok hfree hpack hlast hkind hwrite hcomp)
  case pieceHeld => exact fun d r h => (runs_pieceComplete d r).to_eq (pieceComplete_of_held h)
  case offer =>
    exact fun d p hoffer hdis hroom hkind =>
      (runs_parcelStage_offered d).to_eq (stageOffer_of_staged hoffer hdis hroom (by simp [hkind]))
  case offerDiscarded => exact fun d p hoffer hdis => (runs_parcelStage_offered d).to_eq (stageOffer_of_discarded hoffer hdis)
  case event =>
    intro d n p hev hen hdis hroom
    refine ⟨_, (runs_parcelStage_event d n).to_eq (stageEvent_of_staged hev hen hdis hroom), rfl, rfl, ?_⟩
    exact congrArg Conn.events (Tbl.get_set_self _ _ _ _)
  case irqTime => exact fun d r t hold hen htime hdue => (runs_ringIrqTimeExpire d r).to_eq (ringTime_of_due hold hen htime hdue)
  case irqNone => exact fun d r hold => (runs_ringIrqTimeExpire d r).to_eq (ringTime_of_none hold)

end Sys2Proof.Machine
end

section
/-! Scope: the host endpoint (R516 to R524, R539 to R547): configuration, completions, windows, the link, resets and power states of the
function. Each command by its function on the device, and that function by its branches. -/

namespace Sys2Proof.Machine

/-! The commands. -/

section
variable (d : Dev)

theorem runs_configWrite (i : CfgItem) : Runs (.configWrite i) d (d.configWrite i) := fun _ => rfl

theorem runs_winApply (v : Word) : Runs (.winApply v) d (d.winApply v) := fun _ => rfl

theorem runs_completionReceive (tag : Nat) (co : Completion) (hdr : List Byte) :
    Runs (.completionReceive tag co hdr) d (d.completionIn tag co hdr) := fun _ => rfl

theorem runs_completionTimeout (tag : Nat) : Runs (.completionTimeout tag) d (d.completionTimeout tag) := fun _ => rfl

theorem runs_msixUnmask (v : Fin 256) : Runs (.msixUnmask v) d (d.msixUnmask v) := fun _ => rfl

theorem runs_intxPendWrite (i : Fin 8) (v : Word) : Runs (.intxPendWrite i v) d (d.intxPendWrite i v) := fun _ => rfl

theorem runs_linkEnterL0 (rate : Fin 7) (width : Fin 17) (flit : Bool) :
    Runs (.linkEnterL0 rate width flit) d (d.enterL0 rate width flit) := fun _ => rfl

theorem runs_linkRecoveryStart : Runs .linkRecoveryStart d d.recoveryStart := fun _ => rfl

theorem runs_linkRecoveryTimeout : Runs .linkRecoveryTimeout d d.recoveryTimeout := fun _ => rfl

theorem runs_functionLevelReset : Runs .functionLevelReset d d.flr := fun _ => rfl

theorem runs_flrDone : Runs .flrDone d (d.modHost fun x => { x with flrBusy := false }) := fun _ => rfl

theorem runs_dStateChange (d3 : Bool) : Runs (.dStateChange d3) d (d.dState d3) := fun _ => rfl

theorem runs_perstAssert : Runs .perstAssert d d.perstAssert := fun _ => rfl

theorem runs_perstDeassert : Runs .perstDeassert d d.perstDeassert := fun _ => rfl

theorem runs_hostMemWrite (rid off : Nat) (bar : Option (Fin 3)) (bs hdr : List Byte) (poisoned : Bool) :
    Runs (.hostMemWrite rid bar off bs poisoned hdr) d (d.hostStore rid bar off bs poisoned hdr) := fun _ => rfl

theorem runs_dataLinkDown : Runs .dataLinkDown d (if d.host.dlUp then d.linkDown.toD0 else d) := fun _ => rfl

end

/-! Configuration (R511, R544). -/

section
variable {d : Dev} {i : CfgItem} (hperst : d.host.perst = false) (hup : d.host.dlUp = true)
include hperst hup

theorem configWrite_of_taken (hflr : d.host.flrBusy = false) : d.configWrite i = d.cfgItem i := by
  simp [Dev.configWrite, hperst, hup, hflr]

theorem configWrite_of_reset (hflr : d.host.flrBusy = true) : d.configWrite i = d.emit (.completionError true) := by
  simp [Dev.configWrite, hperst, hup, hflr]

end

/-! The windows (R517, R518). -/

/-- The device with the shadow of window `w` in use. -/
def Dev.useShadow (d : Dev) (w : Nat) : Dev := d.wr (R.HOST_WIN w) (d.rd (R.HOST_WIN_SHADOW w))

theorem winShadow_ne_win {k w : Nat} (hk : k < 16) : R.HOST_WIN_SHADOW k ≠ R.HOST_WIN w := by
  unfold R.HOST_WIN_SHADOW R.HOST_WIN
  omega

theorem win_ne_winStatus (w : Nat) : R.HOST_WIN w ≠ R.HOST_WIN_STATUS := by
  unfold R.HOST_WIN R.HOST_WIN_STATUS
  omega

theorem win_ne_win {k w : Nat} (h : k ≠ w) : R.HOST_WIN k ≠ R.HOST_WIN w := by
  unfold R.HOST_WIN
  omega

theorem shadow_useShadows (d : Dev) (n : Nat) {k : Nat} (hk : k < 16) :
    ((List.range n).foldl Dev.useShadow d).rd (R.HOST_WIN_SHADOW k) = d.rd (R.HOST_WIN_SHADOW k) := by
  induction n with
  | zero => rfl
  | succ n ih =>
    rw [List.range_succ, List.foldl_append, List.foldl_cons, List.foldl_nil]
    exact (rd_wr_ne _ _ (winShadow_ne_win hk)).trans ih

theorem win_useShadows (d : Dev) (n : Nat) {k : Nat} (hk : k < n) (hk16 : k < 16) :
    ((List.range n).foldl Dev.useShadow d).rd (R.HOST_WIN k) = d.rd (R.HOST_WIN_SHADOW k) := by
  induction n with
  | zero => omega
  | succ n ih =>
    rw [List.range_succ, List.foldl_append, List.foldl_cons, List.foldl_nil]
    by_cases hn : k = n
    · subst hn
      exact (rd_wr_self _ _ _).trans (shadow_useShadows d k hk16)
    · exact (rd_wr_ne _ _ (win_ne_win hn)).trans (ih (by omega))

/-- With no boundary pending, APPLY takes every shadow into use, and the boundary is pending from now on. -/
theorem winApply_of_idle {d : Dev} {v : Word} (hv : fld v ⟨0, 1⟩ = 1) (hnone : d.host.winPend = none) :
    d.winApply v = (((List.range 16).foldl Dev.useShadow d).sb R.HOST_WIN_STATUS F.HOST_WIN_STATUS_PENDING true).modHost fun x =>
      { x with winPend := some d.now, applySeq := ((d.rd R.HOST_RX_SEQ).toNat + 1) % 2 ^ 32 } := by
  simp only [Dev.winApply, hv, hnone, one_ne_zero, if_false, Option.isSome_none, Bool.false_eq_true]
  rfl

/-! Completions and timeouts (R522 to R524). -/

section
variable {d : Dev} {tag : Nat}

theorem completionIn_of_unknown (co : Completion) (hdr : List Byte) (hfind : d.host.reqs.find? (fun q => q.tag == tag) = none) :
    d.completionIn tag co hdr = (((d.bump R.HOST_CNT0 F.HOST_CNT0_LATE_CPL_CNT 1).hostErr 1).errorMessage 0).logHeader hdr := by
  simp only [Dev.completionIn, hfind]

section
variable {q : OutReq} (hfind : d.host.reqs.find? (fun q => q.tag == tag) = some q)
include hfind

theorem completionIn_of_desc_data {r n : Nat} {bytes : List Byte} (hdr : List Byte) (hkind : q.kind = .desc r n)
    (hlen : bytes.length = q.len) : d.completionIn tag (.data bytes) hdr = (d.dropReq tag).descData r n bytes := by
  simp only [Dev.completionIn, hfind, hkind, hlen, if_true]

theorem completionIn_of_failed (hdr : List Byte) :
    d.completionIn tag .failed hdr = (((d.dropReq tag).bump R.HOST_CNT1 F.HOST_CNT1_CPL_ERR_CNT 1).hostErr 2).failReq q := by
  simp only [Dev.completionIn, hfind]

theorem completionTimeout_of_due (hon : d.host.cfg.ctoOff = false) (hdue : q.sent + ctoNs d.host.cfg.ctoSub ≤ d.now) :
    d.completionTimeout tag = (((((d.dropReq tag).errorMessage 1).bump R.HOST_CNT0 F.HOST_CNT0_CTO_CNT 1).hostErr 0).modHost fun x =>
      { x with quar := x.quar ++ [(tag, d.now + 2 * ctoNs d.host.cfg.ctoSub)] }).failReq q := by
  have hlate : ¬ (d.host.cfg.ctoOff = true ∨ d.now < q.sent + ctoNs d.host.cfg.ctoSub) := by simp [hon, hdue]
  simp only [Dev.completionTimeout, hfind, if_neg hlate]

theorem completionTimeout_of_early (hearly : d.now < q.sent + ctoNs d.host.cfg.ctoSub) : d.completionTimeout tag = d := by
  simp only [Dev.completionTimeout, hfind]
  exact if_pos (.inr hearly)

end

end

/-! The link (R513, R542). -/

section
variable {d : Dev} {rate width : Nat} {flit : Bool}

theorem enterL0_of_l0 (hperst : d.host.perst = false) (hl0 : d.host.l0 = true) :
    d.enterL0 rate width flit = (d.modHost fun x =>
      { x with ltssm := true, l1 := false, dlUp := true, l0 := true, rate := rate, width := width, flit := flit }).disarm .recovery := by
  simp [Dev.enterL0, hperst, hl0]

theorem enterL0_of_not_l0 (hperst : d.host.perst = false) (hl0 : d.host.l0 = false) :
    d.enterL0 rate width flit = ((d.modHost fun x =>
      { x with ltssm := true, l1 := false, dlUp := true, l0 := true, rate := rate, width := width, flit := flit }).disarm
        .recovery).linkEvent.hostResume := by
  simp [Dev.enterL0, hperst, hl0]

theorem recoveryStart_of_up (hup : d.host.dlUp = true) (hfrom : d.host.ltssm = true ∨ d.host.l1 = true) :
    d.recoveryStart = ((d.modHost fun x => { x with ltssm := false, l1 := false }).bump R.HOST_CNT2 F.HOST_CNT2_RECOVERY_CNT 1).arm
      .recovery (d.now + 1000000) := if_pos ⟨hup, hfrom⟩

theorem recoveryTimeout_of_due (hdue : d.due .recovery = true) (hl0 : d.host.l0 = true) :
    d.recoveryTimeout = ((d.disarm .recovery).modHost fun x => { x with l0 := false }).linkEvent := by
  have hstill : (d.disarm .recovery).host.l0 = true := hl0
  simp only [Dev.recoveryTimeout, Dev.leaveL0, hdue, hstill, if_true]

theorem recoveryTimeout_of_not_due (hdue : d.due .recovery = false) : d.recoveryTimeout = d := by
  simp [Dev.recoveryTimeout, hdue]

end

/-! Resets and power states of the function (R544 to R547). -/

section
variable {d : Dev} (hperst : d.host.perst = false)
include hperst

section
variable (hup : d.host.dlUp = true) (hflr : d.host.flrBusy = false)
include hup hflr

theorem flr_of_no_requests (hreqs : d.host.reqs = []) :
    d.flr = ((d.modHost fun x => { x with reqs := [], flrBusy := true }).functionReset.hostErr 11).toD0 := by
  simp [Dev.flr, hperst, hup, hflr, hreqs]

theorem dState_of_d0 (hd0 : d.host.d0 = true) :
    d.dState true = (d.toD3.leaveL0.modHost fun x => { x with ltssm := false, l1 := true }).disarm .recovery := by
  simp [Dev.dState, hperst, hup, hflr, hd0]

theorem dState_of_d3 (hd0 : d.host.d0 = false) : d.dState false = d.toD0.hostResume := by
  simp [Dev.dState, hperst, hup, hflr, hd0]

end

theorem perstAssert_of_released :
    d.perstAssert = d.linkDown.toD3.modHost fun x => { x with perst := true, ltssm := false, l1 := false, flrBusy := false } :=
  if_neg (by simp [hperst])

end

theorem perstDeassert_of_asserted {d : Dev} (hperst : d.host.perst = true) :
    d.perstDeassert = ((d.modHost fun x => { x with perst := false }).functionReset).toD0 := if_pos hperst

/-- Settles O38: each clause is a branch of the function that its command applies to the device; the windows go by induction over them. -/
theorem hostLinkAndFunction : Obligations.HostLinkAndFunction := by
  unfold Obligations.HostLinkAndFunction
  refine ⟨?config, ?configRetry, ?apply, ?unknown, ?descData, ?timeout, ?early, ?unmask, ?intx, ?stillL0, ?enterL0, ?recovery, ?recovered,
    ?notRecovered, ?down, ?isDown, ?flr, ?flrDone, ?toD3, ?toD0, ?perst, ?perstEnd⟩
  case config => exact fun d i hperst hup hflr => (runs_configWrite d i).to_eq (configWrite_of_taken hperst hup hflr)
  case configRetry => exact fun d i hperst hup hflr => (runs_configWrite d i).to_eq (configWrite_of_reset hperst hup hflr)
  case apply =>
    refine fun d v hv hnone => ⟨_, (runs_winApply d v).to_eq (winApply_of_idle hv hnone), rfl, rfl, fun w => ?_⟩
    rw [rd_congr (modHost_regs _ _), Dev.sb, Dev.sf, rd_wr_ne _ _ (win_ne_winStatus w)]
    exact win_useShadows d 16 w.isLt w.isLt
  case unknown =>
    exact fun d tag co hdr hfind => (runs_completionReceive d tag co hdr).to_eq (completionIn_of_unknown co hdr hfind)
  case descData =>
    exact fun d tag q r n bytes hdr hfind hkind hlen =>
      (runs_completionReceive d tag _ hdr).to_eq (completionIn_of_desc_data hfind hdr hkind hlen)
  case timeout =>
    exact fun d tag q hfind hon hdue => (runs_completionTimeout d tag).to_eq (completionTimeout_of_due hfind hon hdue)
  case early =>
    exact fun d tag q hfind hearly => (runs_completionTimeout d tag).to_eq (completionTimeout_of_early hfind hearly)
  case unmask =>
    rintro d v _ rfl
    exact runs_msixUnmask d v
  case intx => exact runs_intxPendWrite
  case stillL0 =>
    exact fun d rate width flit hperst hl0 => (runs_linkEnterL0 d rate width flit).to_eq (enterL0_of_l0 hperst hl0)
  case enterL0 =>
    exact fun d rate width flit hperst hl0 => (runs_linkEnterL0 d rate width flit).to_eq (enterL0_of_not_l0 hperst hl0)
  case recovery => exact fun d hup hfrom => (runs_linkRecoveryStart d).to_eq (recoveryStart_of_up hup hfrom)
  case recovered => exact fun d hdue hl0 => (runs_linkRecoveryTimeout d).to_eq (recoveryTimeout_of_due hdue hl0)
  case notRecovered => exact fun d hdue => (runs_linkRecoveryTimeout d).to_eq (recoveryTimeout_of_not_due hdue)
  case down => exact fun d hup => (runs_dataLinkDown d).to_eq (if_pos hup)
  case isDown => exact fun d hdown => (runs_dataLinkDown d).to_eq (if_neg (by simp [hdown]))
  case flr =>
    rintro d _ hperst hup hflr hreqs rfl
    exact (runs_functionLevelReset d).to_eq (flr_of_no_requests hperst hup hflr hreqs)
  case flrDone => exact runs_flrDone
  case toD3 =>
    exact fun d hperst hup hflr hd0 => (runs_dStateChange d true).to_eq (dState_of_d0 hperst hup hflr hd0)
  case toD0 =>
    exact fun d hperst hup hflr hd0 => (runs_dStateChange d false).to_eq (dState_of_d3 hperst hup hflr hd0)
  case perst => exact fun d hperst => (runs_perstAssert d).to_eq (perstAssert_of_released hperst)
  case perstEnd => exact fun d hperst => (runs_perstDeassert d).to_eq (perstDeassert_of_asserted hperst)

/-- Settles O54: the branch of the failing status. -/
theorem failedCompletionFailsRequest : Obligations.FailedCompletionFailsRequest :=
  fun d tag _ hdr hfind => (runs_completionReceive d tag .failed hdr).to_eq (completionIn_of_failed hfind hdr)

/-! Poisoned writes (R516). -/

theorem hostStore_of_poisoned {d : Dev} {off : Nat} {bs : List Byte} (rid : Nat) (b : Fin 3) (hdr : List Byte)
    (hl0 : d.host.l0 = true) (hgood : d.tlpMalformed off bs.length true = false) (htakes : d.takesRequests = true) :
    d.hostStore rid (some b) off bs true hdr =
      ((((d.count R.HOST_RX_SEQ whole 1).bump R.HOST_CNT1 F.HOST_CNT1_POISON_RX_CNT 1).hostErr 3).errorMessage 1).logHeader hdr := by
  simp [Dev.hostStore, hl0, hgood, htakes]

/-- Settles O53: a poisoned write ends before its BAR is looked at. -/
theorem poisonedWriteIsDropped : Obligations.PoisonedWriteIsDropped :=
  fun d rid off b bs hdr hl0 hgood htakes =>
    (runs_hostMemWrite d rid off (some b) bs hdr true).to_eq (hostStore_of_poisoned rid b hdr hl0 hgood htakes)

end Sys2Proof.Machine
end

section
/-! Scope: the fabric's ports (R557 to R565): training, taps, markers and control units. Each command by its function on the device, and
that function by its branches. -/

namespace Sys2Proof.Machine

/-! The commands. -/

section
variable (d : Dev) (p : Fin 4)

theorem runs_fabEnable (v : Word) : Runs (.fabEnable v) d (d.fabCfgWrite v) := fun _ => rfl

theorem runs_fabPortEnable (v : Word) : Runs (.fabPortEnable p v) d (d.fabPortCfgWrite p v) := fun _ => rfl

theorem runs_fabTrainPhaseDone : Runs (.fabTrainPhaseDone p) d (d.trainPhase p) := fun _ => rfl

theorem runs_fabTrainTimeout : Runs (.fabTrainTimeout p) d (d.trainFail p) := fun _ => rfl

theorem runs_fabBackoffEnd : Runs (.fabBackoffEnd p) d (d.backoffEnd p) := fun _ => rfl

theorem runs_fabLockLoss : Runs (.fabLockLoss p) d (d.portRetrain p) := fun _ => rfl

theorem runs_fabTapRequest (lane pre post preset : Fin 4) :
    Runs (.fabTapRequest p lane pre post preset) d (d.tapRequest p lane pre post preset) := fun _ => rfl

theorem runs_fabMarker (bip : Nat) (deskewed : Bool) (a l : Int) :
    Runs (.fabMarker p bip deskewed a l) d (d.marker p bip deskewed a l) := fun _ => rfl

theorem runs_fabControlUnitRx (good : Bool) (ack : Nat) (nak : Bool) (cr : List Nat) :
    Runs (.fabControlUnitRx p good ack nak cr) d (d.controlUnit p good ack nak cr) := fun _ => rfl

end

/-! The fabric's and the ports' EN (R563, R565). -/

section
variable {d : Dev} {v : Word} {p : Nat}

theorem fabCfgWrite_of_rise (hoff : d.b R.FAB_CFG F.FAB_CFG_EN = false)
    (hon : (d.plainWrite R.FAB_CFG v).b R.FAB_CFG F.FAB_CFG_EN = true) :
    d.fabCfgWrite v = (List.range 4).foldl (fun (y : Dev) p => y.portEnable p)
      ((d.plainWrite R.FAB_CFG v).modFab fun f => { f with state := .alone, stateAt := d.now, lostAt := some d.now }) := by
  simp only [Dev.fabCfgWrite, hoff, hon, Bool.not_false, Bool.and_self, if_true]

theorem fabCfgWrite_of_kept (hsame : d.b R.FAB_CFG F.FAB_CFG_EN = (d.plainWrite R.FAB_CFG v).b R.FAB_CFG F.FAB_CFG_EN) :
    d.fabCfgWrite v = (List.range 4).foldl (fun (y : Dev) p => y.portEnable p) (d.plainWrite R.FAB_CFG v) := by
  simp only [Dev.fabCfgWrite, hsame, Bool.and_not_self, Bool.false_eq_true, if_false]

theorem portEnable_of_wanted (hfab : d.b R.FAB_CFG F.FAB_CFG_EN = true) (hport : d.b (R.FAB_PORT_CFG p) F.FAB_PORT_CFG_EN = true)
    (hact : d.pwr.state = .active) (hoff : (d.fport p).state = .off) : d.portEnable p = d.portTrain p := by
  simp [Dev.portEnable, hfab, hport, hact, hoff]

theorem portEnable_of_not_wanted (hport : d.b (R.FAB_PORT_CFG p) F.FAB_PORT_CFG_EN = false) (hon : (d.fport p).state ≠ .off) :
    d.portEnable p = d.portOff p := by
  simp [Dev.portEnable, hport, hon]

end

/-! Training (R563). -/

section
variable {d : Dev} {p : Nat}

section
variable (htrain : (d.fport p).state = .train)
include htrain

theorem trainPhase_of_early (hphase : (d.fport p).phase < 2) :
    d.trainPhase p = d.setFport p { d.fport p with phase := (d.fport p).phase + 1, locked := 15 } := by
  have hlt : (d.fport p).phase < 3 := by omega
  have hne : (d.fport p).phase ≠ 2 := by omega
  simp [Dev.trainPhase, htrain, hlt, hne]

/-- The device with port `p` UP and its training's state at rest. -/
def Dev.portUp (p : Nat) (d : Dev) : Dev :=
  (d.setFport p { d.fport p with state := .up, phase := 0, back := 0, credit := [128, 384, 512, 1024] }).modFab fun f =>
    { f with lostAt := none }

theorem trainPhase_of_last (hphase : 3 ≤ (d.fport p).phase) :
    d.trainPhase p = if d.fab.state = .alone then
      (d.portUp p).modFab fun f => { f with state := .joining, stateAt := d.now, claimAt := none, claims := [] } else d.portUp p := by
  have hlast : ¬ (d.fport p).phase < 3 := Nat.not_lt.mpr hphase
  simp only [Dev.trainPhase, htrain, ne_eq, not_true, if_false, hlast]
  rfl

theorem trainFail_of_due (hdue : (d.fport p).since + 100000000 ≤ d.now) :
    d.trainFail p = (((d.setFport p { d.fport p with state := .down, phase := 0, since := d.now, locked := 0 }).bump
      (R.FAB_PORT_CNT1 p) F.FAB_PORT_CNT1_TRAIN_FAIL_CNT 1).fabErr 1).fabErr 0 := if_neg (by simp [htrain, hdue])

end

theorem trainFail_of_early (hearly : d.now < (d.fport p).since + 100000000) : d.trainFail p = d := if_pos (.inr hearly)

theorem backoffEnd_of_due (hdown : (d.fport p).state = .down) (hdue : (d.fport p).since + 100000000 * 2 ^ (d.fport p).back ≤ d.now) :
    d.backoffEnd p = (d.setFport p { d.fport p with back := min 5 ((d.fport p).back + 1) }).portTrain p :=
  if_neg (by simp [hdown, hdue])

theorem portRetrain_of_up (hup : (d.fport p).state = .up) :
    d.portRetrain p = ((d.portLeave p).portTrain p).bump (R.FAB_PORT_CNT1 p) F.FAB_PORT_CNT1_RETRAIN_CNT 1 :=
  if_neg (not_not.mpr hup)

theorem portRetrain_of_not_up (h : (d.fport p).state ≠ .up) : d.portRetrain p = d := if_pos h

theorem fport_portUp_state (p : Nat) (d : Dev) : ((d.portUp p).fport p).state = .up := by
  simp [Dev.portUp, Dev.fport, Dev.setFport, Dev.modFab]

end

/-! Taps (R564). -/

/-- The taps of a lane are set to the first of `pre` and of `post`, and their statuses, the second, are answered. -/
def Dev.tapsTo (p lane : Nat) (pre post : Nat × Nat) (d : Dev) : Dev :=
  (d.setFport p { d.fport p with taps := (d.fport p).taps.set lane (pre.1, post.1) }).emit
    (.fabTaps p lane pre.2 post.2 pre.1 post.1)

section
variable {d : Dev} {p lane : Nat} (htrain : (d.fport p).state = .train) (hphase : (d.fport p).phase = 1)
include htrain hphase

theorem tapRequest_of_steps {t : Nat × Nat} (pre post : Nat) (ht : (d.fport p).taps.getD lane (0, 0) = t) :
    d.tapRequest p lane pre post 0 =
      d.tapsTo p lane (tapStep t.1 t.2 7 pre) (tapStep t.2 (tapStep t.1 t.2 7 pre).1 15 post) := by
  subst ht
  exact if_neg (by simp [htrain, hphase])

theorem tapRequest_of_preset3 (pre post : Nat) : d.tapRequest p lane pre post 3 = d.tapsTo p lane (2, 1) (10, 1) :=
  if_neg (by simp [htrain, hphase])

end

/-! Markers and control units (R557, R558, R562). -/

section
variable {d : Dev} {p : Nat}

/-- The device with a marker of port `p` counted. -/
def Dev.markerCounted (p bip : Nat) (d : Dev) : Dev :=
  (d.bump (R.FAB_PORT_CNT2 p) F.FAB_PORT_CNT2_BIP_CNT bip).setFport p
    { d.fport p with markers := ((d.fport p).markers + 1) % 65536 }

theorem marker_of_deskewed (bip : Nat) (a l : Int) (hup : (d.fport p).state = .up) (hfourth : ((d.fport p).markers + 1) % 4 ≠ 0) :
    d.marker p bip true a l = d.markerCounted p bip := by
  simp [Dev.marker, Dev.markerCounted, hup, hfourth]

theorem marker_of_not_deskewed (bip : Nat) (a l : Int) (hup : (d.fport p).state = .up) :
    d.marker p bip false a l = (d.markerCounted p bip).portRetrain p := by
  simp [Dev.marker, Dev.markerCounted, hup]

/-- Credit in units of each class after some is returned. -/
def FabPort.creditPlus (cr : List Nat) (x : FabPort) : List Nat := (List.range 4).map (fun k => x.credit.getD k 0 + cr.getD k 0)

theorem controlUnit_of_not_up (good nak : Bool) (ack : Nat) (cr : List Nat) (h : (d.fport p).state ≠ .up) :
    d.controlUnit p good ack nak cr = d := if_pos h

section
variable (ack : Nat) (cr : List Nat) (hup : (d.fport p).state = .up) (hack : (d.fport p).unacked = []) (hqueue : (d.fport p).queue = [])
include hup hack hqueue

theorem controlUnit_of_credit :
    d.controlUnit p true ack false cr = d.setFport p { d.fport p with credit := (d.fport p).creditPlus cr } := by
  simp [Dev.controlUnit, FabPort.creditPlus, hup, hack, hqueue, Dev.portPump]

theorem controlUnit_of_nak (hfew : (d.fport p).replays < 7) :
    d.controlUnit p true ack true cr =
      ((d.setFport p { d.fport p with credit := (d.fport p).creditPlus cr, replays := (d.fport p).replays + 1 }).bump
        (R.FAB_PORT_CNT0 p) F.FAB_PORT_CNT0_REPLAY_CNT 1).fabErr 2 := by
  have hnot : ¬ 7 ≤ (d.fport p).replays := Nat.not_le.mpr hfew
  simp [Dev.controlUnit, FabPort.creditPlus, hup, hack, hqueue, hnot, Dev.portPump]

end

end

/-- Settles O39: each clause is a branch of the function that its command applies to the device. -/
theorem fabricPortsTrainAndReplay : Obligations.FabricPortsTrainAndReplay := by
  unfold Obligations.FabricPortsTrainAndReplay
  refine ⟨?enable, ?kept, ?portOn, ?portOff, ?phase, ?up, ?upAlone, ?fails, ?notYet, ?backoff, ?lockLoss, ?noLockLoss, ?taps, ?preset,
    ?marker, ?skewed, ?credit, ?nak, ?notUp⟩
  case enable =>
    rintro d _ v rfl hoff hon
    exact (runs_fabEnable d v).to_eq (fabCfgWrite_of_rise hoff hon)
  case kept =>
    rintro d _ v rfl hsame
    exact (runs_fabEnable d v).to_eq (fabCfgWrite_of_kept hsame)
  case portOn =>
    rintro d _ p v rfl hfab hport hact hoff
    exact (runs_fabPortEnable d p v).to_eq (portEnable_of_wanted hfab hport hact hoff)
  case portOff =>
    rintro d _ p v rfl hport hon
    exact (runs_fabPortEnable d p v).to_eq (portEnable_of_not_wanted hport hon)
  case phase =>
    rintro d p _ rfl htrain hphase
    exact (runs_fabTrainPhaseDone d p).to_eq (trainPhase_of_early htrain hphase)
  case up =>
    rintro d p _ rfl htrain hphase hjoined
    exact (runs_fabTrainPhaseDone d p).to_eq ((trainPhase_of_last htrain hphase).trans (if_neg hjoined))
  case upAlone =>
    rintro d p _ rfl htrain hphase halone
    refine ⟨_, (runs_fabTrainPhaseDone d p).to_eq ((trainPhase_of_last htrain hphase).trans (if_pos halone)), rfl, rfl, ?_⟩
    exact fport_portUp_state p d
  case fails =>
    rintro d p _ rfl htrain hdue
    exact (runs_fabTrainTimeout d p).to_eq (trainFail_of_due htrain hdue)
  case notYet =>
    rintro d p _ rfl hearly
    exact (runs_fabTrainTimeout d p).to_eq (trainFail_of_early hearly)
  case backoff =>
    rintro d p _ rfl hdown hdue
    exact (runs_fabBackoffEnd d p).to_eq (backoffEnd_of_due hdown hdue)
  case lockLoss => exact fun d p hup => (runs_fabLockLoss d p).to_eq (portRetrain_of_up hup)
  case noLockLoss => exact fun d p h => (runs_fabLockLoss d p).to_eq (portRetrain_of_not_up h)
  case taps =>
    rintro d p lane _ t pre post rfl htrain hphase ht
    exact (runs_fabTapRequest d p lane pre post 0).to_eq (tapRequest_of_steps htrain hphase pre post ht)
  case preset =>
    rintro d p lane _ pre post rfl htrain hphase
    exact (runs_fabTapRequest d p lane pre post 3).to_eq (tapRequest_of_preset3 htrain hphase pre post)
  case marker =>
    exact fun d p bip a l hup hfourth => (runs_fabMarker d p bip true a l).to_eq (marker_of_deskewed bip a l hup hfourth)
  case skewed => exact fun d p bip a l hup => (runs_fabMarker d p bip false a l).to_eq (marker_of_not_deskewed bip a l hup)
  case credit =>
    rintro d p _ ack cr rfl hup hack hqueue
    exact (runs_fabControlUnitRx d p true ack false cr).to_eq (controlUnit_of_credit ack cr hup hack hqueue)
  case nak =>
    rintro d p _ ack cr rfl hup hack hqueue hfew
    exact (runs_fabControlUnitRx d p true ack true cr).to_eq (controlUnit_of_nak ack cr hup hack hqueue hfew)
  case notUp =>
    rintro d p _ ack nak cr rfl h
    exact (runs_fabControlUnitRx d p true ack nak cr).to_eq (controlUnit_of_not_up true nak ack cr h)

end Sys2Proof.Machine
end

section
/-! Scope: fabric membership, roles, epochs, requests and time (R565 to R579): each command by its function on the device, and that
function by its branches. -/

namespace Sys2Proof.Machine

/-! The commands. -/

section
variable (d : Dev) (p : Fin 4) (src hops dst : Nat)

theorem runs_fabHelloRx (h : FabHello) : Runs (.fabHelloRx p h) d (d.helloIn p h) := fun _ => rfl

theorem runs_fabRootRx (r : FabRoot) : Runs (.fabRootRx p src hops r) d (d.rootIn p (headOf src hops true 0 (.root r)) r) := fun _ => rfl

theorem runs_fabClaimRx (k : FabClaim) : Runs (.fabClaimRx p src hops k) d (d.claimIn p (headOf src hops true 0 (.claim k)) k) :=
  fun _ => rfl

theorem runs_fabAssignRx (a : FabAssign) : Runs (.fabAssignRx p src hops a) d (d.assignIn p (headOf src hops true 0 (.assign a)) a) :=
  fun _ => rfl

theorem runs_fabKeepaliveRx (k : FabKeepalive) :
    Runs (.fabKeepaliveRx p src hops dst k) d (d.keepaliveIn p (headOf src hops false dst (.keepalive k)) k) := fun _ => rfl

theorem runs_fabSyncRx (t2 t3 : Int) : Runs (.fabSyncRx p t2 t3) d (d.syncIn p t2 t3) := fun _ => rfl

theorem runs_fabFenceRx : Runs (.fabFenceRx p src hops dst) d (d.fenceIn p (headOf src hops false dst .fence)) := fun _ => rfl

theorem runs_fabRootAnnounce : Runs .fabRootAnnounce d d.rootAnnounce := fun _ => rfl

theorem runs_fabKeepaliveSend : Runs .fabKeepaliveSend d d.keepaliveSend := fun _ => rfl

theorem runs_fabClaimStart : Runs .fabClaimStart d d.claimStart := fun _ => rfl

theorem runs_fabElectionEnd : Runs .fabElectionEnd d d.electionEnd := fun _ => rfl

theorem runs_fabRootTimeout : Runs .fabRootTimeout d d.rootTimeout := fun _ => rfl

theorem runs_fabMemberTimeout (a : Fin 64) : Runs (.fabMemberTimeout a) d (d.memberTimeout a) := fun _ => rfl

theorem runs_fabReqTimeout (t : Nat) : Runs (.fabReqTimeout t) d (d.fabReqTimeout t) := fun _ => rfl

theorem runs_fabTxidQuarantineEnd (t : Nat) : Runs (.fabTxidQuarantineEnd t) d (d.fabQuarEnd t) := fun _ => rfl

theorem runs_fabTimeSync (t1 t4 : Int) : Runs (.fabTimeSync t1 t4) d (d.timeSync t1 t4) := fun _ => rfl

theorem runs_fabTimePulse : Runs .fabTimePulse d d.timePulse := fun _ => rfl

theorem runs_clearSpare : Runs .clearSpare d d.clearSpare := fun _ => rfl

theorem runs_timeCap : Runs .timeCap d d.timeCap := fun _ => rfl

end

theorem runs_fabTimeCap {d d1 : Dev} {a : Act} (h : d.activate Task.fabTimeCap = (some a, d1)) : Runs .fabTimeCap d d1.timeCap := by
  intro q
  change execFabTimeCap _ = _
  simp only [execFabTimeCap, run_next, h]

/-! HELLO (R566, R570). -/

section
variable {d : Dev} {p : Nat} (h : FabHello)

/-- The device with the neighbour that a HELLO on port `p` names. -/
def Dev.neighbourKnown (p : Nat) (h : FabHello) (d : Dev) : Dev :=
  d.setFport p { d.fport p with peer := h.serial, peerAddr := h.addr.getD 0, peerPort := h.port }

theorem helloIn_of_up (hup : (d.fport p).state = .up) :
    d.helloIn p h = if d.fencedBy h.rootEp h.sinkEp then (d.neighbourKnown p h).fabFence else d.neighbourKnown p h :=
  if_neg (not_not.mpr (.inl hup))

theorem fencedBy_of_none {root sink : Nat} (hroot : d.fab.heldRoot = none) (hsink : d.fab.heldSink = none) :
    d.fencedBy root sink = false := by
  simp [Dev.fencedBy, hroot, hsink]

theorem fencedBy_of_newer_sink {root sink e : Nat} (hsink : d.fab.heldSink = some e) (hnew : epochNewer sink e = true) :
    d.fencedBy root sink = true := by
  simp [Dev.fencedBy, hsink, hnew]

end

/-! Packets that arrive: ROOT, CLAIM, ASSIGN, KEEPALIVE, SYNC and FENCE (R566 to R570, R576). -/

section
variable {d : Dev} {p : Nat} (q : FabPacket)

theorem rootIn_of_own {r : FabRoot} (hown : r.serial = serial) : d.rootIn p q r = (d.fabArrive p).2 := if_pos (.inr (.inr hown))

theorem fenceIn_of_arrived (harrive : (d.fabArrive p).1 = true) : d.fenceIn p q =
    if d.fab.addr = some q.dst then (d.fabArrive p).2.fabFence else (d.fabArrive p).2.fabForward p q := if_neg (by simp [harrive])

variable (harrive : (d.fabArrive p).1 = true)
include harrive

/-- A device that knows no root follows the one that announces itself. -/
theorem rootIn_of_unknown {r : FabRoot} (hon : d.fab.state ≠ .off) (hother : r.serial ≠ serial)
    (hnot : (d.fabArrive p).2.fab.root = false) (hnone : (d.fabArrive p).2.fab.rootAddr = none) :
    d.rootIn p q r = ((d.fabArrive p).2.follow p q r).fabForward p q := by
  simp [Dev.rootIn, harrive, hon, hother, hnot, hnone]

theorem claimIn_of_new {k : FabClaim} (hnot : d.fab.root = false) (hnew : d.fab.claims.contains k = false) :
    d.claimIn p q k = ((d.fabArrive p).2.modFab fun f => { f with claims := f.claims ++ [k] }).fabForward p q :=
  if_neg (by simp only [harrive, hnot, hnew]; decide)

section
variable {a : FabAssign} (hmine : a.serial = serial) (hplain : a.conflict = false)
include hmine hplain

theorem assignIn_of_address {x : Nat} (haddr : a.addr = some x) :
    d.assignIn p q a = ((d.fabArrive p).2.setRoutes a.routes a.tree).modFab fun f =>
      { f with addr := some x, state := if f.state = .joining then .member else f.state, joined := true } := by
  simp [Dev.assignIn, harrive, hmine, hplain, haddr]

theorem assignIn_of_refusal (haddr : a.addr = none) : d.assignIn p q a = (d.fabArrive p).2.fabErr 9 := by
  simp [Dev.assignIn, harrive, hmine, hplain, haddr]

end

theorem keepaliveIn_of_not_root {k : FabKeepalive} (hnot : d.fab.root = false) :
    d.keepaliveIn p q k = (d.fabArrive p).2.portPut d.fab.upPort { q with hops := q.hops + 1 } := by
  simp [Dev.keepaliveIn, harrive, hnot]

theorem syncIn_of_upstream {t2 t3 : Int} (hup : d.fab.upPort = p) :
    d.syncIn p t2 t3 = (d.fabArrive p).2.modFab fun f => { f with stamps := some (t2, t3) } := by
  simp [Dev.syncIn, harrive, hup]

end

/-- A member as its root records its KEEPALIVE. -/
def FabMember.refreshed (now : Nat) (k : FabKeepalive) (m : FabMember) : FabMember :=
  { m with sinkPrio := k.sinkPrio, spare := k.spare, dead := false, lastAt := now, links := k.links }

/-- The root keeps the record of a member whose links have not changed. -/
theorem keepaliveIn_of_member {d d1 : Dev} {p a : Nat} (q : FabPacket) {k : FabKeepalive} {m : FabMember}
    (harrive : d.fabArrive p = (true, d1)) (hroot : d.fab.root = true)
    (hfind : d1.fab.table.find? (fun m => m.serial == k.serial) = some m) (hlinks : m.links = k.links) (halive : m.dead = false)
    (hsink : d1.fab.sinkAddr = some a) :
    d.keepaliveIn p q k = d1.modFab fun g =>
      { g with table := g.table.map (fun y => if y.serial = k.serial then m.refreshed d.now k else y) } := by
  simp [Dev.keepaliveIn, Dev.modFab, FabMember.refreshed, harrive, hroot, hfind, hlinks, halive, hsink]

/-! What a device sends by itself: announcements, KEEPALIVE and claims (R566, R569). -/

section
variable {d : Dev}

theorem rootAnnounce_of_same (hroot : d.fab.root = true)
    (hsame : d.fab.table.any (fun m => m.serial == serial && m.links == (d.selfMember d.fabAddr).links) = true) :
    d.rootAnnounce = d.flood (.root { serial := serial, prio := d.f R.FAB_CFG F.FAB_CFG_ROOT_PRIO, rootEp := d.fab.rootEp,
                                      sinkEp := d.fab.sinkEp, sinkAddr := d.fab.sinkAddr, members := d.fab.members }) := by
  simp only [Dev.rootAnnounce, hroot, hsame, Bool.not_true, Bool.false_eq_true, if_false, if_true]

theorem rootAnnounce_of_not_root (hnot : d.fab.root = false) : d.rootAnnounce = d := if_pos (by simp [hnot])

/-- The KEEPALIVE of a device. -/
def Dev.ownKeepalive (d : Dev) : FabKeepalive :=
  { serial := serial, addr := d.fab.addr, pref := (d.hello d.fab.upPort).pref, sinkPrio := (d.hello d.fab.upPort).sinkPrio,
    spare := d.fab.state == .spare, links := (d.selfMember 0).links }

theorem keepaliveSend_of_root_known {a : Nat} (hnot : d.fab.root = false) (hroot : d.fab.rootAddr = some a) (hon : d.fab.state ≠ .off)
    (hjoined : d.fab.state ≠ .alone) :
    d.keepaliveSend = d.portPut d.fab.upPort (d.fabPacket a false 0 0 (.keepalive d.ownKeepalive)) := by
  simp [Dev.keepaliveSend, Dev.ownKeepalive, hnot, hroot, hon, hjoined]

theorem claimStart_of_due (hjoin : d.fab.state = .joining) (hnone : d.fab.rootAddr = none) (hdue : d.fab.stateAt + 3000000 ≤ d.now)
    (hprio : d.f R.FAB_CFG F.FAB_CFG_ROOT_PRIO ≠ 0) (hfirst : d.fab.claimAt = none) :
    d.claimStart = (d.modFab fun f => { f with claimAt := some d.now, claims := f.claims ++ [d.ownClaim] }).flood (.claim d.ownClaim) := by
  simp [Dev.claimStart, Dev.claimNow, hjoin, hnone, hdue, hprio, hfirst]

theorem claimStart_of_early (hearly : d.now < d.fab.stateAt + 3000000) : d.claimStart = d :=
  if_neg fun h => absurd h.2.2 (Nat.not_le.mpr hearly)

end

/-! The election (R566). -/

section
variable {d : Dev} {t : Nat} (hclaim : d.fab.claimAt = some t) (hdue : t + 3000000 ≤ d.now)
include hclaim hdue

theorem electionEnd_of_beaten
    (hbeaten : (d.fab.claims.filter (fun c => c.prio != 0)).any (fun c => claimBetter c.prio c.serial d.ownClaim.prio serial) = true) :
    d.electionEnd = d.modFab fun f => { f with claimAt := none, claims := [] } := by
  have hover : ¬ d.now < t + 3000000 := Nat.not_lt.mpr hdue
  simp only [Dev.electionEnd, hclaim, if_neg hover, hbeaten, if_true]

/-- A claim that stands alone wins, whether or not its own priority lets it claim. -/
theorem electionEnd_of_alone (halone : d.fab.claims = [d.ownClaim]) (hnewest : epochNewer d.ownClaim.rootEp d.fab.rootEp = false) :
    d.electionEnd = d.becomeRoot ((d.fab.rootEp + 1) % 65536) := by
  have hover : ¬ d.now < t + 3000000 := Nat.not_lt.mpr hdue
  have hself : claimBetter d.ownClaim.prio d.ownClaim.serial d.ownClaim.prio serial = false := by
    simp [claimBetter, Dev.ownClaim]
  by_cases hprio : d.ownClaim.prio = 0
  · simp [Dev.electionEnd, hclaim, hover, halone, hprio]
  · simp [Dev.electionEnd, hclaim, hover, halone, hprio, hself, hnewest]

end

/-! Timeouts (R565, R569, R573). -/

section
variable {d : Dev}

theorem rootTimeout_of_lost {t : Nat} (hon : d.fab.state ≠ .off) (hjoined : d.fab.state ≠ .alone) (hlost : d.fab.lostAt = some t)
    (hdue : t + d.rootTmo ≤ d.now) :
    d.rootTimeout = d.modFab fun g =>
      { g with state := .alone, stateAt := d.now, root := false, sink := false, rootAddr := none, sinkAddr := none, claimAt := none,
               claims := [], table := [] } := by
  simp [Dev.rootTimeout, hon, hjoined, hlost, hdue]

theorem rootTimeout_of_silent_root (hmember : d.fab.state = .member) (hnot : d.fab.root = false) (hlinked : d.fab.lostAt = none)
    (hdue : d.fab.rootAt + d.rootTmo ≤ d.now) : d.rootTimeout = (d.modFab fun g => { g with rootAddr := none }).claimNow := by
  simp [Dev.rootTimeout, hmember, hnot, hlinked, hdue]

theorem memberTimeout_of_due {a : Nat} {m : FabMember} (hroot : d.fab.root = true)
    (hfind : d.fab.table.find? (fun m => m.addr == a && !m.dead && m.serial != serial) = some m)
    (hdue : m.lastAt + d.fabTmo F.FAB_TMO_MEMBER_TMO * 1000000 ≤ d.now) (hsink : d.fab.sinkAddr ≠ some a) :
    d.memberTimeout a =
      (d.modFab fun f => { f with table := f.table.map (fun y => if y.serial = m.serial then { y with dead := true } else y) }).modFab
        fun f => { f with members := ofBits ((f.table.filter (fun y => !y.dead)).map (fun y => (true, y.addr))) } := by
  have hlate : ¬ d.now < m.lastAt + d.fabTmo F.FAB_TMO_MEMBER_TMO * 1000000 := Nat.not_lt.mpr hdue
  simp only [Dev.memberTimeout, hfind, hroot, hlate, hsink, Bool.not_true, Bool.false_eq_true, or_self, if_false]

theorem fabReqTimeout_of_due {t : Nat} {r : FabReq} (hfind : d.fab.reqs.find? (fun r => r.txid == t) = some r)
    (hdue : r.sent + d.reqTmo ≤ d.now) :
    d.fabReqTimeout t = (((d.modFab fun f => { f with reqs := f.reqs.erase r, quar := f.quar ++ [(t, d.now + 2 * d.reqTmo)] }).bump
      R.FAB_CNT0 F.FAB_CNT0_REQ_TMO_CNT 1).fabErr 5).fabUseFail r.use := by
  simp only [Dev.fabReqTimeout, hfind]
  exact if_neg (Nat.not_lt.mpr hdue)

end

/-! Time (R576 to R579). -/

/-- The delay that an exchange measures. -/
def Dev.syncDelay (t1 t2 t3 t4 : Int) (d : Dev) : Int :=
  ((t4 - t1) - (t3 - t2) + ((d.rd (R.FAB_PORT_CFG d.fab.upPort)).extractLsb' 0 16).toInt) / 2

/-- The exchanges in a row within 500 ps, and those beyond 1 ns, after one with offset `ofs`. -/
def FabSt.goodAfter (ofs : Int) (f : FabSt) : Nat := if ofs.natAbs < 500 then f.good + 1 else 0

def FabSt.badAfter (ofs : Int) (f : FabSt) : Nat := if 1000 < ofs.natAbs then f.bad + 1 else 0

/-- The fabric's time after an exchange with offset `ofs` (R577, R578). -/
def FabSt.timed (ofs : Int) (f : FabSt) : FabSt :=
  { f with
    ofs := ofs
    good := f.goodAfter ofs
    bad := f.badAfter ofs
    locked := if 8 ≤ f.goodAfter ofs then true else if 8 ≤ f.badAfter ofs then false else f.locked
    exchanged := true
    stamps := none
    rate := max (-100000) (min 100000 (Config.fabSlew ofs f.rate)) }

theorem timed_rate_bounds (ofs : Int) (f : FabSt) : -100000 ≤ (f.timed ofs).rate ∧ (f.timed ofs).rate ≤ 100000 := by
  unfold FabSt.timed
  dsimp only
  omega

section
variable {d : Dev}

/-- An exchange whose offset is within 1 us corrects the rate and does not step. -/
theorem timeSync_of_small {t1 t2 t3 t4 ofs : Int} (hstamps : d.fab.stamps = some (t2, t3)) (hnot : d.fab.root = false)
    (hmember : d.fab.state = .member) (hofs : ofs = t3 + d.syncDelay t1 t2 t3 t4 - t4) (hex : d.fab.exchanged = true)
    (hsmall : ofs.natAbs ≤ 1000000) :
    d.timeSync t1 t4 = (d.modFport d.fab.upPort fun x => { x with delay := (d.syncDelay t1 t2 t3 t4 * 16 / 1000).toNat }).modFab fun g =>
      { d.fab.timed ofs with ports := g.ports } := by
  have hstep : ¬ 1000000 < ofs.natAbs := Nat.not_lt.mpr hsmall
  subst hofs
  unfold Dev.syncDelay at *
  simp only [Dev.timeSync, hstamps, hnot, hmember, hex, hstep, Bool.not_true, Bool.false_eq_true, true_or, not_true, or_self, if_false]
  rfl

theorem timeSync_of_no_stamps (t1 t4 : Int) (hstamps : d.fab.stamps = none) : d.timeSync t1 t4 = d := by
  simp only [Dev.timeSync, hstamps]

theorem timePulse_of_locked (hen : d.f R.FAB_TIME_CFG F.FAB_TIME_CFG_PULSE_EN = 1)
    (hperiod : d.ts % (max 1 (d.f R.FAB_TIME_CFG F.FAB_TIME_CFG_PERIOD) * 1000) = 0) (hlock : d.fab.locked = true) :
    d.timePulse = d.publish Src.fabTime 0 := if_pos ⟨hen, hperiod, .inr hlock⟩

theorem timePulse_of_not_locked (hnot : d.fab.root = false) (hlock : d.fab.locked = false) : d.timePulse = d :=
  if_neg fun h => by simp [hnot, hlock] at h

theorem clearSpare_of_spare (h : d.fab.state = .spare) :
    d.clearSpare = d.modFab fun f => { f with state := .member, stateAt := d.now } := if_pos h

theorem clearSpare_of_not_spare (h : d.fab.state ≠ .spare) : d.clearSpare = d := if_neg h

end

/-- Settles O40: each clause is a branch of the function that its command applies to the device. -/
theorem fabricMembersAgree : Obligations.FabricMembersAgree := by
  unfold Obligations.FabricMembersAgree
  refine ⟨?hello, ?helloFences, ?root, ?ownRoot, ?claim, ?assign, ?assignRefused, ?keepaliveOn, ?keepalive, ?sync, ?fence, ?fenceOn,
    ?announce, ?noAnnounce, ?keepaliveSend, ?claimStart, ?claimEarly, ?beaten, ?elected, ?lost, ?silent, ?member, ?request, ?quarantine,
    ?time, ?noTime, ?pulse, ?noPulse, ?spare, ?notSpare, ?capture, ?captureTask⟩
  case hello =>
    exact fun d p h hup hroot hsink =>
      (runs_fabHelloRx d p h).to_eq ((helloIn_of_up h hup).trans (if_neg (by simp [fencedBy_of_none hroot hsink])))
  case helloFences =>
    exact fun d p h e hup hsink hnew =>
      (runs_fabHelloRx d p h).to_eq ((helloIn_of_up h hup).trans (if_pos (fencedBy_of_newer_sink hsink hnew)))
  case root =>
    exact fun d p src hops r harrive hon hother hnot hnone =>
      (runs_fabRootRx d p src hops r).to_eq (rootIn_of_unknown _ harrive hon hother hnot hnone)
  case ownRoot => exact fun d p src hops r hown => (runs_fabRootRx d p src hops r).to_eq (rootIn_of_own _ hown)
  case claim =>
    exact fun d p src hops k harrive hnot hnew => (runs_fabClaimRx d p src hops k).to_eq (claimIn_of_new _ harrive hnot hnew)
  case assign =>
    exact fun d p src hops x a harrive hmine hplain haddr =>
      (runs_fabAssignRx d p src hops a).to_eq (assignIn_of_address _ harrive hmine hplain haddr)
  case assignRefused =>
    exact fun d p src hops a harrive hmine hplain haddr =>
      (runs_fabAssignRx d p src hops a).to_eq (assignIn_of_refusal _ harrive hmine hplain haddr)
  case keepaliveOn =>
    exact fun d p src hops dst k harrive hnot =>
      (runs_fabKeepaliveRx d p src hops dst k).to_eq (keepaliveIn_of_not_root _ harrive hnot)
  case keepalive =>
    rintro d d1 p src hops dst a k m _ harrive hroot hfind hlinks halive hsink rfl
    exact (runs_fabKeepaliveRx d p src hops dst k).to_eq (keepaliveIn_of_member _ harrive hroot hfind hlinks halive hsink)
  case sync => exact fun d p t2 t3 harrive hup => (runs_fabSyncRx d p t2 t3).to_eq (syncIn_of_upstream harrive hup)
  case fence =>
    exact fun d p src hops dst harrive hmine =>
      (runs_fabFenceRx d p src hops dst).to_eq ((fenceIn_of_arrived _ harrive).trans (if_pos hmine))
  case fenceOn =>
    exact fun d p src hops dst harrive hother =>
      (runs_fabFenceRx d p src hops dst).to_eq ((fenceIn_of_arrived _ harrive).trans (if_neg hother))
  case announce => exact fun d hroot hsame => (runs_fabRootAnnounce d).to_eq (rootAnnounce_of_same hroot hsame)
  case noAnnounce => exact fun d hnot => (runs_fabRootAnnounce d).to_eq (rootAnnounce_of_not_root hnot)
  case keepaliveSend =>
    rintro d a _ hnot hroot hon hjoined rfl
    exact (runs_fabKeepaliveSend d).to_eq (keepaliveSend_of_root_known hnot hroot hon hjoined)
  case claimStart =>
    exact fun d hjoin hnone hdue hprio hfirst => (runs_fabClaimStart d).to_eq (claimStart_of_due hjoin hnone hdue hprio hfirst)
  case claimEarly => exact fun d hearly => (runs_fabClaimStart d).to_eq (claimStart_of_early hearly)
  case beaten =>
    rintro d t hclaim hdue ⟨k, hk, hprio, hbetter⟩
    refine (runs_fabElectionEnd d).to_eq (electionEnd_of_beaten hclaim hdue ?_)
    exact List.any_eq_true.mpr ⟨k, by simp [hk, hprio], by simpa [claimBetter] using hbetter⟩
  case elected =>
    exact fun d t hclaim hdue halone hnewest => (runs_fabElectionEnd d).to_eq (electionEnd_of_alone hclaim hdue halone hnewest)
  case lost =>
    exact fun d t hon hjoined hlost hdue => (runs_fabRootTimeout d).to_eq (rootTimeout_of_lost hon hjoined hlost hdue)
  case silent =>
    exact fun d hmember hnot hlinked hdue => (runs_fabRootTimeout d).to_eq (rootTimeout_of_silent_root hmember hnot hlinked hdue)
  case member =>
    exact fun d a m hroot hfind hdue hsink => (runs_fabMemberTimeout d a).to_eq (memberTimeout_of_due hroot hfind hdue hsink)
  case request => exact fun d t r hfind hdue => (runs_fabReqTimeout d t).to_eq (fabReqTimeout_of_due hfind hdue)
  case quarantine => exact runs_fabTxidQuarantineEnd
  case time =>
    rintro d t1 t2 t3 t4 _ ofs hstamps hnot hmember rfl hofs hex hsmall
    have hsync := timeSync_of_small hstamps hnot hmember hofs hex hsmall
    exact ⟨_, (runs_fabTimeSync d t1 t4).to_eq hsync, rfl, rfl, rfl, rfl, timed_rate_bounds ofs d.fab⟩
  case noTime => exact fun d t1 t4 hstamps => (runs_fabTimeSync d t1 t4).to_eq (timeSync_of_no_stamps t1 t4 hstamps)
  case pulse => exact fun d hen hperiod hlock => (runs_fabTimePulse d).to_eq (timePulse_of_locked hen hperiod hlock)
  case noPulse => exact fun d hnot hlock => (runs_fabTimePulse d).to_eq (timePulse_of_not_locked hnot hlock)
  case spare => exact fun d h => (runs_clearSpare d).to_eq (clearSpare_of_spare h)
  case notSpare => exact fun d h => (runs_clearSpare d).to_eq (clearSpare_of_not_spare h)
  case capture => exact runs_timeCap
  case captureTask => exact fun d d1 a h => runs_fabTimeCap h

end Sys2Proof.Machine
end

section
/-! Scope: requests and responses of fabric peers (R568, R571 to R575) and the ACCESS register of the test port (R611): each command by its
function on the device, and that function by its branches. -/

namespace Sys2Proof.Machine

/-! The commands. -/

section
variable (d : Dev) (p : Fin 4) (q : FabPacket)

theorem runs_fabReadRx : Runs (.fabReadRx p q) d (d.fabReadIn p q) := fun _ => rfl

theorem runs_fabWriteRx : Runs (.fabWriteRx p q) d (d.fabWriteIn p q) := fun _ => rfl

theorem runs_fabResponseRx : Runs (.fabResponseRx p q) d (d.fabResponseIn p q) := fun _ => rfl

theorem runs_jtagAccessGo (v : BitVec 100) : Runs (.jtagAccessGo v) d (d.accessGo v) := fun _ => rfl

theorem runs_jtagAccessDone : Runs .jtagAccessDone d d.accessDone := fun _ => rfl

end

/-! A request that has arrived (R568, R571). -/

section
variable {d d1 : Dev} {p : Nat} {q : FabPacket} {serve : Dev → Acc × List Byte × Dev} (harrive : d.fabArrive p = (true, d1))
include harrive

theorem fabRequestIn_of_mine (hmine : d.fab.addr = some q.dst) : d.fabRequestIn p q serve = d1.fabServe q serve := by
  simp [Dev.fabRequestIn, harrive, hmine]

theorem fabRequestIn_of_other (hother : d.fab.addr ≠ some q.dst) : d.fabRequestIn p q serve = d1.fabForward p q := by
  simp [Dev.fabRequestIn, harrive, hother]

end

section
variable {d : Dev} {q : FabPacket} {serve : Dev → Acc × List Byte × Dev}

theorem fabServe_of_other_epoch (h : q.rootEp ≠ d.fab.rootEp) :
    d.fabServe q serve = d.fabReject q 4 (epochNewer d.fab.rootEp q.rootEp) := if_pos h

theorem fabServe_of_not_sink (hroot : d.fab.rootEp = q.rootEp) (hto : q.sink = true) (hnot : d.fab.sink = false) :
    d.fabServe q serve = d.fabReject q 5 false := by
  simp [Dev.fabServe, hroot, hto, hnot]

/-- A request for no sink, or for the sink that this device is, is made and answered. -/
theorem fabServe_of_served (hroot : d.fab.rootEp = q.rootEp)
    (hsink : q.sink = false ∨ d.fab.sink = true ∧ d.fab.sinkEp = q.sinkEp) :
    d.fabServe q serve =
      (serve d).2.2.fabAnswer q (serve d).1.status (if (serve d).1 = .ok then (serve d).2.1 else []) := by
  rcases hsink with hno | ⟨hyes, hep⟩
  · simp [Dev.fabServe, hroot, hno]
  · simp [Dev.fabServe, hroot, hyes, hep]

end

/-! Reads, writes and responses (R572, R573, R575). -/

/-- How a read request is made. -/
def serveRead (q : FabPacket) (da n : Nat) (y : Dev) : Acc × List Byte × Dev := y.runRead (0x40 + q.src) (y.servedDa da) n

/-- How a write request is made; one for the sink stays within the sink's region. -/
def serveWrite (q : FabPacket) (da : Nat) (bs : List Byte) (y : Dev) : Acc × List Byte × Dev :=
  if q.sink && y.outsideSink (y.servedDa da) bs.length then (Acc.deny, [], y.deny (0x40 + q.src) true (y.servedDa da))
  else ((y.runWrite (0x40 + q.src) (y.servedDa da) bs).1, [], (y.runWrite (0x40 + q.src) (y.servedDa da) bs).2)

section
variable {d : Dev} {p da : Nat} {q : FabPacket}

theorem fabReadIn_of_read {n : Nat} (hmsg : q.msg = .read da n) : d.fabReadIn p q = d.fabRequestIn p q (serveRead q da n) := by
  simp only [Dev.fabReadIn, hmsg]
  rfl

theorem fabWriteIn_of_write {bs : List Byte} (hmsg : q.msg = .write da bs) :
    d.fabWriteIn p q = d.fabRequestIn p q (serveWrite q da bs) := by
  simp only [Dev.fabWriteIn, hmsg]
  rfl

theorem serveWrite_of_plain {bs : List Byte} (hno : q.sink = false) : serveWrite q da bs d =
    ((d.runWrite (0x40 + q.src) (d.servedDa da) bs).1, [], (d.runWrite (0x40 + q.src) (d.servedDa da) bs).2) := by
  simp [serveWrite, hno]

theorem serveWrite_of_outside {bs : List Byte} (hto : q.sink = true) (hout : d.outsideSink (d.servedDa da) bs.length = true) :
    serveWrite q da bs d = (.deny, [], d.deny (0x40 + q.src) true (d.servedDa da)) := by
  simp [serveWrite, hto, hout]

end

section
variable {d d1 : Dev} {p : Nat} {q : FabPacket} {data : List Byte} (hmsg : q.msg = .response data)
include hmsg

theorem fabResponseIn_of_not_arrived (harrive : d.fabArrive p = (false, d1)) : d.fabResponseIn p q = d1 := by
  simp [Dev.fabResponseIn, hmsg, harrive]

variable (harrive : d.fabArrive p = (true, d1)) (hmine : d.fab.addr = some q.dst)
include harrive hmine

theorem fabResponseIn_of_request {r : FabReq} (hfind : d1.fab.reqs.find? (fun r => r.txid == q.txid) = some r) :
    d.fabResponseIn p q = (d1.modFab fun f => { f with reqs := f.reqs.erase r }).fabComplete r.use q.status data := by
  simp [Dev.fabResponseIn, hmsg, harrive, hmine, hfind]

theorem fabResponseIn_of_unknown (hfind : d1.fab.reqs.find? (fun r => r.txid == q.txid) = none) :
    d.fabResponseIn p q = (d1.bump R.FAB_CNT1 F.FAB_CNT1_LATE_RSP_CNT 1).fabErr 6 := by
  simp [Dev.fabResponseIn, hmsg, harrive, hmine, hfind]

end

/-! The ACCESS register (R611). -/

section
variable {d : Dev} {v : BitVec 100}

theorem accessGo_of_not_selected (hir : d.stw.ir ≠ .access) : d.accessGo v = d := if_pos (.inl hir)

section
variable (hir : d.stw.ir = .access) (hgo : bitOf v.toNat 99 = true) (hfree : d.stw.acc.busy = none)
include hir hgo hfree

theorem accessGo_of_bar {n : Nat} (halign : v.toNat % 2 ^ 64 % 4 = 0) (hbar : daDecode (v.toNat % 2 ^ 64) = .bar n) :
    d.accessGo v = (d.modAcc fun a =>
      { a with da := v.toNat % 2 ^ 64, status := 1, busy := some (bitOf v.toNat 98),
               data := if bitOf v.toNat 98 then v.extractLsb' 64 32 else a.data }).bump R.STW_TEST_STATUS ⟨0, 16⟩ 1 := by
  simp only [Dev.accessGo, hir, hgo, hfree, halign, hbar, ne_eq, not_true, Bool.not_true, Bool.false_eq_true, Option.isSome_none,
    or_self, if_false]

theorem accessGo_of_misaligned (halign : v.toNat % 2 ^ 64 % 4 ≠ 0) :
    d.accessGo v = d.modAcc fun a => { a with da := v.toNat % 2 ^ 64, status := 2 } := by
  simp only [Dev.accessGo, hir, hgo, hfree, halign, ne_eq, not_true, not_false_eq_true, Bool.not_true, Bool.false_eq_true,
    Option.isSome_none, or_self, if_false, if_true]

end

theorem accessDone_of_write (hbusy : d.stw.acc.busy = some true) (hserves : d.waitsForSkein d.stw.acc.da = false) :
    d.accessDone = (d.daWrite 2 d.stw.acc.da (leBytes 4 d.stw.acc.data.toNat)).2.modAcc fun x =>
      { x with busy := none,
               status := if (d.daWrite 2 d.stw.acc.da (leBytes 4 d.stw.acc.data.toNat)).1 = .ok then 0 else 2 } := by
  simp only [Dev.accessDone, hbusy, hserves, Bool.false_eq_true, if_false, if_true]

theorem accessDone_of_read {b : List Byte} {d1 : Dev} (hbusy : d.stw.acc.busy = some false)
    (hserves : d.waitsForSkein d.stw.acc.da = false) (hread : d.daRead 2 d.stw.acc.da 4 = (.ok, b, d1)) :
    d.accessDone = d1.modAcc fun x => { x with busy := none, status := 0, data := BitVec.ofNat 32 (leAt b 0 4) } := by
  simp only [Dev.accessDone, hbusy, hserves, hread, Bool.false_eq_true, if_false]

theorem accessDone_of_idle (hfree : d.stw.acc.busy = none) : d.accessDone = d := by
  simp only [Dev.accessDone, hfree]

end

/-- Settles O41: each clause is a branch of the function that its command applies to the device. -/
theorem peerAndTestAccesses : Obligations.PeerAndTestAccesses := by
  unfold Obligations.PeerAndTestAccesses
  refine ⟨?read, ?readEpoch, ?readOther, ?write, ?writeOutside, ?writeNotSink, ?response, ?responseLate, ?responseLost, ?go, ?goMisaligned,
    ?goNotSelected, ?doneWrite, ?doneRead, ?doneIdle⟩
  case read =>
    rintro d d1 p q da n _ hmsg harrive hmine hroot hno rfl hok
    refine (runs_fabReadRx d p q).to_eq ?_
    rw [fabReadIn_of_read hmsg, fabRequestIn_of_mine harrive hmine, fabServe_of_served hroot (.inl hno)]
    simp only [serveRead, hok, if_true]
    rfl
  case readEpoch =>
    intro d d1 p q da n hmsg harrive hmine hep
    refine (runs_fabReadRx d p q).to_eq ?_
    rw [fabReadIn_of_read hmsg, fabRequestIn_of_mine harrive hmine, fabServe_of_other_epoch hep]
  case readOther =>
    intro d d1 p q da n hmsg harrive hother
    refine (runs_fabReadRx d p q).to_eq ?_
    rw [fabReadIn_of_read hmsg, fabRequestIn_of_other harrive hother]
  case write =>
    rintro d d1 p q da bs _ hmsg harrive hmine hroot hno rfl
    refine (runs_fabWriteRx d p q).to_eq ?_
    rw [fabWriteIn_of_write hmsg, fabRequestIn_of_mine harrive hmine, fabServe_of_served hroot (.inl hno), serveWrite_of_plain hno,
      ite_self]
  case writeOutside =>
    intro d d1 p q da bs hmsg harrive hmine hroot hto hsink hep hout
    refine (runs_fabWriteRx d p q).to_eq ?_
    rw [fabWriteIn_of_write hmsg, fabRequestIn_of_mine harrive hmine, fabServe_of_served hroot (.inr ⟨hsink, hep⟩),
      serveWrite_of_outside hto hout, ite_self]
    rfl
  case writeNotSink =>
    intro d d1 p q da bs hmsg harrive hmine hroot hto hnot
    refine (runs_fabWriteRx d p q).to_eq ?_
    rw [fabWriteIn_of_write hmsg, fabRequestIn_of_mine harrive hmine, fabServe_of_not_sink hroot hto hnot]
  case response =>
    exact fun d d1 p q data r hmsg harrive hmine hfind =>
      (runs_fabResponseRx d p q).to_eq (fabResponseIn_of_request hmsg harrive hmine hfind)
  case responseLate =>
    exact fun d d1 p q data hmsg harrive hmine hfind =>
      (runs_fabResponseRx d p q).to_eq (fabResponseIn_of_unknown hmsg harrive hmine hfind)
  case responseLost =>
    exact fun d d1 p q data hmsg harrive => (runs_fabResponseRx d p q).to_eq (fabResponseIn_of_not_arrived hmsg harrive)
  case go =>
    exact fun d v n hir hgo hfree halign hbar => (runs_jtagAccessGo d v).to_eq (accessGo_of_bar hir hgo hfree halign hbar)
  case goMisaligned =>
    exact fun d v hir hgo hfree halign => (runs_jtagAccessGo d v).to_eq (accessGo_of_misaligned hir hgo hfree halign)
  case goNotSelected => exact fun d v hir => (runs_jtagAccessGo d v).to_eq (accessGo_of_not_selected hir)
  case doneWrite =>
    rintro d _ hbusy hserves rfl
    exact (runs_jtagAccessDone d).to_eq (accessDone_of_write hbusy hserves)
  case doneRead =>
    exact fun d b d1 hbusy hserves hread => (runs_jtagAccessDone d).to_eq (accessDone_of_read hbusy hserves hread)
  case doneIdle => exact fun d hfree => (runs_jtagAccessDone d).to_eq (accessDone_of_idle hfree)

end Sys2Proof.Machine
end

section
/-! Scope: the NVM pipe (R600, R601), the fault log (R608) and the instructions of the test port (R609, R610): each command by its function
on the device, and that function by its branches. -/

namespace Sys2Proof.Machine

/-! The commands. -/

section
variable (d : Dev)

theorem runs_nvmRead : Runs .nvmRead d (d.nvmCmdWrite 0x80000001#32) := fun _ => rfl

theorem runs_nvmBegin : Runs .nvmBegin d (d.nvmCmdWrite 0x80000002#32) := fun _ => rfl

theorem runs_nvmProgram : Runs .nvmProgram d (d.nvmCmdWrite 0x80000003#32) := fun _ => rfl

theorem runs_nvmVerify : Runs .nvmVerify d (d.nvmCmdWrite 0x80000004#32) := fun _ => rfl

theorem runs_nvmCommit : Runs .nvmCommit d (d.nvmCmdWrite 0x80000005#32) := fun _ => rfl

theorem runs_nvmBoard : Runs .nvmBoard d (d.nvmCmdWrite 0x80000006#32) := fun _ => rfl

theorem runs_nvmAbort : Runs .nvmAbort d (d.nvmCmdWrite 0x80000007#32) := fun _ => rfl

theorem runs_nvmOpComplete (n : Nat) (f : Bool) : Runs (.nvmOpComplete n f) d (d.nvmComplete n f) := fun _ => rfl

theorem runs_logPageWrite (f : Bool) : Runs (.logPageWrite f) d (d.logPage f) := fun _ => rfl

theorem runs_logFlush : Runs .logFlush d d.logFlush := fun _ => rfl

theorem runs_jtagReset : Runs .jtagReset d (d.modStw fun x => { x with ir := .idcode }) := fun _ => rfl

theorem runs_idcode : Runs .idcode d (d.modStw fun x => { x with ir := .idcode }) := fun _ => rfl

theorem runs_bypass : Runs .bypass d (d.modStw fun x => { x with ir := .bypass }) := fun _ => rfl

theorem runs_access : Runs .access d (d.modStw fun x => { x with ir := .access }) := fun _ => rfl

theorem runs_samplePreload (pins : List Bool) :
    Runs (.samplePreload pins) d (d.modStw fun x => { x with ir := .sample, bsr := pins }) := fun _ => rfl

theorem runs_extest : Runs .extest d (d.jtagPins .extest) := fun _ => rfl

theorem runs_clamp : Runs .clamp d (d.jtagPins .clamp) := fun _ => rfl

theorem runs_highz : Runs .highz d (d.jtagPins .highz) := fun _ => rfl

end

/-! GO of the NVM pipe (R600, R601). -/

/-- The operation that the operand registers ask for. -/
def Dev.nvmOperands (op : Nat) (d : Dev) : NvmOp :=
  { op := op, addr := (d.rd R.STW_NVM_ADDR).toNat, len := (d.rd R.STW_NVM_LEN).toNat, da := (d.rd64 R.STW_NVM_DA).toNat,
    arg := (d.rd R.STW_NVM_ARG).toNat, abort := false }

/-- The device with an operation running; PROGRAM forgets what VERIFY found. -/
def Dev.nvmStart (op : Nat) (d : Dev) : Dev :=
  ((((d.modStw fun x => { x with op := some (d.nvmOperands op), verified := if op = 3 then none else x.verified }).sb R.STW_NVM_STATUS
    F.STW_NVM_STATUS_BUSY true).sb R.STW_NVM_STATUS F.STW_NVM_STATUS_DONE false).sf R.STW_NVM_STATUS F.STW_NVM_STATUS_OP op).wr
    R.STW_NVM_PROGRESS 0

/-- BEGIN opens a session on the target slot and puts its record. -/
def Dev.nvmOpen (d : Dev) : Dev :=
  ((d.modStw fun x => { x with session := some d.stw.targetSlot, verified := none }).wr R.STW_NVM_HWM 0).recordAppend 1 d.stw.targetSlot 0 0 0

section
variable {d : Dev} {v : Word} {op : Nat} (hgo : fld v F.STW_NVM_CMD_GO ≠ 0) (hop : fld v F.STW_NVM_CMD_OP = op)
include hgo hop

theorem nvmCmdWrite_of_idle (hidle : (d.plainWrite R.STW_NVM_CMD v).stw.op = none) (hlo : op ≠ 0) (hhi : op < 7) (hbegin : op ≠ 2) :
    d.nvmCmdWrite v = (d.plainWrite R.STW_NVM_CMD v).nvmStart op := by
  have hlegal : ¬ (op = 0 ∨ 7 ≤ op) := by omega
  simp only [Dev.nvmCmdWrite, hgo, hop, hidle, hlegal, hbegin, if_false]
  rfl

theorem nvmCmdWrite_of_begin (hidle : (d.plainWrite R.STW_NVM_CMD v).stw.op = none) (hbegin : op = 2) :
    d.nvmCmdWrite v = ((d.plainWrite R.STW_NVM_CMD v).nvmStart 2).nvmOpen := by
  subst hbegin
  simp only [Dev.nvmCmdWrite, hgo, hop, hidle, if_false]
  rfl

theorem nvmCmdWrite_of_busy {q : NvmOp} (hbusy : (d.plainWrite R.STW_NVM_CMD v).stw.op = some q) (hne : op ≠ 7) :
    d.nvmCmdWrite v = (d.plainWrite R.STW_NVM_CMD v).stwErr 2 := by
  simp only [Dev.nvmCmdWrite, hgo, hop, hbusy, if_false]

theorem nvmCmdWrite_of_abort {q : NvmOp} (hbusy : (d.plainWrite R.STW_NVM_CMD v).stw.op = some q) (habort : op = 7) :
    d.nvmCmdWrite v = (d.plainWrite R.STW_NVM_CMD v).modStw fun x => { x with op := some { q with abort := true } } := by
  subst habort
  simp only [Dev.nvmCmdWrite, hgo, hop, hbusy, if_false]

end

/-! The session that BEGIN opens stays while its record is put. -/

/-- The slot of the session and what VERIFY found of it. -/
def Dev.nvmSession (d : Dev) : Option Nat × Option (Nat × Nat × Nat) := (d.stw.session, d.stw.verified)

theorem nvmSession_emit (o : Out) (d : Dev) : (d.emit o).nvmSession = d.nvmSession := by
  rw [emit_frame]
  rfl

theorem nvmSession_nvmPut (a : Nat) (bs : List Byte) (d : Dev) : (d.nvmPut a bs).nvmSession = d.nvmSession := nvmSession_emit _ _

theorem nvmSession_nvmErase (a n : Nat) (d : Dev) : (d.nvmErase a n).nvmSession = d.nvmSession := nvmSession_emit _ _

theorem nvmSession_recordPut (kind slot version len crc : Nat) (d : Dev) :
    (d.recordPut kind slot version len crc).nvmSession = d.nvmSession := by
  unfold Dev.recordPut
  dsimp only
  split
  · rw [nvmSession_nvmPut, nvmSession_nvmErase]
  · rw [nvmSession_nvmPut]

theorem nvmSession_recordAppend (kind slot version len crc : Nat) (d : Dev) :
    (d.recordAppend kind slot version len crc).nvmSession = d.nvmSession := by
  unfold Dev.recordAppend
  dsimp only
  split
  · split
    · rw [nvmSession_recordPut, nvmSession_recordPut]
    · rw [nvmSession_recordPut]
  · rw [nvmSession_recordPut]

/-- The choice of slot reads the NVM alone. -/
theorem targetSlot_nvmStart (op : Nat) (d : Dev) : (d.nvmStart op).stw.targetSlot = d.stw.targetSlot := by
  have hrecord : (d.nvmStart op).stw.record = d.stw.record := rfl
  have hnvm : (d.nvmStart op).stw.nvm = d.stw.nvm := rfl
  simp only [StwSt.targetSlot, StwSt.newestCommit, StwSt.records, hrecord, hnvm]

theorem nvmSession_nvmOpen (d : Dev) : d.nvmOpen.nvmSession = (some d.stw.targetSlot, none) := nvmSession_recordAppend _ _ _ _ _ _

/-! The end of an operation (R601). -/

section
variable {d d1 : Dev} {n : Nat} {q : NvmOp}

theorem nvmComplete_of_none (f : Bool) (hnone : d.stw.op = none) : d.nvmComplete n f = d := by
  simp only [Dev.nvmComplete, hnone]

/-- An operation that is not VERIFY acts whole and reports 0; COMMIT closes the session. -/
theorem nvmComplete_of_done (hop : d.stw.op = some q) (hskein : q.usesSkein = false ∨ d.skeinServes = true) (hcheck : d.nvmCheck q = 0)
    (hverify : q.op ≠ 4) (hrun : q.abort = false) (hact : d.nvmAct q q.total = (0, q.total, d1)) :
    d.nvmComplete n false = ((((((d1.nvmLog q.op 0).modStw fun x =>
      { x with op := none, session := if q.op = 5 then none else x.session, verified := if q.op = 5 then none else x.verified }).wr
      R.STW_NVM_PROGRESS (BitVec.ofNat 32 q.total)).sb R.STW_NVM_STATUS F.STW_NVM_STATUS_BUSY false).sb R.STW_NVM_STATUS
        F.STW_NVM_STATUS_DONE true).sf R.STW_NVM_STATUS F.STW_NVM_STATUS_RESULT 0).intCause 8 := by
  rcases hskein with hnone | hserves
  · simp [Dev.nvmComplete, hop, hnone, hcheck, hverify, hrun, hact]
  · simp [Dev.nvmComplete, hop, hserves, hcheck, hverify, hrun, hact]

end

/-! The fault log (R608). -/

section
variable {d : Dev}

theorem logPage_of_may (f : Bool) (hmay : d.logMay = true) :
    d.logPage f = d.logWrite (min 8 (960 - d.stw.logTimes.countP (fun t => decide (d.now < t + 60000000000)))) f :=
  if_neg (by simp [hmay])

theorem logPage_of_not (f : Bool) (hnot : d.logMay = false) : d.logPage f = d := if_pos (by simp [hnot])

theorem logFlush_of_may (hmay : d.logMay = true) : d.logFlush = d.logWrite d.stw.log.length false := if_neg (by simp [hmay])

end

/-! The instructions that drive pins (R610). -/

section
variable {d : Dev} (i : JtagIr)

theorem jtagPins_of_test (htest : d.glb.mode = .test) (hen : d.b R.STW_TEST_CFG ⟨0, 1⟩ = true) :
    d.jtagPins i = d.modStw fun x => { x with ir := i } := if_pos ⟨htest, hen⟩

theorem jtagPins_of_not_test (hnot : d.glb.mode ≠ .test) : d.jtagPins i = (d.modStw fun x => { x with ir := .bypass }).stwErr 5 :=
  if_neg fun h => hnot h.1

end

/-- Settles O42: each clause is a branch of the function that its command applies to the device. -/
theorem stewardStoresAndTests : Obligations.StewardStoresAndTests := by
  unfold Obligations.StewardStoresAndTests
  refine ⟨?read, ?program, ?verify, ?commit, ?board, ?begin, ?abort, ?busy, ?noOp, ?done, ?page, ?noPage, ?flush, ?reset, ?idcode, ?bypass,
    ?access, ?sample, ?extest, ?extestNot, ?clamp, ?clampNot, ?highz, ?highzNot⟩
  case read =>
    rintro d _ _ rfl hidle rfl
    exact (runs_nvmRead d).to_eq (nvmCmdWrite_of_idle (by decide) rfl hidle (by decide) (by decide) (by decide))
  case program =>
    rintro d _ _ rfl hidle rfl
    exact (runs_nvmProgram d).to_eq (nvmCmdWrite_of_idle (by decide) rfl hidle (by decide) (by decide) (by decide))
  case verify =>
    rintro d _ _ rfl hidle rfl
    exact (runs_nvmVerify d).to_eq (nvmCmdWrite_of_idle (by decide) rfl hidle (by decide) (by decide) (by decide))
  case commit =>
    rintro d _ _ rfl hidle rfl
    exact (runs_nvmCommit d).to_eq (nvmCmdWrite_of_idle (by decide) rfl hidle (by decide) (by decide) (by decide))
  case board =>
    rintro d _ _ rfl hidle rfl
    exact (runs_nvmBoard d).to_eq (nvmCmdWrite_of_idle (by decide) rfl hidle (by decide) (by decide) (by decide))
  case begin =>
    rintro d _ rfl hidle
    have hbegin := nvmCmdWrite_of_begin (d := d) (v := 0x80000002#32) (by decide) rfl hidle rfl
    refine ⟨_, (runs_nvmBegin d).to_eq hbegin, Prod.mk_inj.mp ?_⟩
    exact (nvmSession_nvmOpen _).trans (by rw [targetSlot_nvmStart])
  case abort =>
    rintro d _ q rfl hbusy
    exact (runs_nvmAbort d).to_eq (nvmCmdWrite_of_abort (by decide) rfl hbusy (by decide))
  case busy =>
    rintro d _ q rfl hbusy
    exact (runs_nvmRead d).to_eq (nvmCmdWrite_of_busy (by decide) rfl hbusy (by decide))
  case noOp => exact fun d n f hnone => (runs_nvmOpComplete d n f).to_eq (nvmComplete_of_none f hnone)
  case done =>
    exact fun d d1 n q hop hskein hcheck hverify hrun hact =>
      (runs_nvmOpComplete d n false).to_eq (nvmComplete_of_done hop hskein hcheck hverify hrun hact)
  case page =>
    rintro d f _ hmay rfl
    exact (runs_logPageWrite d f).to_eq (logPage_of_may f hmay)
  case noPage => exact fun d f hnot => (runs_logPageWrite d f).to_eq (logPage_of_not f hnot)
  case flush => exact fun d hmay => (runs_logFlush d).to_eq (logFlush_of_may hmay)
  case reset => exact runs_jtagReset
  case idcode => exact runs_idcode
  case bypass => exact runs_bypass
  case access => exact runs_access
  case sample => exact runs_samplePreload
  case extest => exact fun d htest hen => (runs_extest d).to_eq (jtagPins_of_test .extest htest hen)
  case extestNot => exact fun d hnot => (runs_extest d).to_eq (jtagPins_of_not_test .extest hnot)
  case clamp => exact fun d htest hen => (runs_clamp d).to_eq (jtagPins_of_test .clamp htest hen)
  case clampNot => exact fun d hnot => (runs_clamp d).to_eq (jtagPins_of_not_test .clamp hnot)
  case highz => exact fun d htest hen => (runs_highz d).to_eq (jtagPins_of_test .highz htest hen)
  case highzNot => exact fun d hnot => (runs_highz d).to_eq (jtagPins_of_not_test .highz hnot)

end Sys2Proof.Machine
end

section
/-! Scope: the watch state (R616 to R619), housekeeping (R626), the thermal governor (R628, R629), the trip (R630) and the electrical limit
(R633): each command by its function on the device, and that function by its branches. -/

namespace Sys2Proof.Machine

/-! The commands. -/

section
variable (d : Dev)

theorem runs_pwrCtlWatch : Runs .pwrCtlWatch d (d.pwrCtlWrite 0x3C000001) := fun _ => rfl

theorem runs_pwrCtlExit : Runs .pwrCtlExit d (d.pwrCtlWrite 0x3C000002) := fun _ => rfl

theorem runs_pwrWake {d d1 : Dev} {a : Act} (h : d.activate Task.pwrWake = (some a, d1)) : Runs .pwrWake d d1.pwrWake := by
  intro q
  change execPwrWake _ = _
  simp only [execPwrWake, run_next, h]

theorem runs_watchEntryStart : Runs .watchEntryStart d d.watchEntry := fun _ => rfl

theorem runs_watchEntryDone : Runs .watchEntryDone d d.watchEntered := fun _ => rfl

theorem runs_watchExitStart : Runs .watchExitStart d d.watchExit := fun _ => rfl

theorem runs_watchExitDone : Runs .watchExitDone d d.watchExited := fun _ => rfl

theorem runs_hkConversion (raw : BitVec 12) : Runs (.hkConversion raw) d (d.hkSlot raw.toNat) := fun _ => rfl

theorem runs_hkUrgent (v : Word) : Runs (.hkUrgent v) d (d.hkUrgent v) := fun _ => rfl

theorem runs_hkResultRead : Runs .hkResultRead d d.hkResultRead := fun _ => rfl

theorem runs_governorEval : Runs .governorEval d d.governor := fun _ => rfl

theorem runs_throttleCapStep : Runs .throttleCapStep d d.throttle := fun _ => rfl

theorem runs_thermalTrip : Runs .thermalTrip d d.thermalTrip := fun _ => rfl

theorem runs_tripEnd : Runs .tripEnd d d.tripEnd := fun _ => rfl

theorem runs_ilimHalve : Runs .ilimHalve d d.ilimHalve := fun _ => rfl

theorem runs_ilimRelease : Runs .ilimRelease d (if d.pwr.halved then d.setHalved false else d) := fun _ => rfl

end

/-! Requests and exit causes of the watch state (R617, R618). -/

section
variable {d : Dev}

theorem pwrCtlWrite_watch : d.pwrCtlWrite 0x3C000001 = d.watchRequest := rfl

theorem pwrCtlWrite_exit : d.pwrCtlWrite 0x3C000002 = d.exitCause 1 := rfl

theorem watchRequest_of_active (hactive : d.pwr.state = .active) (hpins : d.pinsHeld = false) :
    d.watchRequest = d.modPwr fun x => { x with request := true } := if_neg (by simp [hactive, hpins])

theorem watchRequest_of_not_active (hnot : d.pwr.state ≠ .active) : d.watchRequest = d.pwrErr 6 := if_pos (.inl hnot)

theorem exitCause_of_none_held {c : Nat} (hwatch : d.pwr.state = .watch) (hnone : d.pwr.heldBy = none) :
    d.exitCause c = d.modPwr fun x => { x with heldBy := some c } := by
  simp [Dev.exitCause, Dev.modPwr, hwatch, hnone]

theorem exitCause_of_active {c : Nat} (hactive : d.pwr.state = .active) : d.exitCause c = d := if_neg (by simp [hactive])

theorem pwrWake_of_active (hactive : d.pwr.state = .active) (hhost : d.b R.PWR_WATCH_CFG F.PWR_WATCH_CFG_WAKE_HOST = false) :
    d.pwrWake = d.bump R.PWR_CNT1 F.PWR_CNT1_WAKE_CNT 1 := by
  simp [Dev.pwrWake, hactive, hhost]

theorem pwrWake_of_watch (hwatch : d.pwr.state = .entry ∨ d.pwr.state = .watch) :
    d.pwrWake = (d.bump R.PWR_CNT1 F.PWR_CNT1_WAKE_CNT 1).exitCause 0 := if_pos hwatch

end

/-! The steps of entry and exit (R616, R619). -/

section
variable {d : Dev}

/-- With every channel idle, entry aborts none. -/
theorem watchEntry_of_idle (hrequest : d.pwr.request = true) (hpipe : d.stw.op = none) (hactive : d.pwr.state = .active)
    (hidle : ∀ ch, ch < 16 → (d.jobWatch.asmWatch.hookCh ch).state = .idle) :
    d.watchEntry = d.jobWatch.asmWatch.cllWatchEnter.modPwr fun x =>
      { x with state := .entry, request := false, since := d.now, heldBy := none } := by
  have hnone : (List.range 16).foldl (fun (y : Dev) ch => if (y.hookCh ch).state = .idle then y else y.hookAbort ch) d.jobWatch.asmWatch =
      d.jobWatch.asmWatch := foldl_eq_self fun ch hch => if_pos (hidle ch (List.mem_range.mp hch))
  simp [Dev.watchEntry, hrequest, hpipe, hactive, hnone]

theorem watchEntry_of_no_request (hnone : d.pwr.request = false) : d.watchEntry = d := if_pos (.inl (by simp [hnone]))

theorem watchEntered_of_idle (hentry : d.pwr.state = .entry) (hidle : (List.range 16).any (fun ch => (d.hookCh ch).state != .idle) = false) :
    d.watchEntered = (d.steWatch.fabWatch.carWatch.modSkein fun x => { x with cached := [] }).gaugeWatchEnter.modPwr fun x =>
      { x with state := .watch } := if_neg (by simp [hentry, hidle])

/-- An exit that PWR_WAKE did not cause wakes no host. -/
theorem watchExit_of_cause {k : Nat} (hheld : d.pwr.heldBy = some k) (hwatch : d.pwr.state = .watch) (hcause : k ≠ 0) :
    d.watchExit = (d.modPwr fun x => { x with state := .exit, cause := k, heldBy := none, since := d.now }).gaugeWatchExit := by
  simp [Dev.watchExit, hheld, hwatch, hcause]

theorem watchExit_of_none_held (hnone : d.pwr.heldBy = none) : d.watchExit = d := by
  simp only [Dev.watchExit, hnone]

theorem watchExited_of_exit (hexit : d.pwr.state = .exit) :
    d.watchExited = (List.range 4).foldl (fun (y : Dev) p => y.portEnable p) (d.modPwr fun x => { x with state := .active }) :=
  if_neg (not_not.mpr hexit)

end

/-! Housekeeping (R626). -/

section
variable {d : Dev}

theorem hkSlot_of_urgent {raw ch : Nat} {rest : List Nat} (hurgent : d.pwr.urgent = ch :: rest) (htaken : d.pwr.urgents < 10) :
    d.hkSlot raw = (d.modPwr fun x => { x with urgent := rest, urgents := x.urgents + 1 }).hkConvert ch raw true := by
  simp only [Dev.hkSlot, hurgent, htaken, if_true]

theorem nextSlot_of_lt {s : Nat} (h : s < 82) : nextSlot s = s := if_pos h

theorem hkSlot_of_frame {raw : Nat} (hnone : d.pwr.urgent = []) (hslot : d.pwr.slot < 81) :
    d.hkSlot raw = (d.modPwr fun x => { x with slot := x.slot + 1 }).hkConvert d.pwr.slot raw false := by
  have hhere : nextSlot d.pwr.slot = d.pwr.slot := nextSlot_of_lt (by omega)
  have hnext : nextSlot (d.pwr.slot + 1) = d.pwr.slot + 1 := nextSlot_of_lt (by omega)
  simp [Dev.hkSlot, Dev.modPwr, hnone, hhere, hnext]

section
variable {v : Word} (hgo : fld v F.PWR_HK_URGENT_GO = 1)
include hgo

theorem hkUrgent_of_room (hroom : d.pwr.urgent.length < 18 - d.pwr.urgents) :
    d.hkUrgent v = d.modPwr fun x => { x with urgent := x.urgent ++ [fld v F.PWR_HK_URGENT_CHANNEL] } := by
  simp [Dev.hkUrgent, hgo, hroom]

theorem hkUrgent_of_full (hfull : 18 - d.pwr.urgents ≤ d.pwr.urgent.length) : d.hkUrgent v = d.pwrErr 5 := by
  simp [Dev.hkUrgent, hgo, hfull]

end

end

/-! The governor and THROTTLE (R628, R629). -/

section
variable {d : Dev}

theorem setStep_same : d.setStep d.pwr.step = d := if_pos rfl

section
variable (htrip : d.pwr.trip = false)
include htrip

theorem governor_of_calm (hstep : d.pwr.step = 0) : d.governor = d.enterStep (d.stepOf d.tj) := by
  simp [Dev.governor, htrip, hstep]

theorem governor_of_hot (hstep : d.pwr.step = 3) (hhot : 1872 ≤ d.tj) : d.governor = d.enterStep 3 := by
  simp [Dev.governor, htrip, hstep, not_lt.mpr hhot]

end

theorem stepOf_of_hot {t : Int} (h : 1920 ≤ t) : d.stepOf t = 3 := if_pos h

theorem stepOf_of_warm {t : Int} (hstart : d.tStart ≤ t) (hbelow : t < 1760) : d.stepOf t = 1 := by
  have hcold : ¬ 1920 ≤ t := by omega
  simp [Dev.stepOf, hcold, not_le.mpr hbelow, hstart]

theorem enterStep_same (n : Nat) (hsame : d.pwr.step = n) : d.enterStep n = d := by
  subst hsame
  simp [Dev.enterStep, setStep_same]

theorem enterStep_one_of_calm (hstep : d.pwr.step = 0) : d.enterStep 1 = (d.setCap (d.pwr.cap - 125)).setStep 1 := by
  simp [Dev.enterStep, hstep]

theorem enterStep_three_of_calm (hstep : d.pwr.step = 0) : d.enterStep 3 = (d.setCap 1500).setStep 3 := by
  simp [Dev.enterStep, hstep]

theorem throttle_of_hot (hstep : d.pwr.step = 1) (hhot : d.tStart ≤ d.tj)
    (hdue : d.pwr.capAt + max 1 (d.f R.PWR_THERM_CFG F.PWR_THERM_CFG_DOWN_MS) * 1000000 ≤ d.now) (hcap : 1500 < d.pwr.cap) :
    d.throttle = d.setCap (d.pwr.cap - 125) :=
  (if_neg (not_not.mpr hstep)).trans ((if_pos hhot).trans (if_pos ⟨hdue, hcap⟩))

theorem throttle_of_other_step (hstep : d.pwr.step ≠ 1) : d.throttle = d := if_pos hstep

end

/-! The trip and the electrical limit (R630, R633). -/

/-- The device with the trip in force and reported, before it is published. -/
def Dev.tripStart (d : Dev) : Dev :=
  (((d.steTrip.carTrip.modPwr fun x => { x with trip := true, coolAt := none }).setHalved false).bump R.PWR_CNT0 F.PWR_CNT0_TRIP_CNT 1).pwrErr 0

section
variable {d : Dev}

theorem thermalTrip_of_active (htrip : d.pwr.trip = false) (hactive : d.pwr.state = .active) :
    d.thermalTrip =
      (((d.tripStart.publish Src.pwrTrip 0).logEvent 6 2 (BitVec.ofInt 64 d.tj)).emit (.thermTrip true)).setStep 4 := by
  simp [Dev.thermalTrip, Dev.tripStart, htrip, hactive]

theorem thermalTrip_of_tripped (htrip : d.pwr.trip = true) : d.thermalTrip = d := if_pos htrip

theorem tripEnd_of_cool {t : Nat} (hcool : d.pwr.coolAt = some t) (htrip : d.pwr.trip = true) (hpast : t + 10000000 ≤ d.now) :
    d.tripEnd = (((d.modPwr fun x => { x with trip := false }).emit (.thermTrip false)).setCap
      (if d.stepOf d.tj = 0 then 3000 else 1500)).setStep (d.stepOf d.tj) := by
  simp [Dev.tripEnd, hcool, htrip, hpast]

theorem tripEnd_of_hot (hhot : d.pwr.coolAt = none) : d.tripEnd = d := by
  simp only [Dev.tripEnd, hhot]

theorem ilimHalve_of_enabled (hen : d.b R.PWR_ILIM_CFG F.PWR_ILIM_CFG_EN = true) (hfull : d.pwr.halved = false) (htrip : d.pwr.trip = false) :
    d.ilimHalve = ((d.setHalved true).bump R.PWR_CNT0 F.PWR_CNT0_ILIM_CNT 1).pwrErr 1 := if_neg (by simp [hen, hfull, htrip])

theorem ilimHalve_of_halved (hhalved : d.pwr.halved = true) : d.ilimHalve = d := if_pos (.inr (.inl hhalved))

end

/-- Settles O43: each clause is a branch of the function that its command applies to the device. -/
theorem powerWatchAndGovernor : Obligations.PowerWatchAndGovernor := by
  unfold Obligations.PowerWatchAndGovernor
  refine ⟨?watch, ?watchErr, ?exit, ?exitActive, ?wake, ?wakeWatch, ?entry, ?entryNone, ?entered, ?leave, ?leaveNone, ?left, ?urgent, ?frame,
    ?request, ?requestFull, ?result, ?hot, ?warm, ?stays, ?lower, ?lowerNot, ?trip, ?tripAgain, ?tripEnd, ?tripHot, ?halve, ?halveAgain,
    ?release, ?releaseNot⟩
  case watch =>
    exact fun d hactive hpins => (runs_pwrCtlWatch d).to_eq (pwrCtlWrite_watch.trans (watchRequest_of_active hactive hpins))
  case watchErr => exact fun d hnot => (runs_pwrCtlWatch d).to_eq (pwrCtlWrite_watch.trans (watchRequest_of_not_active hnot))
  case exit => exact fun d hwatch hnone => (runs_pwrCtlExit d).to_eq (pwrCtlWrite_exit.trans (exitCause_of_none_held hwatch hnone))
  case exitActive => exact fun d hactive => (runs_pwrCtlExit d).to_eq (pwrCtlWrite_exit.trans (exitCause_of_active hactive))
  case wake => exact fun d d1 a h hactive hhost => (runs_pwrWake h).to_eq (pwrWake_of_active hactive hhost)
  case wakeWatch => exact fun d d1 a h hwatch => (runs_pwrWake h).to_eq (pwrWake_of_watch hwatch)
  case entry =>
    rintro d _ rfl hrequest hpipe hactive hidle
    exact (runs_watchEntryStart d).to_eq (watchEntry_of_idle hrequest hpipe hactive hidle)
  case entryNone => exact fun d hnone => (runs_watchEntryStart d).to_eq (watchEntry_of_no_request hnone)
  case entered => exact fun d hentry hidle => (runs_watchEntryDone d).to_eq (watchEntered_of_idle hentry hidle)
  case leave => exact fun d k hheld hwatch hcause => (runs_watchExitStart d).to_eq (watchExit_of_cause hheld hwatch hcause)
  case leaveNone => exact fun d hnone => (runs_watchExitStart d).to_eq (watchExit_of_none_held hnone)
  case left => exact fun d hexit => (runs_watchExitDone d).to_eq (watchExited_of_exit hexit)
  case urgent => exact fun d raw ch rest hurgent htaken => (runs_hkConversion d raw).to_eq (hkSlot_of_urgent hurgent htaken)
  case frame => exact fun d raw hnone hslot => (runs_hkConversion d raw).to_eq (hkSlot_of_frame hnone hslot)
  case request => exact fun d v hgo hroom => (runs_hkUrgent d v).to_eq (hkUrgent_of_room hgo hroom)
  case requestFull => exact fun d v hgo hfull => (runs_hkUrgent d v).to_eq (hkUrgent_of_full hgo hfull)
  case result => exact runs_hkResultRead
  case hot =>
    intro d htrip hhot hstep
    refine (runs_governorEval d).to_eq ?_
    rw [governor_of_calm htrip hstep, stepOf_of_hot hhot, enterStep_three_of_calm hstep]
  case warm =>
    intro d htrip hstart hbelow hstep
    refine (runs_governorEval d).to_eq ?_
    rw [governor_of_calm htrip hstep, stepOf_of_warm hstart hbelow, enterStep_one_of_calm hstep]
  case stays =>
    exact fun d htrip hstep hhot => (runs_governorEval d).to_eq ((governor_of_hot htrip hstep hhot).trans (enterStep_same 3 hstep))
  case lower => exact fun d hstep hhot hdue hcap => (runs_throttleCapStep d).to_eq (throttle_of_hot hstep hhot hdue hcap)
  case lowerNot => exact fun d hstep => (runs_throttleCapStep d).to_eq (throttle_of_other_step hstep)
  case trip =>
    rintro d _ htrip hactive rfl
    exact (runs_thermalTrip d).to_eq (thermalTrip_of_active htrip hactive)
  case tripAgain => exact fun d htrip => (runs_thermalTrip d).to_eq (thermalTrip_of_tripped htrip)
  case tripEnd => exact fun d t hcool htrip hpast => (runs_tripEnd d).to_eq (tripEnd_of_cool hcool htrip hpast)
  case tripHot => exact fun d hhot => (runs_tripEnd d).to_eq (tripEnd_of_hot hhot)
  case halve => exact fun d hen hfull htrip => (runs_ilimHalve d).to_eq (ilimHalve_of_enabled hen hfull htrip)
  case halveAgain => exact fun d hhalved => (runs_ilimHalve d).to_eq (ilimHalve_of_halved hhalved)
  case release => exact fun d hhalved => (runs_ilimRelease d).to_eq (if_pos hhalved)
  case releaseNot => exact fun d hfull => (runs_ilimRelease d).to_eq (if_neg (by simp [hfull]))

end Sys2Proof.Machine
end
